-- ==== Sys2Proof/Word.lean ====
section
/-! DEFINITION. Word.lean: the register word and the byte (R5: every register is 32 bits wide). -/

namespace Sys2Proof

/-- A register word (R5). -/
abbrev Word := BitVec 32
/-- One byte of a memory or a buffer. -/
abbrev Byte := BitVec 8
/-- A 64-bit quantity: a position word, a pair of registers (R9, R35). -/
abbrev Dword := BitVec 64

end Sys2Proof
end

