-- ==== Sys2Proof/Config.lean ====
section
/-! DEFINITION. Config.lean: what an implementation fixes and the values the spec leaves open. Nothing here has a body: no
proof can see a value. -/

namespace Sys2Proof.Config

/-- The n-th free value: a value the spec leaves open, taken by the counter the state keeps. -/
opaque freeValue : Nat → BitVec 64

/-- SHA-384, a standard function the spec names and does not define (R93, R99). -/
opaque sha384 : List Byte → BitVec 384

/-- ECDSA P-384 verification: public key X and Y, digest, r and s (R93, R364). -/
opaque ecdsaVerify : BitVec 384 → BitVec 384 → BitVec 384 → BitVec 384 → BitVec 384 → Bool

/-- ECDSA P-384 signature by a private key over a digest: r, then s. -/
opaque ecdsaSign : BitVec 384 → BitVec 384 → BitVec 768

/-- The public key of a private key: X, then Y. -/
opaque ecdsaPublic : BitVec 384 → BitVec 768

/-- HMAC-SHA-384 of a message under a key. -/
opaque hmac : List Byte → List Byte → BitVec 384

/-- The AES-256-GCM tag over additional data and a text: key, nonce, additional data, plaintext. -/
opaque gcmTag : BitVec 256 → BitVec 96 → List Byte → List Byte → BitVec 128

/-- One byte of the AES-256-GCM key stream: key, nonce, index. -/
opaque gcmStream : BitVec 256 → BitVec 96 → Nat → Byte

/-- ECDSA P-384 signature with the per-signature value given: private key, that value, digest; r, then s. -/
opaque ecdsaSignWith : BitVec 384 → BitVec 384 → BitVec 384 → BitVec 768

/-- ECDH P-384: private key and the other side's public key (X, then Y); the X of the shared point. -/
opaque ecdh : BitVec 384 → BitVec 768 → BitVec 384

/-- The Odnel root certificate in the mask ROM (R365). -/
opaque rootCert : List Byte

/-- The Odnel L9 device CA certificate in the mask ROM (R365). -/
opaque caCert : List Byte

/-- The to-be-signed part of the device certificate, from the ROM's template: serial number and subject key (R365). -/
opaque certBody : Nat → BitVec 768 → List Byte

/-- A certificate made of a to-be-signed part and a signature (R365). -/
opaque certOf : List Byte → List Byte → List Byte

/-- SHA-384 of the mask ROM image (R368). -/
opaque romDigest : BitVec 384

/-- The error of a square root in units of the root's own scale (R191 gives only its bound): the model clamps it to the bound. -/
opaque sqrtError : Nat → Int

/-- The value a three-channel position adds to a calibration table (R220 names one value per pixel): from R, G and B. -/
opaque calValue : Nat → Nat → Nat → Nat

end Sys2Proof.Config
end

