-- ==== Sys2Proof/Machine/Bits.lean ====
section
/-! DEFINITION. Machine/Bits.lean: bit fields, sign extension, byte order (R3, R4) and the sparse map in canonical form
that holds registers, memories and numbered units. -/

namespace Sys2Proof.Machine

/-- Bits [hi:lo] of a register word as a number (R3). -/
def fieldOf (w : Word) (hi lo : Nat) : Nat := (w.toNat >>> lo) % 2 ^ (hi + 1 - lo)

/-- The word with bits [hi:lo] replaced by the low bits of `v` (R3). -/
def setField (w : Word) (hi lo v : Nat) : Word :=
  let m : Nat := (2 ^ (hi + 1 - lo) - 1) <<< lo
  (w &&& ~~~ (BitVec.ofNat 32 m)) ||| (BitVec.ofNat 32 ((v % 2 ^ (hi + 1 - lo)) <<< lo))

/-- Bit `b` of a number. -/
def bitOf (v b : Nat) : Bool := v.testBit b

/-- The signed reading of the low `w` bits of `v` (R4). -/
def signed (w v : Nat) : Int :=
  let m := v % 2 ^ w
  if m < 2 ^ (w - 1) then (m : Int) else (m : Int) - (2 ^ w : Nat)

/-- The low `w` bits of an integer, as a number (R4, wrap-around). -/
def wrapN (w : Nat) (x : Int) : Nat := (x % ((2 ^ w : Nat) : Int)).toNat

/-- The signed value modulo 2^w (R4). -/
def wrapI (w : Nat) (x : Int) : Int := signed w (wrapN w x)

/-- Clamp an integer between two limits. -/
def clampI (lo hi x : Int) : Int := if x < lo then lo else if x > hi then hi else x

/-- Division rounded towards minus infinity. -/
def floorDiv (a b : Int) : Int := Int.fdiv a b

/-- Division rounded to nearest, halves away from zero upward (add half, then floor). -/
def roundDiv (a : Int) (b : Nat) : Int := Int.fdiv (2 * a + b) (2 * b)

/-- Ceiling division of numbers. -/
def ceilDiv (a b : Nat) : Nat := if b = 0 then 0 else (a + b - 1) / b

/-- A count that stops at its greatest value. -/
def satAdd (cap a b : Nat) : Nat := min cap (a + b)

/-- `n` bytes of a number, lowest first (R3, little-endian). -/
def bytesLE : Nat → Nat → List Byte
  | 0, _ => []
  | n + 1, v => BitVec.ofNat 8 v :: bytesLE n (v / 256)

/-- `n` bytes of a number, highest first (fields of external standards, R3). -/
def bytesBE (n v : Nat) : List Byte := (bytesLE n v).reverse

/-- The number whose bytes stand lowest first. -/
def ofLE : List Byte → Nat
  | [] => 0
  | b :: r => b.toNat + 256 * ofLE r

/-- The number whose bytes stand highest first. -/
def ofBE (l : List Byte) : Nat := ofLE l.reverse

/-- `n` bytes of a list from an offset; bytes past its end are zero. -/
def sliceB (l : List Byte) (off n : Nat) : List Byte :=
  ((l.drop off).take n) ++ List.replicate (n - (l.drop off).length) 0

/-- A little-endian field of a byte list. -/
def leAt (l : List Byte) (off n : Nat) : Nat := ofLE (sliceB l off n)
/-- A big-endian field of a byte list. -/
def beAt (l : List Byte) (off n : Nat) : Nat := ofBE (sliceB l off n)

/-- Integer square root, by structural recursion on a bound of bits. -/
def isqrtGo : Nat → Nat → Nat → Nat
  | 0, _, r => r
  | k + 1, n, r => let c := r + 2 ^ k; isqrtGo k n (if c * c ≤ n then c else r)

/-- The greatest r with r * r ≤ n, for n below 2^128. -/
def isqrt (n : Nat) : Nat := isqrtGo 64 n 0

/-! ### The sparse map -/

/-- A map from numbers, holding only the keys whose value differs from the default, in rising order of keys. -/
abbrev SMap (α : Type) := List (Nat × α)

/-- The value at a key; an unlisted key has its default. -/
def mget {α : Type} (d : Nat → α) : SMap α → Nat → α
  | [], k => d k
  | (a, v) :: r, k => if a = k then v else mget d r k

/-- The map without a key. -/
def merase {α : Type} : SMap α → Nat → SMap α
  | [], _ => []
  | (a, v) :: r, k => if a = k then merase r k else (a, v) :: merase r k

/-- The map with a key placed in rising order. -/
def minsert {α : Type} : SMap α → Nat → α → SMap α
  | [], k, v => [(k, v)]
  | (a, w) :: r, k, v =>
    if k < a then (k, v) :: (a, w) :: r
    else if a = k then (k, v) :: r
    else (a, w) :: minsert r k v

/-- The map after writing a value: writing the default removes the entry, so equal maps are equal lists. -/
def mset {α : Type} [DecidableEq α] (d : Nat → α) (m : SMap α) (k : Nat) (v : α) : SMap α :=
  if v = d k then merase m k else minsert m k v

/-- The canonical form: keys strictly rising and no entry equal to its default. -/
def mwf {α : Type} [DecidableEq α] (d : Nat → α) : SMap α → Bool
  | [] => true
  | [(k, v)] => decide (v ≠ d k)
  | (k, v) :: (k', v') :: r => decide (v ≠ d k) && decide (k < k') && mwf d ((k', v') :: r)

/-- Drop every key of a range [lo, hi): those keys go back to their defaults. -/
def mdropRange {α : Type} (m : SMap α) (lo hi : Nat) : SMap α :=
  m.filter (fun e => !(decide (lo ≤ e.1) && decide (e.1 < hi)))

/-- Keep only the keys a predicate names. -/
def mkeep {α : Type} (p : Nat → Bool) (m : SMap α) : SMap α := m.filter (fun e => p e.1)

end Sys2Proof.Machine
end

