-- ==== Sys2Proof/Machine/Regs.lean ====
section
/-! DEFINITION. Machine/Regs.lean: the register map of the spec (R5, R6, R16, R17): every block, the address of every
register, its fields with type and reset value, and the checks a write passes (R12). Registers that only the host
reaches stand at 2^32 plus their BAR0 offset. -/

namespace Sys2Proof.Machine

/-- How a field answers reads and writes (R6). -/
inductive FTy where
  | rw | ro | rc | w1c | w1s | wo | sh | rwl
deriving DecidableEq, Repr

/-- The check a written value passes (R12). -/
inductive Chk where
  /-- any value -/
  | none
  /-- above the maximum: the maximum is stored, RANGE -/
  | max (m : Nat)
  /-- below the minimum: the minimum is stored, RANGE -/
  | min (m : Nat)
  /-- outside the limits: the nearer limit is stored, RANGE -/
  | lim (a b : Nat)
  /-- signed, outside plus or minus m: the nearer limit is stored, RANGE -/
  | slim (m : Nat)
  /-- codes from c on are not valid: stored, acting as the description says, RANGE -/
  | code (c : Nat)
  /-- codes from c on are stored as 0, RANGE -/
  | code0 (c : Nat)
  /-- codes from c on leave the field unchanged, RANGE -/
  | keep (c : Nat)
deriving DecidableEq, Repr

/-- One field of a register: bits [hi:lo], type, reset value, check. -/
structure FInfo where
  hi : Nat
  lo : Nat
  ty : FTy
  rst : Nat
  chk : Chk
deriving DecidableEq, Repr

/-- Whether a register is half of a 64-bit pair (R9): its high word stands four bytes above its low word. -/
inductive Half where
  | none | lo | hi
deriving DecidableEq, Repr

/-- One register, or a run of `cnt` alike registers `stride` bytes apart, at an offset of its group. -/
structure RInfo where
  off : Nat
  stride : Nat
  cnt : Nat
  half : Half
  fields : List FInfo
deriving DecidableEq, Repr

/-- A group of registers: `count` instances `stride` bytes apart, and where its range flag (R12) stands
(`rangeBase` zero: no range flag). -/
structure Group where
  base : Nat
  stride : Nat
  count : Nat
  rangeBase : Nat
  rangeStride : Nat
  rangeBit : Nat
  regs : List RInfo
deriving DecidableEq, Repr

/-- A field of a register of the map. -/
structure RF where
  addr : Nat
  hi : Nat
  lo : Nat
deriving DecidableEq, Repr


/-! ### Register addresses -/
namespace R

def DEV_RSTSTAT : Nat := 0x20000010
def AXS_CFG (a : Nat) : Nat := 0x20100000 + 0x100 * a
def AXS_FILT (a : Nat) : Nat := 0x20100004 + 0x100 * a
def AXS_POS_LO (a : Nat) : Nat := 0x20100008 + 0x100 * a
def AXS_POS_HI (a : Nat) : Nat := 0x2010000C + 0x100 * a
def AXS_SHORT (a : Nat) : Nat := 0x20100010 + 0x100 * a
def AXS_INTERVAL (a : Nat) : Nat := 0x20100014 + 0x100 * a
def AXS_ZPOS_LO (a : Nat) : Nat := 0x20100018 + 0x100 * a
def AXS_ZPOS_HI (a : Nat) : Nat := 0x2010001C + 0x100 * a
def AXS_SET_LO (a : Nat) : Nat := 0x20100020 + 0x100 * a
def AXS_SET_HI (a : Nat) : Nat := 0x20100024 + 0x100 * a
def AXS_CMD (a : Nat) : Nat := 0x20100028 + 0x100 * a
def AXS_STAT (a : Nat) : Nat := 0x2010002C + 0x100 * a
def AXS_ERRCNT (a : Nat) : Nat := 0x20100030 + 0x100 * a
def AXS_RATIO_M (a : Nat) : Nat := 0x20100034 + 0x100 * a
def AXS_RATIO_N (a : Nat) : Nat := 0x20100038 + 0x100 * a
def AXS_OFFSET_LO (a : Nat) : Nat := 0x2010003C + 0x100 * a
def AXS_OFFSET_HI (a : Nat) : Nat := 0x20100040 + 0x100 * a
def AXS_REMOTE (a : Nat) : Nat := 0x20100044 + 0x100 * a
def AXS_ZPERIOD (a : Nat) : Nat := 0x20100048 + 0x100 * a
def TIM_NS : Nat := 0x20110000
def TIM_SEC_LO : Nat := 0x20110004
def TIM_SEC_HI : Nat := 0x20110008
def TIM_SUBNS : Nat := 0x2011000C
def TIM_SHORT : Nat := 0x20110010
def TIM_RATE : Nat := 0x20110014
def TIM_ADJ_LO : Nat := 0x20110018
def TIM_ADJ_HI : Nat := 0x2011001C
def TIM_STEP_LO : Nat := 0x20110020
def TIM_STEP_HI : Nat := 0x20110024
def TIM_CMD : Nat := 0x20110028
def TIM_CFG : Nat := 0x2011002C
def TIM_STAT : Nat := 0x20110030
def TIM_LASTOFF_LO : Nat := 0x20110034
def TIM_LASTOFF_HI : Nat := 0x20110038
def TIM_HOLD_RATE : Nat := 0x2011003C
def TIM_PPS_NS : Nat := 0x20110040
def TIM_PPS_SEC : Nat := 0x20110044
def TIM_PPS_CFG : Nat := 0x20110048
def TIM_PPS_OUT_OFS : Nat := 0x2011004C
def MBX_SEND (m : Nat) : Nat := 0x100012000 + 0x4000 * m
def MBX_STAT (m : Nat) : Nat := 0x100012004 + 0x4000 * m
def MBX_CFG (m : Nat) : Nat := 0x100012008 + 0x4000 * m
def CCX_C_STAT (c : Nat) : Nat := 0x20D00000 + 0x40 * c
def CCX_C_PC (c : Nat) : Nat := 0x20D00004 + 0x40 * c
def CCX_C_ACTIVE_ID (c : Nat) : Nat := 0x20D00008 + 0x40 * c
def CCX_C_INACTIVE_ID (c : Nat) : Nat := 0x20D0000C + 0x40 * c
def CCX_STAT : Nat := 0x20D00100
def CCX_MBX_POST (m : Nat) : Nat := 0x20D10000 + 0x4 * m
def CCX_MBX_STAT (m : Nat) : Nat := 0x20D10010 + 0x4 * m
def TCX_T_STAT (t : Nat) : Nat := 0x20E00000 + 0x10 * t
def TCX_T_PC (t : Nat) : Nat := 0x20E00004 + 0x10 * t
def TCX_T_ACTIVE_ID (t : Nat) : Nat := 0x20E00008 + 0x10 * t
def TCX_T_INACTIVE_ID (t : Nat) : Nat := 0x20E0000C + 0x10 * t
def XSP_STAT : Nat := 0x20A10000
def XSP_ENTRIES : Nat := 0x20A10004
def XSP_BYTES : Nat := 0x20A10008
def XSP_SCK : Nat := 0x20A1000C
def SCH_STAT : Nat := 0x20120000
def SCH_LATE_CNT : Nat := 0x20120004
def SCH_RANGE_CNT : Nat := 0x20120008
def SCH_ARMED (k : Nat) : Nat := 0x20120010 + 0x4 * k
def SCH_CMD : Nat := 0x20120030
def SCH_IMG (n : Nat) (k : Nat) : Nat := 0x20121000 + 0x40 * n + 0x4 * k
def SCH_SLOT_STAT (n : Nat) : Nat := 0x20121020 + 0x40 * n
def SCH_REMAIN (n : Nat) : Nat := 0x20121024 + 0x40 * n
def SCH_NEXT_LO (n : Nat) : Nat := 0x20121028 + 0x40 * n
def SCH_NEXT_HI (n : Nat) : Nat := 0x2012102C + 0x40 * n
def SCH_REC_POS (n : Nat) : Nat := 0x20121030 + 0x40 * n
def SCH_REC_TIME (n : Nat) : Nat := 0x20121034 + 0x40 * n
def SCH_REC_SEQ (n : Nat) : Nat := 0x20121038 + 0x40 * n
def SCH_REC_FLAGS (n : Nat) : Nat := 0x2012103C + 0x40 * n
def EVR_STAT : Nat := 0x20130000
def EVR_LOOP_SRC : Nat := 0x20130004
def EVR_LOOP_CNT : Nat := 0x20130008
def EVR_GRP_EN : Nat := 0x2013000C
def EVR_GRP_ON : Nat := 0x20130010
def EVR_GRP_OFF : Nat := 0x20130014
def EVR_SEL (i : Nat) (k : Nat) : Nat := 0x20131000 + 0x20 * i + 0x4 * k
def EVR_IN_STAT (i : Nat) : Nat := 0x20131010 + 0x20 * i
def EVR_IN_CMD (i : Nat) : Nat := 0x20131014 + 0x20 * i
def LNK_LANE_CFG (n : Nat) : Nat := 0x20200000 + 0x4 * n
def LNK_LANE_STAT (n : Nat) : Nat := 0x20200080 + 0x4 * n
def LNK_STAT : Nat := 0x20200100
def ETH_CFG (m : Nat) : Nat := 0x20210000 + 0x400 * m
def ETH_MAC_LO (m : Nat) : Nat := 0x20210004 + 0x400 * m
def ETH_MAC_HI (m : Nat) : Nat := 0x20210008 + 0x400 * m
def ETH_IP (m : Nat) : Nat := 0x2021000C + 0x400 * m
def ETH_MASK (m : Nat) : Nat := 0x20210010 + 0x400 * m
def ETH_VLAN (m : Nat) : Nat := 0x20210014 + 0x400 * m
def ETH_MCAST (m : Nat) (k : Nat) : Nat := 0x20210018 + 0x400 * m + 0x4 * k
def ETH_STAT (m : Nat) : Nat := 0x20210028 + 0x400 * m
def ETH_DROP (m : Nat) : Nat := 0x2021002C + 0x400 * m
def ETH_RX_FRAMES_LO (m : Nat) : Nat := 0x20210030 + 0x400 * m
def ETH_RX_FRAMES_HI (m : Nat) : Nat := 0x20210034 + 0x400 * m
def ETH_FEC_CORR (m : Nat) : Nat := 0x20210038 + 0x400 * m
def ETH_FEC_UNCORR (m : Nat) : Nat := 0x2021003C + 0x400 * m
def ETH_PTP_CFG (m : Nat) : Nat := 0x20210040 + 0x400 * m
def ETH_PTP_RXLAT (m : Nat) : Nat := 0x20210044 + 0x400 * m
def ETH_PTP_TXLAT (m : Nat) : Nat := 0x20210048 + 0x400 * m
def ETH_MRQ_STAT (m : Nat) : Nat := 0x2021004C + 0x400 * m
def ETH_MRQ_INFO (m : Nat) : Nat := 0x20210050 + 0x400 * m
def ETH_MRQ_TS_NS (m : Nat) : Nat := 0x20210054 + 0x400 * m
def ETH_MRQ_TS_SEC (m : Nat) : Nat := 0x20210058 + 0x400 * m
def ETH_MRQ_TS_SUB (m : Nat) : Nat := 0x2021005C + 0x400 * m
def ETH_MRQ_POP (m : Nat) : Nat := 0x20210060 + 0x400 * m
def ETH_MTX_CMD (m : Nat) : Nat := 0x20210064 + 0x400 * m
def ETH_TXTS_NS (m : Nat) : Nat := 0x20210068 + 0x400 * m
def ETH_TXTS_SEC (m : Nat) : Nat := 0x2021006C + 0x400 * m
def ETH_TXTS_SUB (m : Nat) : Nat := 0x20210070 + 0x400 * m
def GVS_STAT : Nat := 0x20220000
def GVS_GAPQ_STAT : Nat := 0x20220004
def GVS_GAP_INFO : Nat := 0x20220008
def GVS_GAP_BLK_LO : Nat := 0x2022000C
def GVS_GAP_BLK_HI : Nat := 0x20220010
def GVS_GAP_FIRST : Nat := 0x20220014
def GVS_GAP_LAST : Nat := 0x20220018
def GVS_GAP_CMD : Nat := 0x2022001C
def GVS_RLY_CFG : Nat := 0x20220020
def GVS_RLY_CMD : Nat := 0x20220024
def GVS_RLY_GEN : Nat := 0x20220028
def GVS_RLY_STAT : Nat := 0x2022002C
def GVS_ACT_CFG (t : Nat) : Nat := 0x20220100 + 0x20 * t
def GVS_ACT_DST_IP (t : Nat) : Nat := 0x20220104 + 0x20 * t
def GVS_ACT_DEVKEY (t : Nat) : Nat := 0x20220108 + 0x20 * t
def GVS_ACT_GRPKEY (t : Nat) : Nat := 0x2022010C + 0x20 * t
def GVS_ACT_GRPMASK (t : Nat) : Nat := 0x20220110 + 0x20 * t
def GVS_ACT_TIME_LO (t : Nat) : Nat := 0x20220114 + 0x20 * t
def GVS_ACT_TIME_HI (t : Nat) : Nat := 0x20220118 + 0x20 * t
def GVS_ACT_SEND (t : Nat) : Nat := 0x2022011C + 0x20 * t
def GVS_S_CFG (s : Nat) : Nat := 0x20221000 + 0x80 * s
def GVS_S_CAM_IP (s : Nat) : Nat := 0x20221004 + 0x80 * s
def GVS_S_PORTS (s : Nat) : Nat := 0x20221008 + 0x80 * s
def GVS_S_FMT (s : Nat) : Nat := 0x2022100C + 0x80 * s
def GVS_S_SIZE (s : Nat) : Nat := 0x20221010 + 0x80 * s
def GVS_S_FILL (s : Nat) : Nat := 0x20221014 + 0x80 * s
def GVS_S_TMO (s : Nat) : Nat := 0x20221018 + 0x80 * s
def GVS_S_MATCH (s : Nat) : Nat := 0x2022101C + 0x80 * s
def GVS_S_RESEND (s : Nat) : Nat := 0x20221020 + 0x80 * s
def GVS_S_EXPO_ADDR (s : Nat) (k : Nat) : Nat := 0x20221024 + 0x80 * s + 0x4 * k
def GVS_S_CHUNK_ID (s : Nat) : Nat := 0x2022102C + 0x80 * s
def GVS_S_HB (s : Nat) : Nat := 0x20221030 + 0x80 * s
def GVS_S_STAT (s : Nat) : Nat := 0x20221034 + 0x80 * s
def GVS_S_FLAGS (s : Nat) : Nat := 0x20221038 + 0x80 * s
def GVS_S_BLOCKS_LO (s : Nat) : Nat := 0x2022103C + 0x80 * s
def GVS_S_BLOCKS_HI (s : Nat) : Nat := 0x20221040 + 0x80 * s
def GVS_S_CHAFF (s : Nat) : Nat := 0x20221044 + 0x80 * s
def GVS_S_PKT_ERR (s : Nat) : Nat := 0x20221048 + 0x80 * s
def GVS_S_RSND_CNT (s : Nat) : Nat := 0x2022104C + 0x80 * s
def GVS_S_MATCH_CNT (s : Nat) : Nat := 0x20221050 + 0x80 * s
def GVS_S_LASTBLK_LO (s : Nat) : Nat := 0x20221054 + 0x80 * s
def GVS_S_LASTBLK_HI (s : Nat) : Nat := 0x20221058 + 0x80 * s
def GVS_S_GEN (s : Nat) : Nat := 0x2022105C + 0x80 * s
def GVS_S_CMD (s : Nat) : Nat := 0x20221060 + 0x80 * s
def PAR_CFG (p : Nat) : Nat := 0x20240000 + 0x100 * p
def PAR_FMT (p : Nat) : Nat := 0x20240004 + 0x100 * p
def PAR_SIZE (p : Nat) : Nat := 0x20240008 + 0x100 * p
def PAR_FILL (p : Nat) : Nat := 0x2024000C + 0x100 * p
def PAR_TMO (p : Nat) : Nat := 0x20240010 + 0x100 * p
def PAR_MATCH (p : Nat) : Nat := 0x20240014 + 0x100 * p
def PAR_STAT (p : Nat) : Nat := 0x20240018 + 0x100 * p
def PAR_FLAGS (p : Nat) : Nat := 0x2024001C + 0x100 * p
def PAR_FRAMES_LO (p : Nat) : Nat := 0x20240020 + 0x100 * p
def PAR_FRAMES_HI (p : Nat) : Nat := 0x20240024 + 0x100 * p
def PAR_CHAFF (p : Nat) : Nat := 0x20240028 + 0x100 * p
def PAR_LINE_ERR (p : Nat) : Nat := 0x2024002C + 0x100 * p
def PAR_MATCH_CNT (p : Nat) : Nat := 0x20240030 + 0x100 * p
def PAR_PROTO_CNT (p : Nat) : Nat := 0x20240034 + 0x100 * p
def PAR_LAST_LINES (p : Nat) : Nat := 0x20240038 + 0x100 * p
def PAR_CMD (p : Nat) : Nat := 0x2024003C + 0x100 * p
def TRG_CFG (n : Nat) : Nat := 0x20250000 + 0x40 * n
def TRG_EXPO (n : Nat) : Nat := 0x20250004 + 0x40 * n
def TRG_GEN (n : Nat) : Nat := 0x20250008 + 0x40 * n
def TRG_MIN (n : Nat) : Nat := 0x2025000C + 0x40 * n
def TRG_STAT (n : Nat) : Nat := 0x20250010 + 0x40 * n
def TRG_SEQ (n : Nat) : Nat := 0x20250014 + 0x40 * n
def TRG_PULSES_LO (n : Nat) : Nat := 0x20250018 + 0x40 * n
def TRG_PULSES_HI (n : Nat) : Nat := 0x2025001C + 0x40 * n
def TRG_CUR_EXPO (n : Nat) : Nat := 0x20250020 + 0x40 * n
def TRG_CUR_GEN (n : Nat) : Nat := 0x20250024 + 0x40 * n
def TRG_LAST_EDGE (n : Nat) : Nat := 0x20250028 + 0x40 * n
def TRG_SUPPRESSED (n : Nat) : Nat := 0x2025002C + 0x40 * n
def TRG_CMD (n : Nat) : Nat := 0x20250030 + 0x40 * n
def TRG_GPIO_CFG (g : Nat) : Nat := 0x20251000 + 0x10 * g
def TRG_GPIO_DLY (g : Nat) : Nat := 0x20251004 + 0x10 * g
def TRG_GPIO_WID (g : Nat) : Nat := 0x20251008 + 0x10 * g
def TRG_GPIO_IN : Nat := 0x20251100
def TRG_GPIO_STAT : Nat := 0x20251104
def MIL_SEG : Nat := 0x20340000
def MIL_LOAD : Nat := 0x20340004
def MIL_STAT : Nat := 0x20340008
def MIL_CFG (s : Nat) : Nat := 0x20300000 + 0x1000 * s
def MIL_PPT (s : Nat) : Nat := 0x20300004 + 0x1000 * s
def MIL_ROW_GRAINS (s : Nat) : Nat := 0x20300008 + 0x1000 * s
def MIL_NM_BLACK (s : Nat) : Nat := 0x2030000C + 0x1000 * s
def MIL_NM_A (s : Nat) : Nat := 0x20300010 + 0x1000 * s
def MIL_NM_B (s : Nat) : Nat := 0x20300014 + 0x1000 * s
def MIL_NR (s : Nat) : Nat := 0x20300018 + 0x1000 * s
def MIL_BLACK (s : Nat) : Nat := 0x2030001C + 0x1000 * s
def MIL_BLK_TBL (s : Nat) : Nat := 0x20300020 + 0x1000 * s
def MIL_DPC_TBL (s : Nat) : Nat := 0x20300024 + 0x1000 * s
def MIL_DPC_CNT (s : Nat) : Nat := 0x20300028 + 0x1000 * s
def MIL_FF_TBL (s : Nat) : Nat := 0x2030002C + 0x1000 * s
def MIL_FF_CFG (s : Nat) : Nat := 0x20300030 + 0x1000 * s
def MIL_GAIN (s : Nat) : Nat := 0x20300034 + 0x1000 * s
def MIL_TDI_CFG (s : Nat) : Nat := 0x20300038 + 0x1000 * s
def MIL_TDI_PITCH (s : Nat) : Nat := 0x2030003C + 0x1000 * s
def MIL_TDI_TOL (s : Nat) : Nat := 0x20300040 + 0x1000 * s
def MIL_TDI_OFS (s : Nat) : Nat := 0x20300044 + 0x1000 * s
def MIL_CMX0 (s : Nat) : Nat := 0x20300048 + 0x1000 * s
def MIL_CMX1 (s : Nat) : Nat := 0x2030004C + 0x1000 * s
def MIL_CMX2 (s : Nat) : Nat := 0x20300050 + 0x1000 * s
def MIL_CMX3 (s : Nat) : Nat := 0x20300054 + 0x1000 * s
def MIL_CMX4 (s : Nat) : Nat := 0x20300058 + 0x1000 * s
def MIL_TONE_TBL (s : Nat) : Nat := 0x2030005C + 0x1000 * s
def MIL_TONE_CFG (s : Nat) : Nat := 0x20300060 + 0x1000 * s
def MIL_ST_CFG (s : Nat) : Nat := 0x20300064 + 0x1000 * s
def MIL_ST_BASE (s : Nat) : Nat := 0x20300068 + 0x1000 * s
def MIL_ST_WR (s : Nat) : Nat := 0x2030006C + 0x1000 * s
def MIL_ROI_A (s : Nat) (n : Nat) : Nat := 0x20300070 + 0x1000 * s + 0x8 * n
def MIL_ROI_B (s : Nat) (n : Nat) : Nat := 0x20300074 + 0x1000 * s + 0x8 * n
def MIL_HIST_BASE (s : Nat) : Nat := 0x20300090 + 0x1000 * s
def MIL_HIST_SIZE (s : Nat) : Nat := 0x20300094 + 0x1000 * s
def MIL_INQ (s : Nat) : Nat := 0x20300098 + 0x1000 * s
def MIL_CAL_CFG (s : Nat) : Nat := 0x2030009C + 0x1000 * s
def MIL_CAL_TBL (s : Nat) : Nat := 0x203000A0 + 0x1000 * s
def MIL_CAL_LEFT (s : Nat) : Nat := 0x203000A4 + 0x1000 * s
def MIL_S_STAT (s : Nat) : Nat := 0x203000A8 + 0x1000 * s
def MIL_S_FLAGS (s : Nat) : Nat := 0x203000AC + 0x1000 * s
def MIL_S_DROP (s : Nat) : Nat := 0x203000B0 + 0x1000 * s
def MIL_S_TDI_CNT (s : Nat) : Nat := 0x203000B4 + 0x1000 * s
def MIL_S_LINES_LO (s : Nat) : Nat := 0x203000B8 + 0x1000 * s
def MIL_S_LINES_HI (s : Nat) : Nat := 0x203000BC + 0x1000 * s
def MIL_CMD (s : Nat) : Nat := 0x203000C0 + 0x1000 * s
def COL_STAT : Nat := 0x20400000
def COL_CMD : Nat := 0x20400004
def COL_SQ_CFG (q : Nat) : Nat := 0x20401000 + 0x100 * q
def COL_SQ_ORIGIN_LO (q : Nat) : Nat := 0x20401004 + 0x100 * q
def COL_SQ_ORIGIN_HI (q : Nat) : Nat := 0x20401008 + 0x100 * q
def COL_SQ_PITCH (q : Nat) : Nat := 0x2040100C + 0x100 * q
def COL_SQ_LPITCH (q : Nat) : Nat := 0x20401010 + 0x100 * q
def COL_SQ_WIDTH (q : Nat) : Nat := 0x20401014 + 0x100 * q
def COL_SQ_U0 (q : Nat) : Nat := 0x20401018 + 0x100 * q
def COL_SQ_FILL (q : Nat) : Nat := 0x2040101C + 0x100 * q
def COL_SQ_BUF_BASE (q : Nat) : Nat := 0x20401020 + 0x100 * q
def COL_SQ_REC_BASE (q : Nat) : Nat := 0x20401024 + 0x100 * q
def COL_SQ_CLOSE_TMO (q : Nat) : Nat := 0x20401028 + 0x100 * q
def COL_SQ_XCH (q : Nat) : Nat := 0x2040102C + 0x100 * q
def COL_SQ_XID (q : Nat) : Nat := 0x20401030 + 0x100 * q
def COL_SQ_CONS (q : Nat) : Nat := 0x20401034 + 0x100 * q
def COL_SQ_STAT (q : Nat) : Nat := 0x20401038 + 0x100 * q
def COL_SQ_FLAGS (q : Nat) : Nat := 0x2040103C + 0x100 * q
def COL_SQ_LAST_LO (q : Nat) : Nat := 0x20401040 + 0x100 * q
def COL_SQ_LAST_HI (q : Nat) : Nat := 0x20401044 + 0x100 * q
def COL_SQ_LAST_IDX (q : Nat) : Nat := 0x20401048 + 0x100 * q
def COL_SQ_LOST_LO (q : Nat) : Nat := 0x2040104C + 0x100 * q
def COL_SQ_LOST_HI (q : Nat) : Nat := 0x20401050 + 0x100 * q
def COL_SQ_CNT (q : Nat) : Nat := 0x20401054 + 0x100 * q
def COL_SQ_STRIP_CNT (q : Nat) : Nat := 0x20401058 + 0x100 * q
def COL_SQ_REL (q : Nat) : Nat := 0x2040105C + 0x100 * q
def COL_SQ_CMD (q : Nat) : Nat := 0x20401060 + 0x100 * q
def COL_M_CFG (s : Nat) : Nat := 0x20402000 + 0x40 * s
def COL_M_MAP (s : Nat) : Nat := 0x20402004 + 0x40 * s
def COL_M_SHIFT (s : Nat) : Nat := 0x20402008 + 0x40 * s
def COL_M_CROP (s : Nat) : Nat := 0x2040200C + 0x40 * s
def COL_M_ROWS (s : Nat) : Nat := 0x20402010 + 0x40 * s
def COL_M_FEATHER (s : Nat) : Nat := 0x20402014 + 0x40 * s
def COL_M_STAT (s : Nat) : Nat := 0x20402018 + 0x40 * s
def COL_M_WMARK_LO (s : Nat) : Nat := 0x2040201C + 0x40 * s
def COL_M_WMARK_HI (s : Nat) : Nat := 0x20402020 + 0x40 * s
def COL_M_FLAGS (s : Nat) : Nat := 0x20402024 + 0x40 * s
def COL_M_CNT (s : Nat) : Nat := 0x20402028 + 0x40 * s
def COL_M_UFIRST (s : Nat) : Nat := 0x2040202C + 0x40 * s
def COL_M_ULAST (s : Nat) : Nat := 0x20402030 + 0x40 * s
def COL_M_VMIN (s : Nat) : Nat := 0x20402034 + 0x40 * s
def COL_M_VMAX (s : Nat) : Nat := 0x20402038 + 0x40 * s
def HED_STAT : Nat := 0x20500000
def HED_CMD : Nat := 0x20500004
def HED_PAL (n : Nat) : Nat := 0x20500040 + 0x4 * n
def HED_O_CFG (o : Nat) : Nat := 0x20501000 + 0x80 * o
def HED_O_WIN (o : Nat) : Nat := 0x20501004 + 0x80 * o
def HED_O_LEVEL (o : Nat) : Nat := 0x20501008 + 0x80 * o
def HED_O_MODE (o : Nat) : Nat := 0x2050100C + 0x80 * o
def HED_O_SIZE (o : Nat) : Nat := 0x20501010 + 0x80 * o
def HED_O_PERIOD (o : Nat) : Nat := 0x20501014 + 0x80 * o
def HED_O_YSTEP (o : Nat) : Nat := 0x20501018 + 0x80 * o
def HED_O_LINES (o : Nat) : Nat := 0x2050101C + 0x80 * o
def HED_O_WAIT (o : Nat) : Nat := 0x20501020 + 0x80 * o
def HED_O_OVL (o : Nat) : Nat := 0x20501024 + 0x80 * o
def HED_O_HINT (o : Nat) : Nat := 0x20501028 + 0x80 * o
def HED_O_STAGE (o : Nat) : Nat := 0x2050102C + 0x80 * o
def HED_O_STAGE_SIZE (o : Nat) : Nat := 0x20501030 + 0x80 * o
def HED_O_TX_CFG (o : Nat) : Nat := 0x20501034 + 0x80 * o
def HED_O_TX_IP (o : Nat) : Nat := 0x20501038 + 0x80 * o
def HED_O_TX_UDP (o : Nat) : Nat := 0x2050103C + 0x80 * o
def HED_O_TX_RATE (o : Nat) : Nat := 0x20501040 + 0x80 * o
def HED_O_STAT (o : Nat) : Nat := 0x20501044 + 0x80 * o
def HED_O_FLAGS (o : Nat) : Nat := 0x20501048 + 0x80 * o
def HED_O_UNITS_LO (o : Nat) : Nat := 0x2050104C + 0x80 * o
def HED_O_UNITS_HI (o : Nat) : Nat := 0x20501050 + 0x80 * o
def HED_O_DROP (o : Nat) : Nat := 0x20501054 + 0x80 * o
def THR_STAT : Nat := 0x20600000
def THR_FLQ : Nat := 0x20600004
def THR_REC_LO : Nat := 0x20600008
def THR_REC_HI : Nat := 0x2060000C
def THR_REC_BUSY : Nat := 0x20600010
def THR_TILES_LO : Nat := 0x20600014
def THR_TILES_HI : Nat := 0x20600018
def THR_TILE_DONE : Nat := 0x2060001C
def THR_CMD : Nat := 0x20600020
def THR_TQ_STAT (c : Nat) : Nat := 0x20600400 + 0x4 * c
def THR_SQ_CFG (q : Nat) : Nat := 0x20601000 + 0x80 * q
def THR_SQ_TILE (q : Nat) : Nat := 0x20601004 + 0x80 * q
def THR_SQ_COMP (q : Nat) : Nat := 0x20601008 + 0x80 * q
def THR_FL_LO (q : Nat) : Nat := 0x2060100C + 0x80 * q
def THR_FL_HI (q : Nat) : Nat := 0x20601010 + 0x80 * q
def THR_FL_MASK (q : Nat) : Nat := 0x20601014 + 0x80 * q
def THR_REF_BASE (q : Nat) : Nat := 0x20601018 + 0x80 * q
def THR_REF_W (q : Nat) : Nat := 0x2060101C + 0x80 * q
def THR_REF_ORIGIN_LO (q : Nat) : Nat := 0x20601020 + 0x80 * q
def THR_REF_ORIGIN_HI (q : Nat) : Nat := 0x20601024 + 0x80 * q
def THR_REF_REPEAT (q : Nat) : Nat := 0x20601028 + 0x80 * q
def THR_REF_U0 (q : Nat) : Nat := 0x2060102C + 0x80 * q
def THR_REF_DX (q : Nat) : Nat := 0x20601030 + 0x80 * q
def THR_REF_DY (q : Nat) : Nat := 0x20601034 + 0x80 * q
def THR_SQ_STAT (q : Nat) : Nat := 0x20601038 + 0x80 * q
def THR_SQ_FLAGS (q : Nat) : Nat := 0x2060103C + 0x80 * q
def THR_SQ_LAST_LO (q : Nat) : Nat := 0x20601040 + 0x80 * q
def THR_SQ_LAST_HI (q : Nat) : Nat := 0x20601044 + 0x80 * q
def MEM_STAT : Nat := 0x20710000
def MEM_CE_CNT : Nat := 0x20710004
def MEM_UE_CNT : Nat := 0x20710008
def MEM_UE_ADDR_LO : Nat := 0x2071000C
def MEM_UE_ADDR_HI : Nat := 0x20710010
def MEM_SCRUB : Nat := 0x20710014
def MEM_SCRUB_POS : Nat := 0x20710018
def MEM_CE_THRESH : Nat := 0x2071001C
def MEM_BW : Nat := 0x20710020
def MEM_PART_BASE (k : Nat) : Nat := 0x20710100 + 0x10 * k
def MEM_PART_SIZE (k : Nat) : Nat := 0x20710104 + 0x10 * k
def MEM_PART_USE (k : Nat) : Nat := 0x20710108 + 0x10 * k
def MEM_PART_STAT (k : Nat) : Nat := 0x2071010C + 0x10 * k
def MEM_PR_QUOTA (r : Nat) : Nat := 0x20711000 + 0x4 * r
def MEM_PR_USE (r : Nat) : Nat := 0x20711400 + 0x4 * r
def MEM_PR_FREE : Nat := 0x20711800
def GRN_CFG : Nat := 0x20700000
def GRN_STAT : Nat := 0x20700004
def GRN_SEG_CAP : Nat := 0x20700008
def GRN_SEG_USE : Nat := 0x2070000C
def GRN_PIN_MAX : Nat := 0x20700010
def GRN_PINNED : Nat := 0x20700014
def GRN_OLDEST_LO : Nat := 0x20700018
def GRN_OLDEST_HI : Nat := 0x2070001C
def GRN_X_CFG : Nat := 0x20700040
def GRN_X_MASK_LO : Nat := 0x20700044
def GRN_X_MASK_HI : Nat := 0x20700048
def GRN_X_FROM_LO : Nat := 0x2070004C
def GRN_X_FROM_HI : Nat := 0x20700050
def GRN_X_TO_LO : Nat := 0x20700054
def GRN_X_TO_HI : Nat := 0x20700058
def GRN_X_EPOCH : Nat := 0x2070005C
def GRN_X_TMO : Nat := 0x20700060
def GRN_X_GO : Nat := 0x20700064
def GRN_X_STAT : Nat := 0x20700068
def GRN_X_LAST : Nat := 0x2070006C
def GRN_S_CFG (s : Nat) : Nat := 0x20701000 + 0x40 * s
def GRN_S_QUOTA (s : Nat) : Nat := 0x20701004 + 0x40 * s
def GRN_S_USE (s : Nat) : Nat := 0x20701008 + 0x40 * s
def GRN_S_DROP (s : Nat) : Nat := 0x2070100C + 0x40 * s
def GRN_S_OLDEST_LO (s : Nat) : Nat := 0x20701010 + 0x40 * s
def GRN_S_OLDEST_HI (s : Nat) : Nat := 0x20701014 + 0x40 * s
def GRN_S_NEWEST_LO (s : Nat) : Nat := 0x20701018 + 0x40 * s
def GRN_S_NEWEST_HI (s : Nat) : Nat := 0x2070101C + 0x40 * s
def DLV_STAT : Nat := 0x20800000
def DLV_R_POLICY (r : Nat) : Nat := 0x20801000 + 0x20 * r
def DLV_R_QBPS (r : Nat) : Nat := 0x20801004 + 0x20 * r
def DLV_R_QSLOTS (r : Nat) : Nat := 0x20801008 + 0x20 * r
def DLV_R_STAT (r : Nat) : Nat := 0x2080100C + 0x20 * r
def DLV_R_HELDLOSS (r : Nat) : Nat := 0x20801010 + 0x20 * r
def DLV_R_DROP (r : Nat) : Nat := 0x20801014 + 0x20 * r
def DLV_R_ENV_LO (r : Nat) : Nat := 0x20801018 + 0x20 * r
def DLV_R_ENV_HI (r : Nat) : Nat := 0x2080101C + 0x20 * r
def DLV_H_BASE_LO (r : Nat) : Nat := 0x20804000 + 0x40 * r
def DLV_H_BASE_HI (r : Nat) : Nat := 0x20804004 + 0x40 * r
def DLV_H_CFG (r : Nat) : Nat := 0x20804008 + 0x40 * r
def DLV_H_CTRL (r : Nat) : Nat := 0x2080400C + 0x40 * r
def DLV_H_PROD (r : Nat) : Nat := 0x20804010 + 0x40 * r
def DLV_H_CONS (r : Nat) : Nat := 0x20804014 + 0x40 * r
def DLV_H_STAT (r : Nat) : Nat := 0x20804018 + 0x40 * r
def DLV_H_POLICY (r : Nat) : Nat := 0x2080401C + 0x40 * r
def DLV_CQ_BASE_LO (c : Nat) : Nat := 0x2080C000 + 0x20 * c
def DLV_CQ_BASE_HI (c : Nat) : Nat := 0x2080C004 + 0x20 * c
def DLV_CQ_CFG (c : Nat) : Nat := 0x2080C008 + 0x20 * c
def DLV_CQ_MOD (c : Nat) : Nat := 0x2080C00C + 0x20 * c
def DLV_CQ_TAIL (c : Nat) : Nat := 0x2080C010 + 0x20 * c
def DLV_CQ_HEAD (c : Nat) : Nat := 0x2080C014 + 0x20 * c
def DLV_CQ_STAT (c : Nat) : Nat := 0x2080C018 + 0x20 * c
def DLV_CQ_CTRL (c : Nat) : Nat := 0x2080C01C + 0x20 * c
def DMA_C_SRC_LO (n : Nat) : Nat := 0x20810000 + 0x100 * n
def DMA_C_SRC_HI (n : Nat) : Nat := 0x20810004 + 0x100 * n
def DMA_C_DST_LO (n : Nat) : Nat := 0x20810008 + 0x100 * n
def DMA_C_DST_HI (n : Nat) : Nat := 0x2081000C + 0x100 * n
def DMA_C_LEN (n : Nat) : Nat := 0x20810010 + 0x100 * n
def DMA_C_CTRL (n : Nat) : Nat := 0x20810014 + 0x100 * n
def DMA_C_CHAIN_LO (n : Nat) : Nat := 0x20810018 + 0x100 * n
def DMA_C_CHAIN_HI (n : Nat) : Nat := 0x2081001C + 0x100 * n
def DMA_C_USER (n : Nat) : Nat := 0x20810020 + 0x100 * n
def DMA_C_CUR_SRC_LO (n : Nat) : Nat := 0x20810040 + 0x100 * n
def DMA_C_CUR_SRC_HI (n : Nat) : Nat := 0x20810044 + 0x100 * n
def DMA_C_CUR_DST_LO (n : Nat) : Nat := 0x20810048 + 0x100 * n
def DMA_C_CUR_DST_HI (n : Nat) : Nat := 0x2081004C + 0x100 * n
def DMA_C_REMAIN (n : Nat) : Nat := 0x20810050 + 0x100 * n
def DMA_C_CUR_DESC_LO (n : Nat) : Nat := 0x20810054 + 0x100 * n
def DMA_C_CUR_DESC_HI (n : Nat) : Nat := 0x20810058 + 0x100 * n
def DMA_C_STAT (n : Nat) : Nat := 0x2081005C + 0x100 * n
def DMA_C_CMD (n : Nat) : Nat := 0x20810060 + 0x100 * n
def DMA_C_OWNER (n : Nat) : Nat := 0x20818000 + 0x4 * n
def DMA_CFG : Nat := 0x2081F000
def DMA_STAT : Nat := 0x2081F004
def HIF_ID : Nat := 0x100000000
def HIF_REV : Nat := 0x100000004
def HIF_MODE : Nat := 0x100000008
def HIF_STAT : Nat := 0x10000000C
def PCI_LINK : Nat := 0x20900000
def PCI_STAT : Nat := 0x20900004
def PCI_LATE_CPL : Nat := 0x20900008
def PCI_CTO_CNT : Nat := 0x2090000C
def PCI_TAGS : Nat := 0x20900010
def PCI_CONTAIN : Nat := 0x20900014
def PCI_CONTAIN_MASK : Nat := 0x20900018
def PCI_BAR2_WIN : Nat := 0x2090001C
def PCI_BAR2_DROP : Nat := 0x20900020
def PCI_SUBSYS : Nat := 0x20900024
def PCI_LTR : Nat := 0x20900028
def PCI_PME : Nat := 0x2090002C
def EVT_PEND (k : Nat) : Nat := 0x100300000 + 0x4 * k
def EVT_MASK (k : Nat) : Nat := 0x100300020 + 0x4 * k
def EVT_STAT : Nat := 0x100300040
def FUS_WORD (w : Nat) : Nat := 0x20010000 + 0x4 * w
def FUS_STAT : Nat := 0x20010200
def FUS_LC : Nat := 0x20010204
def SEC_STAT : Nat := 0x20020000
def SEC_AUTH : Nat := 0x20020004
def SEC_KEYED (k : Nat) : Nat := 0x20020008 + 0x4 * k
def SEC_SIGN_Q : Nat := 0x20020028
def SEC_CANCEL_LO : Nat := 0x2002002C
def SEC_CANCEL_HI : Nat := 0x20020030
def SEC_NOISE : Nat := 0x20020034
def EBK_NODE : Nat := 0x20230000
def EBK_STAT : Nat := 0x20230004
def EBK_AXS_UDP : Nat := 0x20230008
def EBK_X_SRC : Nat := 0x20230010
def EBK_X_DST : Nat := 0x20230014
def EBK_X_LEN : Nat := 0x20230018
def EBK_X_GO : Nat := 0x2023001C
def EBK_X_STAT : Nat := 0x20230020
def EBK_X_DONE : Nat := 0x20230024
def EBK_IN_BASE : Nat := 0x20230028
def EBK_IN_SIZE : Nat := 0x2023002C
def EBK_IN_DONE : Nat := 0x20230030
def EBK_DROP : Nat := 0x20230034
def EBK_ROUTE (n : Nat) : Nat := 0x20231000 + 0x4 * n
def EBK_REV (r : Nat) : Nat := 0x20231800 + 0x4 * r
def EBK_XS_CFG (t : Nat) : Nat := 0x20231A00 + 0x10 * t
def EBK_XS_DST (t : Nat) : Nat := 0x20231A04 + 0x10 * t
def EBK_CFG (k : Nat) : Nat := 0x20232000 + 0x100 * k
def EBK_RETRY (k : Nat) : Nat := 0x20232004 + 0x100 * k
def EBK_STATE (k : Nat) : Nat := 0x20232008 + 0x100 * k
def EBK_FLAGS (k : Nat) : Nat := 0x2023200C + 0x100 * k
def EBK_PARTNER (k : Nat) : Nat := 0x20232010 + 0x100 * k
def EBK_LAT (k : Nat) : Nat := 0x20232014 + 0x100 * k
def EBK_LAT_ADJ (k : Nat) : Nat := 0x20232018 + 0x100 * k
def EBK_FREQ (k : Nat) : Nat := 0x2023201C + 0x100 * k
def EBK_HDR_CNT (k : Nat) : Nat := 0x20232020 + 0x100 * k
def EBK_FRM_CNT (k : Nat) : Nat := 0x20232024 + 0x100 * k
def EBK_RUN_CNT (k : Nat) : Nat := 0x20232028 + 0x100 * k
def EBK_TB_OFS_LO (k : Nat) : Nat := 0x2023202C + 0x100 * k
def EBK_TB_OFS_HI (k : Nat) : Nat := 0x20232030 + 0x100 * k
def EBK_PRBS_ERR (k : Nat) : Nat := 0x20232034 + 0x100 * k
def EBK_PRBS_BITS_LO (k : Nat) : Nat := 0x20232038 + 0x100 * k
def EBK_PRBS_BITS_HI (k : Nat) : Nat := 0x2023203C + 0x100 * k
def EBK_CMD (k : Nat) : Nat := 0x20232040 + 0x100 * k
def EBK_BCN (k : Nat) (b : Nat) : Nat := 0x20232080 + 0x100 * k + 0x4 * b
def LNK_FREEZE_ON_LOW : Nat := 0x20200104
def LNK_TXEQ (n : Nat) : Nat := 0x20201000 + 0x40 * n
def LNK_ADAPT_CFG (n : Nat) : Nat := 0x20201004 + 0x40 * n
def LNK_RXEQ (n : Nat) : Nat := 0x20201008 + 0x40 * n
def LNK_MARGIN (n : Nat) : Nat := 0x2020100C + 0x40 * n
def LNK_L_FLAGS (n : Nat) : Nat := 0x20201010 + 0x40 * n
def LNK_L_CMD (n : Nat) : Nat := 0x20201014 + 0x40 * n
def DEV_MODE : Nat := 0x20000000
def DEV_MODE_CMD : Nat := 0x20000004
def DEV_CMD : Nat := 0x20000008
def DEV_RPL_BASE : Nat := 0x20000020
def DEV_RPL_LEN : Nat := 0x20000024
def DEV_RPL_MASK_LO : Nat := 0x20000028
def DEV_RPL_MASK_HI : Nat := 0x2000002C
def DEV_RPL_RATE : Nat := 0x20000030
def DEV_RPL_CMD : Nat := 0x20000034
def DEV_RPL_STAT : Nat := 0x20000038
def DEV_RPL_LINES : Nat := 0x2000003C
def DEV_BIST_CMD : Nat := 0x20000040
def DEV_BIST_STAT : Nat := 0x20000044
def PWR_CFG : Nat := 0x20B00000
def PWR_WAKE_EN : Nat := 0x20B00004
def PWR_WAKE_STAT : Nat := 0x20B00008
def PWR_WAKE_TMR : Nat := 0x20B0000C
def PWR_WAKE_TICKS : Nat := 0x20B00010
def PWR_STAT : Nat := 0x20B00014
def PWR_P_CORE : Nat := 0x20B00020
def PWR_P_HBM : Nat := 0x20B00024
def PWR_P_SDS : Nat := 0x20B00028
def PWR_P_IO : Nat := 0x20B0002C
def PWR_P_TOTAL : Nat := 0x20B00030
def PWR_TJ : Nat := 0x20B00034
def RAS_STAT : Nat := 0x20C00000
def RAS_CFG : Nat := 0x20C00004
def RAS_CMD : Nat := 0x20C00008
def RAS_SWD : Nat := 0x20C0000C
def RAS_SWD_KICK : Nat := 0x20C00010
def RAS_SWD_COUNT : Nat := 0x20C00014
def RAS_LOG_WR : Nat := 0x20C00018
def RAS_LOG_SEL : Nat := 0x20C0001C
def RAS_LOG_DATA (k : Nat) : Nat := 0x20C00020 + 0x4 * k
def RAS_WARM_CNT : Nat := 0x20C00040
def RAS_LAST_FATAL : Nat := 0x20C00044
def RAS_AVAIL_EXP_LO : Nat := 0x20C00048
def RAS_AVAIL_EXP_HI : Nat := 0x20C0004C
def RAS_AVAIL_OUT : Nat := 0x20C00050
def RAS_H_CFG : Nat := 0x100400100
def RAS_H_CMD : Nat := 0x100400104
def TWI_CFG : Nat := 0x20A00000
def TWI_STAT : Nat := 0x20A00004
def TWI_ERR : Nat := 0x20A00008
def TWI_XFER : Nat := 0x20A0000C

end R

/-! ### Fields -/
namespace F

def DEV_RSTSTAT_HOST_RESET_COUNT : RF := ⟨R.DEV_RSTSTAT, 23, 16⟩
def DEV_RSTSTAT_HELD_RINGS : RF := ⟨R.DEV_RSTSTAT, 15, 7⟩
def DEV_RSTSTAT_PR_HOLDING : RF := ⟨R.DEV_RSTSTAT, 4, 4⟩
def DEV_RSTSTAT_LAST_HOST_RESET : RF := ⟨R.DEV_RSTSTAT, 3, 1⟩
def DEV_RSTSTAT_HOST_IN_RESET : RF := ⟨R.DEV_RSTSTAT, 0, 0⟩
def AXS_CFG_ENABLE (a : Nat) : RF := ⟨R.AXS_CFG a, 31, 31⟩
def AXS_CFG_KIND (a : Nat) : RF := ⟨R.AXS_CFG a, 30, 28⟩
def AXS_CFG_SOURCE (a : Nat) : RF := ⟨R.AXS_CFG a, 27, 24⟩
def AXS_CFG_INVERT (a : Nat) : RF := ⟨R.AXS_CFG a, 23, 23⟩
def AXS_CFG_Z_MODE (a : Nat) : RF := ⟨R.AXS_CFG a, 22, 21⟩
def AXS_CFG_INTERP (a : Nat) : RF := ⟨R.AXS_CFG a, 20, 20⟩
def AXS_CFG_APPLY_CONT (a : Nat) : RF := ⟨R.AXS_CFG a, 19, 19⟩
def AXS_CFG_DECODE (a : Nat) : RF := ⟨R.AXS_CFG a, 18, 16⟩
def AXS_FILT_MIN_WIDTH (a : Nat) : RF := ⟨R.AXS_FILT a, 31, 24⟩
def AXS_FILT_MAX_RATE (a : Nat) : RF := ⟨R.AXS_FILT a, 23, 16⟩
def AXS_FILT_STALL_TMO (a : Nat) : RF := ⟨R.AXS_FILT a, 15, 0⟩
def AXS_POS_LO_POS (a : Nat) : RF := ⟨R.AXS_POS_LO a, 31, 0⟩
def AXS_POS_HI_POS (a : Nat) : RF := ⟨R.AXS_POS_HI a, 31, 0⟩
def AXS_SHORT_SHORT (a : Nat) : RF := ⟨R.AXS_SHORT a, 31, 0⟩
def AXS_INTERVAL_INTERVAL (a : Nat) : RF := ⟨R.AXS_INTERVAL a, 31, 0⟩
def AXS_ZPOS_LO_ZPOS (a : Nat) : RF := ⟨R.AXS_ZPOS_LO a, 31, 0⟩
def AXS_ZPOS_HI_ZPOS (a : Nat) : RF := ⟨R.AXS_ZPOS_HI a, 31, 0⟩
def AXS_SET_LO_SET (a : Nat) : RF := ⟨R.AXS_SET_LO a, 31, 0⟩
def AXS_SET_HI_SET (a : Nat) : RF := ⟨R.AXS_SET_HI a, 31, 0⟩
def AXS_CMD_APPLY (a : Nat) : RF := ⟨R.AXS_CMD a, 1, 1⟩
def AXS_CMD_PRESET (a : Nat) : RF := ⟨R.AXS_CMD a, 0, 0⟩
def AXS_STAT_DIR (a : Nat) : RF := ⟨R.AXS_STAT a, 31, 31⟩
def AXS_STAT_STALLED (a : Nat) : RF := ⟨R.AXS_STAT a, 30, 30⟩
def AXS_STAT_STALE (a : Nat) : RF := ⟨R.AXS_STAT a, 29, 29⟩
def AXS_STAT_INTERP_ON (a : Nat) : RF := ⟨R.AXS_STAT a, 28, 28⟩
def AXS_STAT_SLEEP_OVERSPEED (a : Nat) : RF := ⟨R.AXS_STAT a, 8, 8⟩
def AXS_STAT_Z_ERR (a : Nat) : RF := ⟨R.AXS_STAT a, 7, 7⟩
def AXS_STAT_Z_SEEN (a : Nat) : RF := ⟨R.AXS_STAT a, 6, 6⟩
def AXS_STAT_RANGE (a : Nat) : RF := ⟨R.AXS_STAT a, 5, 5⟩
def AXS_STAT_OVERSPEED (a : Nat) : RF := ⟨R.AXS_STAT a, 4, 4⟩
def AXS_STAT_QUAD_ERR (a : Nat) : RF := ⟨R.AXS_STAT a, 3, 3⟩
def AXS_STAT_PRESET_DONE (a : Nat) : RF := ⟨R.AXS_STAT a, 2, 2⟩
def AXS_ERRCNT_QUAD_ERRS (a : Nat) : RF := ⟨R.AXS_ERRCNT a, 31, 16⟩
def AXS_ERRCNT_GLITCHES (a : Nat) : RF := ⟨R.AXS_ERRCNT a, 15, 0⟩
def AXS_RATIO_M_M (a : Nat) : RF := ⟨R.AXS_RATIO_M a, 31, 0⟩
def AXS_RATIO_N_N (a : Nat) : RF := ⟨R.AXS_RATIO_N a, 31, 0⟩
def AXS_OFFSET_LO_OFFSET (a : Nat) : RF := ⟨R.AXS_OFFSET_LO a, 31, 0⟩
def AXS_OFFSET_HI_OFFSET (a : Nat) : RF := ⟨R.AXS_OFFSET_HI a, 31, 0⟩
def AXS_REMOTE_VIA (a : Nat) : RF := ⟨R.AXS_REMOTE a, 31, 30⟩
def AXS_REMOTE_PORT (a : Nat) : RF := ⟨R.AXS_REMOTE a, 29, 26⟩
def AXS_REMOTE_NODE (a : Nat) : RF := ⟨R.AXS_REMOTE a, 25, 17⟩
def AXS_REMOTE_AXIS (a : Nat) : RF := ⟨R.AXS_REMOTE a, 16, 13⟩
def AXS_REMOTE_STALE_TMO (a : Nat) : RF := ⟨R.AXS_REMOTE a, 12, 0⟩
def AXS_ZPERIOD_ZPERIOD (a : Nat) : RF := ⟨R.AXS_ZPERIOD a, 31, 0⟩
def TIM_NS_NS : RF := ⟨R.TIM_NS, 31, 0⟩
def TIM_SEC_LO_SEC : RF := ⟨R.TIM_SEC_LO, 31, 0⟩
def TIM_SEC_HI_SEC : RF := ⟨R.TIM_SEC_HI, 15, 0⟩
def TIM_SUBNS_SUBNS : RF := ⟨R.TIM_SUBNS, 15, 0⟩
def TIM_SHORT_SHORT : RF := ⟨R.TIM_SHORT, 31, 0⟩
def TIM_RATE_RATE : RF := ⟨R.TIM_RATE, 31, 0⟩
def TIM_ADJ_LO_ADJ : RF := ⟨R.TIM_ADJ_LO, 31, 0⟩
def TIM_ADJ_HI_ADJ : RF := ⟨R.TIM_ADJ_HI, 31, 0⟩
def TIM_STEP_LO_STEP : RF := ⟨R.TIM_STEP_LO, 31, 0⟩
def TIM_STEP_HI_STEP : RF := ⟨R.TIM_STEP_HI, 31, 0⟩
def TIM_CMD_RELEASE : RF := ⟨R.TIM_CMD, 2, 2⟩
def TIM_CMD_HOLD : RF := ⟨R.TIM_CMD, 1, 1⟩
def TIM_CMD_AUTH_STEP : RF := ⟨R.TIM_CMD, 0, 0⟩
def TIM_CFG_REF_TMO : RF := ⟨R.TIM_CFG, 31, 24⟩
def TIM_CFG_STEP_LIMIT : RF := ⟨R.TIM_CFG, 19, 0⟩
def TIM_STAT_EPOCH : RF := ⟨R.TIM_STAT, 31, 24⟩
def TIM_STAT_LOCKED : RF := ⟨R.TIM_STAT, 23, 23⟩
def TIM_STAT_HOLDOVER : RF := ⟨R.TIM_STAT, 22, 22⟩
def TIM_STAT_SLEWING : RF := ⟨R.TIM_STAT, 21, 21⟩
def TIM_STAT_NEG_SLEW : RF := ⟨R.TIM_STAT, 20, 20⟩
def TIM_STAT_PPS_LOST : RF := ⟨R.TIM_STAT, 8, 8⟩
def TIM_STAT_STEP_REFUSED : RF := ⟨R.TIM_STAT, 7, 7⟩
def TIM_STAT_REF_LOST : RF := ⟨R.TIM_STAT, 6, 6⟩
def TIM_STAT_ADJ_DROPPED : RF := ⟨R.TIM_STAT, 5, 5⟩
def TIM_STAT_RANGE : RF := ⟨R.TIM_STAT, 4, 4⟩
def TIM_STAT_PPS_OUTLIER : RF := ⟨R.TIM_STAT, 3, 3⟩
def TIM_STAT_STEPPED : RF := ⟨R.TIM_STAT, 1, 1⟩
def TIM_STAT_AUTH_DONE : RF := ⟨R.TIM_STAT, 0, 0⟩
def TIM_LASTOFF_LO_LASTOFF : RF := ⟨R.TIM_LASTOFF_LO, 31, 0⟩
def TIM_LASTOFF_HI_LASTOFF : RF := ⟨R.TIM_LASTOFF_HI, 31, 0⟩
def TIM_HOLD_RATE_HOLD_RATE : RF := ⟨R.TIM_HOLD_RATE, 31, 0⟩
def TIM_PPS_NS_NS : RF := ⟨R.TIM_PPS_NS, 31, 0⟩
def TIM_PPS_SEC_SEC : RF := ⟨R.TIM_PPS_SEC, 31, 0⟩
def TIM_PPS_CFG_IN_EN : RF := ⟨R.TIM_PPS_CFG, 31, 31⟩
def TIM_PPS_CFG_OUT_EN : RF := ⟨R.TIM_PPS_CFG, 30, 30⟩
def TIM_PPS_CFG_IN_POL : RF := ⟨R.TIM_PPS_CFG, 29, 29⟩
def TIM_PPS_CFG_OUT_POL : RF := ⟨R.TIM_PPS_CFG, 28, 28⟩
def TIM_PPS_CFG_IN_WINDOW : RF := ⟨R.TIM_PPS_CFG, 27, 18⟩
def TIM_PPS_CFG_OUT_WIDTH : RF := ⟨R.TIM_PPS_CFG, 17, 8⟩
def TIM_PPS_OUT_OFS_OFS : RF := ⟨R.TIM_PPS_OUT_OFS, 31, 0⟩
def MBX_SEND_ABORT (m : Nat) : RF := ⟨R.MBX_SEND m, 1, 1⟩
def MBX_SEND_SEND (m : Nat) : RF := ⟨R.MBX_SEND m, 0, 0⟩
def MBX_STAT_OVERRUN (m : Nat) : RF := ⟨R.MBX_STAT m, 2, 2⟩
def MBX_STAT_REPLY_READY (m : Nat) : RF := ⟨R.MBX_STAT m, 1, 1⟩
def MBX_STAT_BUSY (m : Nat) : RF := ⟨R.MBX_STAT m, 0, 0⟩
def MBX_CFG_IRQ_EN (m : Nat) : RF := ⟨R.MBX_CFG m, 31, 31⟩
def MBX_CFG_VECTOR (m : Nat) : RF := ⟨R.MBX_CFG m, 7, 0⟩
def CCX_C_STAT_RUN (c : Nat) : RF := ⟨R.CCX_C_STAT c, 31, 30⟩
def CCX_C_STAT_BANK (c : Nat) : RF := ⟨R.CCX_C_STAT c, 29, 29⟩
def CCX_C_STAT_INACTIVE (c : Nat) : RF := ⟨R.CCX_C_STAT c, 28, 27⟩
def CCX_C_STAT_FORCED (c : Nat) : RF := ⟨R.CCX_C_STAT c, 26, 26⟩
def CCX_C_STAT_LAST_CAUSE (c : Nat) : RF := ⟨R.CCX_C_STAT c, 7, 0⟩
def CCX_C_PC_PC (c : Nat) : RF := ⟨R.CCX_C_PC c, 31, 0⟩
def CCX_C_ACTIVE_ID_ID (c : Nat) : RF := ⟨R.CCX_C_ACTIVE_ID c, 31, 0⟩
def CCX_C_INACTIVE_ID_ID (c : Nat) : RF := ⟨R.CCX_C_INACTIVE_ID c, 31, 0⟩
def CCX_STAT_RANGE : RF := ⟨R.CCX_STAT, 0, 0⟩
def CCX_MBX_POST_POST (m : Nat) : RF := ⟨R.CCX_MBX_POST m, 0, 0⟩
def CCX_MBX_STAT_LETTER (m : Nat) : RF := ⟨R.CCX_MBX_STAT m, 31, 31⟩
def CCX_MBX_STAT_ABORT_REQ (m : Nat) : RF := ⟨R.CCX_MBX_STAT m, 0, 0⟩
def TCX_T_STAT_RUN (t : Nat) : RF := ⟨R.TCX_T_STAT t, 31, 30⟩
def TCX_T_STAT_BANK (t : Nat) : RF := ⟨R.TCX_T_STAT t, 29, 29⟩
def TCX_T_STAT_INACTIVE (t : Nat) : RF := ⟨R.TCX_T_STAT t, 28, 27⟩
def TCX_T_STAT_FORCED (t : Nat) : RF := ⟨R.TCX_T_STAT t, 26, 26⟩
def TCX_T_STAT_LAST_CAUSE (t : Nat) : RF := ⟨R.TCX_T_STAT t, 7, 0⟩
def TCX_T_PC_PC (t : Nat) : RF := ⟨R.TCX_T_PC t, 31, 0⟩
def TCX_T_ACTIVE_ID_ID (t : Nat) : RF := ⟨R.TCX_T_ACTIVE_ID t, 31, 0⟩
def TCX_T_INACTIVE_ID_ID (t : Nat) : RF := ⟨R.TCX_T_INACTIVE_ID t, 31, 0⟩
def XSP_STAT_FLASH_EN : RF := ⟨R.XSP_STAT, 31, 31⟩
def XSP_STAT_OCTAL : RF := ⟨R.XSP_STAT, 30, 30⟩
def XSP_STAT_DIR : RF := ⟨R.XSP_STAT, 29, 28⟩
def XSP_STAT_COUNT : RF := ⟨R.XSP_STAT, 27, 24⟩
def XSP_STAT_DONE : RF := ⟨R.XSP_STAT, 0, 0⟩
def XSP_ENTRIES_SKIPPED : RF := ⟨R.XSP_ENTRIES, 14, 8⟩
def XSP_ENTRIES_LOADED : RF := ⟨R.XSP_ENTRIES, 6, 0⟩
def XSP_BYTES_BYTES : RF := ⟨R.XSP_BYTES, 31, 0⟩
def XSP_SCK_MHZ : RF := ⟨R.XSP_SCK, 7, 0⟩
def SCH_STAT_MERGED : RF := ⟨R.SCH_STAT, 4, 4⟩
def SCH_STAT_WIDTH_CAP : RF := ⟨R.SCH_STAT, 3, 3⟩
def SCH_STAT_DROPPED : RF := ⟨R.SCH_STAT, 2, 2⟩
def SCH_STAT_LATE : RF := ⟨R.SCH_STAT, 1, 1⟩
def SCH_STAT_ARM_RANGE : RF := ⟨R.SCH_STAT, 0, 0⟩
def SCH_LATE_CNT_DROPPED : RF := ⟨R.SCH_LATE_CNT, 31, 16⟩
def SCH_LATE_CNT_LATE : RF := ⟨R.SCH_LATE_CNT, 15, 0⟩
def SCH_RANGE_CNT_RANGE : RF := ⟨R.SCH_RANGE_CNT, 15, 0⟩
def SCH_ARMED_ARMED (k : Nat) : RF := ⟨R.SCH_ARMED k, 31, 0⟩
def SCH_CMD_DISARM_ALL : RF := ⟨R.SCH_CMD, 0, 0⟩
def SCH_IMG_IMG (n : Nat) (k : Nat) : RF := ⟨R.SCH_IMG n k, 31, 0⟩
def SCH_SLOT_STAT_ARMED (n : Nat) : RF := ⟨R.SCH_SLOT_STAT n, 31, 31⟩
def SCH_REMAIN_REMAIN (n : Nat) : RF := ⟨R.SCH_REMAIN n, 31, 0⟩
def SCH_NEXT_LO_NEXT (n : Nat) : RF := ⟨R.SCH_NEXT_LO n, 31, 0⟩
def SCH_NEXT_HI_NEXT (n : Nat) : RF := ⟨R.SCH_NEXT_HI n, 31, 0⟩
def SCH_REC_POS_POS (n : Nat) : RF := ⟨R.SCH_REC_POS n, 31, 0⟩
def SCH_REC_TIME_TIME (n : Nat) : RF := ⟨R.SCH_REC_TIME n, 31, 0⟩
def SCH_REC_SEQ_SEQ (n : Nat) : RF := ⟨R.SCH_REC_SEQ n, 31, 0⟩
def SCH_REC_FLAGS_RANGE_WHY (n : Nat) : RF := ⟨R.SCH_REC_FLAGS n, 11, 8⟩
def SCH_REC_FLAGS_MERGED (n : Nat) : RF := ⟨R.SCH_REC_FLAGS n, 4, 4⟩
def SCH_REC_FLAGS_WIDTH_CAP (n : Nat) : RF := ⟨R.SCH_REC_FLAGS n, 3, 3⟩
def SCH_REC_FLAGS_DROPPED (n : Nat) : RF := ⟨R.SCH_REC_FLAGS n, 2, 2⟩
def SCH_REC_FLAGS_LATE (n : Nat) : RF := ⟨R.SCH_REC_FLAGS n, 1, 1⟩
def SCH_REC_FLAGS_VALID (n : Nat) : RF := ⟨R.SCH_REC_FLAGS n, 0, 0⟩
def EVR_STAT_UNDECLARED : RF := ⟨R.EVR_STAT, 2, 2⟩
def EVR_STAT_OVERRUN : RF := ⟨R.EVR_STAT, 1, 1⟩
def EVR_STAT_LOOP : RF := ⟨R.EVR_STAT, 0, 0⟩
def EVR_LOOP_SRC_ORIGIN : RF := ⟨R.EVR_LOOP_SRC, 25, 16⟩
def EVR_LOOP_SRC_INPUT : RF := ⟨R.EVR_LOOP_SRC, 8, 0⟩
def EVR_LOOP_CNT_LOOPS : RF := ⟨R.EVR_LOOP_CNT, 15, 0⟩
def EVR_GRP_EN_EN : RF := ⟨R.EVR_GRP_EN, 31, 0⟩
def EVR_GRP_ON_ON : RF := ⟨R.EVR_GRP_ON, 31, 0⟩
def EVR_GRP_OFF_OFF : RF := ⟨R.EVR_GRP_OFF, 31, 0⟩
def EVR_SEL_VALID (i : Nat) (k : Nat) : RF := ⟨R.EVR_SEL i k, 31, 31⟩
def EVR_SEL_GROUP (i : Nat) (k : Nat) : RF := ⟨R.EVR_SEL i k, 20, 16⟩
def EVR_SEL_PRODUCER (i : Nat) (k : Nat) : RF := ⟨R.EVR_SEL i k, 9, 0⟩
def EVR_IN_STAT_OVERRUN (i : Nat) : RF := ⟨R.EVR_IN_STAT i, 31, 31⟩
def EVR_IN_STAT_LOST (i : Nat) : RF := ⟨R.EVR_IN_STAT i, 23, 16⟩
def EVR_IN_STAT_HOP (i : Nat) : RF := ⟨R.EVR_IN_STAT i, 10, 8⟩
def EVR_IN_STAT_PENDING (i : Nat) : RF := ⟨R.EVR_IN_STAT i, 7, 0⟩
def EVR_IN_CMD_FLUSH (i : Nat) : RF := ⟨R.EVR_IN_CMD i, 0, 0⟩
def LNK_LANE_CFG_MODE (n : Nat) : RF := ⟨R.LNK_LANE_CFG n, 31, 30⟩
def LNK_LANE_CFG_RATE (n : Nat) : RF := ⟨R.LNK_LANE_CFG n, 29, 28⟩
def LNK_LANE_CFG_TX_INV (n : Nat) : RF := ⟨R.LNK_LANE_CFG n, 27, 27⟩
def LNK_LANE_CFG_RX_INV (n : Nat) : RF := ⟨R.LNK_LANE_CFG n, 26, 26⟩
def LNK_LANE_STAT_SIGNAL (n : Nat) : RF := ⟨R.LNK_LANE_STAT n, 31, 31⟩
def LNK_LANE_STAT_CDR_LOCK (n : Nat) : RF := ⟨R.LNK_LANE_STAT n, 30, 30⟩
def LNK_LANE_STAT_TX_READY (n : Nat) : RF := ⟨R.LNK_LANE_STAT n, 29, 29⟩
def LNK_STAT_OVERBUDGET : RF := ⟨R.LNK_STAT, 2, 2⟩
def LNK_STAT_CONFLICT : RF := ⟨R.LNK_STAT, 1, 1⟩
def LNK_STAT_RANGE : RF := ⟨R.LNK_STAT, 0, 0⟩
def ETH_CFG_ENABLE (m : Nat) : RF := ⟨R.ETH_CFG m, 31, 31⟩
def ETH_CFG_TYPE (m : Nat) : RF := ⟨R.ETH_CFG m, 30, 28⟩
def ETH_CFG_FIRST_LANE (m : Nat) : RF := ⟨R.ETH_CFG m, 27, 23⟩
def ETH_CFG_FEC (m : Nat) : RF := ⟨R.ETH_CFG m, 22, 22⟩
def ETH_CFG_MAX_FRAME (m : Nat) : RF := ⟨R.ETH_CFG m, 13, 0⟩
def ETH_MAC_LO_MAC (m : Nat) : RF := ⟨R.ETH_MAC_LO m, 31, 0⟩
def ETH_MAC_HI_MAC (m : Nat) : RF := ⟨R.ETH_MAC_HI m, 15, 0⟩
def ETH_IP_IP (m : Nat) : RF := ⟨R.ETH_IP m, 31, 0⟩
def ETH_MASK_PREFIX (m : Nat) : RF := ⟨R.ETH_MASK m, 5, 0⟩
def ETH_VLAN_TAGGED (m : Nat) : RF := ⟨R.ETH_VLAN m, 31, 31⟩
def ETH_VLAN_PCP (m : Nat) : RF := ⟨R.ETH_VLAN m, 15, 13⟩
def ETH_VLAN_VID (m : Nat) : RF := ⟨R.ETH_VLAN m, 11, 0⟩
def ETH_MCAST_GROUP (m : Nat) (k : Nat) : RF := ⟨R.ETH_MCAST m k, 31, 0⟩
def ETH_STAT_LINK_UP (m : Nat) : RF := ⟨R.ETH_STAT m, 31, 31⟩
def ETH_STAT_BLOCK_LOCK (m : Nat) : RF := ⟨R.ETH_STAT m, 30, 30⟩
def ETH_STAT_ALIGNED (m : Nat) : RF := ⟨R.ETH_STAT m, 29, 29⟩
def ETH_STAT_FEC_LOCK (m : Nat) : RF := ⟨R.ETH_STAT m, 28, 28⟩
def ETH_STAT_ARP_FAIL (m : Nat) : RF := ⟨R.ETH_STAT m, 3, 3⟩
def ETH_STAT_OVERLOAD (m : Nat) : RF := ⟨R.ETH_STAT m, 2, 2⟩
def ETH_STAT_LINK_CHG (m : Nat) : RF := ⟨R.ETH_STAT m, 1, 1⟩
def ETH_STAT_RANGE (m : Nat) : RF := ⟨R.ETH_STAT m, 0, 0⟩
def ETH_DROP_MRQ (m : Nat) : RF := ⟨R.ETH_DROP m, 31, 24⟩
def ETH_DROP_OVERLOAD (m : Nat) : RF := ⟨R.ETH_DROP m, 23, 16⟩
def ETH_DROP_FILTER (m : Nat) : RF := ⟨R.ETH_DROP m, 15, 8⟩
def ETH_DROP_FCS (m : Nat) : RF := ⟨R.ETH_DROP m, 7, 0⟩
def ETH_RX_FRAMES_LO_FRAMES (m : Nat) : RF := ⟨R.ETH_RX_FRAMES_LO m, 31, 0⟩
def ETH_RX_FRAMES_HI_FRAMES (m : Nat) : RF := ⟨R.ETH_RX_FRAMES_HI m, 31, 0⟩
def ETH_FEC_CORR_CORR (m : Nat) : RF := ⟨R.ETH_FEC_CORR m, 31, 0⟩
def ETH_FEC_UNCORR_UNCORR (m : Nat) : RF := ⟨R.ETH_FEC_UNCORR m, 31, 0⟩
def ETH_PTP_CFG_ROLE (m : Nat) : RF := ⟨R.ETH_PTP_CFG m, 31, 30⟩
def ETH_PTP_CFG_DOMAIN (m : Nat) : RF := ⟨R.ETH_PTP_CFG m, 7, 0⟩
def ETH_PTP_RXLAT_RXLAT (m : Nat) : RF := ⟨R.ETH_PTP_RXLAT m, 19, 0⟩
def ETH_PTP_TXLAT_TXLAT (m : Nat) : RF := ⟨R.ETH_PTP_TXLAT m, 19, 0⟩
def ETH_MRQ_STAT_COUNT (m : Nat) : RF := ⟨R.ETH_MRQ_STAT m, 4, 0⟩
def ETH_MRQ_INFO_LENGTH (m : Nat) : RF := ⟨R.ETH_MRQ_INFO m, 8, 0⟩
def ETH_MRQ_TS_NS_NS (m : Nat) : RF := ⟨R.ETH_MRQ_TS_NS m, 31, 0⟩
def ETH_MRQ_TS_SEC_SEC (m : Nat) : RF := ⟨R.ETH_MRQ_TS_SEC m, 31, 0⟩
def ETH_MRQ_TS_SUB_EPOCH (m : Nat) : RF := ⟨R.ETH_MRQ_TS_SUB m, 31, 24⟩
def ETH_MRQ_TS_SUB_SUB (m : Nat) : RF := ⟨R.ETH_MRQ_TS_SUB m, 15, 0⟩
def ETH_MRQ_POP_POP (m : Nat) : RF := ⟨R.ETH_MRQ_POP m, 0, 0⟩
def ETH_MTX_CMD_SEND (m : Nat) : RF := ⟨R.ETH_MTX_CMD m, 31, 31⟩
def ETH_MTX_CMD_STAMP (m : Nat) : RF := ⟨R.ETH_MTX_CMD m, 30, 30⟩
def ETH_MTX_CMD_ONE_STEP (m : Nat) : RF := ⟨R.ETH_MTX_CMD m, 29, 29⟩
def ETH_MTX_CMD_LENGTH (m : Nat) : RF := ⟨R.ETH_MTX_CMD m, 8, 0⟩
def ETH_TXTS_NS_NS (m : Nat) : RF := ⟨R.ETH_TXTS_NS m, 31, 0⟩
def ETH_TXTS_SEC_SEC (m : Nat) : RF := ⟨R.ETH_TXTS_SEC m, 31, 0⟩
def ETH_TXTS_SUB_EPOCH (m : Nat) : RF := ⟨R.ETH_TXTS_SUB m, 31, 24⟩
def ETH_TXTS_SUB_SUB (m : Nat) : RF := ⟨R.ETH_TXTS_SUB m, 15, 0⟩
def GVS_STAT_ACT_REFUSED : RF := ⟨R.GVS_STAT, 4, 4⟩
def GVS_STAT_RELAY_BUSY : RF := ⟨R.GVS_STAT, 3, 3⟩
def GVS_STAT_GAPQ_OVF : RF := ⟨R.GVS_STAT, 2, 2⟩
def GVS_STAT_RANGE : RF := ⟨R.GVS_STAT, 1, 1⟩
def GVS_STAT_ACT_LATE : RF := ⟨R.GVS_STAT, 0, 0⟩
def GVS_GAPQ_STAT_COUNT : RF := ⟨R.GVS_GAPQ_STAT, 6, 0⟩
def GVS_GAP_INFO_STREAM : RF := ⟨R.GVS_GAP_INFO, 21, 16⟩
def GVS_GAP_INFO_ATTEMPT : RF := ⟨R.GVS_GAP_INFO, 3, 0⟩
def GVS_GAP_BLK_LO_BLOCK : RF := ⟨R.GVS_GAP_BLK_LO, 31, 0⟩
def GVS_GAP_BLK_HI_BLOCK : RF := ⟨R.GVS_GAP_BLK_HI, 31, 0⟩
def GVS_GAP_FIRST_FIRST : RF := ⟨R.GVS_GAP_FIRST, 31, 0⟩
def GVS_GAP_LAST_LAST : RF := ⟨R.GVS_GAP_LAST, 31, 0⟩
def GVS_GAP_CMD_DROP : RF := ⟨R.GVS_GAP_CMD, 1, 1⟩
def GVS_GAP_CMD_SEND : RF := ⟨R.GVS_GAP_CMD, 0, 0⟩
def GVS_RLY_CFG_ACK_TMO : RF := ⟨R.GVS_RLY_CFG, 31, 16⟩
def GVS_RLY_CFG_RETRIES : RF := ⟨R.GVS_RLY_CFG, 3, 0⟩
def GVS_RLY_CMD_GO : RF := ⟨R.GVS_RLY_CMD, 31, 31⟩
def GVS_RLY_CMD_STREAM : RF := ⟨R.GVS_RLY_CMD, 21, 16⟩
def GVS_RLY_CMD_LENGTH : RF := ⟨R.GVS_RLY_CMD, 9, 0⟩
def GVS_RLY_GEN_GEN : RF := ⟨R.GVS_RLY_GEN, 15, 0⟩
def GVS_RLY_STAT_BUSY : RF := ⟨R.GVS_RLY_STAT, 31, 31⟩
def GVS_RLY_STAT_RESULT : RF := ⟨R.GVS_RLY_STAT, 30, 29⟩
def GVS_RLY_STAT_ATTEMPTS : RF := ⟨R.GVS_RLY_STAT, 28, 24⟩
def GVS_RLY_STAT_ACK_LEN : RF := ⟨R.GVS_RLY_STAT, 9, 0⟩
def GVS_ACT_CFG_VALID (t : Nat) : RF := ⟨R.GVS_ACT_CFG t, 31, 31⟩
def GVS_ACT_CFG_PORT (t : Nat) : RF := ⟨R.GVS_ACT_CFG t, 29, 26⟩
def GVS_ACT_DST_IP_DST (t : Nat) : RF := ⟨R.GVS_ACT_DST_IP t, 31, 0⟩
def GVS_ACT_DEVKEY_KEY (t : Nat) : RF := ⟨R.GVS_ACT_DEVKEY t, 31, 0⟩
def GVS_ACT_GRPKEY_KEY (t : Nat) : RF := ⟨R.GVS_ACT_GRPKEY t, 31, 0⟩
def GVS_ACT_GRPMASK_MASK (t : Nat) : RF := ⟨R.GVS_ACT_GRPMASK t, 31, 0⟩
def GVS_ACT_TIME_LO_TIME (t : Nat) : RF := ⟨R.GVS_ACT_TIME_LO t, 31, 0⟩
def GVS_ACT_TIME_HI_TIME (t : Nat) : RF := ⟨R.GVS_ACT_TIME_HI t, 31, 0⟩
def GVS_ACT_SEND_SEND (t : Nat) : RF := ⟨R.GVS_ACT_SEND t, 0, 0⟩
def GVS_S_CFG_ENABLE (s : Nat) : RF := ⟨R.GVS_S_CFG s, 31, 31⟩
def GVS_S_CFG_EXT_ID (s : Nat) : RF := ⟨R.GVS_S_CFG s, 30, 30⟩
def GVS_S_CFG_PORT (s : Nat) : RF := ⟨R.GVS_S_CFG s, 29, 26⟩
def GVS_S_CFG_TRIG_MODE (s : Nat) : RF := ⟨R.GVS_S_CFG s, 25, 24⟩
def GVS_S_CFG_TRIG_SRC (s : Nat) : RF := ⟨R.GVS_S_CFG s, 23, 23⟩
def GVS_S_CFG_SRC_INDEX (s : Nat) : RF := ⟨R.GVS_S_CFG s, 22, 18⟩
def GVS_S_CFG_WINDOW_EN (s : Nat) : RF := ⟨R.GVS_S_CFG s, 17, 17⟩
def GVS_S_CAM_IP_IP (s : Nat) : RF := ⟨R.GVS_S_CAM_IP s, 31, 0⟩
def GVS_S_PORTS_DST_UDP (s : Nat) : RF := ⟨R.GVS_S_PORTS s, 31, 16⟩
def GVS_S_PORTS_CHANNEL (s : Nat) : RF := ⟨R.GVS_S_PORTS s, 15, 0⟩
def GVS_S_FMT_PFNC (s : Nat) : RF := ⟨R.GVS_S_FMT s, 31, 0⟩
def GVS_S_SIZE_SIZE_X (s : Nat) : RF := ⟨R.GVS_S_SIZE s, 31, 16⟩
def GVS_S_SIZE_SIZE_Y (s : Nat) : RF := ⟨R.GVS_S_SIZE s, 15, 0⟩
def GVS_S_FILL_FILL (s : Nat) : RF := ⟨R.GVS_S_FILL s, 15, 0⟩
def GVS_S_TMO_FRAME_TMO (s : Nat) : RF := ⟨R.GVS_S_TMO s, 23, 0⟩
def GVS_S_MATCH_MATCH_HI (s : Nat) : RF := ⟨R.GVS_S_MATCH s, 31, 16⟩
def GVS_S_MATCH_MATCH_LO (s : Nat) : RF := ⟨R.GVS_S_MATCH s, 15, 0⟩
def GVS_S_RESEND_MAX_REQ (s : Nat) : RF := ⟨R.GVS_S_RESEND s, 31, 28⟩
def GVS_S_RESEND_MAX_PKTS (s : Nat) : RF := ⟨R.GVS_S_RESEND s, 27, 16⟩
def GVS_S_RESEND_GAP_DELAY (s : Nat) : RF := ⟨R.GVS_S_RESEND s, 15, 8⟩
def GVS_S_RESEND_WAIT (s : Nat) : RF := ⟨R.GVS_S_RESEND s, 7, 0⟩
def GVS_S_EXPO_ADDR_ADDR (s : Nat) (k : Nat) : RF := ⟨R.GVS_S_EXPO_ADDR s k, 31, 0⟩
def GVS_S_CHUNK_ID_ID (s : Nat) : RF := ⟨R.GVS_S_CHUNK_ID s, 31, 0⟩
def GVS_S_HB_EN (s : Nat) : RF := ⟨R.GVS_S_HB s, 31, 31⟩
def GVS_S_HB_PERIOD (s : Nat) : RF := ⟨R.GVS_S_HB s, 15, 0⟩
def GVS_S_STAT_IN_BLOCK (s : Nat) : RF := ⟨R.GVS_S_STAT s, 31, 31⟩
def GVS_S_STAT_EXPO_UNCERTAIN (s : Nat) : RF := ⟨R.GVS_S_STAT s, 30, 30⟩
def GVS_S_STAT_CAM_LOST (s : Nat) : RF := ⟨R.GVS_S_STAT s, 29, 29⟩
def GVS_S_STAT_TRIGQ (s : Nat) : RF := ⟨R.GVS_S_STAT s, 10, 0⟩
def GVS_S_FLAGS_TRIGQ_OVF (s : Nat) : RF := ⟨R.GVS_S_FLAGS s, 12, 12⟩
def GVS_S_FLAGS_BUDGET (s : Nat) : RF := ⟨R.GVS_S_FLAGS s, 11, 11⟩
def GVS_S_FLAGS_RANGE (s : Nat) : RF := ⟨R.GVS_S_FLAGS s, 10, 10⟩
def GVS_S_FLAGS_CAM_LOST (s : Nat) : RF := ⟨R.GVS_S_FLAGS s, 9, 9⟩
def GVS_S_FLAGS_DUP (s : Nat) : RF := ⟨R.GVS_S_FLAGS s, 8, 8⟩
def GVS_S_FLAGS_LATE_BLK (s : Nat) : RF := ⟨R.GVS_S_FLAGS s, 7, 7⟩
def GVS_S_FLAGS_FORMAT (s : Nat) : RF := ⟨R.GVS_S_FLAGS s, 6, 6⟩
def GVS_S_FLAGS_MISSED (s : Nat) : RF := ⟨R.GVS_S_FLAGS s, 5, 5⟩
def GVS_S_FLAGS_ORPHAN (s : Nat) : RF := ⟨R.GVS_S_FLAGS s, 4, 4⟩
def GVS_S_FLAGS_MISSING (s : Nat) : RF := ⟨R.GVS_S_FLAGS s, 3, 3⟩
def GVS_S_FLAGS_TIMEOUT (s : Nat) : RF := ⟨R.GVS_S_FLAGS s, 2, 2⟩
def GVS_S_FLAGS_LONG (s : Nat) : RF := ⟨R.GVS_S_FLAGS s, 1, 1⟩
def GVS_S_FLAGS_SHORT (s : Nat) : RF := ⟨R.GVS_S_FLAGS s, 0, 0⟩
def GVS_S_BLOCKS_LO_BLOCKS (s : Nat) : RF := ⟨R.GVS_S_BLOCKS_LO s, 31, 0⟩
def GVS_S_BLOCKS_HI_BLOCKS (s : Nat) : RF := ⟨R.GVS_S_BLOCKS_HI s, 31, 0⟩
def GVS_S_CHAFF_CHAFF (s : Nat) : RF := ⟨R.GVS_S_CHAFF s, 31, 0⟩
def GVS_S_PKT_ERR_BAD (s : Nat) : RF := ⟨R.GVS_S_PKT_ERR s, 31, 24⟩
def GVS_S_PKT_ERR_DUP (s : Nat) : RF := ⟨R.GVS_S_PKT_ERR s, 23, 16⟩
def GVS_S_PKT_ERR_LOST (s : Nat) : RF := ⟨R.GVS_S_PKT_ERR s, 15, 0⟩
def GVS_S_RSND_CNT_SENT (s : Nat) : RF := ⟨R.GVS_S_RSND_CNT s, 31, 16⟩
def GVS_S_RSND_CNT_RECOVERED (s : Nat) : RF := ⟨R.GVS_S_RSND_CNT s, 15, 0⟩
def GVS_S_MATCH_CNT_MISSED (s : Nat) : RF := ⟨R.GVS_S_MATCH_CNT s, 31, 16⟩
def GVS_S_MATCH_CNT_ORPHAN (s : Nat) : RF := ⟨R.GVS_S_MATCH_CNT s, 15, 0⟩
def GVS_S_LASTBLK_LO_BLOCK (s : Nat) : RF := ⟨R.GVS_S_LASTBLK_LO s, 31, 0⟩
def GVS_S_LASTBLK_HI_BLOCK (s : Nat) : RF := ⟨R.GVS_S_LASTBLK_HI s, 31, 0⟩
def GVS_S_GEN_EXPECTED (s : Nat) : RF := ⟨R.GVS_S_GEN s, 31, 16⟩
def GVS_S_GEN_CURRENT (s : Nat) : RF := ⟨R.GVS_S_GEN s, 15, 0⟩
def GVS_S_CMD_APPLY (s : Nat) : RF := ⟨R.GVS_S_CMD s, 2, 2⟩
def GVS_S_CMD_CLEAR_UNC (s : Nat) : RF := ⟨R.GVS_S_CMD s, 1, 1⟩
def GVS_S_CMD_FLUSH_TRIGQ (s : Nat) : RF := ⟨R.GVS_S_CMD s, 0, 0⟩
def PAR_CFG_ENABLE (p : Nat) : RF := ⟨R.PAR_CFG p, 31, 31⟩
def PAR_CFG_DDR (p : Nat) : RF := ⟨R.PAR_CFG p, 30, 30⟩
def PAR_CFG_WIDTH (p : Nat) : RF := ⟨R.PAR_CFG p, 29, 27⟩
def PAR_CFG_PACK (p : Nat) : RF := ⟨R.PAR_CFG p, 26, 25⟩
def PAR_CFG_DVAL_EN (p : Nat) : RF := ⟨R.PAR_CFG p, 24, 24⟩
def PAR_CFG_FVAL_POL (p : Nat) : RF := ⟨R.PAR_CFG p, 23, 23⟩
def PAR_CFG_LVAL_POL (p : Nat) : RF := ⟨R.PAR_CFG p, 22, 22⟩
def PAR_CFG_DVAL_POL (p : Nat) : RF := ⟨R.PAR_CFG p, 21, 21⟩
def PAR_CFG_FVAL_IGN (p : Nat) : RF := ⟨R.PAR_CFG p, 20, 20⟩
def PAR_CFG_STREAM (p : Nat) : RF := ⟨R.PAR_CFG p, 19, 14⟩
def PAR_CFG_TRIG_MODE (p : Nat) : RF := ⟨R.PAR_CFG p, 13, 12⟩
def PAR_CFG_WINDOW_EN (p : Nat) : RF := ⟨R.PAR_CFG p, 11, 11⟩
def PAR_CFG_SRC_INDEX (p : Nat) : RF := ⟨R.PAR_CFG p, 10, 6⟩
def PAR_FMT_PFNC (p : Nat) : RF := ⟨R.PAR_FMT p, 31, 0⟩
def PAR_SIZE_SIZE_X (p : Nat) : RF := ⟨R.PAR_SIZE p, 31, 16⟩
def PAR_SIZE_SIZE_Y (p : Nat) : RF := ⟨R.PAR_SIZE p, 15, 0⟩
def PAR_FILL_FILL (p : Nat) : RF := ⟨R.PAR_FILL p, 15, 0⟩
def PAR_TMO_FRAME_TMO (p : Nat) : RF := ⟨R.PAR_TMO p, 23, 0⟩
def PAR_MATCH_MATCH_HI (p : Nat) : RF := ⟨R.PAR_MATCH p, 31, 16⟩
def PAR_MATCH_MATCH_LO (p : Nat) : RF := ⟨R.PAR_MATCH p, 15, 0⟩
def PAR_STAT_IN_FRAME (p : Nat) : RF := ⟨R.PAR_STAT p, 31, 31⟩
def PAR_STAT_PCLK_OK (p : Nat) : RF := ⟨R.PAR_STAT p, 30, 30⟩
def PAR_STAT_TRIGQ (p : Nat) : RF := ⟨R.PAR_STAT p, 26, 16⟩
def PAR_STAT_PCLK_MHZ (p : Nat) : RF := ⟨R.PAR_STAT p, 15, 8⟩
def PAR_FLAGS_CONFLICT (p : Nat) : RF := ⟨R.PAR_FLAGS p, 11, 11⟩
def PAR_FLAGS_PCLK_LOST (p : Nat) : RF := ⟨R.PAR_FLAGS p, 10, 10⟩
def PAR_FLAGS_PCLK_RANGE (p : Nat) : RF := ⟨R.PAR_FLAGS p, 9, 9⟩
def PAR_FLAGS_PROTO (p : Nat) : RF := ⟨R.PAR_FLAGS p, 8, 8⟩
def PAR_FLAGS_TRIGQ_OVF (p : Nat) : RF := ⟨R.PAR_FLAGS p, 7, 7⟩
def PAR_FLAGS_RANGE (p : Nat) : RF := ⟨R.PAR_FLAGS p, 6, 6⟩
def PAR_FLAGS_LINE_LEN (p : Nat) : RF := ⟨R.PAR_FLAGS p, 5, 5⟩
def PAR_FLAGS_MISSED (p : Nat) : RF := ⟨R.PAR_FLAGS p, 4, 4⟩
def PAR_FLAGS_ORPHAN (p : Nat) : RF := ⟨R.PAR_FLAGS p, 3, 3⟩
def PAR_FLAGS_TIMEOUT (p : Nat) : RF := ⟨R.PAR_FLAGS p, 2, 2⟩
def PAR_FLAGS_LONG (p : Nat) : RF := ⟨R.PAR_FLAGS p, 1, 1⟩
def PAR_FLAGS_SHORT (p : Nat) : RF := ⟨R.PAR_FLAGS p, 0, 0⟩
def PAR_FRAMES_LO_FRAMES (p : Nat) : RF := ⟨R.PAR_FRAMES_LO p, 31, 0⟩
def PAR_FRAMES_HI_FRAMES (p : Nat) : RF := ⟨R.PAR_FRAMES_HI p, 31, 0⟩
def PAR_CHAFF_CHAFF (p : Nat) : RF := ⟨R.PAR_CHAFF p, 31, 0⟩
def PAR_LINE_ERR_SHORT_LINES (p : Nat) : RF := ⟨R.PAR_LINE_ERR p, 31, 16⟩
def PAR_LINE_ERR_LONG_LINES (p : Nat) : RF := ⟨R.PAR_LINE_ERR p, 15, 0⟩
def PAR_MATCH_CNT_MISSED (p : Nat) : RF := ⟨R.PAR_MATCH_CNT p, 31, 16⟩
def PAR_MATCH_CNT_ORPHAN (p : Nat) : RF := ⟨R.PAR_MATCH_CNT p, 15, 0⟩
def PAR_PROTO_CNT_SAMPLES (p : Nat) : RF := ⟨R.PAR_PROTO_CNT p, 31, 0⟩
def PAR_LAST_LINES_LINES (p : Nat) : RF := ⟨R.PAR_LAST_LINES p, 15, 0⟩
def PAR_CMD_APPLY (p : Nat) : RF := ⟨R.PAR_CMD p, 1, 1⟩
def PAR_CMD_FLUSH_TRIGQ (p : Nat) : RF := ⟨R.PAR_CMD p, 0, 0⟩
def TRG_CFG_ENABLE (n : Nat) : RF := ⟨R.TRG_CFG n, 31, 31⟩
def TRG_CFG_POL (n : Nat) : RF := ⟨R.TRG_CFG n, 30, 30⟩
def TRG_CFG_DRIVE (n : Nat) : RF := ⟨R.TRG_CFG n, 29, 29⟩
def TRG_EXPO_WIDTH (n : Nat) : RF := ⟨R.TRG_EXPO n, 31, 0⟩
def TRG_GEN_GEN (n : Nat) : RF := ⟨R.TRG_GEN n, 15, 0⟩
def TRG_MIN_MIN_WIDTH (n : Nat) : RF := ⟨R.TRG_MIN n, 31, 16⟩
def TRG_MIN_MIN_GAP (n : Nat) : RF := ⟨R.TRG_MIN n, 15, 0⟩
def TRG_STAT_ACTIVE (n : Nat) : RF := ⟨R.TRG_STAT n, 31, 31⟩
def TRG_STAT_GAP_MERGE (n : Nat) : RF := ⟨R.TRG_STAT n, 3, 3⟩
def TRG_STAT_STRETCHED (n : Nat) : RF := ⟨R.TRG_STAT n, 2, 2⟩
def TRG_STAT_SUPPRESSED (n : Nat) : RF := ⟨R.TRG_STAT n, 1, 1⟩
def TRG_STAT_RANGE (n : Nat) : RF := ⟨R.TRG_STAT n, 0, 0⟩
def TRG_SEQ_SEQ (n : Nat) : RF := ⟨R.TRG_SEQ n, 31, 0⟩
def TRG_PULSES_LO_PULSES (n : Nat) : RF := ⟨R.TRG_PULSES_LO n, 31, 0⟩
def TRG_PULSES_HI_PULSES (n : Nat) : RF := ⟨R.TRG_PULSES_HI n, 31, 0⟩
def TRG_CUR_EXPO_WIDTH (n : Nat) : RF := ⟨R.TRG_CUR_EXPO n, 31, 0⟩
def TRG_CUR_GEN_GEN (n : Nat) : RF := ⟨R.TRG_CUR_GEN n, 15, 0⟩
def TRG_LAST_EDGE_TIME (n : Nat) : RF := ⟨R.TRG_LAST_EDGE n, 31, 0⟩
def TRG_SUPPRESSED_COUNT (n : Nat) : RF := ⟨R.TRG_SUPPRESSED n, 31, 0⟩
def TRG_CMD_APPLY (n : Nat) : RF := ⟨R.TRG_CMD n, 1, 1⟩
def TRG_CMD_FIRE (n : Nat) : RF := ⟨R.TRG_CMD n, 0, 0⟩
def TRG_GPIO_CFG_MODE (g : Nat) : RF := ⟨R.TRG_GPIO_CFG g, 31, 30⟩
def TRG_GPIO_CFG_POL (g : Nat) : RF := ⟨R.TRG_GPIO_CFG g, 29, 29⟩
def TRG_GPIO_CFG_LEVEL (g : Nat) : RF := ⟨R.TRG_GPIO_CFG g, 28, 28⟩
def TRG_GPIO_CFG_SRC (g : Nat) : RF := ⟨R.TRG_GPIO_CFG g, 27, 23⟩
def TRG_GPIO_CFG_FILT (g : Nat) : RF := ⟨R.TRG_GPIO_CFG g, 7, 0⟩
def TRG_GPIO_DLY_DELAY (g : Nat) : RF := ⟨R.TRG_GPIO_DLY g, 23, 0⟩
def TRG_GPIO_WID_WIDTH (g : Nat) : RF := ⟨R.TRG_GPIO_WID g, 23, 0⟩
def TRG_GPIO_IN_LEVEL : RF := ⟨R.TRG_GPIO_IN, 15, 0⟩
def TRG_GPIO_STAT_RANGE : RF := ⟨R.TRG_GPIO_STAT, 0, 0⟩
def MIL_SEG_SEG_LEN : RF := ⟨R.MIL_SEG, 12, 0⟩
def MIL_LOAD_PEAK : RF := ⟨R.MIL_LOAD, 25, 16⟩
def MIL_LOAD_AVG : RF := ⟨R.MIL_LOAD, 9, 0⟩
def MIL_STAT_OVERFLOW : RF := ⟨R.MIL_STAT, 1, 1⟩
def MIL_STAT_RANGE : RF := ⟨R.MIL_STAT, 0, 0⟩
def MIL_CFG_ROUTE (s : Nat) : RF := ⟨R.MIL_CFG s, 31, 31⟩
def MIL_CFG_KIND (s : Nat) : RF := ⟨R.MIL_CFG s, 30, 30⟩
def MIL_CFG_TAP (s : Nat) : RF := ⟨R.MIL_CFG s, 29, 29⟩
def MIL_CFG_NORM16 (s : Nat) : RF := ⟨R.MIL_CFG s, 28, 28⟩
def MIL_CFG_SNR (s : Nat) : RF := ⟨R.MIL_CFG s, 27, 27⟩
def MIL_CFG_TNR (s : Nat) : RF := ⟨R.MIL_CFG s, 26, 26⟩
def MIL_CFG_BLACK (s : Nat) : RF := ⟨R.MIL_CFG s, 25, 25⟩
def MIL_CFG_DPC (s : Nat) : RF := ⟨R.MIL_CFG s, 24, 24⟩
def MIL_CFG_FF (s : Nat) : RF := ⟨R.MIL_CFG s, 23, 23⟩
def MIL_CFG_TDI (s : Nat) : RF := ⟨R.MIL_CFG s, 22, 22⟩
def MIL_CFG_DEMO (s : Nat) : RF := ⟨R.MIL_CFG s, 21, 21⟩
def MIL_CFG_CMX (s : Nat) : RF := ⟨R.MIL_CFG s, 20, 20⟩
def MIL_CFG_TONE (s : Nat) : RF := ⟨R.MIL_CFG s, 19, 19⟩
def MIL_CFG_STATS (s : Nat) : RF := ⟨R.MIL_CFG s, 18, 18⟩
def MIL_CFG_DEMO_METHOD (s : Nat) : RF := ⟨R.MIL_CFG s, 17, 16⟩
def MIL_CFG_AXIS (s : Nat) : RF := ⟨R.MIL_CFG s, 15, 12⟩
def MIL_CFG_WEB_DIR (s : Nat) : RF := ⟨R.MIL_CFG s, 11, 10⟩
def MIL_PPT_PPT (s : Nat) : RF := ⟨R.MIL_PPT s, 31, 0⟩
def MIL_ROW_GRAINS_ROW (s : Nat) : RF := ⟨R.MIL_ROW_GRAINS s, 31, 0⟩
def MIL_NM_BLACK_BLACK (s : Nat) : RF := ⟨R.MIL_NM_BLACK s, 23, 0⟩
def MIL_NM_A_A (s : Nat) : RF := ⟨R.MIL_NM_A s, 31, 0⟩
def MIL_NM_B_B (s : Nat) : RF := ⟨R.MIL_NM_B s, 31, 0⟩
def MIL_NR_SP_STR (s : Nat) : RF := ⟨R.MIL_NR s, 31, 24⟩
def MIL_NR_SP_CENTRE (s : Nat) : RF := ⟨R.MIL_NR s, 20, 16⟩
def MIL_NR_T_STR (s : Nat) : RF := ⟨R.MIL_NR s, 15, 8⟩
def MIL_NR_T_K (s : Nat) : RF := ⟨R.MIL_NR s, 7, 0⟩
def MIL_BLACK_BLACK (s : Nat) : RF := ⟨R.MIL_BLACK s, 23, 0⟩
def MIL_BLK_TBL_BASE (s : Nat) : RF := ⟨R.MIL_BLK_TBL s, 31, 0⟩
def MIL_DPC_TBL_BASE (s : Nat) : RF := ⟨R.MIL_DPC_TBL s, 31, 0⟩
def MIL_DPC_CNT_COUNT (s : Nat) : RF := ⟨R.MIL_DPC_CNT s, 15, 0⟩
def MIL_FF_TBL_BASE (s : Nat) : RF := ⟨R.MIL_FF_TBL s, 31, 0⟩
def MIL_FF_CFG_CELL_LOG2 (s : Nat) : RF := ⟨R.MIL_FF_CFG s, 2, 0⟩
def MIL_GAIN_GAIN (s : Nat) : RF := ⟨R.MIL_GAIN s, 31, 0⟩
def MIL_TDI_CFG_MEAN (s : Nat) : RF := ⟨R.MIL_TDI_CFG s, 31, 31⟩
def MIL_TDI_CFG_K (s : Nat) : RF := ⟨R.MIL_TDI_CFG s, 20, 16⟩
def MIL_TDI_PITCH_PITCH (s : Nat) : RF := ⟨R.MIL_TDI_PITCH s, 31, 0⟩
def MIL_TDI_TOL_TOL (s : Nat) : RF := ⟨R.MIL_TDI_TOL s, 31, 0⟩
def MIL_TDI_OFS_OFS (s : Nat) : RF := ⟨R.MIL_TDI_OFS s, 31, 0⟩
def MIL_CMX0_C00 (s : Nat) : RF := ⟨R.MIL_CMX0 s, 31, 16⟩
def MIL_CMX0_C01 (s : Nat) : RF := ⟨R.MIL_CMX0 s, 15, 0⟩
def MIL_CMX1_C02 (s : Nat) : RF := ⟨R.MIL_CMX1 s, 31, 16⟩
def MIL_CMX1_C10 (s : Nat) : RF := ⟨R.MIL_CMX1 s, 15, 0⟩
def MIL_CMX2_C11 (s : Nat) : RF := ⟨R.MIL_CMX2 s, 31, 16⟩
def MIL_CMX2_C12 (s : Nat) : RF := ⟨R.MIL_CMX2 s, 15, 0⟩
def MIL_CMX3_C20 (s : Nat) : RF := ⟨R.MIL_CMX3 s, 31, 16⟩
def MIL_CMX3_C21 (s : Nat) : RF := ⟨R.MIL_CMX3 s, 15, 0⟩
def MIL_CMX4_C22 (s : Nat) : RF := ⟨R.MIL_CMX4 s, 31, 16⟩
def MIL_TONE_TBL_BASE (s : Nat) : RF := ⟨R.MIL_TONE_TBL s, 31, 0⟩
def MIL_TONE_CFG_IN_SHIFT (s : Nat) : RF := ⟨R.MIL_TONE_CFG s, 3, 0⟩
def MIL_ST_CFG_HIST_SHIFT (s : Nat) : RF := ⟨R.MIL_ST_CFG s, 31, 28⟩
def MIL_ST_CFG_RING_LOG2 (s : Nat) : RF := ⟨R.MIL_ST_CFG s, 4, 0⟩
def MIL_ST_BASE_BASE (s : Nat) : RF := ⟨R.MIL_ST_BASE s, 31, 0⟩
def MIL_ST_WR_COUNT (s : Nat) : RF := ⟨R.MIL_ST_WR s, 31, 0⟩
def MIL_ROI_A_X0 (s : Nat) (n : Nat) : RF := ⟨R.MIL_ROI_A s n, 31, 16⟩
def MIL_ROI_A_Y0 (s : Nat) (n : Nat) : RF := ⟨R.MIL_ROI_A s n, 15, 0⟩
def MIL_ROI_B_X1 (s : Nat) (n : Nat) : RF := ⟨R.MIL_ROI_B s n, 31, 16⟩
def MIL_ROI_B_Y1 (s : Nat) (n : Nat) : RF := ⟨R.MIL_ROI_B s n, 15, 0⟩
def MIL_HIST_BASE_BASE (s : Nat) : RF := ⟨R.MIL_HIST_BASE s, 31, 0⟩
def MIL_HIST_SIZE_SIZE (s : Nat) : RF := ⟨R.MIL_HIST_SIZE s, 31, 0⟩
def MIL_INQ_LINES (s : Nat) : RF := ⟨R.MIL_INQ s, 15, 0⟩
def MIL_CAL_CFG_FRAMES (s : Nat) : RF := ⟨R.MIL_CAL_CFG s, 31, 16⟩
def MIL_CAL_CFG_CAL_TAP (s : Nat) : RF := ⟨R.MIL_CAL_CFG s, 0, 0⟩
def MIL_CAL_TBL_BASE (s : Nat) : RF := ⟨R.MIL_CAL_TBL s, 31, 0⟩
def MIL_CAL_LEFT_LEFT (s : Nat) : RF := ⟨R.MIL_CAL_LEFT s, 15, 0⟩
def MIL_S_STAT_BUSY (s : Nat) : RF := ⟨R.MIL_S_STAT s, 31, 31⟩
def MIL_S_STAT_REF_HELD (s : Nat) : RF := ⟨R.MIL_S_STAT s, 30, 30⟩
def MIL_S_STAT_CAL_RUN (s : Nat) : RF := ⟨R.MIL_S_STAT s, 29, 29⟩
def MIL_S_STAT_INQ_USED (s : Nat) : RF := ⟨R.MIL_S_STAT s, 15, 0⟩
def MIL_S_FLAGS_CAL_DONE (s : Nat) : RF := ⟨R.MIL_S_FLAGS s, 5, 5⟩
def MIL_S_FLAGS_DPC_ORDER (s : Nat) : RF := ⟨R.MIL_S_FLAGS s, 4, 4⟩
def MIL_S_FLAGS_TNR_RESET (s : Nat) : RF := ⟨R.MIL_S_FLAGS s, 3, 3⟩
def MIL_S_FLAGS_HIST_SMALL (s : Nat) : RF := ⟨R.MIL_S_FLAGS s, 2, 2⟩
def MIL_S_FLAGS_OVERFLOW (s : Nat) : RF := ⟨R.MIL_S_FLAGS s, 1, 1⟩
def MIL_S_FLAGS_RANGE (s : Nat) : RF := ⟨R.MIL_S_FLAGS s, 0, 0⟩
def MIL_S_DROP_LINES (s : Nat) : RF := ⟨R.MIL_S_DROP s, 31, 0⟩
def MIL_S_TDI_CNT_LATE (s : Nat) : RF := ⟨R.MIL_S_TDI_CNT s, 31, 16⟩
def MIL_S_TDI_CNT_OFFBIN (s : Nat) : RF := ⟨R.MIL_S_TDI_CNT s, 15, 0⟩
def MIL_S_LINES_LO_LINES (s : Nat) : RF := ⟨R.MIL_S_LINES_LO s, 31, 0⟩
def MIL_S_LINES_HI_LINES (s : Nat) : RF := ⟨R.MIL_S_LINES_HI s, 31, 0⟩
def MIL_CMD_CAL_START (s : Nat) : RF := ⟨R.MIL_CMD s, 3, 3⟩
def MIL_CMD_CAL_ABORT (s : Nat) : RF := ⟨R.MIL_CMD s, 2, 2⟩
def MIL_CMD_TNR_RESET (s : Nat) : RF := ⟨R.MIL_CMD s, 1, 1⟩
def MIL_CMD_APPLY (s : Nat) : RF := ⟨R.MIL_CMD s, 0, 0⟩
def COL_STAT_NOBUF : RF := ⟨R.COL_STAT, 2, 2⟩
def COL_STAT_STRIP_BAD : RF := ⟨R.COL_STAT, 1, 1⟩
def COL_STAT_RANGE : RF := ⟨R.COL_STAT, 0, 0⟩
def COL_CMD_APPLY : RF := ⟨R.COL_CMD, 0, 0⟩
def COL_SQ_CFG_ENABLE (q : Nat) : RF := ⟨R.COL_SQ_CFG q, 31, 31⟩
def COL_SQ_CFG_DIR (q : Nat) : RF := ⟨R.COL_SQ_CFG q, 30, 30⟩
def COL_SQ_CFG_AXIS (q : Nat) : RF := ⟨R.COL_SQ_CFG q, 29, 26⟩
def COL_SQ_CFG_SEAM (q : Nat) : RF := ⟨R.COL_SQ_CFG q, 25, 25⟩
def COL_SQ_CFG_RGB (q : Nat) : RF := ⟨R.COL_SQ_CFG q, 24, 24⟩
def COL_SQ_CFG_COUNT (q : Nat) : RF := ⟨R.COL_SQ_CFG q, 20, 16⟩
def COL_SQ_ORIGIN_LO_ORIGIN (q : Nat) : RF := ⟨R.COL_SQ_ORIGIN_LO q, 31, 0⟩
def COL_SQ_ORIGIN_HI_ORIGIN (q : Nat) : RF := ⟨R.COL_SQ_ORIGIN_HI q, 31, 0⟩
def COL_SQ_PITCH_PITCH (q : Nat) : RF := ⟨R.COL_SQ_PITCH q, 31, 0⟩
def COL_SQ_LPITCH_LPITCH (q : Nat) : RF := ⟨R.COL_SQ_LPITCH q, 31, 0⟩
def COL_SQ_WIDTH_WIDTH (q : Nat) : RF := ⟨R.COL_SQ_WIDTH q, 16, 0⟩
def COL_SQ_U0_U0 (q : Nat) : RF := ⟨R.COL_SQ_U0 q, 24, 0⟩
def COL_SQ_FILL_FILL (q : Nat) : RF := ⟨R.COL_SQ_FILL q, 23, 0⟩
def COL_SQ_BUF_BASE_BASE (q : Nat) : RF := ⟨R.COL_SQ_BUF_BASE q, 31, 0⟩
def COL_SQ_REC_BASE_BASE (q : Nat) : RF := ⟨R.COL_SQ_REC_BASE q, 31, 0⟩
def COL_SQ_CLOSE_TMO_TMO (q : Nat) : RF := ⟨R.COL_SQ_CLOSE_TMO q, 23, 0⟩
def COL_SQ_XCH_L_EN (q : Nat) : RF := ⟨R.COL_SQ_XCH q, 31, 31⟩
def COL_SQ_XCH_R_EN (q : Nat) : RF := ⟨R.COL_SQ_XCH q, 30, 30⟩
def COL_SQ_XCH_L_LINK (q : Nat) : RF := ⟨R.COL_SQ_XCH q, 29, 27⟩
def COL_SQ_XCH_R_LINK (q : Nat) : RF := ⟨R.COL_SQ_XCH q, 26, 24⟩
def COL_SQ_XCH_SW (q : Nat) : RF := ⟨R.COL_SQ_XCH q, 10, 0⟩
def COL_SQ_XID_XID (q : Nat) : RF := ⟨R.COL_SQ_XID q, 15, 0⟩
def COL_SQ_CONS_PROGRAM (q : Nat) : RF := ⟨R.COL_SQ_CONS q, 4, 4⟩
def COL_SQ_CONS_THRESHER (q : Nat) : RF := ⟨R.COL_SQ_CONS q, 3, 3⟩
def COL_SQ_CONS_CODING (q : Nat) : RF := ⟨R.COL_SQ_CONS q, 2, 2⟩
def COL_SQ_CONS_DISPLAY (q : Nat) : RF := ⟨R.COL_SQ_CONS q, 1, 1⟩
def COL_SQ_CONS_VISION (q : Nat) : RF := ⟨R.COL_SQ_CONS q, 0, 0⟩
def COL_SQ_STAT_OPEN (q : Nat) : RF := ⟨R.COL_SQ_STAT q, 28, 24⟩
def COL_SQ_STAT_CLOSED (q : Nat) : RF := ⟨R.COL_SQ_STAT q, 20, 16⟩
def COL_SQ_STAT_FREE (q : Nat) : RF := ⟨R.COL_SQ_STAT q, 4, 0⟩
def COL_SQ_FLAGS_EPOCH_CHG (q : Nat) : RF := ⟨R.COL_SQ_FLAGS q, 5, 5⟩
def COL_SQ_FLAGS_FORCED (q : Nat) : RF := ⟨R.COL_SQ_FLAGS q, 4, 4⟩
def COL_SQ_FLAGS_STRIP_LATE (q : Nat) : RF := ⟨R.COL_SQ_FLAGS q, 3, 3⟩
def COL_SQ_FLAGS_NOBUF (q : Nat) : RF := ⟨R.COL_SQ_FLAGS q, 2, 2⟩
def COL_SQ_FLAGS_LATE (q : Nat) : RF := ⟨R.COL_SQ_FLAGS q, 1, 1⟩
def COL_SQ_FLAGS_RANGE (q : Nat) : RF := ⟨R.COL_SQ_FLAGS q, 0, 0⟩
def COL_SQ_LAST_LO_SHEAF (q : Nat) : RF := ⟨R.COL_SQ_LAST_LO q, 31, 0⟩
def COL_SQ_LAST_HI_SHEAF (q : Nat) : RF := ⟨R.COL_SQ_LAST_HI q, 31, 0⟩
def COL_SQ_LAST_IDX_BUF (q : Nat) : RF := ⟨R.COL_SQ_LAST_IDX q, 3, 0⟩
def COL_SQ_LOST_LO_SHEAF (q : Nat) : RF := ⟨R.COL_SQ_LOST_LO q, 31, 0⟩
def COL_SQ_LOST_HI_SHEAF (q : Nat) : RF := ⟨R.COL_SQ_LOST_HI q, 31, 0⟩
def COL_SQ_CNT_CLOSED (q : Nat) : RF := ⟨R.COL_SQ_CNT q, 31, 16⟩
def COL_SQ_CNT_LOST (q : Nat) : RF := ⟨R.COL_SQ_CNT q, 15, 0⟩
def COL_SQ_STRIP_CNT_LATE (q : Nat) : RF := ⟨R.COL_SQ_STRIP_CNT q, 31, 16⟩
def COL_SQ_STRIP_CNT_BAD (q : Nat) : RF := ⟨R.COL_SQ_STRIP_CNT q, 15, 0⟩
def COL_SQ_REL_BUF (q : Nat) : RF := ⟨R.COL_SQ_REL q, 3, 0⟩
def COL_SQ_CMD_RESTART (q : Nat) : RF := ⟨R.COL_SQ_CMD q, 0, 0⟩
def COL_M_CFG_EN (s : Nat) : RF := ⟨R.COL_M_CFG s, 31, 31⟩
def COL_M_CFG_SEQ (s : Nat) : RF := ⟨R.COL_M_CFG s, 30, 28⟩
def COL_M_CFG_NODE_LOG2 (s : Nat) : RF := ⟨R.COL_M_CFG s, 26, 24⟩
def COL_M_MAP_BASE (s : Nat) : RF := ⟨R.COL_M_MAP s, 31, 0⟩
def COL_M_SHIFT_SHIFT (s : Nat) : RF := ⟨R.COL_M_SHIFT s, 31, 0⟩
def COL_M_CROP_X_LO (s : Nat) : RF := ⟨R.COL_M_CROP s, 31, 16⟩
def COL_M_CROP_X_HI (s : Nat) : RF := ⟨R.COL_M_CROP s, 15, 0⟩
def COL_M_ROWS_Y_LO (s : Nat) : RF := ⟨R.COL_M_ROWS s, 31, 16⟩
def COL_M_ROWS_Y_HI (s : Nat) : RF := ⟨R.COL_M_ROWS s, 15, 0⟩
def COL_M_FEATHER_FL (s : Nat) : RF := ⟨R.COL_M_FEATHER s, 31, 16⟩
def COL_M_FEATHER_FR (s : Nat) : RF := ⟨R.COL_M_FEATHER s, 15, 0⟩
def COL_M_STAT_STATE (s : Nat) : RF := ⟨R.COL_M_STAT s, 31, 30⟩
def COL_M_WMARK_LO_M (s : Nat) : RF := ⟨R.COL_M_WMARK_LO s, 31, 0⟩
def COL_M_WMARK_HI_M (s : Nat) : RF := ⟨R.COL_M_WMARK_HI s, 31, 0⟩
def COL_M_FLAGS_LAPSED (s : Nat) : RF := ⟨R.COL_M_FLAGS s, 3, 3⟩
def COL_M_FLAGS_MAP_BAD (s : Nat) : RF := ⟨R.COL_M_FLAGS s, 2, 2⟩
def COL_M_FLAGS_LATE (s : Nat) : RF := ⟨R.COL_M_FLAGS s, 1, 1⟩
def COL_M_FLAGS_RANGE (s : Nat) : RF := ⟨R.COL_M_FLAGS s, 0, 0⟩
def COL_M_CNT_LATE (s : Nat) : RF := ⟨R.COL_M_CNT s, 31, 16⟩
def COL_M_CNT_ABSENT (s : Nat) : RF := ⟨R.COL_M_CNT s, 15, 0⟩
def COL_M_UFIRST_U (s : Nat) : RF := ⟨R.COL_M_UFIRST s, 24, 0⟩
def COL_M_ULAST_U (s : Nat) : RF := ⟨R.COL_M_ULAST s, 24, 0⟩
def COL_M_VMIN_V (s : Nat) : RF := ⟨R.COL_M_VMIN s, 31, 0⟩
def COL_M_VMAX_V (s : Nat) : RF := ⟨R.COL_M_VMAX s, 31, 0⟩
def HED_STAT_DENIED : RF := ⟨R.HED_STAT, 2, 2⟩
def HED_STAT_DROPPED : RF := ⟨R.HED_STAT, 1, 1⟩
def HED_STAT_RANGE : RF := ⟨R.HED_STAT, 0, 0⟩
def HED_CMD_APPLY : RF := ⟨R.HED_CMD, 0, 0⟩
def HED_PAL_RGB (n : Nat) : RF := ⟨R.HED_PAL n, 23, 0⟩
def HED_O_CFG_EN (o : Nat) : RF := ⟨R.HED_O_CFG o, 31, 31⟩
def HED_O_CFG_SRC_KIND (o : Nat) : RF := ⟨R.HED_O_CFG o, 30, 30⟩
def HED_O_CFG_SRC (o : Nat) : RF := ⟨R.HED_O_CFG o, 29, 24⟩
def HED_O_CFG_RING (o : Nat) : RF := ⟨R.HED_O_CFG o, 23, 16⟩
def HED_O_CFG_FMT (o : Nat) : RF := ⟨R.HED_O_CFG o, 15, 12⟩
def HED_O_CFG_TO_ETH (o : Nat) : RF := ⟨R.HED_O_CFG o, 11, 11⟩
def HED_O_WIN_COL_FIRST (o : Nat) : RF := ⟨R.HED_O_WIN o, 31, 16⟩
def HED_O_WIN_COL_COUNT (o : Nat) : RF := ⟨R.HED_O_WIN o, 15, 0⟩
def HED_O_LEVEL_HI (o : Nat) : RF := ⟨R.HED_O_LEVEL o, 31, 16⟩
def HED_O_LEVEL_LO (o : Nat) : RF := ⟨R.HED_O_LEVEL o, 15, 0⟩
def HED_O_MODE_FLAG_PLANE (o : Nat) : RF := ⟨R.HED_O_MODE o, 4, 4⟩
def HED_O_MODE_RSHIFT (o : Nat) : RF := ⟨R.HED_O_MODE o, 3, 0⟩
def HED_O_MODE_TOP_NEW (o : Nat) : RF := ⟨R.HED_O_MODE o, 2, 2⟩
def HED_O_MODE_DMODE (o : Nat) : RF := ⟨R.HED_O_MODE o, 1, 0⟩
def HED_O_MODE_DEC (o : Nat) : RF := ⟨R.HED_O_MODE o, 1, 0⟩
def HED_O_SIZE_OUT_W (o : Nat) : RF := ⟨R.HED_O_SIZE o, 31, 16⟩
def HED_O_SIZE_OUT_H (o : Nat) : RF := ⟨R.HED_O_SIZE o, 15, 0⟩
def HED_O_PERIOD_PERIOD (o : Nat) : RF := ⟨R.HED_O_PERIOD o, 23, 0⟩
def HED_O_YSTEP_YSTEP (o : Nat) : RF := ⟨R.HED_O_YSTEP o, 31, 0⟩
def HED_O_LINES_LINES (o : Nat) : RF := ⟨R.HED_O_LINES o, 15, 0⟩
def HED_O_WAIT_WAIT (o : Nat) : RF := ⟨R.HED_O_WAIT o, 23, 0⟩
def HED_O_OVL_OVL_WAIT (o : Nat) : RF := ⟨R.HED_O_OVL o, 31, 16⟩
def HED_O_OVL_FILL_TINT (o : Nat) : RF := ⟨R.HED_O_OVL o, 2, 2⟩
def HED_O_OVL_THICK (o : Nat) : RF := ⟨R.HED_O_OVL o, 1, 0⟩
def HED_O_HINT_BASE (o : Nat) : RF := ⟨R.HED_O_HINT o, 31, 24⟩
def HED_O_HINT_GAIN (o : Nat) : RF := ⟨R.HED_O_HINT o, 23, 16⟩
def HED_O_HINT_CLASSMASK (o : Nat) : RF := ⟨R.HED_O_HINT o, 15, 0⟩
def HED_O_STAGE_BASE (o : Nat) : RF := ⟨R.HED_O_STAGE o, 31, 0⟩
def HED_O_STAGE_SIZE_SIZE (o : Nat) : RF := ⟨R.HED_O_STAGE_SIZE o, 31, 0⟩
def HED_O_TX_CFG_PORT (o : Nat) : RF := ⟨R.HED_O_TX_CFG o, 31, 28⟩
def HED_O_TX_CFG_EXT_ID (o : Nat) : RF := ⟨R.HED_O_TX_CFG o, 27, 27⟩
def HED_O_TX_CFG_PKT (o : Nat) : RF := ⟨R.HED_O_TX_CFG o, 13, 0⟩
def HED_O_TX_IP_IP (o : Nat) : RF := ⟨R.HED_O_TX_IP o, 31, 0⟩
def HED_O_TX_UDP_DST (o : Nat) : RF := ⟨R.HED_O_TX_UDP o, 31, 16⟩
def HED_O_TX_UDP_SRC (o : Nat) : RF := ⟨R.HED_O_TX_UDP o, 15, 0⟩
def HED_O_TX_RATE_RATE (o : Nat) : RF := ⟨R.HED_O_TX_RATE o, 15, 0⟩
def HED_O_STAT_BUSY (o : Nat) : RF := ⟨R.HED_O_STAT o, 31, 31⟩
def HED_O_FLAGS_TX_REFUSED (o : Nat) : RF := ⟨R.HED_O_FLAGS o, 6, 6⟩
def HED_O_FLAGS_OVL_DROP (o : Nat) : RF := ⟨R.HED_O_FLAGS o, 5, 5⟩
def HED_O_FLAGS_SKIP (o : Nat) : RF := ⟨R.HED_O_FLAGS o, 4, 4⟩
def HED_O_FLAGS_DENIED (o : Nat) : RF := ⟨R.HED_O_FLAGS o, 3, 3⟩
def HED_O_FLAGS_DROPPED (o : Nat) : RF := ⟨R.HED_O_FLAGS o, 2, 2⟩
def HED_O_FLAGS_STAGE_SMALL (o : Nat) : RF := ⟨R.HED_O_FLAGS o, 1, 1⟩
def HED_O_FLAGS_RANGE (o : Nat) : RF := ⟨R.HED_O_FLAGS o, 0, 0⟩
def HED_O_UNITS_LO_UNITS (o : Nat) : RF := ⟨R.HED_O_UNITS_LO o, 31, 0⟩
def HED_O_UNITS_HI_UNITS (o : Nat) : RF := ⟨R.HED_O_UNITS_HI o, 31, 0⟩
def HED_O_DROP_SKIPPED (o : Nat) : RF := ⟨R.HED_O_DROP o, 31, 16⟩
def HED_O_DROP_DROPPED (o : Nat) : RF := ⟨R.HED_O_DROP o, 15, 0⟩
def THR_STAT_CROP_GONE : RF := ⟨R.THR_STAT, 2, 2⟩
def THR_STAT_COMP_OVF : RF := ⟨R.THR_STAT, 1, 1⟩
def THR_STAT_RANGE : RF := ⟨R.THR_STAT, 0, 0⟩
def THR_FLQ_COUNT : RF := ⟨R.THR_FLQ, 6, 0⟩
def THR_REC_LO_RECORDS : RF := ⟨R.THR_REC_LO, 31, 0⟩
def THR_REC_HI_RECORDS : RF := ⟨R.THR_REC_HI, 31, 0⟩
def THR_REC_BUSY_BUSY : RF := ⟨R.THR_REC_BUSY, 31, 0⟩
def THR_TILES_LO_TILES : RF := ⟨R.THR_TILES_LO, 31, 0⟩
def THR_TILES_HI_TILES : RF := ⟨R.THR_TILES_HI, 31, 0⟩
def THR_TILE_DONE_HANDLE : RF := ⟨R.THR_TILE_DONE, 31, 0⟩
def THR_CMD_APPLY : RF := ⟨R.THR_CMD, 0, 0⟩
def THR_TQ_STAT_HOLD (c : Nat) : RF := ⟨R.THR_TQ_STAT c, 31, 31⟩
def THR_TQ_STAT_QUEUED (c : Nat) : RF := ⟨R.THR_TQ_STAT c, 2, 0⟩
def THR_SQ_CFG_EN (q : Nat) : RF := ⟨R.THR_SQ_CFG q, 31, 31⟩
def THR_SQ_CFG_REF_EN (q : Nat) : RF := ⟨R.THR_SQ_CFG q, 30, 30⟩
def THR_SQ_CFG_CONN8 (q : Nat) : RF := ⟨R.THR_SQ_CFG q, 29, 29⟩
def THR_SQ_CFG_CORE_FIRST (q : Nat) : RF := ⟨R.THR_SQ_CFG q, 22, 16⟩
def THR_SQ_CFG_CORE_COUNT (q : Nat) : RF := ⟨R.THR_SQ_CFG q, 7, 0⟩
def THR_SQ_TILE_CORE_W (q : Nat) : RF := ⟨R.THR_SQ_TILE q, 31, 20⟩
def THR_SQ_TILE_CORE_H (q : Nat) : RF := ⟨R.THR_SQ_TILE q, 19, 8⟩
def THR_SQ_TILE_OVL (q : Nat) : RF := ⟨R.THR_SQ_TILE q, 6, 0⟩
def THR_SQ_COMP_COMP_MAX (q : Nat) : RF := ⟨R.THR_SQ_COMP q, 26, 16⟩
def THR_SQ_COMP_MIN_AREA (q : Nat) : RF := ⟨R.THR_SQ_COMP q, 15, 0⟩
def THR_FL_LO_LO (q : Nat) : RF := ⟨R.THR_FL_LO q, 23, 0⟩
def THR_FL_HI_HI (q : Nat) : RF := ⟨R.THR_FL_HI q, 23, 0⟩
def THR_FL_MASK_FLAGMASK (q : Nat) : RF := ⟨R.THR_FL_MASK q, 31, 24⟩
def THR_FL_MASK_EXCL (q : Nat) : RF := ⟨R.THR_FL_MASK q, 23, 16⟩
def THR_FL_MASK_DTOL (q : Nat) : RF := ⟨R.THR_FL_MASK q, 15, 0⟩
def THR_REF_BASE_BASE (q : Nat) : RF := ⟨R.THR_REF_BASE q, 31, 0⟩
def THR_REF_W_W (q : Nat) : RF := ⟨R.THR_REF_W q, 16, 0⟩
def THR_REF_ORIGIN_LO_ORIGIN (q : Nat) : RF := ⟨R.THR_REF_ORIGIN_LO q, 31, 0⟩
def THR_REF_ORIGIN_HI_ORIGIN (q : Nat) : RF := ⟨R.THR_REF_ORIGIN_HI q, 31, 0⟩
def THR_REF_REPEAT_REPEAT (q : Nat) : RF := ⟨R.THR_REF_REPEAT q, 31, 0⟩
def THR_REF_U0_U0 (q : Nat) : RF := ⟨R.THR_REF_U0 q, 24, 0⟩
def THR_REF_DX_DX (q : Nat) : RF := ⟨R.THR_REF_DX q, 31, 0⟩
def THR_REF_DY_DY (q : Nat) : RF := ⟨R.THR_REF_DY q, 31, 0⟩
def THR_SQ_STAT_TILES_LEFT (q : Nat) : RF := ⟨R.THR_SQ_STAT q, 31, 16⟩
def THR_SQ_STAT_HELD (q : Nat) : RF := ⟨R.THR_SQ_STAT q, 4, 0⟩
def THR_SQ_FLAGS_FLAWED (q : Nat) : RF := ⟨R.THR_SQ_FLAGS q, 3, 3⟩
def THR_SQ_FLAGS_REF_BAD (q : Nat) : RF := ⟨R.THR_SQ_FLAGS q, 2, 2⟩
def THR_SQ_FLAGS_COMP_OVF (q : Nat) : RF := ⟨R.THR_SQ_FLAGS q, 1, 1⟩
def THR_SQ_FLAGS_RANGE (q : Nat) : RF := ⟨R.THR_SQ_FLAGS q, 0, 0⟩
def THR_SQ_LAST_LO_SHEAF (q : Nat) : RF := ⟨R.THR_SQ_LAST_LO q, 31, 0⟩
def THR_SQ_LAST_HI_SHEAF (q : Nat) : RF := ⟨R.THR_SQ_LAST_HI q, 31, 0⟩
def MEM_STAT_SCRUB_RUN : RF := ⟨R.MEM_STAT, 31, 31⟩
def MEM_STAT_CE_STORM : RF := ⟨R.MEM_STAT, 4, 4⟩
def MEM_STAT_UE : RF := ⟨R.MEM_STAT, 3, 3⟩
def MEM_STAT_PART_BUSY : RF := ⟨R.MEM_STAT, 2, 2⟩
def MEM_STAT_OVERLAP : RF := ⟨R.MEM_STAT, 1, 1⟩
def MEM_STAT_RANGE : RF := ⟨R.MEM_STAT, 0, 0⟩
def MEM_CE_CNT_CE : RF := ⟨R.MEM_CE_CNT, 31, 0⟩
def MEM_UE_CNT_UE : RF := ⟨R.MEM_UE_CNT, 31, 0⟩
def MEM_UE_ADDR_LO_ADDR : RF := ⟨R.MEM_UE_ADDR_LO, 31, 0⟩
def MEM_UE_ADDR_HI_ADDR : RF := ⟨R.MEM_UE_ADDR_HI, 4, 0⟩
def MEM_SCRUB_PERIOD : RF := ⟨R.MEM_SCRUB, 15, 0⟩
def MEM_SCRUB_POS_POS : RF := ⟨R.MEM_SCRUB_POS, 20, 0⟩
def MEM_CE_THRESH_THRESH : RF := ⟨R.MEM_CE_THRESH, 15, 0⟩
def MEM_BW_PEAK : RF := ⟨R.MEM_BW, 25, 16⟩
def MEM_BW_AVG : RF := ⟨R.MEM_BW, 9, 0⟩
def MEM_PART_BASE_BASE (k : Nat) : RF := ⟨R.MEM_PART_BASE k, 16, 0⟩
def MEM_PART_SIZE_SIZE (k : Nat) : RF := ⟨R.MEM_PART_SIZE k, 16, 0⟩
def MEM_PART_USE_USE (k : Nat) : RF := ⟨R.MEM_PART_USE k, 16, 0⟩
def MEM_PART_STAT_OVER (k : Nat) : RF := ⟨R.MEM_PART_STAT k, 0, 0⟩
def MEM_PR_QUOTA_QUOTA (r : Nat) : RF := ⟨R.MEM_PR_QUOTA r, 23, 0⟩
def MEM_PR_USE_OVER (r : Nat) : RF := ⟨R.MEM_PR_USE r, 31, 31⟩
def MEM_PR_USE_CHUNKS (r : Nat) : RF := ⟨R.MEM_PR_USE r, 23, 0⟩
def MEM_PR_FREE_CHUNKS : RF := ⟨R.MEM_PR_FREE, 20, 0⟩
def GRN_CFG_EN : RF := ⟨R.GRN_CFG, 31, 31⟩
def GRN_CFG_FREEZE : RF := ⟨R.GRN_CFG, 30, 30⟩
def GRN_STAT_QFULL : RF := ⟨R.GRN_STAT, 4, 4⟩
def GRN_STAT_PIN_FULL : RF := ⟨R.GRN_STAT, 3, 3⟩
def GRN_STAT_BLOCKED : RF := ⟨R.GRN_STAT, 2, 2⟩
def GRN_STAT_OVER : RF := ⟨R.GRN_STAT, 1, 1⟩
def GRN_STAT_RANGE : RF := ⟨R.GRN_STAT, 0, 0⟩
def GRN_SEG_CAP_CAP : RF := ⟨R.GRN_SEG_CAP, 16, 0⟩
def GRN_SEG_USE_USE : RF := ⟨R.GRN_SEG_USE, 16, 0⟩
def GRN_PIN_MAX_MAX : RF := ⟨R.GRN_PIN_MAX, 16, 0⟩
def GRN_PINNED_PINNED : RF := ⟨R.GRN_PINNED, 16, 0⟩
def GRN_OLDEST_LO_TIME : RF := ⟨R.GRN_OLDEST_LO, 31, 0⟩
def GRN_OLDEST_HI_TIME : RF := ⟨R.GRN_OLDEST_HI, 31, 0⟩
def GRN_X_CFG_BY_TIME : RF := ⟨R.GRN_X_CFG, 31, 31⟩
def GRN_X_CFG_WAIT : RF := ⟨R.GRN_X_CFG, 30, 30⟩
def GRN_X_CFG_AXIS : RF := ⟨R.GRN_X_CFG, 29, 26⟩
def GRN_X_CFG_RING : RF := ⟨R.GRN_X_CFG, 23, 16⟩
def GRN_X_CFG_ID : RF := ⟨R.GRN_X_CFG, 15, 0⟩
def GRN_X_MASK_LO_MASK : RF := ⟨R.GRN_X_MASK_LO, 31, 0⟩
def GRN_X_MASK_HI_MASK : RF := ⟨R.GRN_X_MASK_HI, 31, 0⟩
def GRN_X_FROM_LO_FROM : RF := ⟨R.GRN_X_FROM_LO, 31, 0⟩
def GRN_X_FROM_HI_FROM : RF := ⟨R.GRN_X_FROM_HI, 31, 0⟩
def GRN_X_TO_LO_TO : RF := ⟨R.GRN_X_TO_LO, 31, 0⟩
def GRN_X_TO_HI_TO : RF := ⟨R.GRN_X_TO_HI, 31, 0⟩
def GRN_X_EPOCH_EPOCH : RF := ⟨R.GRN_X_EPOCH, 7, 0⟩
def GRN_X_TMO_TMO : RF := ⟨R.GRN_X_TMO, 15, 0⟩
def GRN_X_GO_ABORT : RF := ⟨R.GRN_X_GO, 1, 1⟩
def GRN_X_GO_GO : RF := ⟨R.GRN_X_GO, 0, 0⟩
def GRN_X_STAT_BUSY : RF := ⟨R.GRN_X_STAT, 31, 31⟩
def GRN_X_STAT_QUEUED : RF := ⟨R.GRN_X_STAT, 3, 0⟩
def GRN_X_LAST_ID : RF := ⟨R.GRN_X_LAST, 31, 16⟩
def GRN_X_LAST_RESULT : RF := ⟨R.GRN_X_LAST, 2, 0⟩
def GRN_S_CFG_EN (s : Nat) : RF := ⟨R.GRN_S_CFG s, 31, 31⟩
def GRN_S_CFG_FORMAT (s : Nat) : RF := ⟨R.GRN_S_CFG s, 30, 30⟩
def GRN_S_QUOTA_QUOTA (s : Nat) : RF := ⟨R.GRN_S_QUOTA s, 16, 0⟩
def GRN_S_USE_OVER (s : Nat) : RF := ⟨R.GRN_S_USE s, 31, 31⟩
def GRN_S_USE_SEGS (s : Nat) : RF := ⟨R.GRN_S_USE s, 16, 0⟩
def GRN_S_DROP_LINES (s : Nat) : RF := ⟨R.GRN_S_DROP s, 31, 0⟩
def GRN_S_OLDEST_LO_POS (s : Nat) : RF := ⟨R.GRN_S_OLDEST_LO s, 31, 0⟩
def GRN_S_OLDEST_HI_POS (s : Nat) : RF := ⟨R.GRN_S_OLDEST_HI s, 31, 0⟩
def GRN_S_NEWEST_LO_POS (s : Nat) : RF := ⟨R.GRN_S_NEWEST_LO s, 31, 0⟩
def GRN_S_NEWEST_HI_POS (s : Nat) : RF := ⟨R.GRN_S_NEWEST_HI s, 31, 0⟩
def DLV_STAT_HELDLOSS : RF := ⟨R.DLV_STAT, 2, 2⟩
def DLV_STAT_DENIED : RF := ⟨R.DLV_STAT, 1, 1⟩
def DLV_STAT_RANGE : RF := ⟨R.DLV_STAT, 0, 0⟩
def DLV_R_POLICY_EN (r : Nat) : RF := ⟨R.DLV_R_POLICY r, 31, 31⟩
def DLV_R_POLICY_MODE (r : Nat) : RF := ⟨R.DLV_R_POLICY r, 30, 29⟩
def DLV_R_POLICY_AXIS (r : Nat) : RF := ⟨R.DLV_R_POLICY r, 28, 25⟩
def DLV_R_POLICY_CHANNEL (r : Nat) : RF := ⟨R.DLV_R_POLICY r, 24, 19⟩
def DLV_R_POLICY_BATCH (r : Nat) : RF := ⟨R.DLV_R_POLICY r, 6, 0⟩
def DLV_R_QBPS_MBPS (r : Nat) : RF := ⟨R.DLV_R_QBPS r, 31, 0⟩
def DLV_R_QSLOTS_SLOTS (r : Nat) : RF := ⟨R.DLV_R_QSLOTS r, 20, 0⟩
def DLV_R_STAT_STATE (r : Nat) : RF := ⟨R.DLV_R_STAT r, 31, 30⟩
def DLV_R_STAT_OVER (r : Nat) : RF := ⟨R.DLV_R_STAT r, 29, 29⟩
def DLV_R_STAT_FULL (r : Nat) : RF := ⟨R.DLV_R_STAT r, 5, 5⟩
def DLV_R_STAT_QUOTA (r : Nat) : RF := ⟨R.DLV_R_STAT r, 4, 4⟩
def DLV_R_STAT_TOO_BIG (r : Nat) : RF := ⟨R.DLV_R_STAT r, 3, 3⟩
def DLV_R_STAT_DENIED (r : Nat) : RF := ⟨R.DLV_R_STAT r, 2, 2⟩
def DLV_R_STAT_LOSS (r : Nat) : RF := ⟨R.DLV_R_STAT r, 1, 1⟩
def DLV_R_STAT_RANGE (r : Nat) : RF := ⟨R.DLV_R_STAT r, 0, 0⟩
def DLV_R_HELDLOSS_UNITS (r : Nat) : RF := ⟨R.DLV_R_HELDLOSS r, 31, 0⟩
def DLV_R_DROP_UNITS (r : Nat) : RF := ⟨R.DLV_R_DROP r, 31, 0⟩
def DLV_R_ENV_LO_ENV_NO (r : Nat) : RF := ⟨R.DLV_R_ENV_LO r, 31, 0⟩
def DLV_R_ENV_HI_ENV_NO (r : Nat) : RF := ⟨R.DLV_R_ENV_HI r, 31, 0⟩
def DLV_H_BASE_LO_BASE (r : Nat) : RF := ⟨R.DLV_H_BASE_LO r, 31, 12⟩
def DLV_H_BASE_HI_BASE (r : Nat) : RF := ⟨R.DLV_H_BASE_HI r, 31, 0⟩
def DLV_H_CFG_SLOTS_LOG2 (r : Nat) : RF := ⟨R.DLV_H_CFG r, 31, 27⟩
def DLV_H_CFG_SLOT_LOG2 (r : Nat) : RF := ⟨R.DLV_H_CFG r, 26, 22⟩
def DLV_H_CFG_CQ (r : Nat) : RF := ⟨R.DLV_H_CFG r, 21, 17⟩
def DLV_H_CFG_VEC_EN (r : Nat) : RF := ⟨R.DLV_H_CFG r, 16, 16⟩
def DLV_H_CFG_VECTOR (r : Nat) : RF := ⟨R.DLV_H_CFG r, 7, 0⟩
def DLV_H_CTRL_DEACTIVATE (r : Nat) : RF := ⟨R.DLV_H_CTRL r, 1, 1⟩
def DLV_H_CTRL_ACTIVATE (r : Nat) : RF := ⟨R.DLV_H_CTRL r, 0, 0⟩
def DLV_H_PROD_PROD (r : Nat) : RF := ⟨R.DLV_H_PROD r, 31, 0⟩
def DLV_H_CONS_CONS (r : Nat) : RF := ⟨R.DLV_H_CONS r, 31, 0⟩
def DLV_H_STAT_STAT (r : Nat) : RF := ⟨R.DLV_H_STAT r, 31, 0⟩
def DLV_H_POLICY_POLICY (r : Nat) : RF := ⟨R.DLV_H_POLICY r, 31, 0⟩
def DLV_CQ_BASE_LO_BASE (c : Nat) : RF := ⟨R.DLV_CQ_BASE_LO c, 31, 12⟩
def DLV_CQ_BASE_HI_BASE (c : Nat) : RF := ⟨R.DLV_CQ_BASE_HI c, 31, 0⟩
def DLV_CQ_CFG_LOG2 (c : Nat) : RF := ⟨R.DLV_CQ_CFG c, 28, 24⟩
def DLV_CQ_CFG_VECTOR (c : Nat) : RF := ⟨R.DLV_CQ_CFG c, 23, 16⟩
def DLV_CQ_CFG_MOD_COUNT (c : Nat) : RF := ⟨R.DLV_CQ_CFG c, 15, 8⟩
def DLV_CQ_MOD_MOD_TIME (c : Nat) : RF := ⟨R.DLV_CQ_MOD c, 15, 0⟩
def DLV_CQ_TAIL_TAIL (c : Nat) : RF := ⟨R.DLV_CQ_TAIL c, 31, 0⟩
def DLV_CQ_HEAD_HEAD (c : Nat) : RF := ⟨R.DLV_CQ_HEAD c, 31, 0⟩
def DLV_CQ_STAT_ENABLED (c : Nat) : RF := ⟨R.DLV_CQ_STAT c, 31, 31⟩
def DLV_CQ_STAT_CQ_FULL (c : Nat) : RF := ⟨R.DLV_CQ_STAT c, 1, 1⟩
def DLV_CQ_STAT_RANGE (c : Nat) : RF := ⟨R.DLV_CQ_STAT c, 0, 0⟩
def DLV_CQ_CTRL_DISABLE (c : Nat) : RF := ⟨R.DLV_CQ_CTRL c, 1, 1⟩
def DLV_CQ_CTRL_ENABLE (c : Nat) : RF := ⟨R.DLV_CQ_CTRL c, 0, 0⟩
def DMA_C_SRC_LO_SRC (n : Nat) : RF := ⟨R.DMA_C_SRC_LO n, 31, 0⟩
def DMA_C_SRC_HI_SRC (n : Nat) : RF := ⟨R.DMA_C_SRC_HI n, 31, 0⟩
def DMA_C_DST_LO_DST (n : Nat) : RF := ⟨R.DMA_C_DST_LO n, 31, 0⟩
def DMA_C_DST_HI_DST (n : Nat) : RF := ⟨R.DMA_C_DST_HI n, 31, 0⟩
def DMA_C_LEN_LEN (n : Nat) : RF := ⟨R.DMA_C_LEN n, 31, 0⟩
def DMA_C_CTRL_CTRL (n : Nat) : RF := ⟨R.DMA_C_CTRL n, 31, 0⟩
def DMA_C_CHAIN_LO_CHAIN (n : Nat) : RF := ⟨R.DMA_C_CHAIN_LO n, 31, 6⟩
def DMA_C_CHAIN_HI_CHAIN (n : Nat) : RF := ⟨R.DMA_C_CHAIN_HI n, 31, 0⟩
def DMA_C_USER_USER (n : Nat) : RF := ⟨R.DMA_C_USER n, 31, 0⟩
def DMA_C_CUR_SRC_LO_SRC (n : Nat) : RF := ⟨R.DMA_C_CUR_SRC_LO n, 31, 0⟩
def DMA_C_CUR_SRC_HI_SRC (n : Nat) : RF := ⟨R.DMA_C_CUR_SRC_HI n, 31, 0⟩
def DMA_C_CUR_DST_LO_DST (n : Nat) : RF := ⟨R.DMA_C_CUR_DST_LO n, 31, 0⟩
def DMA_C_CUR_DST_HI_DST (n : Nat) : RF := ⟨R.DMA_C_CUR_DST_HI n, 31, 0⟩
def DMA_C_REMAIN_REMAIN (n : Nat) : RF := ⟨R.DMA_C_REMAIN n, 31, 0⟩
def DMA_C_CUR_DESC_LO_DESC (n : Nat) : RF := ⟨R.DMA_C_CUR_DESC_LO n, 31, 0⟩
def DMA_C_CUR_DESC_HI_DESC (n : Nat) : RF := ⟨R.DMA_C_CUR_DESC_HI n, 31, 0⟩
def DMA_C_STAT_STATE (n : Nat) : RF := ⟨R.DMA_C_STAT n, 31, 28⟩
def DMA_C_STAT_LAST_STATUS (n : Nat) : RF := ⟨R.DMA_C_STAT n, 27, 24⟩
def DMA_C_STAT_DB_PENDING (n : Nat) : RF := ⟨R.DMA_C_STAT n, 23, 23⟩
def DMA_C_STAT_CQ_FULL (n : Nat) : RF := ⟨R.DMA_C_STAT n, 2, 2⟩
def DMA_C_STAT_START_BUSY (n : Nat) : RF := ⟨R.DMA_C_STAT n, 1, 1⟩
def DMA_C_STAT_RANGE (n : Nat) : RF := ⟨R.DMA_C_STAT n, 0, 0⟩
def DMA_C_CMD_DOORBELL (n : Nat) : RF := ⟨R.DMA_C_CMD n, 4, 4⟩
def DMA_C_CMD_ABORT (n : Nat) : RF := ⟨R.DMA_C_CMD n, 3, 3⟩
def DMA_C_CMD_RESUME (n : Nat) : RF := ⟨R.DMA_C_CMD n, 2, 2⟩
def DMA_C_CMD_PAUSE (n : Nat) : RF := ⟨R.DMA_C_CMD n, 1, 1⟩
def DMA_C_CMD_START (n : Nat) : RF := ⟨R.DMA_C_CMD n, 0, 0⟩
def DMA_C_OWNER_RING (n : Nat) : RF := ⟨R.DMA_C_OWNER n, 31, 31⟩
def DMA_C_OWNER_KIND (n : Nat) : RF := ⟨R.DMA_C_OWNER n, 9, 8⟩
def DMA_C_OWNER_CORE (n : Nat) : RF := ⟨R.DMA_C_OWNER n, 7, 0⟩
def DMA_CFG_STARVE : RF := ⟨R.DMA_CFG, 23, 16⟩
def DMA_CFG_BURST : RF := ⟨R.DMA_CFG, 12, 0⟩
def DMA_STAT_RANGE : RF := ⟨R.DMA_STAT, 0, 0⟩
def HIF_ID_DEVICE_ID : RF := ⟨R.HIF_ID, 31, 16⟩
def HIF_ID_VENDOR_ID : RF := ⟨R.HIF_ID, 15, 0⟩
def HIF_REV_MAP_REV : RF := ⟨R.HIF_REV, 31, 16⟩
def HIF_REV_DIE_REV : RF := ⟨R.HIF_REV, 15, 8⟩
def HIF_REV_ROM_REV : RF := ⟨R.HIF_REV, 7, 0⟩
def HIF_MODE_DEV_MODE : RF := ⟨R.HIF_MODE, 31, 28⟩
def HIF_MODE_LIFECYCLE : RF := ⟨R.HIF_MODE, 25, 24⟩
def HIF_STAT_DIR_VALID : RF := ⟨R.HIF_STAT, 31, 31⟩
def PCI_LINK_UP : RF := ⟨R.PCI_LINK, 31, 31⟩
def PCI_LINK_FLIT : RF := ⟨R.PCI_LINK, 30, 30⟩
def PCI_LINK_SPEED : RF := ⟨R.PCI_LINK, 27, 24⟩
def PCI_LINK_WIDTH : RF := ⟨R.PCI_LINK, 20, 16⟩
def PCI_LINK_PM : RF := ⟨R.PCI_LINK, 1, 0⟩
def PCI_STAT_LINK_DOWN : RF := ⟨R.PCI_STAT, 4, 4⟩
def PCI_STAT_BAR2_OUT : RF := ⟨R.PCI_STAT, 3, 3⟩
def PCI_STAT_DEGRADED : RF := ⟨R.PCI_STAT, 2, 2⟩
def PCI_STAT_CTO : RF := ⟨R.PCI_STAT, 1, 1⟩
def PCI_STAT_RANGE : RF := ⟨R.PCI_STAT, 0, 0⟩
def PCI_LATE_CPL_COUNT : RF := ⟨R.PCI_LATE_CPL, 31, 0⟩
def PCI_CTO_CNT_COUNT : RF := ⟨R.PCI_CTO_CNT, 31, 0⟩
def PCI_TAGS_QUARANTINED : RF := ⟨R.PCI_TAGS, 28, 16⟩
def PCI_TAGS_OUTSTANDING : RF := ⟨R.PCI_TAGS, 10, 0⟩
def PCI_CONTAIN_CONTAINED : RF := ⟨R.PCI_CONTAIN, 31, 31⟩
def PCI_CONTAIN_CAUSE : RF := ⟨R.PCI_CONTAIN, 30, 29⟩
def PCI_CONTAIN_FIRST_ERR : RF := ⟨R.PCI_CONTAIN, 20, 16⟩
def PCI_CONTAIN_RESUME_DMA : RF := ⟨R.PCI_CONTAIN, 1, 1⟩
def PCI_CONTAIN_RELEASE : RF := ⟨R.PCI_CONTAIN, 0, 0⟩
def PCI_CONTAIN_MASK_MASK : RF := ⟨R.PCI_CONTAIN_MASK, 31, 0⟩
def PCI_BAR2_WIN_SIZE : RF := ⟨R.PCI_BAR2_WIN, 31, 24⟩
def PCI_BAR2_WIN_BASE : RF := ⟨R.PCI_BAR2_WIN, 10, 0⟩
def PCI_BAR2_DROP_COUNT : RF := ⟨R.PCI_BAR2_DROP, 31, 0⟩
def PCI_SUBSYS_SSID : RF := ⟨R.PCI_SUBSYS, 15, 0⟩
def PCI_LTR_ACTIVE : RF := ⟨R.PCI_LTR, 31, 16⟩
def PCI_LTR_IDLE : RF := ⟨R.PCI_LTR, 15, 0⟩
def PCI_PME_SEND : RF := ⟨R.PCI_PME, 31, 31⟩
def PCI_PME_FREE_THRESH : RF := ⟨R.PCI_PME, 20, 0⟩
def EVT_PEND_PEND (k : Nat) : RF := ⟨R.EVT_PEND k, 31, 0⟩
def EVT_MASK_MASK (k : Nat) : RF := ⟨R.EVT_MASK k, 31, 0⟩
def EVT_STAT_INTA : RF := ⟨R.EVT_STAT, 0, 0⟩
def FUS_WORD_FUSE (w : Nat) : RF := ⟨R.FUS_WORD w, 31, 0⟩
def FUS_STAT_SENSED : RF := ⟨R.FUS_STAT, 31, 31⟩
def FUS_STAT_VPP_OK : RF := ⟨R.FUS_STAT, 30, 30⟩
def FUS_STAT_CRC_OK : RF := ⟨R.FUS_STAT, 29, 29⟩
def FUS_STAT_PROG_FAIL : RF := ⟨R.FUS_STAT, 1, 1⟩
def FUS_STAT_LC_SPLIT : RF := ⟨R.FUS_STAT, 0, 0⟩
def FUS_LC_LIFECYCLE : RF := ⟨R.FUS_LC, 31, 30⟩
def FUS_LC_PENDING : RF := ⟨R.FUS_LC, 29, 28⟩
def FUS_LC_ROLLBACK : RF := ⟨R.FUS_LC, 22, 16⟩
def FUS_LC_REVOKED : RF := ⟨R.FUS_LC, 11, 8⟩
def FUS_LC_DEBUG_OPEN : RF := ⟨R.FUS_LC, 4, 4⟩
def FUS_LC_IDE : RF := ⟨R.FUS_LC, 3, 3⟩
def SEC_STAT_LOCKDOWN : RF := ⟨R.SEC_STAT, 31, 31⟩
def SEC_STAT_CAUSE : RF := ⟨R.SEC_STAT, 27, 24⟩
def SEC_STAT_SESSIONS : RF := ⟨R.SEC_STAT, 19, 16⟩
def SEC_STAT_SELFTEST_OK : RF := ⟨R.SEC_STAT, 0, 0⟩
def SEC_AUTH_BLOCKED : RF := ⟨R.SEC_AUTH, 31, 31⟩
def SEC_AUTH_FAILS : RF := ⟨R.SEC_AUTH, 7, 0⟩
def SEC_KEYED_KEYED (k : Nat) : RF := ⟨R.SEC_KEYED k, 31, 0⟩
def SEC_SIGN_Q_WAITING : RF := ⟨R.SEC_SIGN_Q, 8, 0⟩
def SEC_CANCEL_LO_COUNT : RF := ⟨R.SEC_CANCEL_LO, 31, 0⟩
def SEC_CANCEL_HI_COUNT : RF := ⟨R.SEC_CANCEL_HI, 31, 0⟩
def SEC_NOISE_FAILS : RF := ⟨R.SEC_NOISE, 15, 0⟩
def EBK_NODE_SYS_ID : RF := ⟨R.EBK_NODE, 31, 16⟩
def EBK_NODE_NODE : RF := ⟨R.EBK_NODE, 8, 0⟩
def EBK_STAT_XFER_BAD : RF := ⟨R.EBK_STAT, 3, 3⟩
def EBK_STAT_NOROUTE : RF := ⟨R.EBK_STAT, 2, 2⟩
def EBK_STAT_ROUTE_LOOP : RF := ⟨R.EBK_STAT, 1, 1⟩
def EBK_STAT_RANGE : RF := ⟨R.EBK_STAT, 0, 0⟩
def EBK_AXS_UDP_PORT : RF := ⟨R.EBK_AXS_UDP, 15, 0⟩
def EBK_X_SRC_SRC : RF := ⟨R.EBK_X_SRC, 31, 0⟩
def EBK_X_DST_DST : RF := ⟨R.EBK_X_DST, 31, 0⟩
def EBK_X_LEN_LEN : RF := ⟨R.EBK_X_LEN, 24, 0⟩
def EBK_X_GO_GO : RF := ⟨R.EBK_X_GO, 31, 31⟩
def EBK_X_GO_NODE : RF := ⟨R.EBK_X_GO, 8, 0⟩
def EBK_X_STAT_BUSY : RF := ⟨R.EBK_X_STAT, 31, 31⟩
def EBK_X_STAT_QUEUED : RF := ⟨R.EBK_X_STAT, 3, 0⟩
def EBK_X_DONE_COUNT : RF := ⟨R.EBK_X_DONE, 31, 0⟩
def EBK_IN_BASE_BASE : RF := ⟨R.EBK_IN_BASE, 31, 0⟩
def EBK_IN_SIZE_SIZE : RF := ⟨R.EBK_IN_SIZE, 31, 0⟩
def EBK_IN_DONE_COUNT : RF := ⟨R.EBK_IN_DONE, 31, 0⟩
def EBK_DROP_NOROUTE : RF := ⟨R.EBK_DROP, 31, 24⟩
def EBK_DROP_LOOP : RF := ⟨R.EBK_DROP, 23, 16⟩
def EBK_DROP_XFER : RF := ⟨R.EBK_DROP, 15, 8⟩
def EBK_DROP_EVENT : RF := ⟨R.EBK_DROP, 7, 0⟩
def EBK_ROUTE_VALID (n : Nat) : RF := ⟨R.EBK_ROUTE n, 31, 31⟩
def EBK_ROUTE_LINK (n : Nat) : RF := ⟨R.EBK_ROUTE n, 2, 0⟩
def EBK_REV_VALID (r : Nat) : RF := ⟨R.EBK_REV r, 31, 31⟩
def EBK_REV_NBR (r : Nat) : RF := ⟨R.EBK_REV r, 30, 30⟩
def EBK_REV_DEST (r : Nat) : RF := ⟨R.EBK_REV r, 8, 0⟩
def EBK_XS_CFG_EN (t : Nat) : RF := ⟨R.EBK_XS_CFG t, 31, 31⟩
def EBK_XS_CFG_PORT (t : Nat) : RF := ⟨R.EBK_XS_CFG t, 29, 26⟩
def EBK_XS_CFG_KIND (t : Nat) : RF := ⟨R.EBK_XS_CFG t, 24, 24⟩
def EBK_XS_CFG_AXIS (t : Nat) : RF := ⟨R.EBK_XS_CFG t, 19, 16⟩
def EBK_XS_CFG_PERIOD (t : Nat) : RF := ⟨R.EBK_XS_CFG t, 15, 0⟩
def EBK_XS_DST_IP (t : Nat) : RF := ⟨R.EBK_XS_DST t, 31, 0⟩
def EBK_CFG_EN (k : Nat) : RF := ⟨R.EBK_CFG k, 31, 31⟩
def EBK_CFG_LANE (k : Nat) : RF := ⟨R.EBK_CFG k, 28, 24⟩
def EBK_CFG_LOOP (k : Nat) : RF := ⟨R.EBK_CFG k, 21, 20⟩
def EBK_CFG_PRBS (k : Nat) : RF := ⟨R.EBK_CFG k, 18, 16⟩
def EBK_CFG_WINDOW (k : Nat) : RF := ⟨R.EBK_CFG k, 5, 0⟩
def EBK_RETRY_RETRY_TMO (k : Nat) : RF := ⟨R.EBK_RETRY k, 31, 16⟩
def EBK_RETRY_RETRY_MAX (k : Nat) : RF := ⟨R.EBK_RETRY k, 4, 0⟩
def EBK_STATE_PHASE (k : Nat) : RF := ⟨R.EBK_STATE k, 31, 29⟩
def EBK_STATE_LINK_ABSENT (k : Nat) : RF := ⟨R.EBK_STATE k, 28, 28⟩
def EBK_FLAGS_TB_NEW (k : Nat) : RF := ⟨R.EBK_FLAGS k, 9, 9⟩
def EBK_FLAGS_RETRY_FAIL (k : Nat) : RF := ⟨R.EBK_FLAGS k, 8, 8⟩
def EBK_FLAGS_RANGE_FAIL (k : Nat) : RF := ⟨R.EBK_FLAGS k, 7, 7⟩
def EBK_FLAGS_GREET_TMO (k : Nat) : RF := ⟨R.EBK_FLAGS k, 6, 6⟩
def EBK_FLAGS_NODE_DUP (k : Nat) : RF := ⟨R.EBK_FLAGS k, 5, 5⟩
def EBK_FLAGS_REFUSED (k : Nat) : RF := ⟨R.EBK_FLAGS k, 4, 4⟩
def EBK_FLAGS_FREQ_ERR (k : Nat) : RF := ⟨R.EBK_FLAGS k, 3, 3⟩
def EBK_FLAGS_SLIP (k : Nat) : RF := ⟨R.EBK_FLAGS k, 2, 2⟩
def EBK_FLAGS_LOST (k : Nat) : RF := ⟨R.EBK_FLAGS k, 1, 1⟩
def EBK_FLAGS_RANGE (k : Nat) : RF := ⟨R.EBK_FLAGS k, 0, 0⟩
def EBK_PARTNER_SYS_ID (k : Nat) : RF := ⟨R.EBK_PARTNER k, 31, 16⟩
def EBK_PARTNER_LINK (k : Nat) : RF := ⟨R.EBK_PARTNER k, 14, 12⟩
def EBK_PARTNER_NODE (k : Nat) : RF := ⟨R.EBK_PARTNER k, 8, 0⟩
def EBK_LAT_LAT (k : Nat) : RF := ⟨R.EBK_LAT k, 15, 0⟩
def EBK_LAT_ADJ_ADJ (k : Nat) : RF := ⟨R.EBK_LAT_ADJ k, 15, 0⟩
def EBK_FREQ_PPM (k : Nat) : RF := ⟨R.EBK_FREQ k, 15, 0⟩
def EBK_HDR_CNT_INVALID (k : Nat) : RF := ⟨R.EBK_HDR_CNT k, 31, 16⟩
def EBK_HDR_CNT_LOSSES (k : Nat) : RF := ⟨R.EBK_HDR_CNT k, 15, 0⟩
def EBK_FRM_CNT_BAD (k : Nat) : RF := ⟨R.EBK_FRM_CNT k, 31, 16⟩
def EBK_FRM_CNT_REWINDS (k : Nat) : RF := ⟨R.EBK_FRM_CNT k, 15, 0⟩
def EBK_RUN_CNT_COUNT (k : Nat) : RF := ⟨R.EBK_RUN_CNT k, 31, 0⟩
def EBK_TB_OFS_LO_OFS (k : Nat) : RF := ⟨R.EBK_TB_OFS_LO k, 31, 0⟩
def EBK_TB_OFS_HI_OFS (k : Nat) : RF := ⟨R.EBK_TB_OFS_HI k, 31, 0⟩
def EBK_PRBS_ERR_ERRORS (k : Nat) : RF := ⟨R.EBK_PRBS_ERR k, 31, 0⟩
def EBK_PRBS_BITS_LO_BITS (k : Nat) : RF := ⟨R.EBK_PRBS_BITS_LO k, 31, 0⟩
def EBK_PRBS_BITS_HI_BITS (k : Nat) : RF := ⟨R.EBK_PRBS_BITS_HI k, 31, 0⟩
def EBK_CMD_RESTART (k : Nat) : RF := ⟨R.EBK_CMD k, 0, 0⟩
def EBK_BCN_EN (k : Nat) (b : Nat) : RF := ⟨R.EBK_BCN k b, 31, 31⟩
def EBK_BCN_KIND (k : Nat) (b : Nat) : RF := ⟨R.EBK_BCN k b, 30, 30⟩
def EBK_BCN_AXIS (k : Nat) (b : Nat) : RF := ⟨R.EBK_BCN k b, 27, 24⟩
def EBK_BCN_PERIOD (k : Nat) (b : Nat) : RF := ⟨R.EBK_BCN k b, 15, 0⟩
def LNK_FREEZE_ON_LOW_FREEZE : RF := ⟨R.LNK_FREEZE_ON_LOW, 23, 0⟩
def LNK_TXEQ_PRE (n : Nat) : RF := ⟨R.LNK_TXEQ n, 21, 16⟩
def LNK_TXEQ_MAIN (n : Nat) : RF := ⟨R.LNK_TXEQ n, 13, 8⟩
def LNK_TXEQ_POST (n : Nat) : RF := ⟨R.LNK_TXEQ n, 5, 0⟩
def LNK_ADAPT_CFG_STEP_INT (n : Nat) : RF := ⟨R.LNK_ADAPT_CFG n, 23, 16⟩
def LNK_ADAPT_CFG_MRG_THRESH (n : Nat) : RF := ⟨R.LNK_ADAPT_CFG n, 6, 0⟩
def LNK_RXEQ_CTLE (n : Nat) : RF := ⟨R.LNK_RXEQ n, 31, 24⟩
def LNK_RXEQ_DFE1 (n : Nat) : RF := ⟨R.LNK_RXEQ n, 23, 16⟩
def LNK_RXEQ_DFE2 (n : Nat) : RF := ⟨R.LNK_RXEQ n, 15, 8⟩
def LNK_RXEQ_DFE3 (n : Nat) : RF := ⟨R.LNK_RXEQ n, 7, 0⟩
def LNK_MARGIN_SNAPSHOT (n : Nat) : RF := ⟨R.LNK_MARGIN n, 31, 16⟩
def LNK_MARGIN_CURRENT (n : Nat) : RF := ⟨R.LNK_MARGIN n, 15, 0⟩
def LNK_L_FLAGS_FROZEN (n : Nat) : RF := ⟨R.LNK_L_FLAGS n, 31, 31⟩
def LNK_L_FLAGS_MARGIN_LOW (n : Nat) : RF := ⟨R.LNK_L_FLAGS n, 1, 1⟩
def LNK_L_FLAGS_RANGE (n : Nat) : RF := ⟨R.LNK_L_FLAGS n, 0, 0⟩
def LNK_L_CMD_SNAPSHOT (n : Nat) : RF := ⟨R.LNK_L_CMD n, 1, 1⟩
def LNK_L_CMD_UNFREEZE (n : Nat) : RF := ⟨R.LNK_L_CMD n, 0, 0⟩
def DEV_MODE_MODE : RF := ⟨R.DEV_MODE, 31, 28⟩
def DEV_MODE_PREV : RF := ⟨R.DEV_MODE, 27, 24⟩
def DEV_MODE_REQ : RF := ⟨R.DEV_MODE, 23, 20⟩
def DEV_MODE_REFUSE : RF := ⟨R.DEV_MODE, 15, 8⟩
def DEV_MODE_REPLAY_BAD : RF := ⟨R.DEV_MODE, 3, 3⟩
def DEV_MODE_REPLAY_DONE : RF := ⟨R.DEV_MODE, 2, 2⟩
def DEV_MODE_REFUSED : RF := ⟨R.DEV_MODE, 1, 1⟩
def DEV_MODE_RANGE : RF := ⟨R.DEV_MODE, 0, 0⟩
def DEV_MODE_CMD_REQ : RF := ⟨R.DEV_MODE_CMD, 3, 0⟩
def DEV_CMD_FULL_RESET : RF := ⟨R.DEV_CMD, 0, 0⟩
def DEV_RPL_BASE_BASE : RF := ⟨R.DEV_RPL_BASE, 31, 0⟩
def DEV_RPL_LEN_LEN : RF := ⟨R.DEV_RPL_LEN, 31, 0⟩
def DEV_RPL_MASK_LO_MASK : RF := ⟨R.DEV_RPL_MASK_LO, 31, 0⟩
def DEV_RPL_MASK_HI_MASK : RF := ⟨R.DEV_RPL_MASK_HI, 31, 0⟩
def DEV_RPL_RATE_RATE : RF := ⟨R.DEV_RPL_RATE, 15, 0⟩
def DEV_RPL_CMD_ABORT : RF := ⟨R.DEV_RPL_CMD, 1, 1⟩
def DEV_RPL_CMD_GO : RF := ⟨R.DEV_RPL_CMD, 0, 0⟩
def DEV_RPL_STAT_BUSY : RF := ⟨R.DEV_RPL_STAT, 31, 31⟩
def DEV_RPL_LINES_LINES : RF := ⟨R.DEV_RPL_LINES, 31, 0⟩
def DEV_BIST_CMD_GO : RF := ⟨R.DEV_BIST_CMD, 0, 0⟩
def DEV_BIST_STAT_BUSY : RF := ⟨R.DEV_BIST_STAT, 31, 31⟩
def DEV_BIST_STAT_DONE : RF := ⟨R.DEV_BIST_STAT, 30, 30⟩
def DEV_BIST_STAT_PASS : RF := ⟨R.DEV_BIST_STAT, 29, 29⟩
def DEV_BIST_STAT_FAILS : RF := ⟨R.DEV_BIST_STAT, 7, 0⟩
def PWR_CFG_AUTO_SLEEP : RF := ⟨R.PWR_CFG, 31, 31⟩
def PWR_CFG_CLUSTER_GATE : RF := ⟨R.PWR_CFG, 15, 0⟩
def PWR_WAKE_EN_AXIS : RF := ⟨R.PWR_WAKE_EN, 4, 4⟩
def PWR_WAKE_EN_TIMER : RF := ⟨R.PWR_WAKE_EN, 3, 3⟩
def PWR_WAKE_EN_PERST : RF := ⟨R.PWR_WAKE_EN, 2, 2⟩
def PWR_WAKE_EN_TWI : RF := ⟨R.PWR_WAKE_EN, 1, 1⟩
def PWR_WAKE_EN_PIN : RF := ⟨R.PWR_WAKE_EN, 0, 0⟩
def PWR_WAKE_STAT_WAKE_ABORT : RF := ⟨R.PWR_WAKE_STAT, 8, 8⟩
def PWR_WAKE_STAT_AXIS : RF := ⟨R.PWR_WAKE_STAT, 4, 4⟩
def PWR_WAKE_STAT_TIMER : RF := ⟨R.PWR_WAKE_STAT, 3, 3⟩
def PWR_WAKE_STAT_PERST : RF := ⟨R.PWR_WAKE_STAT, 2, 2⟩
def PWR_WAKE_STAT_TWI : RF := ⟨R.PWR_WAKE_STAT, 1, 1⟩
def PWR_WAKE_STAT_PIN : RF := ⟨R.PWR_WAKE_STAT, 0, 0⟩
def PWR_WAKE_TMR_MS : RF := ⟨R.PWR_WAKE_TMR, 31, 0⟩
def PWR_WAKE_TICKS_AXIS : RF := ⟨R.PWR_WAKE_TICKS, 26, 24⟩
def PWR_WAKE_TICKS_TICKS : RF := ⟨R.PWR_WAKE_TICKS, 23, 0⟩
def PWR_STAT_LAST_WAKE : RF := ⟨R.PWR_STAT, 31, 16⟩
def PWR_STAT_SLEEPS : RF := ⟨R.PWR_STAT, 15, 0⟩
def PWR_P_CORE_MW : RF := ⟨R.PWR_P_CORE, 19, 0⟩
def PWR_P_HBM_MW : RF := ⟨R.PWR_P_HBM, 19, 0⟩
def PWR_P_SDS_MW : RF := ⟨R.PWR_P_SDS, 19, 0⟩
def PWR_P_IO_MW : RF := ⟨R.PWR_P_IO, 19, 0⟩
def PWR_P_TOTAL_MW : RF := ⟨R.PWR_P_TOTAL, 19, 0⟩
def PWR_TJ_TJ : RF := ⟨R.PWR_TJ, 15, 0⟩
def RAS_STAT_FATAL : RF := ⟨R.RAS_STAT, 31, 31⟩
def RAS_STAT_HALTED : RF := ⟨R.RAS_STAT, 30, 30⟩
def RAS_STAT_WARM_BUSY : RF := ⟨R.RAS_STAT, 29, 29⟩
def RAS_STAT_LOG_OVF : RF := ⟨R.RAS_STAT, 4, 4⟩
def RAS_STAT_THERM_WARN : RF := ⟨R.RAS_STAT, 3, 3⟩
def RAS_STAT_SWD_EXP : RF := ⟨R.RAS_STAT, 2, 2⟩
def RAS_STAT_WARM_DONE : RF := ⟨R.RAS_STAT, 1, 1⟩
def RAS_STAT_RANGE : RF := ⟨R.RAS_STAT, 0, 0⟩
def RAS_CFG_AUTO_WARM : RF := ⟨R.RAS_CFG, 31, 31⟩
def RAS_CFG_ALERT_EN : RF := ⟨R.RAS_CFG, 30, 30⟩
def RAS_CFG_WARM_MAX : RF := ⟨R.RAS_CFG, 19, 16⟩
def RAS_CFG_THERM_WARN : RF := ⟨R.RAS_CFG, 7, 0⟩
def RAS_CMD_LOG_CLEAR : RF := ⟨R.RAS_CMD, 1, 1⟩
def RAS_CMD_WARM : RF := ⟨R.RAS_CMD, 0, 0⟩
def RAS_SWD_ACTION : RF := ⟨R.RAS_SWD, 31, 30⟩
def RAS_SWD_LOAD : RF := ⟨R.RAS_SWD, 15, 0⟩
def RAS_SWD_KICK_KICK : RF := ⟨R.RAS_SWD_KICK, 31, 0⟩
def RAS_SWD_COUNT_COUNT : RF := ⟨R.RAS_SWD_COUNT, 15, 0⟩
def RAS_LOG_WR_COUNT : RF := ⟨R.RAS_LOG_WR, 31, 0⟩
def RAS_LOG_SEL_SEQ : RF := ⟨R.RAS_LOG_SEL, 31, 0⟩
def RAS_LOG_DATA_DATA (k : Nat) : RF := ⟨R.RAS_LOG_DATA k, 31, 0⟩
def RAS_WARM_CNT_COUNT : RF := ⟨R.RAS_WARM_CNT, 15, 0⟩
def RAS_LAST_FATAL_CODE : RF := ⟨R.RAS_LAST_FATAL, 15, 8⟩
def RAS_LAST_FATAL_UNIT : RF := ⟨R.RAS_LAST_FATAL, 7, 0⟩
def RAS_AVAIL_EXP_LO_MS : RF := ⟨R.RAS_AVAIL_EXP_LO, 31, 0⟩
def RAS_AVAIL_EXP_HI_MS : RF := ⟨R.RAS_AVAIL_EXP_HI, 31, 0⟩
def RAS_AVAIL_OUT_MS : RF := ⟨R.RAS_AVAIL_OUT, 31, 0⟩
def RAS_H_CFG_IRQ_EN : RF := ⟨R.RAS_H_CFG, 31, 31⟩
def RAS_H_CFG_VECTOR : RF := ⟨R.RAS_H_CFG, 7, 0⟩
def RAS_H_CMD_WARM : RF := ⟨R.RAS_H_CMD, 0, 0⟩
def TWI_CFG_UNLIMITED : RF := ⟨R.TWI_CFG, 31, 31⟩
def TWI_CFG_HOLD_TMO : RF := ⟨R.TWI_CFG, 15, 8⟩
def TWI_CFG_STRETCH_TMO : RF := ⟨R.TWI_CFG, 7, 0⟩
def TWI_STAT_ADDR : RF := ⟨R.TWI_STAT, 31, 29⟩
def TWI_STAT_LEVEL : RF := ⟨R.TWI_STAT, 27, 26⟩
def TWI_STAT_BUSY : RF := ⟨R.TWI_STAT, 25, 25⟩
def TWI_STAT_STUCK : RF := ⟨R.TWI_STAT, 3, 3⟩
def TWI_STAT_STRETCH_TMO : RF := ⟨R.TWI_STAT, 2, 2⟩
def TWI_STAT_BUS_ERR : RF := ⟨R.TWI_STAT, 1, 1⟩
def TWI_STAT_RANGE : RF := ⟨R.TWI_STAT, 0, 0⟩
def TWI_ERR_BUS_ERR : RF := ⟨R.TWI_ERR, 31, 24⟩
def TWI_ERR_STUCK : RF := ⟨R.TWI_ERR, 23, 16⟩
def TWI_ERR_STRETCH : RF := ⟨R.TWI_ERR, 15, 8⟩
def TWI_ERR_WRITE_REJ : RF := ⟨R.TWI_ERR, 7, 0⟩
def TWI_XFER_COUNT : RF := ⟨R.TWI_XFER, 31, 0⟩

end F

/-! ### The table of every block: fields as ⟨hi, lo, type, reset, check⟩ -/

/-- Registers of DEVR (spec ch. 01). -/
def groupDevr : Group where
  base := 0x20000000
  stride := 0x100000
  count := 1
  rangeBase := 0
  rangeStride := 0
  rangeBit := 0
  regs := [
    ⟨0x10, 0x4, 1, .none, [⟨23, 16, .ro, 0x0, .none⟩, ⟨15, 7, .ro, 0x0, .none⟩, ⟨4, 4, .ro, 0x0, .none⟩, ⟨3, 1, .ro, 0x0, .none⟩, ⟨0, 0, .ro, 0x0, .none⟩]⟩]

/-- Registers of AXS (spec ch. 02). -/
def groupAxs : Group where
  base := 0x20100000
  stride := 0x100
  count := 16
  rangeBase := 0x2010002C
  rangeStride := 0x100
  rangeBit := 5
  regs := [
    ⟨0x0, 0x4, 1, .none, [⟨31, 31, .rw, 0x0, .none⟩, ⟨30, 28, .ro, 0x0, .none⟩, ⟨27, 24, .rw, 0x0, .none⟩, ⟨23, 23, .rw, 0x0, .none⟩, ⟨22, 21, .rw, 0x0, .code 3⟩, ⟨20, 20, .rw, 0x1, .none⟩, ⟨19, 19, .rw, 0x0, .none⟩, ⟨18, 16, .rw, 0x0, .code 6⟩]⟩,
    ⟨0x4, 0x4, 1, .none, [⟨31, 24, .rw, 0x8, .none⟩, ⟨23, 16, .rw, 0x32, .max 50⟩, ⟨15, 0, .rw, 0x2710, .none⟩]⟩,
    ⟨0x8, 0x4, 1, .lo, [⟨31, 0, .ro, 0x0, .none⟩]⟩,
    ⟨0xC, 0x4, 1, .hi, [⟨31, 0, .ro, 0x0, .none⟩]⟩,
    ⟨0x10, 0x4, 1, .none, [⟨31, 0, .ro, 0x0, .none⟩]⟩,
    ⟨0x14, 0x4, 1, .none, [⟨31, 0, .ro, 0xFFFFFFFF, .none⟩]⟩,
    ⟨0x18, 0x4, 1, .lo, [⟨31, 0, .ro, 0x0, .none⟩]⟩,
    ⟨0x1C, 0x4, 1, .hi, [⟨31, 0, .ro, 0x0, .none⟩]⟩,
    ⟨0x20, 0x4, 1, .lo, [⟨31, 0, .rw, 0x0, .none⟩]⟩,
    ⟨0x24, 0x4, 1, .hi, [⟨31, 0, .rw, 0x0, .none⟩]⟩,
    ⟨0x28, 0x4, 1, .none, [⟨1, 1, .wo, 0x0, .none⟩, ⟨0, 0, .wo, 0x0, .none⟩]⟩,
    ⟨0x2C, 0x4, 1, .none, [⟨31, 31, .ro, 0x0, .none⟩, ⟨30, 30, .ro, 0x0, .none⟩, ⟨29, 29, .ro, 0x0, .none⟩, ⟨28, 28, .ro, 0x0, .none⟩, ⟨8, 8, .w1c, 0x0, .none⟩, ⟨7, 7, .w1c, 0x0, .none⟩, ⟨6, 6, .w1c, 0x0, .none⟩, ⟨5, 5, .w1c, 0x0, .none⟩, ⟨4, 4, .w1c, 0x0, .none⟩, ⟨3, 3, .w1c, 0x0, .none⟩, ⟨2, 2, .w1c, 0x0, .none⟩]⟩,
    ⟨0x30, 0x4, 1, .none, [⟨31, 16, .rc, 0x0, .none⟩, ⟨15, 0, .rc, 0x0, .none⟩]⟩,
    ⟨0x34, 0x4, 1, .none, [⟨31, 0, .sh, 0x1, .none⟩]⟩,
    ⟨0x38, 0x4, 1, .none, [⟨31, 0, .sh, 0x1, .none⟩]⟩,
    ⟨0x3C, 0x4, 1, .lo, [⟨31, 0, .sh, 0x0, .none⟩]⟩,
    ⟨0x40, 0x4, 1, .hi, [⟨31, 0, .sh, 0x0, .none⟩]⟩,
    ⟨0x44, 0x4, 1, .none, [⟨31, 30, .rw, 0x0, .code 3⟩, ⟨29, 26, .rw, 0x0, .none⟩, ⟨25, 17, .rw, 0x0, .none⟩, ⟨16, 13, .rw, 0x0, .none⟩, ⟨12, 0, .rw, 0x64, .none⟩]⟩,
    ⟨0x48, 0x4, 1, .none, [⟨31, 0, .rw, 0x0, .none⟩]⟩]

/-- Registers of TIM (spec ch. 02). -/
def groupTim : Group where
  base := 0x20110000
  stride := 0x100000
  count := 1
  rangeBase := 0x20110030
  rangeStride := 0x0
  rangeBit := 4
  regs := [
    ⟨0x0, 0x4, 1, .none, [⟨31, 0, .ro, 0x0, .none⟩]⟩,
    ⟨0x4, 0x4, 1, .lo, [⟨31, 0, .ro, 0x0, .none⟩]⟩,
    ⟨0x8, 0x4, 1, .hi, [⟨15, 0, .ro, 0x0, .none⟩]⟩,
    ⟨0xC, 0x4, 1, .none, [⟨15, 0, .ro, 0x0, .none⟩]⟩,
    ⟨0x10, 0x4, 1, .none, [⟨31, 0, .ro, 0x0, .none⟩]⟩,
    ⟨0x14, 0x4, 1, .none, [⟨31, 0, .rw, 0x0, .slim 2147484⟩]⟩,
    ⟨0x18, 0x4, 1, .lo, [⟨31, 0, .rw, 0x0, .none⟩]⟩,
    ⟨0x1C, 0x4, 1, .hi, [⟨31, 0, .rw, 0x0, .none⟩]⟩,
    ⟨0x20, 0x4, 1, .lo, [⟨31, 0, .rw, 0x0, .none⟩]⟩,
    ⟨0x24, 0x4, 1, .hi, [⟨31, 0, .rw, 0x0, .none⟩]⟩,
    ⟨0x28, 0x4, 1, .none, [⟨2, 2, .wo, 0x0, .none⟩, ⟨1, 1, .wo, 0x0, .none⟩, ⟨0, 0, .wo, 0x0, .none⟩]⟩,
    ⟨0x2C, 0x4, 1, .none, [⟨31, 24, .rw, 0x28, .none⟩, ⟨19, 0, .rw, 0x3E8, .lim 500 1000000⟩]⟩,
    ⟨0x30, 0x4, 1, .none, [⟨31, 24, .ro, 0x0, .none⟩, ⟨23, 23, .ro, 0x0, .none⟩, ⟨22, 22, .ro, 0x0, .none⟩, ⟨21, 21, .ro, 0x0, .none⟩, ⟨20, 20, .ro, 0x0, .none⟩, ⟨8, 8, .w1c, 0x0, .none⟩, ⟨7, 7, .w1c, 0x0, .none⟩, ⟨6, 6, .w1c, 0x0, .none⟩, ⟨5, 5, .w1c, 0x0, .none⟩, ⟨4, 4, .w1c, 0x0, .none⟩, ⟨3, 3, .w1c, 0x0, .none⟩, ⟨1, 1, .w1c, 0x0, .none⟩, ⟨0, 0, .w1c, 0x0, .none⟩]⟩,
    ⟨0x34, 0x4, 1, .lo, [⟨31, 0, .ro, 0x0, .none⟩]⟩,
    ⟨0x38, 0x4, 1, .hi, [⟨31, 0, .ro, 0x0, .none⟩]⟩,
    ⟨0x3C, 0x4, 1, .none, [⟨31, 0, .ro, 0x0, .none⟩]⟩,
    ⟨0x40, 0x4, 1, .none, [⟨31, 0, .ro, 0x0, .none⟩]⟩,
    ⟨0x44, 0x4, 1, .none, [⟨31, 0, .ro, 0x0, .none⟩]⟩,
    ⟨0x48, 0x4, 1, .none, [⟨31, 31, .rw, 0x0, .none⟩, ⟨30, 30, .rw, 0x0, .none⟩, ⟨29, 29, .rw, 0x0, .none⟩, ⟨28, 28, .rw, 0x0, .none⟩, ⟨27, 18, .rw, 0x64, .none⟩, ⟨17, 8, .rw, 0x64, .max 999⟩]⟩,
    ⟨0x4C, 0x4, 1, .none, [⟨31, 0, .rw, 0x0, .slim 500000000⟩]⟩]

/-- Registers of MBX (spec ch. 04). -/
def groupMbx : Group where
  base := 0x100010000
  stride := 0x4000
  count := 4
  rangeBase := 0
  rangeStride := 0
  rangeBit := 0
  regs := [
    ⟨0x2000, 0x4, 1, .none, [⟨1, 1, .wo, 0x0, .none⟩, ⟨0, 0, .wo, 0x0, .none⟩]⟩,
    ⟨0x2004, 0x4, 1, .none, [⟨2, 2, .w1c, 0x0, .none⟩, ⟨1, 1, .w1c, 0x0, .none⟩, ⟨0, 0, .ro, 0x0, .none⟩]⟩,
    ⟨0x2008, 0x4, 1, .none, [⟨31, 31, .rw, 0x0, .none⟩, ⟨7, 0, .rw, 0x0, .none⟩]⟩]

/-- Registers of CCX (spec ch. 04). -/
def groupCcx : Group where
  base := 0x20D00000
  stride := 0x100000
  count := 1
  rangeBase := 0x20D00100
  rangeStride := 0x0
  rangeBit := 0
  regs := [
    ⟨0x0, 0x40, 4, .none, [⟨31, 30, .ro, 0x3, .none⟩, ⟨29, 29, .ro, 0x0, .none⟩, ⟨28, 27, .ro, 0x0, .none⟩, ⟨26, 26, .ro, 0x0, .none⟩, ⟨7, 0, .ro, 0x0, .none⟩]⟩,
    ⟨0x4, 0x40, 4, .none, [⟨31, 0, .ro, 0x0, .none⟩]⟩,
    ⟨0x8, 0x40, 4, .none, [⟨31, 0, .ro, 0x0, .none⟩]⟩,
    ⟨0xC, 0x40, 4, .none, [⟨31, 0, .ro, 0x0, .none⟩]⟩,
    ⟨0x100, 0x4, 1, .none, [⟨0, 0, .w1c, 0x0, .none⟩]⟩,
    ⟨0x10000, 0x4, 4, .none, [⟨0, 0, .wo, 0x0, .none⟩]⟩,
    ⟨0x10010, 0x4, 4, .none, [⟨31, 31, .ro, 0x0, .none⟩, ⟨0, 0, .w1c, 0x0, .none⟩]⟩]

/-- Registers of TCX (spec ch. 04). -/
def groupTcx : Group where
  base := 0x20E00000
  stride := 0x10
  count := 128
  rangeBase := 0
  rangeStride := 0
  rangeBit := 0
  regs := [
    ⟨0x0, 0x4, 1, .none, [⟨31, 30, .ro, 0x3, .none⟩, ⟨29, 29, .ro, 0x0, .none⟩, ⟨28, 27, .ro, 0x0, .none⟩, ⟨26, 26, .ro, 0x0, .none⟩, ⟨7, 0, .ro, 0x0, .none⟩]⟩,
    ⟨0x4, 0x4, 1, .none, [⟨31, 0, .ro, 0x0, .none⟩]⟩,
    ⟨0x8, 0x4, 1, .none, [⟨31, 0, .ro, 0x0, .none⟩]⟩,
    ⟨0xC, 0x4, 1, .none, [⟨31, 0, .ro, 0x0, .none⟩]⟩]

/-- Registers of XSP (spec ch. 04). -/
def groupXsp : Group where
  base := 0x20A10000
  stride := 0x100000
  count := 1
  rangeBase := 0
  rangeStride := 0
  rangeBit := 0
  regs := [
    ⟨0x0, 0x4, 1, .none, [⟨31, 31, .ro, 0x0, .none⟩, ⟨30, 30, .ro, 0x0, .none⟩, ⟨29, 28, .ro, 0x0, .none⟩, ⟨27, 24, .ro, 0x0, .none⟩, ⟨0, 0, .ro, 0x0, .none⟩]⟩,
    ⟨0x4, 0x4, 1, .none, [⟨14, 8, .ro, 0x0, .none⟩, ⟨6, 0, .ro, 0x0, .none⟩]⟩,
    ⟨0x8, 0x4, 1, .none, [⟨31, 0, .ro, 0x0, .none⟩]⟩,
    ⟨0xC, 0x4, 1, .none, [⟨7, 0, .ro, 0x0, .none⟩]⟩]

/-- Registers of SCH (spec ch. 05). -/
def groupSch : Group where
  base := 0x20120000
  stride := 0x100000
  count := 1
  rangeBase := 0
  rangeStride := 0
  rangeBit := 0
  regs := [
    ⟨0x0, 0x4, 1, .none, [⟨4, 4, .w1c, 0x0, .none⟩, ⟨3, 3, .w1c, 0x0, .none⟩, ⟨2, 2, .w1c, 0x0, .none⟩, ⟨1, 1, .w1c, 0x0, .none⟩, ⟨0, 0, .w1c, 0x0, .none⟩]⟩,
    ⟨0x4, 0x4, 1, .none, [⟨31, 16, .rc, 0x0, .none⟩, ⟨15, 0, .rc, 0x0, .none⟩]⟩,
    ⟨0x8, 0x4, 1, .none, [⟨15, 0, .rc, 0x0, .none⟩]⟩,
    ⟨0x10, 0x4, 8, .none, [⟨31, 0, .ro, 0x0, .none⟩]⟩,
    ⟨0x30, 0x4, 1, .none, [⟨0, 0, .wo, 0x0, .none⟩]⟩]

/-- Registers of SCHS (spec ch. 05). -/
def groupSchs : Group where
  base := 0x20121000
  stride := 0x40
  count := 256
  rangeBase := 0
  rangeStride := 0
  rangeBit := 0
  regs := [
    ⟨0x0, 0x4, 8, .none, [⟨31, 0, .ro, 0x0, .none⟩]⟩,
    ⟨0x20, 0x4, 1, .none, [⟨31, 31, .ro, 0x0, .none⟩]⟩,
    ⟨0x24, 0x4, 1, .none, [⟨31, 0, .ro, 0x0, .none⟩]⟩,
    ⟨0x28, 0x4, 1, .lo, [⟨31, 0, .ro, 0x0, .none⟩]⟩,
    ⟨0x2C, 0x4, 1, .hi, [⟨31, 0, .ro, 0x0, .none⟩]⟩,
    ⟨0x30, 0x4, 1, .none, [⟨31, 0, .ro, 0x0, .none⟩]⟩,
    ⟨0x34, 0x4, 1, .none, [⟨31, 0, .ro, 0x0, .none⟩]⟩,
    ⟨0x38, 0x4, 1, .none, [⟨31, 0, .ro, 0x0, .none⟩]⟩,
    ⟨0x3C, 0x4, 1, .none, [⟨11, 8, .ro, 0x0, .none⟩, ⟨4, 4, .ro, 0x0, .none⟩, ⟨3, 3, .ro, 0x0, .none⟩, ⟨2, 2, .ro, 0x0, .none⟩, ⟨1, 1, .ro, 0x0, .none⟩, ⟨0, 0, .ro, 0x0, .none⟩]⟩]

/-- Registers of EVR (spec ch. 05). -/
def groupEvr : Group where
  base := 0x20130000
  stride := 0x100000
  count := 1
  rangeBase := 0
  rangeStride := 0
  rangeBit := 0
  regs := [
    ⟨0x0, 0x4, 1, .none, [⟨2, 2, .w1c, 0x0, .none⟩, ⟨1, 1, .w1c, 0x0, .none⟩, ⟨0, 0, .w1c, 0x0, .none⟩]⟩,
    ⟨0x4, 0x4, 1, .none, [⟨25, 16, .ro, 0x0, .none⟩, ⟨8, 0, .ro, 0x0, .none⟩]⟩,
    ⟨0x8, 0x4, 1, .none, [⟨15, 0, .rc, 0x0, .none⟩]⟩,
    ⟨0xC, 0x4, 1, .none, [⟨31, 0, .ro, 0x1, .none⟩]⟩,
    ⟨0x10, 0x4, 1, .none, [⟨31, 0, .wo, 0x0, .none⟩]⟩,
    ⟨0x14, 0x4, 1, .none, [⟨31, 0, .wo, 0x0, .none⟩]⟩]

/-- Registers of EVRI (spec ch. 05). -/
def groupEvri : Group where
  base := 0x20131000
  stride := 0x20
  count := 512
  rangeBase := 0
  rangeStride := 0
  rangeBit := 0
  regs := [
    ⟨0x0, 0x4, 4, .none, [⟨31, 31, .rwl, 0x0, .none⟩, ⟨20, 16, .rwl, 0x0, .none⟩, ⟨9, 0, .rwl, 0x0, .none⟩]⟩,
    ⟨0x10, 0x4, 1, .none, [⟨31, 31, .w1c, 0x0, .none⟩, ⟨23, 16, .rc, 0x0, .none⟩, ⟨10, 8, .ro, 0x0, .none⟩, ⟨7, 0, .ro, 0x0, .none⟩]⟩,
    ⟨0x14, 0x4, 1, .none, [⟨0, 0, .wo, 0x0, .none⟩]⟩]

/-- Registers of LNKC (spec ch. 06). -/
def groupLnkc : Group where
  base := 0x20200000
  stride := 0x4
  count := 24
  rangeBase := 0x20200100
  rangeStride := 0
  rangeBit := 0
  regs := [
    ⟨0x0, 0x4, 1, .none, [⟨31, 30, .rw, 0x0, .code 3⟩, ⟨29, 28, .rw, 0x0, .code 3⟩, ⟨27, 27, .rw, 0x0, .none⟩, ⟨26, 26, .rw, 0x0, .none⟩]⟩]

/-- Registers of LNKS (spec ch. 06). -/
def groupLnks : Group where
  base := 0x20200080
  stride := 0x4
  count := 24
  rangeBase := 0
  rangeStride := 0
  rangeBit := 0
  regs := [
    ⟨0x0, 0x4, 1, .none, [⟨31, 31, .ro, 0x0, .none⟩, ⟨30, 30, .ro, 0x0, .none⟩, ⟨29, 29, .ro, 0x0, .none⟩]⟩]

/-- Registers of LNK (spec ch. 06). -/
def groupLnk : Group where
  base := 0x20200100
  stride := 0x100000
  count := 1
  rangeBase := 0
  rangeStride := 0
  rangeBit := 0
  regs := [
    ⟨0x0, 0x4, 1, .none, [⟨2, 2, .w1c, 0x0, .none⟩, ⟨1, 1, .w1c, 0x0, .none⟩, ⟨0, 0, .w1c, 0x0, .none⟩]⟩]

/-- Registers of ETH (spec ch. 06). -/
def groupEth : Group where
  base := 0x20210000
  stride := 0x400
  count := 16
  rangeBase := 0x20210028
  rangeStride := 0x400
  rangeBit := 0
  regs := [
    ⟨0x0, 0x4, 1, .none, [⟨31, 31, .rw, 0x0, .none⟩, ⟨30, 28, .rw, 0x0, .none⟩, ⟨27, 23, .rw, 0x0, .none⟩, ⟨22, 22, .rw, 0x0, .none⟩, ⟨13, 0, .rw, 0x5EE, .lim 64 9216⟩]⟩,
    ⟨0x4, 0x4, 1, .lo, [⟨31, 0, .rw, 0x0, .none⟩]⟩,
    ⟨0x8, 0x4, 1, .hi, [⟨15, 0, .rw, 0x0, .none⟩]⟩,
    ⟨0xC, 0x4, 1, .none, [⟨31, 0, .rw, 0x0, .none⟩]⟩,
    ⟨0x10, 0x4, 1, .none, [⟨5, 0, .rw, 0x18, .max 32⟩]⟩,
    ⟨0x14, 0x4, 1, .none, [⟨31, 31, .rw, 0x0, .none⟩, ⟨15, 13, .rw, 0x0, .none⟩, ⟨11, 0, .rw, 0x0, .none⟩]⟩,
    ⟨0x18, 0x4, 4, .none, [⟨31, 0, .rw, 0x0, .none⟩]⟩,
    ⟨0x28, 0x4, 1, .none, [⟨31, 31, .ro, 0x0, .none⟩, ⟨30, 30, .ro, 0x0, .none⟩, ⟨29, 29, .ro, 0x0, .none⟩, ⟨28, 28, .ro, 0x0, .none⟩, ⟨3, 3, .w1c, 0x0, .none⟩, ⟨2, 2, .w1c, 0x0, .none⟩, ⟨1, 1, .w1c, 0x0, .none⟩, ⟨0, 0, .w1c, 0x0, .none⟩]⟩,
    ⟨0x2C, 0x4, 1, .none, [⟨31, 24, .rc, 0x0, .none⟩, ⟨23, 16, .rc, 0x0, .none⟩, ⟨15, 8, .rc, 0x0, .none⟩, ⟨7, 0, .rc, 0x0, .none⟩]⟩,
    ⟨0x30, 0x4, 1, .lo, [⟨31, 0, .ro, 0x0, .none⟩]⟩,
    ⟨0x34, 0x4, 1, .hi, [⟨31, 0, .ro, 0x0, .none⟩]⟩,
    ⟨0x38, 0x4, 1, .none, [⟨31, 0, .rc, 0x0, .none⟩]⟩,
    ⟨0x3C, 0x4, 1, .none, [⟨31, 0, .rc, 0x0, .none⟩]⟩,
    ⟨0x40, 0x4, 1, .none, [⟨31, 30, .rw, 0x0, .code 3⟩, ⟨7, 0, .rw, 0x0, .none⟩]⟩,
    ⟨0x44, 0x4, 1, .none, [⟨19, 0, .rw, 0x0, .none⟩]⟩,
    ⟨0x48, 0x4, 1, .none, [⟨19, 0, .rw, 0x0, .none⟩]⟩,
    ⟨0x4C, 0x4, 1, .none, [⟨4, 0, .ro, 0x0, .none⟩]⟩,
    ⟨0x50, 0x4, 1, .none, [⟨8, 0, .ro, 0x0, .none⟩]⟩,
    ⟨0x54, 0x4, 1, .none, [⟨31, 0, .ro, 0x0, .none⟩]⟩,
    ⟨0x58, 0x4, 1, .none, [⟨31, 0, .ro, 0x0, .none⟩]⟩,
    ⟨0x5C, 0x4, 1, .none, [⟨31, 24, .ro, 0x0, .none⟩]⟩,
    ⟨0x60, 0x4, 1, .none, [⟨0, 0, .wo, 0x0, .none⟩]⟩,
    ⟨0x64, 0x4, 1, .none, [⟨31, 31, .wo, 0x0, .none⟩, ⟨30, 30, .wo, 0x0, .none⟩, ⟨29, 29, .wo, 0x0, .none⟩, ⟨8, 0, .wo, 0x0, .none⟩]⟩,
    ⟨0x68, 0x4, 1, .none, [⟨31, 0, .ro, 0x0, .none⟩]⟩,
    ⟨0x6C, 0x4, 1, .none, [⟨31, 0, .ro, 0x0, .none⟩]⟩,
    ⟨0x70, 0x4, 1, .none, [⟨31, 24, .ro, 0x0, .none⟩]⟩]

/-- Registers of GVS (spec ch. 06). -/
def groupGvs : Group where
  base := 0x20220000
  stride := 0x100000
  count := 1
  rangeBase := 0x20220000
  rangeStride := 0x0
  rangeBit := 1
  regs := [
    ⟨0x0, 0x4, 1, .none, [⟨4, 4, .w1c, 0x0, .none⟩, ⟨3, 3, .w1c, 0x0, .none⟩, ⟨2, 2, .w1c, 0x0, .none⟩, ⟨1, 1, .w1c, 0x0, .none⟩, ⟨0, 0, .w1c, 0x0, .none⟩]⟩,
    ⟨0x4, 0x4, 1, .none, [⟨6, 0, .ro, 0x0, .none⟩]⟩,
    ⟨0x8, 0x4, 1, .none, [⟨21, 16, .ro, 0x0, .none⟩, ⟨3, 0, .ro, 0x0, .none⟩]⟩,
    ⟨0xC, 0x4, 1, .lo, [⟨31, 0, .ro, 0x0, .none⟩]⟩,
    ⟨0x10, 0x4, 1, .hi, [⟨31, 0, .ro, 0x0, .none⟩]⟩,
    ⟨0x14, 0x4, 1, .none, [⟨31, 0, .ro, 0x0, .none⟩]⟩,
    ⟨0x18, 0x4, 1, .none, [⟨31, 0, .ro, 0x0, .none⟩]⟩,
    ⟨0x1C, 0x4, 1, .none, [⟨1, 1, .wo, 0x0, .none⟩, ⟨0, 0, .wo, 0x0, .none⟩]⟩,
    ⟨0x20, 0x4, 1, .none, [⟨31, 16, .rw, 0xC8, .none⟩, ⟨3, 0, .rw, 0x2, .none⟩]⟩,
    ⟨0x24, 0x4, 1, .none, [⟨31, 31, .wo, 0x0, .none⟩, ⟨21, 16, .wo, 0x0, .none⟩, ⟨9, 0, .wo, 0x0, .none⟩]⟩,
    ⟨0x28, 0x4, 1, .none, [⟨15, 0, .rw, 0x0, .none⟩]⟩,
    ⟨0x2C, 0x4, 1, .none, [⟨31, 31, .ro, 0x0, .none⟩, ⟨30, 29, .ro, 0x0, .none⟩, ⟨28, 24, .ro, 0x0, .none⟩, ⟨9, 0, .ro, 0x0, .none⟩]⟩,
    ⟨0x100, 0x20, 16, .none, [⟨31, 31, .rw, 0x0, .none⟩, ⟨29, 26, .rw, 0x0, .none⟩]⟩,
    ⟨0x104, 0x20, 16, .none, [⟨31, 0, .rw, 0x0, .none⟩]⟩,
    ⟨0x108, 0x20, 16, .none, [⟨31, 0, .rw, 0x0, .none⟩]⟩,
    ⟨0x10C, 0x20, 16, .none, [⟨31, 0, .rw, 0x0, .none⟩]⟩,
    ⟨0x110, 0x20, 16, .none, [⟨31, 0, .rw, 0x0, .none⟩]⟩,
    ⟨0x114, 0x20, 16, .lo, [⟨31, 0, .rw, 0x0, .none⟩]⟩,
    ⟨0x118, 0x20, 16, .hi, [⟨31, 0, .rw, 0x0, .none⟩]⟩,
    ⟨0x11C, 0x20, 16, .none, [⟨0, 0, .wo, 0x0, .none⟩]⟩]

/-- Registers of GVSS (spec ch. 06). -/
def groupGvss : Group where
  base := 0x20221000
  stride := 0x80
  count := 64
  rangeBase := 0x20221038
  rangeStride := 0x80
  rangeBit := 10
  regs := [
    ⟨0x0, 0x4, 1, .none, [⟨31, 31, .sh, 0x0, .none⟩, ⟨30, 30, .sh, 0x0, .none⟩, ⟨29, 26, .sh, 0x0, .none⟩, ⟨25, 24, .sh, 0x0, .code 3⟩, ⟨23, 23, .sh, 0x0, .none⟩, ⟨22, 18, .sh, 0x0, .none⟩, ⟨17, 17, .sh, 0x0, .none⟩]⟩,
    ⟨0x4, 0x4, 1, .none, [⟨31, 0, .sh, 0x0, .none⟩]⟩,
    ⟨0x8, 0x4, 1, .none, [⟨31, 16, .sh, 0x0, .none⟩, ⟨15, 0, .sh, 0x0, .none⟩]⟩,
    ⟨0xC, 0x4, 1, .none, [⟨31, 0, .sh, 0x0, .none⟩]⟩,
    ⟨0x10, 0x4, 1, .none, [⟨31, 16, .sh, 0x0, .none⟩, ⟨15, 0, .sh, 0x0, .none⟩]⟩,
    ⟨0x14, 0x4, 1, .none, [⟨15, 0, .sh, 0x0, .none⟩]⟩,
    ⟨0x18, 0x4, 1, .none, [⟨23, 0, .sh, 0x4E20, .none⟩]⟩,
    ⟨0x1C, 0x4, 1, .none, [⟨31, 16, .sh, 0x32, .none⟩, ⟨15, 0, .sh, 0x0, .none⟩]⟩,
    ⟨0x20, 0x4, 1, .none, [⟨31, 28, .sh, 0x4, .none⟩, ⟨27, 16, .sh, 0x40, .none⟩, ⟨15, 8, .sh, 0x14, .none⟩, ⟨7, 0, .sh, 0xA, .none⟩]⟩,
    ⟨0x24, 0x4, 2, .none, [⟨31, 0, .sh, 0x0, .none⟩]⟩,
    ⟨0x2C, 0x4, 1, .none, [⟨31, 0, .sh, 0x0, .none⟩]⟩,
    ⟨0x30, 0x4, 1, .none, [⟨31, 31, .sh, 0x0, .none⟩, ⟨15, 0, .sh, 0x3E8, .none⟩]⟩,
    ⟨0x34, 0x4, 1, .none, [⟨31, 31, .ro, 0x0, .none⟩, ⟨30, 30, .ro, 0x0, .none⟩, ⟨29, 29, .ro, 0x0, .none⟩, ⟨10, 0, .ro, 0x0, .none⟩]⟩,
    ⟨0x38, 0x4, 1, .none, [⟨12, 12, .w1c, 0x0, .none⟩, ⟨11, 11, .w1c, 0x0, .none⟩, ⟨10, 10, .w1c, 0x0, .none⟩, ⟨9, 9, .w1c, 0x0, .none⟩, ⟨8, 8, .w1c, 0x0, .none⟩, ⟨7, 7, .w1c, 0x0, .none⟩, ⟨6, 6, .w1c, 0x0, .none⟩, ⟨5, 5, .w1c, 0x0, .none⟩, ⟨4, 4, .w1c, 0x0, .none⟩, ⟨3, 3, .w1c, 0x0, .none⟩, ⟨2, 2, .w1c, 0x0, .none⟩, ⟨1, 1, .w1c, 0x0, .none⟩, ⟨0, 0, .w1c, 0x0, .none⟩]⟩,
    ⟨0x3C, 0x4, 1, .lo, [⟨31, 0, .ro, 0x0, .none⟩]⟩,
    ⟨0x40, 0x4, 1, .hi, [⟨31, 0, .ro, 0x0, .none⟩]⟩,
    ⟨0x44, 0x4, 1, .none, [⟨31, 0, .rc, 0x0, .none⟩]⟩,
    ⟨0x48, 0x4, 1, .none, [⟨31, 24, .rc, 0x0, .none⟩, ⟨23, 16, .rc, 0x0, .none⟩, ⟨15, 0, .rc, 0x0, .none⟩]⟩,
    ⟨0x4C, 0x4, 1, .none, [⟨31, 16, .rc, 0x0, .none⟩, ⟨15, 0, .rc, 0x0, .none⟩]⟩,
    ⟨0x50, 0x4, 1, .none, [⟨31, 16, .rc, 0x0, .none⟩, ⟨15, 0, .rc, 0x0, .none⟩]⟩,
    ⟨0x54, 0x4, 1, .lo, [⟨31, 0, .ro, 0x0, .none⟩]⟩,
    ⟨0x58, 0x4, 1, .hi, [⟨31, 0, .ro, 0x0, .none⟩]⟩,
    ⟨0x5C, 0x4, 1, .none, [⟨31, 16, .ro, 0x0, .none⟩, ⟨15, 0, .ro, 0x0, .none⟩]⟩,
    ⟨0x60, 0x4, 1, .none, [⟨2, 2, .wo, 0x0, .none⟩, ⟨1, 1, .wo, 0x0, .none⟩, ⟨0, 0, .wo, 0x0, .none⟩]⟩]

/-- Registers of PAR (spec ch. 07). -/
def groupPar : Group where
  base := 0x20240000
  stride := 0x100
  count := 4
  rangeBase := 0x2024001C
  rangeStride := 0x100
  rangeBit := 6
  regs := [
    ⟨0x0, 0x4, 1, .none, [⟨31, 31, .sh, 0x0, .none⟩, ⟨30, 30, .sh, 0x0, .none⟩, ⟨29, 27, .sh, 0x2, .none⟩, ⟨26, 25, .sh, 0x0, .none⟩, ⟨24, 24, .sh, 0x0, .none⟩, ⟨23, 23, .sh, 0x0, .none⟩, ⟨22, 22, .sh, 0x0, .none⟩, ⟨21, 21, .sh, 0x0, .none⟩, ⟨20, 20, .sh, 0x0, .none⟩, ⟨19, 14, .sh, 0x0, .none⟩, ⟨13, 12, .sh, 0x0, .none⟩, ⟨11, 11, .sh, 0x0, .none⟩, ⟨10, 6, .sh, 0x0, .none⟩]⟩,
    ⟨0x4, 0x4, 1, .none, [⟨31, 0, .sh, 0x0, .none⟩]⟩,
    ⟨0x8, 0x4, 1, .none, [⟨31, 16, .sh, 0x0, .none⟩, ⟨15, 0, .sh, 0x0, .none⟩]⟩,
    ⟨0xC, 0x4, 1, .none, [⟨15, 0, .sh, 0x0, .none⟩]⟩,
    ⟨0x10, 0x4, 1, .none, [⟨23, 0, .sh, 0x4E20, .none⟩]⟩,
    ⟨0x14, 0x4, 1, .none, [⟨31, 16, .sh, 0x3E8, .none⟩, ⟨15, 0, .sh, 0x0, .none⟩]⟩,
    ⟨0x18, 0x4, 1, .none, [⟨31, 31, .ro, 0x0, .none⟩, ⟨30, 30, .ro, 0x0, .none⟩, ⟨26, 16, .ro, 0x0, .none⟩, ⟨15, 8, .ro, 0x0, .none⟩]⟩,
    ⟨0x1C, 0x4, 1, .none, [⟨11, 11, .w1c, 0x0, .none⟩, ⟨10, 10, .w1c, 0x0, .none⟩, ⟨9, 9, .w1c, 0x0, .none⟩, ⟨8, 8, .w1c, 0x0, .none⟩, ⟨7, 7, .w1c, 0x0, .none⟩, ⟨6, 6, .w1c, 0x0, .none⟩, ⟨5, 5, .w1c, 0x0, .none⟩, ⟨4, 4, .w1c, 0x0, .none⟩, ⟨3, 3, .w1c, 0x0, .none⟩, ⟨2, 2, .w1c, 0x0, .none⟩, ⟨1, 1, .w1c, 0x0, .none⟩, ⟨0, 0, .w1c, 0x0, .none⟩]⟩,
    ⟨0x20, 0x4, 1, .lo, [⟨31, 0, .ro, 0x0, .none⟩]⟩,
    ⟨0x24, 0x4, 1, .hi, [⟨31, 0, .ro, 0x0, .none⟩]⟩,
    ⟨0x28, 0x4, 1, .none, [⟨31, 0, .rc, 0x0, .none⟩]⟩,
    ⟨0x2C, 0x4, 1, .none, [⟨31, 16, .rc, 0x0, .none⟩, ⟨15, 0, .rc, 0x0, .none⟩]⟩,
    ⟨0x30, 0x4, 1, .none, [⟨31, 16, .rc, 0x0, .none⟩, ⟨15, 0, .rc, 0x0, .none⟩]⟩,
    ⟨0x34, 0x4, 1, .none, [⟨31, 0, .rc, 0x0, .none⟩]⟩,
    ⟨0x38, 0x4, 1, .none, [⟨15, 0, .ro, 0x0, .none⟩]⟩,
    ⟨0x3C, 0x4, 1, .none, [⟨1, 1, .wo, 0x0, .none⟩, ⟨0, 0, .wo, 0x0, .none⟩]⟩]

/-- Registers of TRG (spec ch. 07). -/
def groupTrg : Group where
  base := 0x20250000
  stride := 0x40
  count := 32
  rangeBase := 0x20250010
  rangeStride := 0x40
  rangeBit := 0
  regs := [
    ⟨0x0, 0x4, 1, .none, [⟨31, 31, .sh, 0x0, .none⟩, ⟨30, 30, .sh, 0x0, .none⟩, ⟨29, 29, .sh, 0x0, .none⟩]⟩,
    ⟨0x4, 0x4, 1, .none, [⟨31, 0, .sh, 0x0, .max 2147483647⟩]⟩,
    ⟨0x8, 0x4, 1, .none, [⟨15, 0, .sh, 0x0, .none⟩]⟩,
    ⟨0xC, 0x4, 1, .none, [⟨31, 16, .sh, 0x14, .none⟩, ⟨15, 0, .sh, 0x14, .none⟩]⟩,
    ⟨0x10, 0x4, 1, .none, [⟨31, 31, .ro, 0x0, .none⟩, ⟨3, 3, .w1c, 0x0, .none⟩, ⟨2, 2, .w1c, 0x0, .none⟩, ⟨1, 1, .w1c, 0x0, .none⟩, ⟨0, 0, .w1c, 0x0, .none⟩]⟩,
    ⟨0x14, 0x4, 1, .none, [⟨31, 0, .ro, 0x0, .none⟩]⟩,
    ⟨0x18, 0x4, 1, .lo, [⟨31, 0, .ro, 0x0, .none⟩]⟩,
    ⟨0x1C, 0x4, 1, .hi, [⟨31, 0, .ro, 0x0, .none⟩]⟩,
    ⟨0x20, 0x4, 1, .none, [⟨31, 0, .ro, 0x0, .none⟩]⟩,
    ⟨0x24, 0x4, 1, .none, [⟨15, 0, .ro, 0x0, .none⟩]⟩,
    ⟨0x28, 0x4, 1, .none, [⟨31, 0, .ro, 0x0, .none⟩]⟩,
    ⟨0x2C, 0x4, 1, .none, [⟨31, 0, .rc, 0x0, .none⟩]⟩,
    ⟨0x30, 0x4, 1, .none, [⟨1, 1, .wo, 0x0, .none⟩, ⟨0, 0, .wo, 0x0, .none⟩]⟩]

/-- Registers of GPIO (spec ch. 07). -/
def groupGpio : Group where
  base := 0x20251000
  stride := 0x10
  count := 16
  rangeBase := 0x20251104
  rangeStride := 0
  rangeBit := 0
  regs := [
    ⟨0x0, 0x4, 1, .none, [⟨31, 30, .rw, 0x0, .none⟩, ⟨29, 29, .rw, 0x0, .none⟩, ⟨28, 28, .rw, 0x0, .none⟩, ⟨27, 23, .rw, 0x0, .none⟩, ⟨7, 0, .rw, 0x8, .none⟩]⟩,
    ⟨0x4, 0x4, 1, .none, [⟨23, 0, .rw, 0x0, .none⟩]⟩,
    ⟨0x8, 0x4, 1, .none, [⟨23, 0, .rw, 0x0, .none⟩]⟩]

/-- Registers of GPIOB (spec ch. 07). -/
def groupGpiob : Group where
  base := 0x20251100
  stride := 0x100000
  count := 1
  rangeBase := 0
  rangeStride := 0
  rangeBit := 0
  regs := [
    ⟨0x0, 0x4, 1, .none, [⟨15, 0, .ro, 0x0, .none⟩]⟩,
    ⟨0x4, 0x4, 1, .none, [⟨0, 0, .w1c, 0x0, .none⟩]⟩]

/-- Registers of MILB (spec ch. 08). -/
def groupMilb : Group where
  base := 0x20340000
  stride := 0x100000
  count := 1
  rangeBase := 0x20340008
  rangeStride := 0x0
  rangeBit := 0
  regs := [
    ⟨0x0, 0x4, 1, .none, [⟨12, 0, .rw, 0x800, .lim 32 4096⟩]⟩,
    ⟨0x4, 0x4, 1, .none, [⟨25, 16, .rc, 0x0, .none⟩, ⟨9, 0, .ro, 0x0, .none⟩]⟩,
    ⟨0x8, 0x4, 1, .none, [⟨1, 1, .w1c, 0x0, .none⟩, ⟨0, 0, .w1c, 0x0, .none⟩]⟩]

/-- Registers of MIL (spec ch. 08). -/
def groupMil : Group where
  base := 0x20300000
  stride := 0x1000
  count := 64
  rangeBase := 0x203000AC
  rangeStride := 0x1000
  rangeBit := 0
  regs := [
    ⟨0x0, 0x4, 1, .none, [⟨31, 31, .sh, 0x0, .none⟩, ⟨30, 30, .sh, 0x0, .none⟩, ⟨29, 29, .sh, 0x0, .none⟩, ⟨28, 28, .sh, 0x0, .none⟩, ⟨27, 27, .sh, 0x0, .none⟩, ⟨26, 26, .sh, 0x0, .none⟩, ⟨25, 25, .sh, 0x0, .none⟩, ⟨24, 24, .sh, 0x0, .none⟩, ⟨23, 23, .sh, 0x0, .none⟩, ⟨22, 22, .sh, 0x0, .none⟩, ⟨21, 21, .sh, 0x0, .none⟩, ⟨20, 20, .sh, 0x0, .none⟩, ⟨19, 19, .sh, 0x0, .none⟩, ⟨18, 18, .sh, 0x0, .none⟩, ⟨17, 16, .sh, 0x0, .none⟩, ⟨15, 12, .sh, 0x0, .none⟩, ⟨11, 10, .sh, 0x0, .none⟩]⟩,
    ⟨0x4, 0x4, 1, .none, [⟨31, 0, .sh, 0x0, .none⟩]⟩,
    ⟨0x8, 0x4, 1, .none, [⟨31, 0, .sh, 0x0, .none⟩]⟩,
    ⟨0xC, 0x4, 1, .none, [⟨23, 0, .sh, 0x0, .none⟩]⟩,
    ⟨0x10, 0x4, 1, .none, [⟨31, 0, .sh, 0x0, .none⟩]⟩,
    ⟨0x14, 0x4, 1, .none, [⟨31, 0, .sh, 0x0, .none⟩]⟩,
    ⟨0x18, 0x4, 1, .none, [⟨31, 24, .sh, 0x20, .none⟩, ⟨20, 16, .sh, 0x4, .lim 1 16⟩, ⟨15, 8, .sh, 0x20, .none⟩, ⟨7, 0, .sh, 0x40, .none⟩]⟩,
    ⟨0x1C, 0x4, 1, .none, [⟨23, 0, .sh, 0x0, .none⟩]⟩,
    ⟨0x20, 0x4, 1, .none, [⟨31, 0, .sh, 0x0, .none⟩]⟩,
    ⟨0x24, 0x4, 1, .none, [⟨31, 0, .sh, 0x0, .none⟩]⟩,
    ⟨0x28, 0x4, 1, .none, [⟨15, 0, .sh, 0x0, .none⟩]⟩,
    ⟨0x2C, 0x4, 1, .none, [⟨31, 0, .sh, 0x0, .none⟩]⟩,
    ⟨0x30, 0x4, 1, .none, [⟨2, 0, .sh, 0x0, .max 6⟩]⟩,
    ⟨0x34, 0x4, 1, .none, [⟨31, 0, .sh, 0x10000, .none⟩]⟩,
    ⟨0x38, 0x4, 1, .none, [⟨31, 31, .sh, 0x0, .none⟩, ⟨20, 16, .sh, 0x1, .lim 1 16⟩]⟩,
    ⟨0x3C, 0x4, 1, .none, [⟨31, 0, .sh, 0x1000, .none⟩]⟩,
    ⟨0x40, 0x4, 1, .none, [⟨31, 0, .sh, 0x0, .none⟩]⟩,
    ⟨0x44, 0x4, 1, .none, [⟨31, 0, .sh, 0x0, .none⟩]⟩,
    ⟨0x48, 0x4, 1, .none, [⟨31, 16, .sh, 0x1000, .none⟩, ⟨15, 0, .sh, 0x0, .none⟩]⟩,
    ⟨0x4C, 0x4, 1, .none, [⟨31, 16, .sh, 0x0, .none⟩, ⟨15, 0, .sh, 0x0, .none⟩]⟩,
    ⟨0x50, 0x4, 1, .none, [⟨31, 16, .sh, 0x1000, .none⟩, ⟨15, 0, .sh, 0x0, .none⟩]⟩,
    ⟨0x54, 0x4, 1, .none, [⟨31, 16, .sh, 0x0, .none⟩, ⟨15, 0, .sh, 0x0, .none⟩]⟩,
    ⟨0x58, 0x4, 1, .none, [⟨31, 16, .sh, 0x1000, .none⟩]⟩,
    ⟨0x5C, 0x4, 1, .none, [⟨31, 0, .sh, 0x0, .none⟩]⟩,
    ⟨0x60, 0x4, 1, .none, [⟨3, 0, .sh, 0x0, .max 10⟩]⟩,
    ⟨0x64, 0x4, 1, .none, [⟨31, 28, .sh, 0x0, .max 12⟩, ⟨4, 0, .sh, 0x4, .max 16⟩]⟩,
    ⟨0x68, 0x4, 1, .none, [⟨31, 0, .sh, 0x0, .none⟩]⟩,
    ⟨0x6C, 0x4, 1, .none, [⟨31, 0, .ro, 0x0, .none⟩]⟩,
    ⟨0x70, 0x8, 4, .none, [⟨31, 16, .sh, 0x0, .none⟩, ⟨15, 0, .sh, 0x0, .none⟩]⟩,
    ⟨0x74, 0x8, 4, .none, [⟨31, 16, .sh, 0x0, .none⟩, ⟨15, 0, .sh, 0x0, .none⟩]⟩,
    ⟨0x90, 0x4, 1, .none, [⟨31, 0, .sh, 0x0, .none⟩]⟩,
    ⟨0x94, 0x4, 1, .none, [⟨31, 0, .sh, 0x0, .none⟩]⟩,
    ⟨0x98, 0x4, 1, .none, [⟨15, 0, .sh, 0x40, .min 4⟩]⟩,
    ⟨0x9C, 0x4, 1, .none, [⟨31, 16, .rw, 0x0, .none⟩, ⟨0, 0, .rw, 0x0, .none⟩]⟩,
    ⟨0xA0, 0x4, 1, .none, [⟨31, 0, .rw, 0x0, .none⟩]⟩,
    ⟨0xA4, 0x4, 1, .none, [⟨15, 0, .ro, 0x0, .none⟩]⟩,
    ⟨0xA8, 0x4, 1, .none, [⟨31, 31, .ro, 0x0, .none⟩, ⟨30, 30, .ro, 0x0, .none⟩, ⟨29, 29, .ro, 0x0, .none⟩, ⟨15, 0, .ro, 0x0, .none⟩]⟩,
    ⟨0xAC, 0x4, 1, .none, [⟨5, 5, .w1c, 0x0, .none⟩, ⟨4, 4, .w1c, 0x0, .none⟩, ⟨3, 3, .w1c, 0x0, .none⟩, ⟨2, 2, .w1c, 0x0, .none⟩, ⟨1, 1, .w1c, 0x0, .none⟩, ⟨0, 0, .w1c, 0x0, .none⟩]⟩,
    ⟨0xB0, 0x4, 1, .none, [⟨31, 0, .rc, 0x0, .none⟩]⟩,
    ⟨0xB4, 0x4, 1, .none, [⟨31, 16, .rc, 0x0, .none⟩, ⟨15, 0, .rc, 0x0, .none⟩]⟩,
    ⟨0xB8, 0x4, 1, .lo, [⟨31, 0, .ro, 0x0, .none⟩]⟩,
    ⟨0xBC, 0x4, 1, .hi, [⟨31, 0, .ro, 0x0, .none⟩]⟩,
    ⟨0xC0, 0x4, 1, .none, [⟨3, 3, .wo, 0x0, .none⟩, ⟨2, 2, .wo, 0x0, .none⟩, ⟨1, 1, .wo, 0x0, .none⟩, ⟨0, 0, .wo, 0x0, .none⟩]⟩]

/-- Registers of COL (spec ch. 09). -/
def groupCol : Group where
  base := 0x20400000
  stride := 0x100000
  count := 1
  rangeBase := 0
  rangeStride := 0
  rangeBit := 0
  regs := [
    ⟨0x0, 0x4, 1, .none, [⟨2, 2, .w1c, 0x0, .none⟩, ⟨1, 1, .w1c, 0x0, .none⟩, ⟨0, 0, .w1c, 0x0, .none⟩]⟩,
    ⟨0x4, 0x4, 1, .none, [⟨0, 0, .wo, 0x0, .none⟩]⟩]

/-- Registers of COLQ (spec ch. 09). -/
def groupColq : Group where
  base := 0x20401000
  stride := 0x100
  count := 8
  rangeBase := 0x2040103C
  rangeStride := 0x100
  rangeBit := 0
  regs := [
    ⟨0x0, 0x4, 1, .none, [⟨31, 31, .sh, 0x0, .none⟩, ⟨30, 30, .sh, 0x0, .none⟩, ⟨29, 26, .sh, 0x0, .none⟩, ⟨25, 25, .sh, 0x0, .none⟩, ⟨24, 24, .sh, 0x0, .none⟩, ⟨20, 16, .sh, 0x4, .lim 2 16⟩]⟩,
    ⟨0x4, 0x4, 1, .lo, [⟨31, 0, .sh, 0x0, .none⟩]⟩,
    ⟨0x8, 0x4, 1, .hi, [⟨31, 0, .sh, 0x0, .none⟩]⟩,
    ⟨0xC, 0x4, 1, .none, [⟨31, 0, .sh, 0x0, .none⟩]⟩,
    ⟨0x10, 0x4, 1, .none, [⟨31, 0, .sh, 0x0, .none⟩]⟩,
    ⟨0x14, 0x4, 1, .none, [⟨16, 0, .sh, 0x0, .max 65536⟩]⟩,
    ⟨0x18, 0x4, 1, .none, [⟨24, 0, .sh, 0x0, .none⟩]⟩,
    ⟨0x1C, 0x4, 1, .none, [⟨23, 0, .sh, 0x0, .none⟩]⟩,
    ⟨0x20, 0x4, 1, .none, [⟨31, 0, .sh, 0x0, .none⟩]⟩,
    ⟨0x24, 0x4, 1, .none, [⟨31, 0, .sh, 0x0, .none⟩]⟩,
    ⟨0x28, 0x4, 1, .none, [⟨23, 0, .sh, 0x2710, .none⟩]⟩,
    ⟨0x2C, 0x4, 1, .none, [⟨31, 31, .sh, 0x0, .none⟩, ⟨30, 30, .sh, 0x0, .none⟩, ⟨29, 27, .sh, 0x0, .none⟩, ⟨26, 24, .sh, 0x0, .none⟩, ⟨10, 0, .sh, 0x0, .max 1024⟩]⟩,
    ⟨0x30, 0x4, 1, .none, [⟨15, 0, .sh, 0x0, .none⟩]⟩,
    ⟨0x34, 0x4, 1, .none, [⟨4, 4, .sh, 0x0, .none⟩, ⟨3, 3, .sh, 0x0, .none⟩, ⟨2, 2, .sh, 0x0, .none⟩, ⟨1, 1, .sh, 0x0, .none⟩, ⟨0, 0, .sh, 0x0, .none⟩]⟩,
    ⟨0x38, 0x4, 1, .none, [⟨28, 24, .ro, 0x0, .none⟩, ⟨20, 16, .ro, 0x0, .none⟩, ⟨4, 0, .ro, 0x0, .none⟩]⟩,
    ⟨0x3C, 0x4, 1, .none, [⟨5, 5, .w1c, 0x0, .none⟩, ⟨4, 4, .w1c, 0x0, .none⟩, ⟨3, 3, .w1c, 0x0, .none⟩, ⟨2, 2, .w1c, 0x0, .none⟩, ⟨1, 1, .w1c, 0x0, .none⟩, ⟨0, 0, .w1c, 0x0, .none⟩]⟩,
    ⟨0x40, 0x4, 1, .lo, [⟨31, 0, .ro, 0x0, .none⟩]⟩,
    ⟨0x44, 0x4, 1, .hi, [⟨31, 0, .ro, 0x0, .none⟩]⟩,
    ⟨0x48, 0x4, 1, .none, [⟨3, 0, .ro, 0x0, .none⟩]⟩,
    ⟨0x4C, 0x4, 1, .lo, [⟨31, 0, .ro, 0x0, .none⟩]⟩,
    ⟨0x50, 0x4, 1, .hi, [⟨31, 0, .ro, 0x0, .none⟩]⟩,
    ⟨0x54, 0x4, 1, .none, [⟨31, 16, .rc, 0x0, .none⟩, ⟨15, 0, .rc, 0x0, .none⟩]⟩,
    ⟨0x58, 0x4, 1, .none, [⟨31, 16, .rc, 0x0, .none⟩, ⟨15, 0, .rc, 0x0, .none⟩]⟩,
    ⟨0x5C, 0x4, 1, .none, [⟨3, 0, .wo, 0x0, .none⟩]⟩,
    ⟨0x60, 0x4, 1, .none, [⟨0, 0, .wo, 0x0, .none⟩]⟩]

/-- Registers of COLM (spec ch. 09). -/
def groupColm : Group where
  base := 0x20402000
  stride := 0x40
  count := 64
  rangeBase := 0x20402024
  rangeStride := 0x40
  rangeBit := 0
  regs := [
    ⟨0x0, 0x4, 1, .none, [⟨31, 31, .sh, 0x0, .none⟩, ⟨30, 28, .sh, 0x0, .none⟩, ⟨26, 24, .sh, 0x0, .max 6⟩]⟩,
    ⟨0x4, 0x4, 1, .none, [⟨31, 0, .sh, 0x0, .none⟩]⟩,
    ⟨0x8, 0x4, 1, .none, [⟨31, 0, .sh, 0x0, .none⟩]⟩,
    ⟨0xC, 0x4, 1, .none, [⟨31, 16, .sh, 0x0, .none⟩, ⟨15, 0, .sh, 0x0, .none⟩]⟩,
    ⟨0x10, 0x4, 1, .none, [⟨31, 16, .sh, 0x0, .none⟩, ⟨15, 0, .sh, 0x0, .none⟩]⟩,
    ⟨0x14, 0x4, 1, .none, [⟨31, 16, .sh, 0x0, .none⟩, ⟨15, 0, .sh, 0x0, .none⟩]⟩,
    ⟨0x18, 0x4, 1, .none, [⟨31, 30, .ro, 0x0, .none⟩]⟩,
    ⟨0x1C, 0x4, 1, .lo, [⟨31, 0, .ro, 0x0, .none⟩]⟩,
    ⟨0x20, 0x4, 1, .hi, [⟨31, 0, .ro, 0x0, .none⟩]⟩,
    ⟨0x24, 0x4, 1, .none, [⟨3, 3, .w1c, 0x0, .none⟩, ⟨2, 2, .w1c, 0x0, .none⟩, ⟨1, 1, .w1c, 0x0, .none⟩, ⟨0, 0, .w1c, 0x0, .none⟩]⟩,
    ⟨0x28, 0x4, 1, .none, [⟨31, 16, .rc, 0x0, .none⟩, ⟨15, 0, .rc, 0x0, .none⟩]⟩,
    ⟨0x2C, 0x4, 1, .none, [⟨24, 0, .ro, 0x0, .none⟩]⟩,
    ⟨0x30, 0x4, 1, .none, [⟨24, 0, .ro, 0x0, .none⟩]⟩,
    ⟨0x34, 0x4, 1, .none, [⟨31, 0, .ro, 0x0, .none⟩]⟩,
    ⟨0x38, 0x4, 1, .none, [⟨31, 0, .ro, 0x0, .none⟩]⟩]

/-- Registers of HED (spec ch. 10). -/
def groupHed : Group where
  base := 0x20500000
  stride := 0x100000
  count := 1
  rangeBase := 0
  rangeStride := 0
  rangeBit := 0
  regs := [
    ⟨0x0, 0x4, 1, .none, [⟨2, 2, .w1c, 0x0, .none⟩, ⟨1, 1, .w1c, 0x0, .none⟩, ⟨0, 0, .w1c, 0x0, .none⟩]⟩,
    ⟨0x4, 0x4, 1, .none, [⟨0, 0, .wo, 0x0, .none⟩]⟩,
    ⟨0x40, 0x4, 16, .none, [⟨23, 0, .sh, 0x0, .none⟩]⟩]

/-- Registers of HEDO (spec ch. 10). -/
def groupHedo : Group where
  base := 0x20501000
  stride := 0x80
  count := 32
  rangeBase := 0x20501048
  rangeStride := 0x80
  rangeBit := 0
  regs := [
    ⟨0x0, 0x4, 1, .none, [⟨31, 31, .sh, 0x0, .none⟩, ⟨30, 30, .sh, 0x0, .none⟩, ⟨29, 24, .sh, 0x0, .none⟩, ⟨23, 16, .sh, 0x0, .none⟩, ⟨15, 12, .sh, 0x0, .none⟩, ⟨11, 11, .sh, 0x0, .none⟩]⟩,
    ⟨0x4, 0x4, 1, .none, [⟨31, 16, .sh, 0x0, .none⟩, ⟨15, 0, .sh, 0x0, .none⟩]⟩,
    ⟨0x8, 0x4, 1, .none, [⟨31, 16, .sh, 0xFF, .none⟩, ⟨15, 0, .sh, 0x0, .none⟩]⟩,
    ⟨0xC, 0x4, 1, .none, [⟨4, 4, .sh, 0x0, .max 12⟩, ⟨3, 0, .sh, 0x0, .max 12⟩, ⟨2, 2, .sh, 0x0, .none⟩, ⟨1, 0, .sh, 0x0, .none⟩, ⟨1, 0, .sh, 0x0, .none⟩]⟩,
    ⟨0x10, 0x4, 1, .none, [⟨31, 16, .sh, 0x780, .max 3840⟩, ⟨15, 0, .sh, 0x438, .max 2160⟩]⟩,
    ⟨0x14, 0x4, 1, .none, [⟨23, 0, .sh, 0x0, .none⟩]⟩,
    ⟨0x18, 0x4, 1, .none, [⟨31, 0, .sh, 0x10000, .none⟩]⟩,
    ⟨0x1C, 0x4, 1, .none, [⟨15, 0, .sh, 0x0, .none⟩]⟩,
    ⟨0x20, 0x4, 1, .none, [⟨23, 0, .sh, 0x3E8, .none⟩]⟩,
    ⟨0x24, 0x4, 1, .none, [⟨31, 16, .sh, 0xC8, .none⟩, ⟨2, 2, .sh, 0x0, .none⟩, ⟨1, 0, .sh, 0x0, .none⟩]⟩,
    ⟨0x28, 0x4, 1, .none, [⟨31, 24, .sh, 0x40, .none⟩, ⟨23, 16, .sh, 0x10, .none⟩, ⟨15, 0, .sh, 0x0, .none⟩]⟩,
    ⟨0x2C, 0x4, 1, .none, [⟨31, 0, .sh, 0x0, .none⟩]⟩,
    ⟨0x30, 0x4, 1, .none, [⟨31, 0, .sh, 0x0, .none⟩]⟩,
    ⟨0x34, 0x4, 1, .none, [⟨31, 28, .sh, 0x0, .none⟩, ⟨27, 27, .sh, 0x0, .none⟩, ⟨13, 0, .sh, 0x1F40, .lim 512 8960⟩]⟩,
    ⟨0x38, 0x4, 1, .none, [⟨31, 0, .sh, 0x0, .none⟩]⟩,
    ⟨0x3C, 0x4, 1, .none, [⟨31, 16, .sh, 0x0, .none⟩, ⟨15, 0, .sh, 0x0, .none⟩]⟩,
    ⟨0x40, 0x4, 1, .none, [⟨15, 0, .sh, 0x0, .none⟩]⟩,
    ⟨0x44, 0x4, 1, .none, [⟨31, 31, .ro, 0x0, .none⟩]⟩,
    ⟨0x48, 0x4, 1, .none, [⟨6, 6, .w1c, 0x0, .none⟩, ⟨5, 5, .w1c, 0x0, .none⟩, ⟨4, 4, .w1c, 0x0, .none⟩, ⟨3, 3, .w1c, 0x0, .none⟩, ⟨2, 2, .w1c, 0x0, .none⟩, ⟨1, 1, .w1c, 0x0, .none⟩, ⟨0, 0, .w1c, 0x0, .none⟩]⟩,
    ⟨0x4C, 0x4, 1, .lo, [⟨31, 0, .ro, 0x0, .none⟩]⟩,
    ⟨0x50, 0x4, 1, .hi, [⟨31, 0, .ro, 0x0, .none⟩]⟩,
    ⟨0x54, 0x4, 1, .none, [⟨31, 16, .rc, 0x0, .none⟩, ⟨15, 0, .rc, 0x0, .none⟩]⟩]

/-- Registers of THR (spec ch. 10). -/
def groupThr : Group where
  base := 0x20600000
  stride := 0x100000
  count := 1
  rangeBase := 0x20600000
  rangeStride := 0x0
  rangeBit := 0
  regs := [
    ⟨0x0, 0x4, 1, .none, [⟨2, 2, .w1c, 0x0, .none⟩, ⟨1, 1, .w1c, 0x0, .none⟩, ⟨0, 0, .w1c, 0x0, .none⟩]⟩,
    ⟨0x4, 0x4, 1, .none, [⟨6, 0, .ro, 0x0, .none⟩]⟩,
    ⟨0x8, 0x4, 1, .lo, [⟨31, 0, .ro, 0x0, .none⟩]⟩,
    ⟨0xC, 0x4, 1, .hi, [⟨31, 0, .ro, 0x0, .none⟩]⟩,
    ⟨0x10, 0x4, 1, .none, [⟨31, 0, .rc, 0x0, .none⟩]⟩,
    ⟨0x14, 0x4, 1, .lo, [⟨31, 0, .ro, 0x0, .none⟩]⟩,
    ⟨0x18, 0x4, 1, .hi, [⟨31, 0, .ro, 0x0, .none⟩]⟩,
    ⟨0x1C, 0x4, 1, .none, [⟨31, 0, .wo, 0x0, .none⟩]⟩,
    ⟨0x20, 0x4, 1, .none, [⟨0, 0, .wo, 0x0, .none⟩]⟩,
    ⟨0x400, 0x4, 128, .none, [⟨31, 31, .ro, 0x0, .none⟩, ⟨2, 0, .ro, 0x0, .none⟩]⟩]

/-- Registers of THRQ (spec ch. 10). -/
def groupThrq : Group where
  base := 0x20601000
  stride := 0x80
  count := 8
  rangeBase := 0x2060103C
  rangeStride := 0x80
  rangeBit := 0
  regs := [
    ⟨0x0, 0x4, 1, .none, [⟨31, 31, .sh, 0x0, .none⟩, ⟨30, 30, .sh, 0x0, .none⟩, ⟨29, 29, .sh, 0x0, .none⟩, ⟨22, 16, .sh, 0x0, .none⟩, ⟨7, 0, .sh, 0x0, .max 128⟩]⟩,
    ⟨0x4, 0x4, 1, .none, [⟨31, 20, .sh, 0x70, .lim 16 256⟩, ⟨19, 8, .sh, 0x70, .lim 16 256⟩, ⟨6, 0, .sh, 0x8, .max 64⟩]⟩,
    ⟨0x8, 0x4, 1, .none, [⟨26, 16, .sh, 0x100, .lim 1 1024⟩, ⟨15, 0, .sh, 0x0, .none⟩]⟩,
    ⟨0xC, 0x4, 1, .none, [⟨23, 0, .sh, 0x0, .none⟩]⟩,
    ⟨0x10, 0x4, 1, .none, [⟨23, 0, .sh, 0xFFFFFF, .none⟩]⟩,
    ⟨0x14, 0x4, 1, .none, [⟨31, 24, .sh, 0x0, .none⟩, ⟨23, 16, .sh, 0x2, .none⟩, ⟨15, 0, .sh, 0x0, .none⟩]⟩,
    ⟨0x18, 0x4, 1, .none, [⟨31, 0, .sh, 0x0, .none⟩]⟩,
    ⟨0x1C, 0x4, 1, .none, [⟨16, 0, .sh, 0x0, .none⟩]⟩,
    ⟨0x20, 0x4, 1, .lo, [⟨31, 0, .sh, 0x0, .none⟩]⟩,
    ⟨0x24, 0x4, 1, .hi, [⟨31, 0, .sh, 0x0, .none⟩]⟩,
    ⟨0x28, 0x4, 1, .none, [⟨31, 0, .sh, 0x0, .none⟩]⟩,
    ⟨0x2C, 0x4, 1, .none, [⟨24, 0, .sh, 0x0, .none⟩]⟩,
    ⟨0x30, 0x4, 1, .none, [⟨31, 0, .sh, 0x0, .none⟩]⟩,
    ⟨0x34, 0x4, 1, .none, [⟨31, 0, .sh, 0x0, .none⟩]⟩,
    ⟨0x38, 0x4, 1, .none, [⟨31, 16, .ro, 0x0, .none⟩, ⟨4, 0, .ro, 0x0, .none⟩]⟩,
    ⟨0x3C, 0x4, 1, .none, [⟨3, 3, .w1c, 0x0, .none⟩, ⟨2, 2, .w1c, 0x0, .none⟩, ⟨1, 1, .w1c, 0x0, .none⟩, ⟨0, 0, .w1c, 0x0, .none⟩]⟩,
    ⟨0x40, 0x4, 1, .lo, [⟨31, 0, .ro, 0x0, .none⟩]⟩,
    ⟨0x44, 0x4, 1, .hi, [⟨31, 0, .ro, 0x0, .none⟩]⟩]

/-- Registers of MEM (spec ch. 11). -/
def groupMem : Group where
  base := 0x20710000
  stride := 0x100000
  count := 1
  rangeBase := 0x20710000
  rangeStride := 0x0
  rangeBit := 0
  regs := [
    ⟨0x0, 0x4, 1, .none, [⟨31, 31, .ro, 0x0, .none⟩, ⟨4, 4, .w1c, 0x0, .none⟩, ⟨3, 3, .w1c, 0x0, .none⟩, ⟨2, 2, .w1c, 0x0, .none⟩, ⟨1, 1, .w1c, 0x0, .none⟩, ⟨0, 0, .w1c, 0x0, .none⟩]⟩,
    ⟨0x4, 0x4, 1, .none, [⟨31, 0, .rc, 0x0, .none⟩]⟩,
    ⟨0x8, 0x4, 1, .none, [⟨31, 0, .rc, 0x0, .none⟩]⟩,
    ⟨0xC, 0x4, 1, .lo, [⟨31, 0, .ro, 0x0, .none⟩]⟩,
    ⟨0x10, 0x4, 1, .hi, [⟨4, 0, .ro, 0x0, .none⟩]⟩,
    ⟨0x14, 0x4, 1, .none, [⟨15, 0, .rw, 0x18, .none⟩]⟩,
    ⟨0x18, 0x4, 1, .none, [⟨20, 0, .ro, 0x0, .none⟩]⟩,
    ⟨0x1C, 0x4, 1, .none, [⟨15, 0, .rw, 0x100, .none⟩]⟩,
    ⟨0x20, 0x4, 1, .none, [⟨25, 16, .rc, 0x0, .none⟩, ⟨9, 0, .ro, 0x0, .none⟩]⟩,
    ⟨0x100, 0x10, 6, .none, [⟨16, 0, .rw, 0x0, .none⟩]⟩,
    ⟨0x104, 0x10, 6, .none, [⟨16, 0, .rw, 0x0, .none⟩]⟩,
    ⟨0x108, 0x10, 6, .none, [⟨16, 0, .ro, 0x0, .none⟩]⟩,
    ⟨0x10C, 0x10, 6, .none, [⟨0, 0, .ro, 0x0, .none⟩]⟩,
    ⟨0x1000, 0x4, 256, .none, [⟨23, 0, .rw, 0xFFFFFF, .none⟩]⟩,
    ⟨0x1400, 0x4, 256, .none, [⟨31, 31, .ro, 0x0, .none⟩, ⟨23, 0, .ro, 0x0, .none⟩]⟩,
    ⟨0x1800, 0x4, 1, .none, [⟨20, 0, .ro, 0x0, .none⟩]⟩]

/-- Registers of GRN (spec ch. 11). -/
def groupGrn : Group where
  base := 0x20700000
  stride := 0x100000
  count := 1
  rangeBase := 0x20700004
  rangeStride := 0x0
  rangeBit := 0
  regs := [
    ⟨0x0, 0x4, 1, .none, [⟨31, 31, .rw, 0x0, .none⟩, ⟨30, 30, .rw, 0x0, .none⟩]⟩,
    ⟨0x4, 0x4, 1, .none, [⟨4, 4, .w1c, 0x0, .none⟩, ⟨3, 3, .w1c, 0x0, .none⟩, ⟨2, 2, .w1c, 0x0, .none⟩, ⟨1, 1, .w1c, 0x0, .none⟩, ⟨0, 0, .w1c, 0x0, .none⟩]⟩,
    ⟨0x8, 0x4, 1, .none, [⟨16, 0, .ro, 0x0, .none⟩]⟩,
    ⟨0xC, 0x4, 1, .none, [⟨16, 0, .ro, 0x0, .none⟩]⟩,
    ⟨0x10, 0x4, 1, .none, [⟨16, 0, .rw, 0x4000, .none⟩]⟩,
    ⟨0x14, 0x4, 1, .none, [⟨16, 0, .ro, 0x0, .none⟩]⟩,
    ⟨0x18, 0x4, 1, .lo, [⟨31, 0, .ro, 0x0, .none⟩]⟩,
    ⟨0x1C, 0x4, 1, .hi, [⟨31, 0, .ro, 0x0, .none⟩]⟩,
    ⟨0x40, 0x4, 1, .none, [⟨31, 31, .rw, 0x0, .none⟩, ⟨30, 30, .rw, 0x0, .none⟩, ⟨29, 26, .rw, 0x0, .none⟩, ⟨23, 16, .rw, 0x0, .none⟩, ⟨15, 0, .rw, 0x0, .none⟩]⟩,
    ⟨0x44, 0x4, 1, .lo, [⟨31, 0, .rw, 0x0, .none⟩]⟩,
    ⟨0x48, 0x4, 1, .hi, [⟨31, 0, .rw, 0x0, .none⟩]⟩,
    ⟨0x4C, 0x4, 1, .lo, [⟨31, 0, .rw, 0x0, .none⟩]⟩,
    ⟨0x50, 0x4, 1, .hi, [⟨31, 0, .rw, 0x0, .none⟩]⟩,
    ⟨0x54, 0x4, 1, .lo, [⟨31, 0, .rw, 0x0, .none⟩]⟩,
    ⟨0x58, 0x4, 1, .hi, [⟨31, 0, .rw, 0x0, .none⟩]⟩,
    ⟨0x5C, 0x4, 1, .none, [⟨7, 0, .rw, 0x0, .none⟩]⟩,
    ⟨0x60, 0x4, 1, .none, [⟨15, 0, .rw, 0x0, .none⟩]⟩,
    ⟨0x64, 0x4, 1, .none, [⟨1, 1, .wo, 0x0, .none⟩, ⟨0, 0, .wo, 0x0, .none⟩]⟩,
    ⟨0x68, 0x4, 1, .none, [⟨31, 31, .ro, 0x0, .none⟩, ⟨3, 0, .ro, 0x0, .none⟩]⟩,
    ⟨0x6C, 0x4, 1, .none, [⟨31, 16, .ro, 0x0, .none⟩, ⟨2, 0, .ro, 0x0, .none⟩]⟩]

/-- Registers of GRNS (spec ch. 11). -/
def groupGrns : Group where
  base := 0x20701000
  stride := 0x40
  count := 64
  rangeBase := 0x20700004
  rangeStride := 0
  rangeBit := 0
  regs := [
    ⟨0x0, 0x4, 1, .none, [⟨31, 31, .rw, 0x0, .none⟩, ⟨30, 30, .rw, 0x0, .none⟩]⟩,
    ⟨0x4, 0x4, 1, .none, [⟨16, 0, .rw, 0x10000, .none⟩]⟩,
    ⟨0x8, 0x4, 1, .none, [⟨31, 31, .ro, 0x0, .none⟩, ⟨16, 0, .ro, 0x0, .none⟩]⟩,
    ⟨0xC, 0x4, 1, .none, [⟨31, 0, .rc, 0x0, .none⟩]⟩,
    ⟨0x10, 0x4, 1, .lo, [⟨31, 0, .ro, 0x0, .none⟩]⟩,
    ⟨0x14, 0x4, 1, .hi, [⟨31, 0, .ro, 0x0, .none⟩]⟩,
    ⟨0x18, 0x4, 1, .lo, [⟨31, 0, .ro, 0x0, .none⟩]⟩,
    ⟨0x1C, 0x4, 1, .hi, [⟨31, 0, .ro, 0x0, .none⟩]⟩]

/-- Registers of DLV (spec ch. 12). -/
def groupDlv : Group where
  base := 0x20800000
  stride := 0x100000
  count := 1
  rangeBase := 0
  rangeStride := 0
  rangeBit := 0
  regs := [
    ⟨0x0, 0x4, 1, .none, [⟨2, 2, .w1c, 0x0, .none⟩, ⟨1, 1, .w1c, 0x0, .none⟩, ⟨0, 0, .w1c, 0x0, .none⟩]⟩]

/-- Registers of DLVR (spec ch. 12). -/
def groupDlvr : Group where
  base := 0x20801000
  stride := 0x20
  count := 256
  rangeBase := 0x2080100C
  rangeStride := 0x20
  rangeBit := 0
  regs := [
    ⟨0x0, 0x4, 1, .none, [⟨31, 31, .rw, 0x0, .none⟩, ⟨30, 29, .rw, 0x0, .keep 3⟩, ⟨28, 25, .rw, 0x0, .none⟩, ⟨24, 19, .rw, 0x0, .none⟩, ⟨6, 0, .rw, 0x1, .max 64⟩]⟩,
    ⟨0x4, 0x4, 1, .none, [⟨31, 0, .rw, 0xFFFFFFFF, .none⟩]⟩,
    ⟨0x8, 0x4, 1, .none, [⟨20, 0, .rw, 0x100000, .max 1048576⟩]⟩,
    ⟨0xC, 0x4, 1, .none, [⟨31, 30, .ro, 0x0, .none⟩, ⟨29, 29, .ro, 0x0, .none⟩, ⟨5, 5, .w1c, 0x0, .none⟩, ⟨4, 4, .w1c, 0x0, .none⟩, ⟨3, 3, .w1c, 0x0, .none⟩, ⟨2, 2, .w1c, 0x0, .none⟩, ⟨1, 1, .w1c, 0x0, .none⟩, ⟨0, 0, .w1c, 0x0, .none⟩]⟩,
    ⟨0x10, 0x4, 1, .none, [⟨31, 0, .rc, 0x0, .none⟩]⟩,
    ⟨0x14, 0x4, 1, .none, [⟨31, 0, .rc, 0x0, .none⟩]⟩,
    ⟨0x18, 0x4, 1, .lo, [⟨31, 0, .ro, 0x0, .none⟩]⟩,
    ⟨0x1C, 0x4, 1, .hi, [⟨31, 0, .ro, 0x0, .none⟩]⟩]

/-- Registers of DLVH (spec ch. 12). -/
def groupDlvh : Group where
  base := 0x20804000
  stride := 0x40
  count := 256
  rangeBase := 0x2080100C
  rangeStride := 0x20
  rangeBit := 0
  regs := [
    ⟨0x0, 0x4, 1, .lo, [⟨31, 12, .rw, 0x0, .none⟩]⟩,
    ⟨0x4, 0x4, 1, .hi, [⟨31, 0, .rw, 0x0, .none⟩]⟩,
    ⟨0x8, 0x4, 1, .none, [⟨31, 27, .rw, 0x0, .max 20⟩, ⟨26, 22, .rw, 0x8, .lim 8 30⟩, ⟨21, 17, .rw, 0x0, .none⟩, ⟨16, 16, .rw, 0x0, .none⟩, ⟨7, 0, .rw, 0x0, .none⟩]⟩,
    ⟨0xC, 0x4, 1, .none, [⟨1, 1, .wo, 0x0, .none⟩, ⟨0, 0, .wo, 0x0, .none⟩]⟩,
    ⟨0x10, 0x4, 1, .none, [⟨31, 0, .ro, 0x0, .none⟩]⟩,
    ⟨0x14, 0x4, 1, .none, [⟨31, 0, .rw, 0x0, .none⟩]⟩,
    ⟨0x18, 0x4, 1, .none, [⟨31, 0, .ro, 0x0, .none⟩]⟩,
    ⟨0x1C, 0x4, 1, .none, [⟨31, 0, .ro, 0x0, .none⟩]⟩]

/-- Registers of DLVC (spec ch. 12). -/
def groupDlvc : Group where
  base := 0x2080C000
  stride := 0x20
  count := 32
  rangeBase := 0x2080C018
  rangeStride := 0x20
  rangeBit := 0
  regs := [
    ⟨0x0, 0x4, 1, .lo, [⟨31, 12, .rw, 0x0, .none⟩]⟩,
    ⟨0x4, 0x4, 1, .hi, [⟨31, 0, .rw, 0x0, .none⟩]⟩,
    ⟨0x8, 0x4, 1, .none, [⟨28, 24, .rw, 0x4, .lim 4 20⟩, ⟨23, 16, .rw, 0x0, .none⟩, ⟨15, 8, .rw, 0x0, .none⟩]⟩,
    ⟨0xC, 0x4, 1, .none, [⟨15, 0, .rw, 0x0, .none⟩]⟩,
    ⟨0x10, 0x4, 1, .none, [⟨31, 0, .ro, 0x0, .none⟩]⟩,
    ⟨0x14, 0x4, 1, .none, [⟨31, 0, .rw, 0x0, .none⟩]⟩,
    ⟨0x18, 0x4, 1, .none, [⟨31, 31, .ro, 0x0, .none⟩, ⟨1, 1, .w1c, 0x0, .none⟩, ⟨0, 0, .w1c, 0x0, .none⟩]⟩,
    ⟨0x1C, 0x4, 1, .none, [⟨1, 1, .wo, 0x0, .none⟩, ⟨0, 0, .wo, 0x0, .none⟩]⟩]

/-- Registers of DMAC (spec ch. 12). -/
def groupDmac : Group where
  base := 0x20810000
  stride := 0x100
  count := 64
  rangeBase := 0x2081005C
  rangeStride := 0x100
  rangeBit := 0
  regs := [
    ⟨0x0, 0x4, 1, .lo, [⟨31, 0, .sh, 0x0, .none⟩]⟩,
    ⟨0x4, 0x4, 1, .hi, [⟨31, 0, .sh, 0x0, .none⟩]⟩,
    ⟨0x8, 0x4, 1, .lo, [⟨31, 0, .sh, 0x0, .none⟩]⟩,
    ⟨0xC, 0x4, 1, .hi, [⟨31, 0, .sh, 0x0, .none⟩]⟩,
    ⟨0x10, 0x4, 1, .none, [⟨31, 0, .sh, 0x0, .none⟩]⟩,
    ⟨0x14, 0x4, 1, .none, [⟨31, 0, .sh, 0x0, .none⟩]⟩,
    ⟨0x18, 0x4, 1, .lo, [⟨31, 6, .sh, 0x0, .none⟩]⟩,
    ⟨0x1C, 0x4, 1, .hi, [⟨31, 0, .sh, 0x0, .none⟩]⟩,
    ⟨0x20, 0x4, 1, .none, [⟨31, 0, .sh, 0x0, .none⟩]⟩,
    ⟨0x40, 0x4, 1, .lo, [⟨31, 0, .ro, 0x0, .none⟩]⟩,
    ⟨0x44, 0x4, 1, .hi, [⟨31, 0, .ro, 0x0, .none⟩]⟩,
    ⟨0x48, 0x4, 1, .lo, [⟨31, 0, .ro, 0x0, .none⟩]⟩,
    ⟨0x4C, 0x4, 1, .hi, [⟨31, 0, .ro, 0x0, .none⟩]⟩,
    ⟨0x50, 0x4, 1, .none, [⟨31, 0, .ro, 0x0, .none⟩]⟩,
    ⟨0x54, 0x4, 1, .lo, [⟨31, 0, .ro, 0x0, .none⟩]⟩,
    ⟨0x58, 0x4, 1, .hi, [⟨31, 0, .ro, 0x0, .none⟩]⟩,
    ⟨0x5C, 0x4, 1, .none, [⟨31, 28, .ro, 0x0, .none⟩, ⟨27, 24, .ro, 0x0, .none⟩, ⟨23, 23, .ro, 0x0, .none⟩, ⟨2, 2, .w1c, 0x0, .none⟩, ⟨1, 1, .w1c, 0x0, .none⟩, ⟨0, 0, .w1c, 0x0, .none⟩]⟩,
    ⟨0x60, 0x4, 1, .none, [⟨4, 4, .wo, 0x0, .none⟩, ⟨3, 3, .wo, 0x0, .none⟩, ⟨2, 2, .wo, 0x0, .none⟩, ⟨1, 1, .wo, 0x0, .none⟩, ⟨0, 0, .wo, 0x0, .none⟩]⟩]

/-- Registers of DMA (spec ch. 12). -/
def groupDma : Group where
  base := 0x20810000
  stride := 0x100000
  count := 1
  rangeBase := 0x2081F004
  rangeStride := 0
  rangeBit := 0
  regs := [
    ⟨0x8000, 0x4, 64, .none, [⟨31, 31, .ro, 0x0, .none⟩, ⟨9, 8, .rw, 0x0, .code0 2⟩, ⟨7, 0, .rw, 0x0, .none⟩]⟩,
    ⟨0xF000, 0x4, 1, .none, [⟨23, 16, .rw, 0x40, .min 1⟩, ⟨12, 0, .rw, 0x1000, .lim 256 4096⟩]⟩,
    ⟨0xF004, 0x4, 1, .none, [⟨0, 0, .w1c, 0x0, .none⟩]⟩]

/-- Registers of HIF (spec ch. 13). -/
def groupHif : Group where
  base := 0x100000000
  stride := 0x100000
  count := 1
  rangeBase := 0
  rangeStride := 0
  rangeBit := 0
  regs := [
    ⟨0x0, 0x4, 1, .none, [⟨31, 16, .ro, 0x9, .none⟩, ⟨15, 0, .ro, 0x1F4B, .none⟩]⟩,
    ⟨0x4, 0x4, 1, .none, [⟨31, 16, .ro, 0x100, .none⟩, ⟨15, 8, .ro, 0x0, .none⟩, ⟨7, 0, .ro, 0x0, .none⟩]⟩,
    ⟨0x8, 0x4, 1, .none, [⟨31, 28, .ro, 0x0, .none⟩, ⟨25, 24, .ro, 0x0, .none⟩]⟩,
    ⟨0xC, 0x4, 1, .none, [⟨31, 31, .ro, 0x0, .none⟩]⟩]

/-- Registers of PCI (spec ch. 13). -/
def groupPci : Group where
  base := 0x20900000
  stride := 0x100000
  count := 1
  rangeBase := 0x20900004
  rangeStride := 0x0
  rangeBit := 0
  regs := [
    ⟨0x0, 0x4, 1, .none, [⟨31, 31, .ro, 0x0, .none⟩, ⟨30, 30, .ro, 0x0, .none⟩, ⟨27, 24, .ro, 0x0, .none⟩, ⟨20, 16, .ro, 0x0, .none⟩, ⟨1, 0, .ro, 0x0, .none⟩]⟩,
    ⟨0x4, 0x4, 1, .none, [⟨4, 4, .w1c, 0x0, .none⟩, ⟨3, 3, .w1c, 0x0, .none⟩, ⟨2, 2, .w1c, 0x0, .none⟩, ⟨1, 1, .w1c, 0x0, .none⟩, ⟨0, 0, .w1c, 0x0, .none⟩]⟩,
    ⟨0x8, 0x4, 1, .none, [⟨31, 0, .rc, 0x0, .none⟩]⟩,
    ⟨0xC, 0x4, 1, .none, [⟨31, 0, .rc, 0x0, .none⟩]⟩,
    ⟨0x10, 0x4, 1, .none, [⟨28, 16, .ro, 0x0, .none⟩, ⟨10, 0, .ro, 0x0, .none⟩]⟩,
    ⟨0x14, 0x4, 1, .none, [⟨31, 31, .ro, 0x0, .none⟩, ⟨30, 29, .ro, 0x0, .none⟩, ⟨20, 16, .ro, 0x0, .none⟩, ⟨1, 1, .wo, 0x0, .none⟩, ⟨0, 0, .wo, 0x0, .none⟩]⟩,
    ⟨0x18, 0x4, 1, .none, [⟨31, 0, .rw, 0x4E2010, .none⟩]⟩,
    ⟨0x1C, 0x4, 1, .none, [⟨31, 24, .rwl, 0x0, .max 128⟩, ⟨10, 0, .rwl, 0x0, .max 1151⟩]⟩,
    ⟨0x20, 0x4, 1, .none, [⟨31, 0, .rc, 0x0, .none⟩]⟩,
    ⟨0x24, 0x4, 1, .none, [⟨15, 0, .rw, 0x0, .none⟩]⟩,
    ⟨0x28, 0x4, 1, .none, [⟨31, 16, .rw, 0x8801, .none⟩, ⟨15, 0, .rw, 0x9001, .none⟩]⟩,
    ⟨0x2C, 0x4, 1, .none, [⟨31, 31, .wo, 0x0, .none⟩, ⟨20, 0, .rw, 0x0, .none⟩]⟩]

/-- Registers of EVT (spec ch. 13). -/
def groupEvt : Group where
  base := 0x100300000
  stride := 0x100000
  count := 1
  rangeBase := 0
  rangeStride := 0
  rangeBit := 0
  regs := [
    ⟨0x0, 0x4, 8, .none, [⟨31, 0, .w1c, 0x0, .none⟩]⟩,
    ⟨0x20, 0x4, 8, .none, [⟨31, 0, .rw, 0x0, .none⟩]⟩,
    ⟨0x40, 0x4, 1, .none, [⟨0, 0, .ro, 0x0, .none⟩]⟩]

/-- Registers of FUS (spec ch. 14). -/
def groupFus : Group where
  base := 0x20010000
  stride := 0x100000
  count := 1
  rangeBase := 0
  rangeStride := 0
  rangeBit := 0
  regs := [
    ⟨0x0, 0x4, 86, .none, [⟨31, 0, .ro, 0x0, .none⟩]⟩,
    ⟨0x200, 0x4, 1, .none, [⟨31, 31, .ro, 0x0, .none⟩, ⟨30, 30, .ro, 0x0, .none⟩, ⟨29, 29, .ro, 0x0, .none⟩, ⟨1, 1, .w1c, 0x0, .none⟩, ⟨0, 0, .w1c, 0x0, .none⟩]⟩,
    ⟨0x204, 0x4, 1, .none, [⟨31, 30, .ro, 0x0, .none⟩, ⟨29, 28, .ro, 0x0, .none⟩, ⟨22, 16, .ro, 0x0, .none⟩, ⟨11, 8, .ro, 0x0, .none⟩, ⟨4, 4, .ro, 0x0, .none⟩, ⟨3, 3, .ro, 0x0, .none⟩]⟩]

/-- Registers of SEC (spec ch. 14). -/
def groupSec : Group where
  base := 0x20020000
  stride := 0x100000
  count := 1
  rangeBase := 0
  rangeStride := 0
  rangeBit := 0
  regs := [
    ⟨0x0, 0x4, 1, .none, [⟨31, 31, .ro, 0x0, .none⟩, ⟨27, 24, .ro, 0x0, .none⟩, ⟨19, 16, .ro, 0x0, .none⟩, ⟨0, 0, .ro, 0x0, .none⟩]⟩,
    ⟨0x4, 0x4, 1, .none, [⟨31, 31, .ro, 0x0, .none⟩, ⟨7, 0, .ro, 0x0, .none⟩]⟩,
    ⟨0x8, 0x4, 8, .none, [⟨31, 0, .ro, 0x0, .none⟩]⟩,
    ⟨0x28, 0x4, 1, .none, [⟨8, 0, .ro, 0x0, .none⟩]⟩,
    ⟨0x2C, 0x4, 1, .lo, [⟨31, 0, .ro, 0x0, .none⟩]⟩,
    ⟨0x30, 0x4, 1, .hi, [⟨31, 0, .ro, 0x0, .none⟩]⟩,
    ⟨0x34, 0x4, 1, .none, [⟨15, 0, .rc, 0x0, .none⟩]⟩]

/-- Registers of EBK (spec ch. 15). -/
def groupEbk : Group where
  base := 0x20230000
  stride := 0x100000
  count := 1
  rangeBase := 0x20230004
  rangeStride := 0x0
  rangeBit := 0
  regs := [
    ⟨0x0, 0x4, 1, .none, [⟨31, 16, .rw, 0x0, .none⟩, ⟨8, 0, .rw, 0x0, .none⟩]⟩,
    ⟨0x4, 0x4, 1, .none, [⟨3, 3, .w1c, 0x0, .none⟩, ⟨2, 2, .w1c, 0x0, .none⟩, ⟨1, 1, .w1c, 0x0, .none⟩, ⟨0, 0, .w1c, 0x0, .none⟩]⟩,
    ⟨0x8, 0x4, 1, .none, [⟨15, 0, .rw, 0xC031, .none⟩]⟩,
    ⟨0x10, 0x4, 1, .none, [⟨31, 0, .rw, 0x0, .none⟩]⟩,
    ⟨0x14, 0x4, 1, .none, [⟨31, 0, .rw, 0x0, .none⟩]⟩,
    ⟨0x18, 0x4, 1, .none, [⟨24, 0, .rw, 0x0, .max 16777216⟩]⟩,
    ⟨0x1C, 0x4, 1, .none, [⟨31, 31, .wo, 0x0, .none⟩, ⟨8, 0, .wo, 0x0, .none⟩]⟩,
    ⟨0x20, 0x4, 1, .none, [⟨31, 31, .ro, 0x0, .none⟩, ⟨3, 0, .ro, 0x0, .none⟩]⟩,
    ⟨0x24, 0x4, 1, .none, [⟨31, 0, .ro, 0x0, .none⟩]⟩,
    ⟨0x28, 0x4, 1, .none, [⟨31, 0, .rw, 0x0, .none⟩]⟩,
    ⟨0x2C, 0x4, 1, .none, [⟨31, 0, .rw, 0x0, .none⟩]⟩,
    ⟨0x30, 0x4, 1, .none, [⟨31, 0, .ro, 0x0, .none⟩]⟩,
    ⟨0x34, 0x4, 1, .none, [⟨31, 24, .rc, 0x0, .none⟩, ⟨23, 16, .rc, 0x0, .none⟩, ⟨15, 8, .rc, 0x0, .none⟩, ⟨7, 0, .rc, 0x0, .none⟩]⟩,
    ⟨0x1000, 0x4, 512, .none, [⟨31, 31, .rw, 0x0, .none⟩, ⟨2, 0, .rw, 0x0, .none⟩]⟩,
    ⟨0x1800, 0x4, 128, .none, [⟨31, 31, .rw, 0x0, .none⟩, ⟨30, 30, .rw, 0x0, .none⟩, ⟨8, 0, .rw, 0x0, .none⟩]⟩,
    ⟨0x1A00, 0x10, 16, .none, [⟨31, 31, .rw, 0x0, .none⟩, ⟨29, 26, .rw, 0x0, .none⟩, ⟨24, 24, .rw, 0x0, .none⟩, ⟨19, 16, .rw, 0x0, .none⟩, ⟨15, 0, .rw, 0x0, .none⟩]⟩,
    ⟨0x1A04, 0x10, 16, .none, [⟨31, 0, .rw, 0x0, .none⟩]⟩]

/-- Registers of EBKL (spec ch. 15). -/
def groupEbkl : Group where
  base := 0x20232000
  stride := 0x100
  count := 8
  rangeBase := 0x2023200C
  rangeStride := 0x100
  rangeBit := 0
  regs := [
    ⟨0x0, 0x4, 1, .none, [⟨31, 31, .rw, 0x0, .none⟩, ⟨28, 24, .rw, 0x0, .none⟩, ⟨21, 20, .rw, 0x0, .none⟩, ⟨18, 16, .rw, 0x0, .none⟩, ⟨5, 0, .rw, 0x20, .lim 1 32⟩]⟩,
    ⟨0x4, 0x4, 1, .none, [⟨31, 16, .rw, 0x14, .none⟩, ⟨4, 0, .rw, 0x10, .min 1⟩]⟩,
    ⟨0x8, 0x4, 1, .none, [⟨31, 29, .ro, 0x0, .none⟩, ⟨28, 28, .ro, 0x0, .none⟩]⟩,
    ⟨0xC, 0x4, 1, .none, [⟨9, 9, .w1c, 0x0, .none⟩, ⟨8, 8, .w1c, 0x0, .none⟩, ⟨7, 7, .w1c, 0x0, .none⟩, ⟨6, 6, .w1c, 0x0, .none⟩, ⟨5, 5, .w1c, 0x0, .none⟩, ⟨4, 4, .w1c, 0x0, .none⟩, ⟨3, 3, .w1c, 0x0, .none⟩, ⟨2, 2, .w1c, 0x0, .none⟩, ⟨1, 1, .w1c, 0x0, .none⟩, ⟨0, 0, .w1c, 0x0, .none⟩]⟩,
    ⟨0x10, 0x4, 1, .none, [⟨31, 16, .ro, 0x0, .none⟩, ⟨14, 12, .ro, 0x0, .none⟩, ⟨8, 0, .ro, 0x0, .none⟩]⟩,
    ⟨0x14, 0x4, 1, .none, [⟨15, 0, .ro, 0x0, .none⟩]⟩,
    ⟨0x18, 0x4, 1, .none, [⟨15, 0, .rw, 0x0, .none⟩]⟩,
    ⟨0x1C, 0x4, 1, .none, [⟨15, 0, .ro, 0x0, .none⟩]⟩,
    ⟨0x20, 0x4, 1, .none, [⟨31, 16, .rc, 0x0, .none⟩, ⟨15, 0, .rc, 0x0, .none⟩]⟩,
    ⟨0x24, 0x4, 1, .none, [⟨31, 16, .rc, 0x0, .none⟩, ⟨15, 0, .rc, 0x0, .none⟩]⟩,
    ⟨0x28, 0x4, 1, .none, [⟨31, 0, .ro, 0x0, .none⟩]⟩,
    ⟨0x2C, 0x4, 1, .lo, [⟨31, 0, .ro, 0x0, .none⟩]⟩,
    ⟨0x30, 0x4, 1, .hi, [⟨31, 0, .ro, 0x0, .none⟩]⟩,
    ⟨0x34, 0x4, 1, .none, [⟨31, 0, .rc, 0x0, .none⟩]⟩,
    ⟨0x38, 0x4, 1, .lo, [⟨31, 0, .ro, 0x0, .none⟩]⟩,
    ⟨0x3C, 0x4, 1, .hi, [⟨31, 0, .ro, 0x0, .none⟩]⟩,
    ⟨0x40, 0x4, 1, .none, [⟨0, 0, .wo, 0x0, .none⟩]⟩,
    ⟨0x80, 0x4, 8, .none, [⟨31, 31, .rw, 0x0, .none⟩, ⟨30, 30, .rw, 0x0, .none⟩, ⟨27, 24, .rw, 0x0, .none⟩, ⟨15, 0, .rw, 0x0, .none⟩]⟩]

/-- Registers of LNKF (spec ch. 15). -/
def groupLnkf : Group where
  base := 0x20200104
  stride := 0x100000
  count := 1
  rangeBase := 0
  rangeStride := 0
  rangeBit := 0
  regs := [
    ⟨0x0, 0x4, 1, .none, [⟨23, 0, .rw, 0x0, .none⟩]⟩]

/-- Registers of LNKE (spec ch. 15). -/
def groupLnke : Group where
  base := 0x20201000
  stride := 0x40
  count := 24
  rangeBase := 0x20201010
  rangeStride := 0x40
  rangeBit := 0
  regs := [
    ⟨0x0, 0x4, 1, .none, [⟨21, 16, .rw, 0x4, .none⟩, ⟨13, 8, .rw, 0x30, .none⟩, ⟨5, 0, .rw, 0xB, .none⟩]⟩,
    ⟨0x4, 0x4, 1, .none, [⟨23, 16, .rw, 0x64, .none⟩, ⟨6, 0, .rw, 0x46, .max 100⟩]⟩,
    ⟨0x8, 0x4, 1, .none, [⟨31, 24, .ro, 0x0, .none⟩, ⟨23, 16, .ro, 0x0, .none⟩, ⟨15, 8, .ro, 0x0, .none⟩, ⟨7, 0, .ro, 0x0, .none⟩]⟩,
    ⟨0xC, 0x4, 1, .none, [⟨31, 16, .ro, 0x0, .none⟩, ⟨15, 0, .ro, 0x0, .none⟩]⟩,
    ⟨0x10, 0x4, 1, .none, [⟨31, 31, .ro, 0x0, .none⟩, ⟨1, 1, .w1c, 0x0, .none⟩, ⟨0, 0, .w1c, 0x0, .none⟩]⟩,
    ⟨0x14, 0x4, 1, .none, [⟨1, 1, .wo, 0x0, .none⟩, ⟨0, 0, .wo, 0x0, .none⟩]⟩]

/-- Registers of DEV (spec ch. 16). -/
def groupDev : Group where
  base := 0x20000000
  stride := 0x100000
  count := 1
  rangeBase := 0x20000000
  rangeStride := 0x0
  rangeBit := 0
  regs := [
    ⟨0x0, 0x4, 1, .none, [⟨31, 28, .ro, 0x0, .none⟩, ⟨27, 24, .ro, 0x0, .none⟩, ⟨23, 20, .ro, 0x0, .none⟩, ⟨15, 8, .ro, 0x0, .none⟩, ⟨3, 3, .w1c, 0x0, .none⟩, ⟨2, 2, .w1c, 0x0, .none⟩, ⟨1, 1, .w1c, 0x0, .none⟩, ⟨0, 0, .w1c, 0x0, .none⟩]⟩,
    ⟨0x4, 0x4, 1, .none, [⟨3, 0, .wo, 0x0, .none⟩]⟩,
    ⟨0x8, 0x4, 1, .none, [⟨0, 0, .wo, 0x0, .none⟩]⟩,
    ⟨0x20, 0x4, 1, .none, [⟨31, 0, .rw, 0x0, .none⟩]⟩,
    ⟨0x24, 0x4, 1, .none, [⟨31, 0, .rw, 0x0, .none⟩]⟩,
    ⟨0x28, 0x4, 1, .lo, [⟨31, 0, .rw, 0x0, .none⟩]⟩,
    ⟨0x2C, 0x4, 1, .hi, [⟨31, 0, .rw, 0x0, .none⟩]⟩,
    ⟨0x30, 0x4, 1, .none, [⟨15, 0, .rw, 0x0, .none⟩]⟩,
    ⟨0x34, 0x4, 1, .none, [⟨1, 1, .wo, 0x0, .none⟩, ⟨0, 0, .wo, 0x0, .none⟩]⟩,
    ⟨0x38, 0x4, 1, .none, [⟨31, 31, .ro, 0x0, .none⟩]⟩,
    ⟨0x3C, 0x4, 1, .none, [⟨31, 0, .ro, 0x0, .none⟩]⟩,
    ⟨0x40, 0x4, 1, .none, [⟨0, 0, .wo, 0x0, .none⟩]⟩,
    ⟨0x44, 0x4, 1, .none, [⟨31, 31, .ro, 0x0, .none⟩, ⟨30, 30, .ro, 0x0, .none⟩, ⟨29, 29, .ro, 0x0, .none⟩, ⟨7, 0, .ro, 0x0, .none⟩]⟩]

/-- Registers of PWR (spec ch. 16). -/
def groupPwr : Group where
  base := 0x20B00000
  stride := 0x100000
  count := 1
  rangeBase := 0
  rangeStride := 0
  rangeBit := 0
  regs := [
    ⟨0x0, 0x4, 1, .none, [⟨31, 31, .rw, 0x1, .none⟩, ⟨15, 0, .rw, 0x0, .none⟩]⟩,
    ⟨0x4, 0x4, 1, .none, [⟨4, 4, .rw, 0x0, .none⟩, ⟨3, 3, .rw, 0x0, .none⟩, ⟨2, 2, .rw, 0x1, .none⟩, ⟨1, 1, .rw, 0x1, .none⟩, ⟨0, 0, .rw, 0x1, .none⟩]⟩,
    ⟨0x8, 0x4, 1, .none, [⟨8, 8, .w1c, 0x0, .none⟩, ⟨4, 4, .w1c, 0x0, .none⟩, ⟨3, 3, .w1c, 0x0, .none⟩, ⟨2, 2, .w1c, 0x0, .none⟩, ⟨1, 1, .w1c, 0x0, .none⟩, ⟨0, 0, .w1c, 0x0, .none⟩]⟩,
    ⟨0xC, 0x4, 1, .none, [⟨31, 0, .rw, 0x0, .none⟩]⟩,
    ⟨0x10, 0x4, 1, .none, [⟨26, 24, .rw, 0x0, .none⟩, ⟨23, 0, .rw, 0x0, .none⟩]⟩,
    ⟨0x14, 0x4, 1, .none, [⟨31, 16, .ro, 0x0, .none⟩, ⟨15, 0, .ro, 0x0, .none⟩]⟩,
    ⟨0x20, 0x4, 1, .none, [⟨19, 0, .ro, 0x0, .none⟩]⟩,
    ⟨0x24, 0x4, 1, .none, [⟨19, 0, .ro, 0x0, .none⟩]⟩,
    ⟨0x28, 0x4, 1, .none, [⟨19, 0, .ro, 0x0, .none⟩]⟩,
    ⟨0x2C, 0x4, 1, .none, [⟨19, 0, .ro, 0x0, .none⟩]⟩,
    ⟨0x30, 0x4, 1, .none, [⟨19, 0, .ro, 0x0, .none⟩]⟩,
    ⟨0x34, 0x4, 1, .none, [⟨15, 0, .ro, 0x0, .none⟩]⟩]

/-- Registers of RAS (spec ch. 17). -/
def groupRas : Group where
  base := 0x20C00000
  stride := 0x100000
  count := 1
  rangeBase := 0x20C00000
  rangeStride := 0x0
  rangeBit := 0
  regs := [
    ⟨0x0, 0x4, 1, .none, [⟨31, 31, .ro, 0x0, .none⟩, ⟨30, 30, .ro, 0x0, .none⟩, ⟨29, 29, .ro, 0x0, .none⟩, ⟨4, 4, .w1c, 0x0, .none⟩, ⟨3, 3, .w1c, 0x0, .none⟩, ⟨2, 2, .w1c, 0x0, .none⟩, ⟨1, 1, .w1c, 0x0, .none⟩, ⟨0, 0, .w1c, 0x0, .none⟩]⟩,
    ⟨0x4, 0x4, 1, .none, [⟨31, 31, .rw, 0x1, .none⟩, ⟨30, 30, .rw, 0x1, .none⟩, ⟨19, 16, .rw, 0x4, .none⟩, ⟨7, 0, .rw, 0x69, .lim 60 120⟩]⟩,
    ⟨0x8, 0x4, 1, .none, [⟨1, 1, .wo, 0x0, .none⟩, ⟨0, 0, .wo, 0x0, .none⟩]⟩,
    ⟨0xC, 0x4, 1, .none, [⟨31, 30, .rw, 0x0, .code0 3⟩, ⟨15, 0, .rw, 0x0, .none⟩]⟩,
    ⟨0x10, 0x4, 1, .none, [⟨31, 0, .wo, 0x0, .none⟩]⟩,
    ⟨0x14, 0x4, 1, .none, [⟨15, 0, .ro, 0x0, .none⟩]⟩,
    ⟨0x18, 0x4, 1, .none, [⟨31, 0, .ro, 0x0, .none⟩]⟩,
    ⟨0x1C, 0x4, 1, .none, [⟨31, 0, .rw, 0x0, .none⟩]⟩,
    ⟨0x20, 0x4, 8, .none, [⟨31, 0, .ro, 0x0, .none⟩]⟩,
    ⟨0x40, 0x4, 1, .none, [⟨15, 0, .ro, 0x0, .none⟩]⟩,
    ⟨0x44, 0x4, 1, .none, [⟨15, 8, .ro, 0x0, .none⟩, ⟨7, 0, .ro, 0x0, .none⟩]⟩,
    ⟨0x48, 0x4, 1, .lo, [⟨31, 0, .ro, 0x0, .none⟩]⟩,
    ⟨0x4C, 0x4, 1, .hi, [⟨31, 0, .ro, 0x0, .none⟩]⟩,
    ⟨0x50, 0x4, 1, .none, [⟨31, 0, .ro, 0x0, .none⟩]⟩]

/-- Registers of RASH (spec ch. 17). -/
def groupRash : Group where
  base := 0x100400100
  stride := 0x100000
  count := 1
  rangeBase := 0
  rangeStride := 0
  rangeBit := 0
  regs := [
    ⟨0x0, 0x4, 1, .none, [⟨31, 31, .rw, 0x0, .none⟩, ⟨7, 0, .rw, 0x0, .none⟩]⟩,
    ⟨0x4, 0x4, 1, .none, [⟨0, 0, .wo, 0x0, .none⟩]⟩]

/-- Registers of TWI (spec ch. 18). -/
def groupTwi : Group where
  base := 0x20A00000
  stride := 0x100000
  count := 1
  rangeBase := 0x20A00004
  rangeStride := 0x0
  rangeBit := 0
  regs := [
    ⟨0x0, 0x4, 1, .none, [⟨31, 31, .rwl, 0x0, .none⟩, ⟨15, 8, .rw, 0x23, .min 1⟩, ⟨7, 0, .rw, 0x19, .min 1⟩]⟩,
    ⟨0x4, 0x4, 1, .none, [⟨31, 29, .ro, 0x0, .none⟩, ⟨27, 26, .ro, 0x0, .none⟩, ⟨25, 25, .ro, 0x0, .none⟩, ⟨3, 3, .w1c, 0x0, .none⟩, ⟨2, 2, .w1c, 0x0, .none⟩, ⟨1, 1, .w1c, 0x0, .none⟩, ⟨0, 0, .w1c, 0x0, .none⟩]⟩,
    ⟨0x8, 0x4, 1, .none, [⟨31, 24, .rc, 0x0, .none⟩, ⟨23, 16, .rc, 0x0, .none⟩, ⟨15, 8, .rc, 0x0, .none⟩, ⟨7, 0, .rc, 0x0, .none⟩]⟩,
    ⟨0xC, 0x4, 1, .none, [⟨31, 0, .ro, 0x0, .none⟩]⟩]

/-- Every group of the map. -/
def allGroups : List Group := [
  groupDevr, groupAxs, groupTim, groupMbx, groupCcx, groupTcx,
  groupXsp, groupSch, groupSchs, groupEvr, groupEvri, groupLnkc,
  groupLnks, groupLnk, groupEth, groupGvs, groupGvss, groupPar,
  groupTrg, groupGpio, groupGpiob, groupMilb, groupMil, groupCol,
  groupColq, groupColm, groupHed, groupHedo, groupThr, groupThrq,
  groupMem, groupGrn, groupGrns, groupDlv, groupDlvr, groupDlvh,
  groupDlvc, groupDmac, groupDma, groupHif, groupPci, groupEvt,
  groupFus, groupSec, groupEbk, groupEbkl, groupLnkf, groupLnke,
  groupDev, groupPwr, groupRas, groupRash, groupTwi]

/-- The register of a group at an offset of an instance. -/
def RInfo.at? : List RInfo → Nat → Option RInfo
  | [], _ => none
  | r :: t, o =>
    if decide (r.off ≤ o) && decide (o < r.off + r.stride * r.cnt) && (o - r.off) % r.stride == 0 then some r
    else RInfo.at? t o

/-- The register at an address: its group, the instance and its row. -/
def lookupIn : List Group → Nat → Option (Group × Nat × RInfo)
  | [], _ => none
  | g :: t, a =>
    if decide (g.base ≤ a) && decide (a < g.base + g.stride * g.count) then
      match RInfo.at? g.regs ((a - g.base) % g.stride) with
      | some r => some (g, (a - g.base) / g.stride, r)
      | none => lookupIn t a
    else lookupIn t a

/-- The register at an address of the map (R16, R17). -/
def lookup (a : Nat) : Option (Group × Nat × RInfo) := lookupIn allGroups a

/-- The fields of a row put together at their reset values. -/
def resetOf (fs : List FInfo) : Word :=
  fs.foldl (fun w f => setField w f.hi f.lo f.rst) 0

/-- The value a register holds while nothing has changed it: the reset value of its table; by axis for AXS_CFG,
by partition for MEM_PART_SIZE, by lifecycle BLANK for PCI_BAR2_WIN. -/
def resetWord (a : Nat) : Word :=
  match lookup a with
  | none => 0
  | some (g, i, r) =>
    let w := resetOf r.fields
    if g.base == groupAxs.base && r.off == 0 then
      let kind := if i < 8 then 0 else if i < 12 then 1 else if i < 15 then 2 else 3
      setField (setField w 30 28 kind) 27 24 (if i < 8 then i else 0)
    else if a == R.MEM_PART_SIZE 0 then setField w 16 0 0x400
    else if a == R.HIF_REV then setField w 15 8 0x10
    else w

end Sys2Proof.Machine
end

