-- ==== Sys2Proof/Syntax.lean ====
section
/-! DEFINITION. Syntax.lean: the commands the part takes, one constructor for each row of opcode_table.json, with the
operands of each: what the sender of the command supplies (a register value, a packet, a reading from outside). -/

namespace Sys2Proof

/-- Who makes a register access (R9): a core (0 to 3 are CC0 to CC3, 4 to 131 are TC0 to TC127), the host, or the
two-wire target. -/
inductive Requester where
  | core (c : Fin 132)
  | host
  | twi
deriving DecidableEq, Repr

/-- A core by number: 0 to 3 are CC0 to CC3, 4 to 131 are TC0 to TC127. -/
abbrev CoreNo := Fin 132
/-- A register number in an instruction field. -/
abbrev RegNo := Fin 32

/-- A remote axis sample as it reaches the axes (R39, R58): by which link (1 Ebkel beacon, 2 Ethernet), its port, source node
and axis, sequence number, position and time (low 64 bits of the sender's total nanosecond count; not used for a beacon). -/
structure AxisSample where
  via : Fin 4
  port : Fin 16
  node : Fin 512
  axis : Fin 16
  seq : Word
  pos : Dword
  time : Dword
deriving DecidableEq, Repr

/-- An edge of PPS_IN (R53): the level after it, and how long that level lasts in ns. -/
structure PinPulse where
  level : Bool
  ns : Word
deriving DecidableEq, Repr

/-- The level that a control input of a parallel port takes (R172), or that its DVAL has at a sample. -/
structure PortLevel where
  port : Fin 4
  level : Bool
deriving DecidableEq, Repr

/-- A host memory request (R336, R337): its tag, whether it writes, its offset in the BAR, its dwords with their byte enables (the
data of a read is not used), and whether its data is poisoned. -/
structure HostReq where
  tag : BitVec 14
  write : Bool
  ofs : BitVec 34
  dwords : List (Word × BitVec 4)
  poisoned : Bool
deriving DecidableEq, Repr

/-- What the serial flash gives at boot (R106): its size in bytes, the directory and its copy, the bytes of each entry in order, whether octal mode was
enabled, and the xSPI clock in MHz. -/
structure FlashImage where
  size : Nat
  dir : List Byte
  copy : List Byte
  parcels : List (List Byte)
  octal : Bool
  mhz : Byte
deriving DecidableEq, Repr

/-- The instructions that the TAP offers without debug access (R464). -/
inductive TapInstr where
  | bypass | idcode | samplePreload | extest | extestPulse | extestTrain | clamp | highz
deriving DecidableEq, Repr


/-- The commands: one constructor for each row of the table of operations and events. -/
inductive Instr where
  /-- POWER_ON_RESET (R22): Power-on reset resets both sides, the root core and fuses, and loses poste restante contents. -/
  | powerOnReset
  /-- RESET_N (R23): Assertion of RESET_N for at least 1 µs resets both sides and holds them in reset until release, overriding any host-side reset. -/
  | resetN
  /-- RESET_N_RELEASE (R412): Release of RESET_N, or end of power-on reset, starts boot: straps sampled, PLLs started, root-core steps begun. -/
  | resetNRelease (flashEn : Bool) (testEn : Bool) (addr : Fin 8)
  /-- PLL_LOCK (R412): The PLLs lock during boot and the root core begins fuse sensing while HBM3E training starts. -/
  | pllLock (agree : Bool) (kat : Bool) (noise : Bool)
  /-- SELF_TESTS_PASSED (R412): Self-tests and the noise source pass and SEC_STAT.SELFTEST_OK is set, ending R356 steps 3 to 5. -/
  | selfTestsPassed
  /-- HBM_TRAINED (R412): HBM3E training completes, device memory is zeroed and unpoisoned, and patrol scrub is armed. -/
  | hbmTrained
  /-- HBM_TRAINING_FAILURE (R412): HBM3E training fails at boot and the device enters LOCKDOWN with CAUSE 7. -/
  | hbmTrainingFailure (stack : Bool)
  /-- DIRECTORY_WRITTEN (R339): The root core writes the device directory and sets DIR_VALID, and configuration requests are then answered normally. -/
  | directoryWritten
  /-- FLASH_DIRECTORY (R106): The root core reads the flash directory, or its copy, and loads each listed parcel in order, skipping and logging failures. -/
  | flashDirectory (img : FlashImage)
  /-- BOOT_COMPLETE (R412): The root boot steps finish, DEV_MODE is set under R406, and queued mailbox letters are then served. -/
  | bootComplete
  /-- PERST_ASSERT (R346): Assertion of PERST# resets the whole host side, including sticky configuration bits, while acquisition runs on. -/
  | perstAssert
  /-- PERST_RELEASE (R346): Release of PERST# starts link training within 20 ms, with RRS answered until the host side is ready. -/
  | perstRelease
  /-- HOT_RESET (R346): A hot reset resets the host side apart from sticky bits and counts in DEV_RSTSTAT. -/
  | hotReset
  /-- INITIATE_FLR (R346): Initiate FLR resets the function apart from sticky bits and link fields; an FLR written during an FLR is ignored. -/
  | initiateFlr
  /-- HOST_SIDE_READY (R346): The host side becomes ready for configuration after a host-side reset, and memory requests are served again. -/
  | hostSideReady
  /-- LINK_DOWN (R351): The PCI Express link goes down, including by loss of REF100, and the host side enters link-down containment. -/
  | linkDown
  /-- LINK_UP (R331): The PCI Express link trains up and sets DEGRADED by speed and width; after containment this resets the host side as a hot reset does. -/
  | linkUp (speed : Fin 7) (width : Fin 17) (flit : Bool)
  /-- ENCODER_EDGE (R29): A filtered encoder edge is decoded into a tick and time-stamped to 1 ns at its unfiltered edge time. -/
  | encoderEdge (ch : Fin 8) (a : Bool) (b : Bool) (age : Word) (width : Word)
  /-- TICK_COUNT (R29): The tick count advances MIN_WIDTH + 8 ns after the edge, updating interval, direction and interpolation. -/
  | tickCount (a : Fin 8)
  /-- Z_EDGE (R32): A rising Z edge latches the position, checks the index period and, in mode 2, loads AXS_SET. -/
  | zEdge (ch : Fin 8) (width : Word)
  /-- PRESET (R33): A write of AXS_CMD.PRESET loads AXS_SET into the position at the next TIME cycle and sets PRESET_DONE. -/
  | preset (a : Fin 16)
  /-- AXS_APPLY (R38): AXS_CMD.APPLY applies the shadowed ratio and offset of a derived axis, keeping P continuous when APPLY_CONT is set. -/
  | axsApply (a : Fin 16)
  /-- STALL (R34): No tick within STALL_TMO sets STALLED, holds the grain fraction and raises the axis fault event. -/
  | stall (a : Fin 8)
  /-- REMOTE_AXIS_SAMPLE (R39): A remote-axis sample is checked, given a sample time, and updates the remote axis velocity and correction. -/
  | remoteAxisSample (a : Fin 3) (x : AxisSample)
  /-- STALE (R41): No valid remote sample within STALE_TMO sets STALE, keeps extrapolating and raises the axis fault event. -/
  | stale (a : Fin 3)
  /-- TIM_ADJ_SUBMIT (R46): A write to TIM_ADJ_HI submits an offset, which is stepped in full if first, otherwise slewed, stepped or refused under the jump rules. -/
  | timAdjSubmit (r : Requester) (hi : Word)
  /-- SLEW_END (R46): A slew in progress finishes removing its offset and SLEWING clears. -/
  | slewEnd
  /-- AUTH_STEP (R48): TIM_CMD.AUTH_STEP from a core with the clock-step right moves the clock by TIM_STEP, increments the epoch and ends the STEP_REFUSED cause. -/
  | authStep (r : Requester)
  /-- HOLD (R52): TIM_CMD.HOLD enters a forced holdover at once. -/
  | hold
  /-- RELEASE (R52): TIM_CMD.RELEASE ends a forced holdover. -/
  | release
  /-- REF_LOST (R52): REF_TMO elapses while locked, setting REF_LOST and entering HOLDOVER. -/
  | refLost
  /-- TIM_RATE_WRITE (R44): A write of TIM_RATE sets the frequency trim, clamped to ±500 ppm, and is ignored in HOLDOVER. -/
  | timRateWrite (v : Word)
  /-- PPS_IN_EDGE (R53): An active PPS_IN edge is stamped or counted as an outlier and raises producer 0x207 when valid. -/
  | ppsInEdge (width : PinPulse)
  /-- PPS_LOST (R58): 1.5 s pass without a valid PPS_IN edge while IN_EN is set and PPS_LOST is set. -/
  | ppsLost
  /-- PPS_OUT_PULSE (R54): The clock plus offset crosses a second boundary and PPS_OUT emits its pulse. -/
  | ppsOutPulse
  /-- PPS_OUT_END (R54): The PPS_OUT pulse width of OUT_WIDTH ms elapses and the output returns inactive. -/
  | ppsOutEnd
  /-- FULL_POSTMARK_DUE (R302): A ring's full postmark record falls due on activation, epoch change, 1.0 s or 262,144 ticks and is franked. -/
  | fullPostmarkDue (ring : Fin 256)
  /-- ADD (R71): add writes rs1 + rs2 to rd. -/
  | add (c : CoreNo) (rd : RegNo) (rs1 : RegNo) (rs2 : RegNo)
  /-- SUB (R71): sub writes rs1 − rs2 to rd. -/
  | sub (c : CoreNo) (rd : RegNo) (rs1 : RegNo) (rs2 : RegNo)
  /-- AND (R71): and writes the bitwise AND of rs1 and rs2 to rd. -/
  | and (c : CoreNo) (rd : RegNo) (rs1 : RegNo) (rs2 : RegNo)
  /-- OR (R71): or writes the bitwise OR of rs1 and rs2 to rd. -/
  | or (c : CoreNo) (rd : RegNo) (rs1 : RegNo) (rs2 : RegNo)
  /-- XOR (R71): xor writes the bitwise XOR of rs1 and rs2 to rd. -/
  | xor (c : CoreNo) (rd : RegNo) (rs1 : RegNo) (rs2 : RegNo)
  /-- SLL (R71): sll shifts rs1 left by rs2[4:0]. -/
  | sll (c : CoreNo) (rd : RegNo) (rs1 : RegNo) (rs2 : RegNo)
  /-- SRL (R71): srl shifts rs1 right logically by rs2[4:0]. -/
  | srl (c : CoreNo) (rd : RegNo) (rs1 : RegNo) (rs2 : RegNo)
  /-- SRA (R71): sra shifts rs1 right arithmetically by rs2[4:0]. -/
  | sra (c : CoreNo) (rd : RegNo) (rs1 : RegNo) (rs2 : RegNo)
  /-- ROR (R71): ror rotates rs1 right by rs2[4:0]. -/
  | ror (c : CoreNo) (rd : RegNo) (rs1 : RegNo) (rs2 : RegNo)
  /-- SLT (R71): slt writes 1 when rs1 < rs2 signed. -/
  | slt (c : CoreNo) (rd : RegNo) (rs1 : RegNo) (rs2 : RegNo)
  /-- SLTU (R71): sltu writes 1 when rs1 < rs2 unsigned. -/
  | sltu (c : CoreNo) (rd : RegNo) (rs1 : RegNo) (rs2 : RegNo)
  /-- MIN (R71): min writes the signed smaller of rs1 and rs2. -/
  | min (c : CoreNo) (rd : RegNo) (rs1 : RegNo) (rs2 : RegNo)
  /-- MAX (R71): max writes the signed larger of rs1 and rs2. -/
  | max (c : CoreNo) (rd : RegNo) (rs1 : RegNo) (rs2 : RegNo)
  /-- MINU (R71): minu writes the unsigned smaller of rs1 and rs2. -/
  | minu (c : CoreNo) (rd : RegNo) (rs1 : RegNo) (rs2 : RegNo)
  /-- MAXU (R71): maxu writes the unsigned larger of rs1 and rs2. -/
  | maxu (c : CoreNo) (rd : RegNo) (rs1 : RegNo) (rs2 : RegNo)
  /-- PDIFF (R71): pdiff writes the wrap-aware signed difference of two short values. -/
  | pdiff (c : CoreNo) (rd : RegNo) (rs1 : RegNo) (rs2 : RegNo)
  /-- CLZ (R71): clz writes the leading-zero count of rs1. -/
  | clz (c : CoreNo) (rd : RegNo) (rs1 : RegNo) (rs2 : RegNo)
  /-- CTZ (R71): ctz writes the trailing-zero count of rs1. -/
  | ctz (c : CoreNo) (rd : RegNo) (rs1 : RegNo) (rs2 : RegNo)
  /-- POPC (R71): popc writes the set-bit count of rs1. -/
  | popc (c : CoreNo) (rd : RegNo) (rs1 : RegNo) (rs2 : RegNo)
  /-- MUL (R71): mul writes the low word of rs1 × rs2. -/
  | mul (c : CoreNo) (rd : RegNo) (rs1 : RegNo) (rs2 : RegNo)
  /-- MULH (R71): mulh writes the signed high word of rs1 × rs2. -/
  | mulh (c : CoreNo) (rd : RegNo) (rs1 : RegNo) (rs2 : RegNo)
  /-- MULHU (R71): mulhu writes the unsigned high word of rs1 × rs2. -/
  | mulhu (c : CoreNo) (rd : RegNo) (rs1 : RegNo) (rs2 : RegNo)
  /-- DIV (R71): div writes the signed quotient rounded toward zero, with defined results for zero and overflow. -/
  | div (c : CoreNo) (rd : RegNo) (rs1 : RegNo) (rs2 : RegNo)
  /-- DIVU (R71): divu writes the unsigned quotient. -/
  | divu (c : CoreNo) (rd : RegNo) (rs1 : RegNo) (rs2 : RegNo)
  /-- REM (R71): rem writes the signed remainder with the sign of rs1. -/
  | rem (c : CoreNo) (rd : RegNo) (rs1 : RegNo) (rs2 : RegNo)
  /-- REMU (R71): remu writes the unsigned remainder. -/
  | remu (c : CoreNo) (rd : RegNo) (rs1 : RegNo) (rs2 : RegNo)
  /-- ADDI (R71): addi writes rs1 + sign-extended imm. -/
  | addi (c : CoreNo) (rd : RegNo) (rs1 : RegNo) (imm : BitVec 12)
  /-- ANDI (R71): andi writes rs1 AND zero-extended imm. -/
  | andi (c : CoreNo) (rd : RegNo) (rs1 : RegNo) (imm : BitVec 12)
  /-- ORI (R71): ori writes rs1 OR zero-extended imm. -/
  | ori (c : CoreNo) (rd : RegNo) (rs1 : RegNo) (imm : BitVec 12)
  /-- XORI (R71): xori writes rs1 XOR zero-extended imm. -/
  | xori (c : CoreNo) (rd : RegNo) (rs1 : RegNo) (imm : BitVec 12)
  /-- SLTI (R71): slti writes 1 when rs1 < imm signed. -/
  | slti (c : CoreNo) (rd : RegNo) (rs1 : RegNo) (imm : BitVec 12)
  /-- SLTIU (R71): sltiu writes 1 when rs1 < imm unsigned. -/
  | sltiu (c : CoreNo) (rd : RegNo) (rs1 : RegNo) (imm : BitVec 12)
  /-- SLLI (R71): slli shifts rs1 left by imm[4:0]. -/
  | slli (c : CoreNo) (rd : RegNo) (rs1 : RegNo) (imm : BitVec 12)
  /-- SRLI (R71): srli shifts rs1 right logically by imm[4:0]. -/
  | srli (c : CoreNo) (rd : RegNo) (rs1 : RegNo) (imm : BitVec 12)
  /-- SRAI (R71): srai shifts rs1 right arithmetically by imm[4:0]. -/
  | srai (c : CoreNo) (rd : RegNo) (rs1 : RegNo) (imm : BitVec 12)
  /-- LUI (R71): lui writes imm20 × 4096 to rd. -/
  | lui (c : CoreNo) (rd : RegNo) (res : Bool) (imm : BitVec 20)
  /-- AUIPC (R71): auipc writes pc + imm20 × 4096 to rd. -/
  | auipc (c : CoreNo) (rd : RegNo) (res : Bool) (imm : BitVec 20)
  /-- JAL (R71): jal links pc + 4 and jumps by 4 × imm20. -/
  | jal (c : CoreNo) (rd : RegNo) (res : Bool) (imm : BitVec 20)
  /-- JALR (R71): jalr links pc + 4 and jumps to rs1 + imm, raising misalignment for an unaligned target. -/
  | jalr (c : CoreNo) (rd : RegNo) (rs1 : RegNo) (imm : BitVec 12)
  /-- BEQ (R71): beq branches when rs1 equals rs2. -/
  | beq (c : CoreNo) (rs1 : RegNo) (rs2 : RegNo) (off : BitVec 14)
  /-- BNE (R71): bne branches when rs1 differs from rs2. -/
  | bne (c : CoreNo) (rs1 : RegNo) (rs2 : RegNo) (off : BitVec 14)
  /-- BLT (R71): blt branches when rs1 < rs2 signed. -/
  | blt (c : CoreNo) (rs1 : RegNo) (rs2 : RegNo) (off : BitVec 14)
  /-- BGE (R71): bge branches when rs1 ≥ rs2 signed. -/
  | bge (c : CoreNo) (rs1 : RegNo) (rs2 : RegNo) (off : BitVec 14)
  /-- BLTU (R71): bltu branches when rs1 < rs2 unsigned. -/
  | bltu (c : CoreNo) (rs1 : RegNo) (rs2 : RegNo) (off : BitVec 14)
  /-- BGEU (R71): bgeu branches when rs1 ≥ rs2 unsigned. -/
  | bgeu (c : CoreNo) (rs1 : RegNo) (rs2 : RegNo) (off : BitVec 14)
  /-- LB (R71): lb loads a sign-extended byte. -/
  | lb (c : CoreNo) (rt : RegNo) (base : RegNo) (off : BitVec 12)
  /-- LBU (R71): lbu loads a zero-extended byte. -/
  | lbu (c : CoreNo) (rt : RegNo) (base : RegNo) (off : BitVec 12)
  /-- LH (R71): lh loads a sign-extended halfword. -/
  | lh (c : CoreNo) (rt : RegNo) (base : RegNo) (off : BitVec 12)
  /-- LHU (R71): lhu loads a zero-extended halfword. -/
  | lhu (c : CoreNo) (rt : RegNo) (base : RegNo) (off : BitVec 12)
  /-- LW (R68): lw loads a word, including from internal register space in program order. -/
  | lw (c : CoreNo) (rt : RegNo) (base : RegNo) (off : BitVec 12)
  /-- SB (R71): sb stores a byte. -/
  | sb (c : CoreNo) (rt : RegNo) (base : RegNo) (off : BitVec 12)
  /-- SH (R71): sh stores a halfword. -/
  | sh (c : CoreNo) (rt : RegNo) (base : RegNo) (off : BitVec 12)
  /-- SW (R68): sw stores a word, including to internal register space. -/
  | sw (c : CoreNo) (rt : RegNo) (base : RegNo) (off : BitVec 12)
  /-- AMOADD (R85): amoadd atomically adds rs2 to the word at rs1 and returns the old value. -/
  | amoadd (c : CoreNo) (rd : RegNo) (rs1 : RegNo) (rs2 : RegNo)
  /-- AMOSWAP (R85): amoswap atomically stores rs2 at rs1 and returns the old value. -/
  | amoswap (c : CoreNo) (rd : RegNo) (rs1 : RegNo) (rs2 : RegNo)
  /-- AMOAND (R85): amoand atomically ANDs rs2 into the word at rs1. -/
  | amoand (c : CoreNo) (rd : RegNo) (rs1 : RegNo) (rs2 : RegNo)
  /-- AMOOR (R85): amoor atomically ORs rs2 into the word at rs1. -/
  | amoor (c : CoreNo) (rd : RegNo) (rs1 : RegNo) (rs2 : RegNo)
  /-- AMOMIN (R85): amomin atomically keeps the signed minimum at rs1. -/
  | amomin (c : CoreNo) (rd : RegNo) (rs1 : RegNo) (rs2 : RegNo)
  /-- AMOMAX (R85): amomax atomically keeps the signed maximum at rs1. -/
  | amomax (c : CoreNo) (rd : RegNo) (rs1 : RegNo) (rs2 : RegNo)
  /-- AMOCAS (R85): amocas atomically compares the word at rs1 with rd and stores rs2 on a match. -/
  | amocas (c : CoreNo) (rd : RegNo) (rs1 : RegNo) (rs2 : RegNo)
  /-- FENCE_C (R83): fence.c waits until earlier cluster-memory accesses are performed for all cores of the cluster. -/
  | fenceC (c : CoreNo) (rd : RegNo) (rs1 : RegNo) (rs2 : RegNo)
  /-- FENCE_C_DONE (R83): A waiting fence.c completes once its earlier cluster accesses are performed. -/
  | fenceCDone (c : CoreNo)
  /-- FENCE_D (R84): fence.d waits until earlier device-memory and register accesses are performed. -/
  | fenceD (c : CoreNo) (rd : RegNo) (rs1 : RegNo) (rs2 : RegNo)
  /-- FENCE_D_DONE (R84): A waiting fence.d completes, or takes a pending imprecise bus error. -/
  | fenceDDone (c : CoreNo)
  /-- ERET (R71): eret returns to EPC and clears STATUS.EXC. -/
  | eret (c : CoreNo) (rd : RegNo) (rs1 : RegNo) (rs2 : RegNo)
  /-- HALT (R71): halt stops the core once every earlier access has completed. -/
  | halt (c : CoreNo) (rd : RegNo) (rs1 : RegNo) (rs2 : RegNo)
  /-- XRD (R65): xrd reads a special register, latching _HI when a split _LO is read. -/
  | xrd (c : CoreNo) (rd : RegNo) (rs1 : RegNo) (imm : BitVec 12)
  /-- XWR (R65): xwr writes a special register, clamping under R12 and setting STATUS.RANGE. -/
  | xwr (c : CoreNo) (rd : RegNo) (rs1 : RegNo) (imm : BitVec 12)
  /-- WDT_KICK (R91): A write to WDT_KICK or WDT_LOAD reloads the core watchdog count. -/
  | wdtKick (c : CoreNo)
  /-- PGET (R73): pget reads the low word of an axis position and latches the high word for the core. -/
  | pget (c : CoreNo) (rd : RegNo) (rs1 : RegNo) (rs2 : RegNo) (idx : BitVec 11)
  /-- PGETH (R73): pgeth returns the high word latched by the core's last pget of the axis. -/
  | pgeth (c : CoreNo) (rd : RegNo) (rs1 : RegNo) (rs2 : RegNo) (idx : BitVec 11)
  /-- AWAIT (R74): await starts waiting for an axis short position to reach a target, with a timeout in core cycles. -/
  | await (c : CoreNo) (rd : RegNo) (rs1 : RegNo) (rs2 : RegNo) (idx : BitVec 11)
  /-- AWAIT_REACHED (R74): The awaited axis reaches the target, the short position is written and TMO clears. -/
  | awaitReached (c : CoreNo)
  /-- AWAIT_TIMEOUT (R74): The await timeout elapses first, the current short position is written and TMO is set. -/
  | awaitTimeout (c : CoreNo)
  /-- TGET (R73): tget reads the clock by selector, latching the high word, epoch and fraction. -/
  | tget (c : CoreNo) (rd : RegNo) (rs1 : RegNo) (rs2 : RegNo) (idx : BitVec 11)
  /-- ARM (R117): arm reads a slot image and arms the slot, fires it late, discards it or rejects it with ARM_RANGE. -/
  | arm (c : CoreNo) (rd : RegNo) (rs1 : RegNo) (rs2 : RegNo) (idx : BitVec 11)
  /-- DISARM (R76): disarm disarms a slot at the next TIME cycle after any firing in that cycle. -/
  | disarm (c : CoreNo) (rd : RegNo) (rs1 : RegNo) (rs2 : RegNo) (idx : BitVec 11)
  /-- EVRAISE (R77): evraise raises a granted producer with a given hop count. -/
  | evraise (c : CoreNo) (rd : RegNo) (rs1 : RegNo) (rs2 : RegNo) (idx : BitVec 11)
  /-- EVWAIT (R78): evwait consumes one pending event at an input, or waits with a timeout. -/
  | evwait (c : CoreNo) (rd : RegNo) (rs1 : RegNo) (rs2 : RegNo) (idx : BitVec 11)
  /-- EVWAIT_TAKE (R78): A waiting evwait takes an event once its input count is non-zero. -/
  | evwaitTake (c : CoreNo)
  /-- EVWAIT_TIMEOUT (R78): The evwait timeout elapses, rd is zero and TMO is set. -/
  | evwaitTimeout (c : CoreNo)
  /-- EVPOLL (R78): evpoll reports an input's state without consuming. -/
  | evpoll (c : CoreNo) (rd : RegNo) (rs1 : RegNo) (rs2 : RegNo) (idx : BitVec 11)
  /-- RPOST (R79): rpost hands a 64-byte record to the franking stage and returns taken, busy or inactive. -/
  | rpost (c : CoreNo) (rd : RegNo) (rs1 : RegNo) (rs2 : RegNo) (idx : BitVec 11)
  /-- TFEED (R80): tfeed waits for a tile in the core's queue with a timeout and ends the previous hold. -/
  | tfeed (c : CoreNo) (rd : RegNo) (rs1 : RegNo) (rs2 : RegNo) (idx : BitVec 11)
  /-- TFEED_COPY (R265): A tile is available and tfeed copies it to cluster memory and returns its handle. -/
  | tfeedCopy (c : CoreNo)
  /-- TFEED_TIMEOUT (R80): The tfeed timeout elapses, rd is zero and TMO is set. -/
  | tfeedTimeout (c : CoreNo)
  /-- FLPUSH (R81): flpush hands a tile to the flail and waits while the flail queue is full. -/
  | flpush (c : CoreNo) (rd : RegNo) (rs1 : RegNo) (rs2 : RegNo) (idx : BitVec 11)
  /-- FLPUSH_ACCEPT (R269): The flail queue gains room and accepts the waiting flpush. -/
  | flpushAccept (c : CoreNo)
  /-- VADD (R71): vadd adds vectors element-wise under the predicate. -/
  | vadd (c : CoreNo) (vd : RegNo) (va : RegNo) (vb : RegNo) (view : Fin 4) (pred : Fin 8)
  /-- VSUB (R71): vsub subtracts vectors element-wise. -/
  | vsub (c : CoreNo) (vd : RegNo) (va : RegNo) (vb : RegNo) (view : Fin 4) (pred : Fin 8)
  /-- VMUL (R71): vmul writes the low half of element products. -/
  | vmul (c : CoreNo) (vd : RegNo) (va : RegNo) (vb : RegNo) (view : Fin 4) (pred : Fin 8)
  /-- VMULH (R71): vmulh writes the signed high half of element products. -/
  | vmulh (c : CoreNo) (vd : RegNo) (va : RegNo) (vb : RegNo) (view : Fin 4) (pred : Fin 8)
  /-- VMAC (R71): vmac accumulates element products into vd. -/
  | vmac (c : CoreNo) (vd : RegNo) (va : RegNo) (vb : RegNo) (view : Fin 4) (pred : Fin 8)
  /-- VADDS (R71): vadds adds with signed saturation. -/
  | vadds (c : CoreNo) (vd : RegNo) (va : RegNo) (vb : RegNo) (view : Fin 4) (pred : Fin 8)
  /-- VSUBS (R71): vsubs subtracts with signed saturation. -/
  | vsubs (c : CoreNo) (vd : RegNo) (va : RegNo) (vb : RegNo) (view : Fin 4) (pred : Fin 8)
  /-- VABSD (R71): vabsd writes unsigned absolute differences. -/
  | vabsd (c : CoreNo) (vd : RegNo) (va : RegNo) (vb : RegNo) (view : Fin 4) (pred : Fin 8)
  /-- VMIN (R71): vmin writes signed element minima. -/
  | vmin (c : CoreNo) (vd : RegNo) (va : RegNo) (vb : RegNo) (view : Fin 4) (pred : Fin 8)
  /-- VMAX (R71): vmax writes signed element maxima. -/
  | vmax (c : CoreNo) (vd : RegNo) (va : RegNo) (vb : RegNo) (view : Fin 4) (pred : Fin 8)
  /-- VMINU (R71): vminu writes unsigned element minima. -/
  | vminu (c : CoreNo) (vd : RegNo) (va : RegNo) (vb : RegNo) (view : Fin 4) (pred : Fin 8)
  /-- VMAXU (R71): vmaxu writes unsigned element maxima. -/
  | vmaxu (c : CoreNo) (vd : RegNo) (va : RegNo) (vb : RegNo) (view : Fin 4) (pred : Fin 8)
  /-- VAND (R71): vand writes the bitwise AND of vectors. -/
  | vand (c : CoreNo) (vd : RegNo) (va : RegNo) (vb : RegNo) (view : Fin 4) (pred : Fin 8)
  /-- VOR (R71): vor writes the bitwise OR of vectors. -/
  | vor (c : CoreNo) (vd : RegNo) (va : RegNo) (vb : RegNo) (view : Fin 4) (pred : Fin 8)
  /-- VXOR (R71): vxor writes the bitwise XOR of vectors. -/
  | vxor (c : CoreNo) (vd : RegNo) (va : RegNo) (vb : RegNo) (view : Fin 4) (pred : Fin 8)
  /-- VSLL (R71): vsll shifts elements left. -/
  | vsll (c : CoreNo) (vd : RegNo) (va : RegNo) (vb : RegNo) (view : Fin 4) (pred : Fin 8)
  /-- VSRL (R71): vsrl shifts elements right logically. -/
  | vsrl (c : CoreNo) (vd : RegNo) (va : RegNo) (vb : RegNo) (view : Fin 4) (pred : Fin 8)
  /-- VSRA (R71): vsra shifts elements right arithmetically. -/
  | vsra (c : CoreNo) (vd : RegNo) (va : RegNo) (vb : RegNo) (view : Fin 4) (pred : Fin 8)
  /-- VCMPEQ (R71): vcmpeq writes a predicate of element equality. -/
  | vcmpeq (c : CoreNo) (vd : RegNo) (va : RegNo) (vb : RegNo) (view : Fin 4) (pred : Fin 8)
  /-- VCMPLT (R71): vcmplt writes a predicate of signed less-than. -/
  | vcmplt (c : CoreNo) (vd : RegNo) (va : RegNo) (vb : RegNo) (view : Fin 4) (pred : Fin 8)
  /-- VCMPLTU (R71): vcmpltu writes a predicate of unsigned less-than. -/
  | vcmpltu (c : CoreNo) (vd : RegNo) (va : RegNo) (vb : RegNo) (view : Fin 4) (pred : Fin 8)
  /-- VSEL (R63): vsel chooses each element from va or vb by predicate, writing every element. -/
  | vsel (c : CoreNo) (vd : RegNo) (va : RegNo) (vb : RegNo) (view : Fin 4) (pred : Fin 8)
  /-- VSLIDE (R71): vslide shifts the concatenation of va and vb down by one element. -/
  | vslide (c : CoreNo) (vd : RegNo) (va : RegNo) (vb : RegNo) (view : Fin 4) (pred : Fin 8)
  /-- VBCAST (R71): vbcast broadcasts a scalar into every element. -/
  | vbcast (c : CoreNo) (vd : RegNo) (va : RegNo) (vb : RegNo) (view : Fin 4) (pred : Fin 8)
  /-- VEXT (R71): vext extracts one element into a scalar, sign-extended. -/
  | vext (c : CoreNo) (vd : RegNo) (va : RegNo) (vb : RegNo) (view : Fin 4) (pred : Fin 8)
  /-- VREDADD (R71): vredadd sums enabled elements into a scalar. -/
  | vredadd (c : CoreNo) (vd : RegNo) (va : RegNo) (vb : RegNo) (view : Fin 4) (pred : Fin 8)
  /-- VREDMIN (R71): vredmin writes the signed minimum of enabled elements. -/
  | vredmin (c : CoreNo) (vd : RegNo) (va : RegNo) (vb : RegNo) (view : Fin 4) (pred : Fin 8)
  /-- VREDMAX (R71): vredmax writes the signed maximum of enabled elements. -/
  | vredmax (c : CoreNo) (vd : RegNo) (va : RegNo) (vb : RegNo) (view : Fin 4) (pred : Fin 8)
  /-- VXADD (R64): vxadd adds pixel-word values with saturation and ORs flags. -/
  | vxadd (c : CoreNo) (vd : RegNo) (va : RegNo) (vb : RegNo) (view : Fin 4) (pred : Fin 8)
  /-- VXMUL (R64): vxmul scales pixel-word values by a Q16.16 gain with saturation. -/
  | vxmul (c : CoreNo) (vd : RegNo) (va : RegNo) (vb : RegNo) (view : Fin 4) (pred : Fin 8)
  /-- VXFLAG (R71): vxflag writes a predicate of pixels whose flags meet a mask. -/
  | vxflag (c : CoreNo) (vd : RegNo) (va : RegNo) (vb : RegNo) (view : Fin 4) (pred : Fin 8)
  /-- PAND (R71): pand writes the AND of two predicates. -/
  | pand (c : CoreNo) (vd : RegNo) (va : RegNo) (vb : RegNo) (view : Fin 4) (pred : Fin 8)
  /-- POR (R71): por writes the OR of two predicates. -/
  | por (c : CoreNo) (vd : RegNo) (va : RegNo) (vb : RegNo) (view : Fin 4) (pred : Fin 8)
  /-- PXOR (R71): pxor writes the XOR of two predicates. -/
  | pxor (c : CoreNo) (vd : RegNo) (va : RegNo) (vb : RegNo) (view : Fin 4) (pred : Fin 8)
  /-- PANDN (R71): pandn writes va AND NOT vb of predicates. -/
  | pandn (c : CoreNo) (vd : RegNo) (va : RegNo) (vb : RegNo) (view : Fin 4) (pred : Fin 8)
  /-- PCNT (R71): pcnt counts the set bits of a predicate into a scalar. -/
  | pcnt (c : CoreNo) (vd : RegNo) (va : RegNo) (vb : RegNo) (view : Fin 4) (pred : Fin 8)
  /-- VLD (R71): vld loads vector elements contiguously or strided under the predicate. -/
  | vld (c : CoreNo) (vt : RegNo) (base : RegNo) (stride : RegNo) (view : Fin 4) (pred : Fin 8)
  /-- VST (R71): vst stores vector elements contiguously or strided under the predicate. -/
  | vst (c : CoreNo) (vt : RegNo) (base : RegNo) (stride : RegNo) (view : Fin 4) (pred : Fin 8)
  /-- BUS_ERROR_POSTED (R89): A retired device-memory store fails and its imprecise bus error is taken at the next boundary or fence.d. -/
  | busErrorPosted (c : CoreNo) (addr : Word)
  /-- WATCHDOG (R91): WDT_COUNT reaches zero, the core takes the watchdog exception, abandoning a wait, and the count reloads. -/
  | watchdog (c : CoreNo)
  /-- MBX_SEND (R112): A write of MBX_SEND copies the request buffer and dispatches the letter, or sets OVERRUN when busy. -/
  | mbxSend (m : Fin 4)
  /-- MBX_ABORT (R112): A write of MBX_SEND.ABORT requests abort of the letter in process where its point allows. -/
  | mbxAbort (m : Fin 4)
  /-- CCX_MBX_POST (R108): The server core posts its reply, which is copied to the host with REPLY_READY set and BUSY cleared. -/
  | ccxMbxPost (c : Fin 4) (m : Fin 4)
  /-- QUERY (R110): The QUERY letter returns each core's bank, parcel and run state. -/
  | query (m : Fin 4)
  /-- LOAD (R110): The LOAD letter starts the loader fetching a parcel from host memory. -/
  | load (m : Fin 4)
  /-- PARCEL_FETCHED (R99): The parcel fetch and hash finish, the ordered checks run, and the parcel is written into banks or refused. -/
  | parcelFetched (bytes : List Byte) (failed : Bool)
  /-- SWITCH (R103): The SWITCH letter makes a parcel's cores switch at sheaf N of sequence q, or at once with NOW. -/
  | switch (m : Fin 4)
  /-- CORE_SWITCH (R104): An eligible core reaches a wait or halt and switches banks, data and grant, then starts. -/
  | coreSwitch (c : CoreNo)
  /-- SWITCH_FORCED (R103): 10 ms after eligibility an unswitched core is switched at its next instruction boundary. -/
  | switchForced (c : CoreNo)
  /-- SWITCH_DONE (R110): The last core switches and the SWITCH letter is answered with switched and forced counts. -/
  | switchDone
  /-- CANCEL (R110): The CANCEL letter cancels a pending switch and empties the parcel's READY banks. -/
  | cancel (m : Fin 4)
  /-- HALT_LETTER (R110): The HALT letter halts each core running a parcel at its next instruction boundary. -/
  | haltLetter (m : Fin 4)
  /-- START_LETTER (R110): The START letter starts halted cores of a parcel at pc 0. -/
  | startLetter (m : Fin 4)
  /-- IDENTITY (R363): The IDENTITY letter returns DSN, lifecycle, features and the certificate chain. -/
  | identity (m : Fin 4)
  /-- CHALLENGE (R363): The CHALLENGE letter returns a one-use 32-byte nonce valid for 60 s. -/
  | challenge (m : Fin 4)
  /-- SET_OWNER_KEY (R363): SET_OWNER_KEY blows an empty owner slot's hash in BLANK or PROVISION. -/
  | setOwnerKey (m : Fin 4) (vpp : Bool) (stuck : Option (Fin 4096))
  /-- SET_POLICY (R363): SET_POLICY blows the allowed policy bits of fuse word 0. -/
  | setPolicy (m : Fin 4) (vpp : Bool) (stuck : Option (Fin 4096))
  /-- ADVANCE (R361): ADVANCE blows the next lifecycle step, with authorisation except from BLANK. -/
  | advance (m : Fin 4) (vpp : Bool) (stuck : Option (Fin 4096))
  /-- REVOKE (R363): REVOKE blows the revocation bit of an owner slot under another slot's authorisation. -/
  | revoke (m : Fin 4) (vpp : Bool) (stuck : Option (Fin 4096))
  /-- COMMIT_VERSION (R363): COMMIT_VERSION raises the anti-rollback thermometer up to V. -/
  | commitVersion (m : Fin 4) (vpp : Bool) (stuck : Option (Fin 4096))
  /-- SPDM_RELAY (R369): SPDM_RELAY carries one SPDM message to the responder and returns the response. -/
  | spdmRelay (m : Fin 4)
  /-- SELF_TEST (R411): The SELF_TEST letter starts the built-in memory self-test in DIAGNOSE. -/
  | selfTest (m : Fin 4)
  /-- DISARM_ALL (R76): SCH_CMD.DISARM_ALL disarms every slot at the next TIME cycle. -/
  | disarmAll
  /-- SLOT_FIRE (R119): An armed slot reaches its firing instant plus L and performs its action, record and producer. -/
  | slotFire (n : Fin 256)
  /-- SLOT_NEXT_TARGET (R122): In the following TIME cycle a repeating slot tests its next target, firing, discarding or disarming it. -/
  | slotNextTarget (n : Fin 256)
  /-- PULSE_END (R120): A slot pulse ends after its width, exposure width or end position. -/
  | pulseEnd (n : RegNo)
  /-- WIDTH_CAP (R120): A pulse still active 16,777,216 ns after its rising edge ends and sets WIDTH_CAP. -/
  | widthCap (n : RegNo)
  /-- EVENT_ARRIVAL (R127): An event raised in cycle t is counted at its inputs in cycle t + 3 through valid selectors and enabled groups. -/
  | eventArrival
  /-- ENABLE_GROUP (R128): An event taken at an enable-group input enables the group from the next cycle. -/
  | enableGroup (g : RegNo)
  /-- DISABLE_GROUP (R128): An event taken at a disable-group input disables the group from the next cycle. -/
  | disableGroup (g : RegNo)
  /-- EVENT_PULSE (R180): An event taken at input 0x140 + n drives a pulse on TRIGn 24 ns later with the exposure width. -/
  | eventPulse (n : RegNo)
  /-- ENTER_HOLDOVER (R52): An event taken at input 0x168 enters a forced holdover. -/
  | enterHoldover
  /-- EVR_GRP_ON (R128): A write of EVR_GRP_ON enables groups from the next cycle. -/
  | evrGrpOn (v : Word)
  /-- EVR_GRP_OFF (R128): A write of EVR_GRP_OFF disables groups from the next cycle. -/
  | evrGrpOff (v : Word)
  /-- FLUSH (R129): EVR_IN_CMD.FLUSH sets an input's pending count to zero. -/
  | flush (i : Fin 512)
  /-- EVR_SEL_WRITE (R134): A selector write takes effect only for a declared route, otherwise is counted as undeclared. -/
  | evrSelWrite (i : Fin 512) (k : Fin 4) (v : Word)
  /-- LNK_LANE_CFG_WRITE (R139): A lane configuration write sets mode and rate and restarts any port or link on the lane. -/
  | lnkLaneCfgWrite (n : Fin 24) (v : Word)
  /-- ETH_CFG_WRITE (R138): An ETH_CFG write enables or reconfigures a port within the lane and budget limits. -/
  | ethCfgWrite (m : Fin 16) (v : Word)
  /-- ETH_PORT_UP (R139): A port's lanes, PCS and FEC lock and it comes up, sending a gratuitous ARP and raising its producer. -/
  | ethPortUp (m : Fin 16)
  /-- ETH_PORT_DOWN (R139): A port loses lock and goes down, raising its producer. -/
  | ethPortDown (m : Fin 16)
  /-- ETH_FRAME (R140): A received Ethernet frame is checked and passed to its consumer or dropped and counted. -/
  | ethFrame (m : Fin 16) (bytes : List Byte) (fcsOk : Bool) (overload : Bool)
  /-- ARP_REQUEST (R142): An ARP request for ETH_IP is answered. -/
  | arpRequest
  /-- ARP_REPLY (R142): An ARP reply to a request of the L9 fills the cache and releases the waiting packet. -/
  | arpReply
  /-- ARP_RETRY (R142): 100 ms pass without an answer and the ARP request is resent or the packet refused with ARP_FAIL. -/
  | arpRetry
  /-- ARP_ENTRY_EXPIRY (R142): An ARP cache entry reaches 60 s since its last answer and expires. -/
  | arpEntryExpiry
  /-- ICMP_ECHO_REQUEST (R143): An on-link echo request is answered within the rate limit. -/
  | icmpEchoRequest
  /-- GVSP_LEADER (R156): A GVSP leader opens a block, checks format and ID order, and matches the head trigger entry. -/
  | gvspLeader (n : Fin 64)
  /-- GVSP_PAYLOAD (R148): A GVSP payload packet fills its block and may open or close a gap. -/
  | gvspPayload (n : Fin 64)
  /-- GVSP_TRAILER (R150): A GVSP trailer closes a complete block, or marks it short, and reads the generation chunk. -/
  | gvspTrailer (n : Fin 64)
  /-- GAP_DELAY (R148): A gap's delay expires and its remainder is written to the gap queue. -/
  | gapDelay (n : Fin 64)
  /-- GAP_SEND (R149): GVS_GAP_CMD.SEND checks the block budget and sends a PACKETRESEND_CMD. -/
  | gapSend
  /-- GAP_DROP (R149): GVS_GAP_CMD.DROP pops the head gap record without a request. -/
  | gapDrop
  /-- RESEND_WAIT (R150): WAIT × 100 µs pass and an incomplete block closes with fill and MISSING. -/
  | resendWait (n : Fin 64)
  /-- FRAME_WATCHDOG (R153): FRAME_TMO passes before a block closes and it closes with TIMEOUT. -/
  | frameWatchdog (n : Fin 64)
  /-- TRIGGER_ENTRY_TIMEOUT (R155): An unmatched head entry's edge time plus FRAME_TMO passes and it is reported MISSED. -/
  | triggerEntryTimeout (port : Bool) (n : Fin 64)
  /-- ACT_SEND (R160): GVS_ACT_SEND sends an action command and queues an entry for each stream on the template. -/
  | actSend (t : Fin 16)
  /-- PTP_MESSAGE (R162): A received PTP event message is stamped and placed in the management receive queue. -/
  | ptpMessage
  /-- ETH_MRQ_POP (R162): ETH_MRQ_POP removes the head frame of the management receive queue. -/
  | ethMrqPop (m : Fin 16)
  /-- ETH_MTX_SEND (R162): ETH_MTX_CMD.SEND transmits a frame, latching or inserting the egress stamp. -/
  | ethMtxSend (m : Fin 16) (v : Word)
  /-- RELAY_GO (R163): GVS_RLY_CMD.GO sends a relayed GVCP command with the L9's req_id. -/
  | relayGo (v : Word)
  /-- GVCP_ACK (R163): A matching GVCP acknowledge completes the relay, or a PENDING_ACK restarts its wait. -/
  | gvcpAck
  /-- ACK_TMO (R164): ACK_TMO passes without acknowledge and the relay resends or ends with RESULT 2. -/
  | ackTmo
  /-- HEARTBEAT (R165): PERIOD ms pass and the L9 reads camera register 0x0A00 as a heartbeat. -/
  | heartbeat (n : Fin 64)
  /-- HEARTBEAT_TIMEOUT (R165): A heartbeat read goes unanswered for 200 ms, and after three in a row CAM_LOST is set. -/
  | heartbeatTimeout (n : Fin 64)
  /-- CLEAR_UNC (R166): GVS_S_CMD.CLEAR_UNC ends exposure uncertainty and makes EXPECTED current. -/
  | clearUnc (n : Fin 64)
  /-- STREAM_APPLY (R221): A stream's apply point brings its MIL, PAR and GVS shadowed settings into force for the next frame. -/
  | streamApply (n : Fin 64)
  /-- FLUSH_TRIGQ (R167): FLUSH_TRIGQ empties a stream's trigger queue without reporting MISSED. -/
  | flushTrigq (port : Bool) (n : Fin 64)
  /-- PAR_FRAME_OPEN (R172): FVAL becomes active, or the first LVAL with FVAL_IGN, and the port opens and stamps a frame. -/
  | parFrameOpen (p : PortLevel)
  /-- PAR_LINE_OPEN (R172): LVAL becomes active inside a frame and a line opens. -/
  | parLineOpen (p : PortLevel)
  /-- PAR_LINE_CLOSE (R173): LVAL becomes inactive and the line, filled or trimmed to SIZE_X, goes to the Mill. -/
  | parLineClose (p : PortLevel)
  /-- PAR_FRAME_CLOSE (R174): FVAL becomes inactive and the frame closes, short or long, and raises its producers. -/
  | parFrameClose (p : PortLevel)
  /-- PAR_FRAME_WATCHDOG (R176): PAR_TMO.FRAME_TMO passes and the port closes the frame with TIMEOUT. -/
  | parFrameWatchdog (p : Fin 4)
  /-- PCLK_CHECK (R177): Every 10 µs the port measures PCLK and sets PCLK_LOST or PCLK_RANGE. -/
  | pclkCheck (p : Fin 4) (mhz : Option Nat)
  /-- FIRE (R180): TRG_CMD.FIRE drives a pulse 24 ns after the next TIME cycle with the exposure width. -/
  | fire (n : RegNo)
  /-- TRIGGER_OUTPUT_APPLY (R184): An output's apply point brings the new exposure width and generation into force for edges from that cycle. -/
  | triggerOutputApply (n : RegNo)
  /-- STROBE (R187): A strobe starts DLY after a trigger's rising edge on a STROBE pin. -/
  | strobe (g : Fin 16)
  /-- STROBE_END (R187): A strobe's width elapses and the pin returns inactive. -/
  | strobeEnd (g : Fin 16)
  /-- GPIO_INPUT (R186): A filtered GPIO input level change is shown in TRG_GPIO_IN. -/
  | gpioInput (g : Fin 16) (level : Bool) (width : Word)
  /-- MILL_LINE_ARRIVE (R198): A line arrives at a stream's Mill input queue, or is dropped and later replaced by fill. -/
  | millLineArrive
  /-- MILL_SEGMENT (R197): The Mill takes one segment from the next ready stream in round-robin order through its stages. -/
  | millSegment
  /-- TNR_RESET (R206): The temporal reference is discarded and TNR_RESET set on the next frame. -/
  | tnrReset (n : Fin 64)
  /-- TDI_BIN_EMIT (R212): A bin reaching K rows, or passed, is emitted as one accumulated line. -/
  | tdiBinEmit (n : Fin 64)
  /-- STATS_RECORD (R219): The Mill writes a statistics record and increments MIL_ST_WR. -/
  | statsRecord (n : Fin 64)
  /-- CAL_START (R220): MIL_CMD.CAL_START zeroes the table and begins calibration accumulation at the next frame. -/
  | calStart (n : Fin 64)
  /-- CAL_ABORT (R220): MIL_CMD.CAL_ABORT stops accumulation at once. -/
  | calAbort (n : Fin 64)
  /-- MIL_APPLY (R221): MIL_CMD.APPLY fires the stream's apply point. -/
  | milApply (n : Fin 64)
  /-- COL_CUT (R233): A cut input event samples the axis and cuts every open sheaf the web has passed. -/
  | colCut (q : Fin 8)
  /-- COL_LINE (R230): A member line contributes to its sheaves, opening one or losing it when no buffer is free. -/
  | colLine
  /-- LINE_SETTLE (R236): An output line whose members and strips are done settles into pixel words. -/
  | lineSettle (q : Fin 8)
  /-- SHEAF_CLOSE (R237): A cut sheaf whose lines have settled closes, writes its record and raises its closed producer. -/
  | sheafClose (q : Fin 8)
  /-- CLOSE_TMO (R236): CLOSE_TMO passes after a cut and the sheaf closes anyway with CLOSE_TMO. -/
  | closeTmo (q : Fin 8)
  /-- STRIP_BAND_SEND (R241): A strip band is sent to a neighbour once its local members are done, or at close. -/
  | stripBandSend (q : Fin 8)
  /-- STRIP_BAND (R243): A received strip band is checked and combined into the sheaf buffer. -/
  | stripBand
  /-- COL_SQ_REL (R239): A program release of a closed sheaf buffer. -/
  | colSqRel (q : Fin 8) (b : Fin 16)
  /-- RESTART (R240): COL_SQ_CMD.RESTART cuts every open sheaf with FORCED and clears the floor once they close. -/
  | restart (q : Fin 8)
  /-- COL_APPLY (R244): The collator apply point brings COL settings into force. -/
  | colApply
  /-- HEAD_UNIT (R249): A head output begins a unit from a closed sheaf or stream lines, checking staging. -/
  | headUnit (h : Fin 3)
  /-- HEAD_OFFER (R251): A finished unit is offered to the franking stage, and retried every 1 µs if refused. -/
  | headOffer (o : Fin 32)
  /-- HEAD_WAIT_EXPIRY (R251): HED_O_WAIT passes after the first refused offer and the unit is dropped. -/
  | headWaitExpiry (o : Fin 32)
  /-- DISPLAY_FRAME (R256): A display frame is emitted per unit or per period, and sent over GVSP when TO_ETH is set. -/
  | displayFrame (d : Fin 8)
  /-- OVL_WAIT (R257): OVL_WAIT passes after sheaf close and the frame draws the boxes taken so far. -/
  | ovlWait (o : Fin 32)
  /-- HED_APPLY (R262): The heads' apply point brings HED settings into force. -/
  | hedApply
  /-- TILE_DEAL (R264): The dispatcher deals the next tile to the next core whose tile queue has room. -/
  | tileDeal
  /-- FLAIL_TILE (R269): The flail labels a tile, writes components, COMP_CNT and DONE, and raises the cluster producer. -/
  | flailTile
  /-- THR_TILE_DONE (R270): A write of THR_TILE_DONE ends the hold of a tile handle. -/
  | thrTileDone (h : Word)
  /-- CROP_CUT (R272): A requested crop is cut from the sheaf and follows its record. -/
  | cropCut
  /-- RECORD_UNIT_CLOSE (R298): A defect record unit closes when full, on another sheaf, or 100 µs after its first record. -/
  | recordUnitClose (r : Fin 256)
  /-- THR_APPLY (R274): The thresher apply point brings THR settings into force. -/
  | thrApply
  /-- MEM_PART_WRITE (R278): A partition base or size write takes effect only without overlap and within use limits. -/
  | memPartWrite (k : Fin 6) (size : Bool) (v : Word)
  /-- SCRUB (R282): The patrol scrub reads and corrects the next unit of device memory. -/
  | scrub (outcome : Fin 3) (stack : Bool)
  /-- GRANARY_LINE (R285): A tapped line is stored in the granary, taking a segment under R286 when needed. -/
  | granaryLine
  /-- GRN_X_GO (R288): GRN_X_GO queues an extract request, or is ignored with QFULL. -/
  | grnXGo
  /-- EXTRACT_START (R289): An extract request starts and pins the matching segments. -/
  | extractStart
  /-- EXTRACT_UNIT (R290): An extract unit of one segment's matching lines is offered to the franking stage. -/
  | extractUnit
  /-- GRN_X_ABORT (R290): GRN_X_GO.ABORT stops the extract after its current unit. -/
  | grnXAbort
  /-- EXTRACT_TMO (R290): TMO ms pass while an extract waits for later lines, ending it with TIMEOUT. -/
  | extractTmo
  /-- EXTRACT_REPORT (R291): An extract ends with its report record on the ring. -/
  | extractReport
  /-- FRANK (R304): A unit offered to a ring is refused, discarded or franked and admitted to slots or poste restante. -/
  | frank
  /-- HELD_LOSS_REPORT (R308): A ring's held-loss report is franked after the last unit held before the loss. -/
  | heldLossReport (r : Fin 256)
  /-- RING_UNIT_START (R314): A ring channel becomes free and takes the next ready unit in ring order. -/
  | ringUnitStart (n : Fin 64)
  /-- RING_UNIT_DONE (R311): A ring unit's payload and envelope writes are issued, its completion record is written and PROD advances. -/
  | ringUnitDone (n : Fin 64)
  /-- DLV_H_CONS (R296): The host writes CONS to return slots, the ring doorbell. -/
  | dlvHCons (r : Fin 256) (v : Word)
  /-- ACTIVATE (R305): DLV_H_CTRL.ACTIVATE moves a HELD ring to DRAINING or ACTIVE and zeroes its counts. -/
  | activate (r : Fin 256)
  /-- DEACTIVATE (R305): DLV_H_CTRL.DEACTIVATE holds the ring once the unit in transfer completes. -/
  | deactivate (r : Fin 256)
  /-- DRAIN_END (R305): A DRAINING ring has delivered all held output and becomes ACTIVE. -/
  | drainEnd (r : Fin 256)
  /-- DLV_R_POLICY_WRITE (R306): A ring policy write sets EN to start a chain or clears it to end the chain with a final record. -/
  | dlvRPolicyWrite (r : Fin 256) (v : Word)
  /-- DISCARD (R306): DLV_R_CMD.DISCARD drops all unfinished franked output of a disabled-EN ring. -/
  | discard (r : Fin 256)
  /-- DLV_CQ_HEAD (R309): The host writes a completion queue HEAD, freeing room for waiting writers. -/
  | dlvCqHead (c : Fin 32) (v : Word)
  /-- CQ_ENABLE (R311): DLV_CQ_CTRL.ENABLE enables a queue and zeroes TAIL and HEAD. -/
  | cqEnable (c : Fin 32)
  /-- CQ_DISABLE (R311): DLV_CQ_CTRL.DISABLE disables a queue after the record being written. -/
  | cqDisable (c : Fin 32)
  /-- MOD_TIME (R312): MOD_TIME passes since the oldest unsignalled record and the vector is signalled. -/
  | modTime (ring : Bool) (n : Fin 256)
  /-- START (R315): DMA_C_CMD.START copies the SH registers and runs a transfer or chain from IDLE. -/
  | start (n : Fin 64)
  /-- PAUSE (R322): DMA_C_CMD.PAUSE stops issuing bursts and pauses the channel. -/
  | pause (n : Fin 64)
  /-- RESUME (R322): DMA_C_CMD.RESUME returns a paused, failed or BME_LOST channel to running or parked. -/
  | resume (n : Fin 64)
  /-- ABORT (R322): DMA_C_CMD.ABORT stops requests, writes an ABORTED record and returns to IDLE. -/
  | abort (n : Fin 64)
  /-- DOORBELL (R320): DMA_C_CMD.DOORBELL sets DB_PENDING so a parked channel rereads its tail. -/
  | doorbell (n : Fin 64)
  /-- DMA_START_EVENT (R315): An event taken at a channel's start input acts as START when the channel is IDLE. -/
  | dmaStartEvent (n : Fin 64)
  /-- DESCRIPTOR_READ (R319): A descriptor read completes and the channel runs it, follows NEXT or parks, or stops with DESC_BAD. -/
  | descriptorRead (n : Fin 64)
  /-- DMA_BURST (R323): The scheduler issues the next burst from the highest ready priority level. -/
  | dmaBurst (fromHost : Bool)
  /-- READ_COMPLETION (R342): A completion for an outstanding read is checked and its data delivered, or fails the transfer. -/
  | readCompletion (tag : BitVec 14) (status : Fin 4) (data : List Byte)
  /-- COMPLETION_TIMEOUT (R343): A read's completion timeout elapses and its transfer fails with ERR_READ. -/
  | completionTimeout (tag : BitVec 14)
  /-- LATE_COMPLETION (R344): A completion arriving after its timeout is discarded and its tag quarantined. -/
  | lateCompletion (tag : BitVec 14)
  /-- TAG_QUARANTINE_END (R344): A quarantined tag's twice-the-timeout period ends and it returns to the pool. -/
  | tagQuarantineEnd (tag : BitVec 14)
  /-- DMA_TRANSFER_DONE (R310): A transfer's last write is issued and its completion record written when requested. -/
  | dmaTransferDone (n : Fin 64)
  /-- BME_CLEAR (R345): Clearing Bus Master Enable stops requests, moves channels to BME_LOST and deactivates rings. -/
  | bmeClear
  /-- BAR0_REQUEST (R336): A host memory request to BAR0 acts as aligned dword accesses, including the internal mirror. -/
  | bar0Request (q : HostReq)
  /-- BAR2_REQUEST (R337): A host memory request to BAR2 reaches device memory within the aperture's reach. -/
  | bar2Request (q : HostReq)
  /-- ROM_READ (R338): A read of the expansion ROM window returns the device directory. -/
  | romRead (q : HostReq)
  /-- CONFIGURATION_REQUEST (R334): A configuration request is answered, or RRS while not ready. -/
  | configurationRequest (q : HostReq)
  /-- MSI_X_MESSAGE (R340): A signalled vector sends its MSI-X message, or sets its PBA bit and sends when unmasked. -/
  | msiXMessage
  /-- INTA_CHANGE (R341): The INTA level changes and Assert_INTA or Deassert_INTA is sent. -/
  | intaChange
  /-- CORRECTABLE_ERROR (R350): A correctable link error is replayed and reported. -/
  | correctableError (bit : Fin 16)
  /-- UNCORRECTABLE_ERROR (R350): An uncorrectable PCI Express error is logged and may begin containment. -/
  | uncorrectableError (bit : Fin 32) (hdr : List Word)
  /-- CONTAIN_RELEASE (R352): PCI_CONTAIN.RELEASE ends an error containment, with RESUME_DMA resuming paused channels. -/
  | containRelease (resume : Bool)
  /-- D3HOT_ENTRY (R348): Entering D3hot acts as clearing Bus Master and Memory Space Enable. -/
  | d3hotEntry
  /-- PCI_PME_SEND (R348): PCI_PME.SEND, or poste restante falling to FREE_THRESH, signals PME. -/
  | pciPmeSend (write : Bool)
  /-- LTR_MESSAGE (R349): A change of ring activity sends an LTR message. -/
  | ltrMessage
  /-- ASPM_L1_REQUEST (R349): 10 µs without an outbound request outstanding and the L9 requests ASPM L1. -/
  | aspmL1Request
  /-- GET_VERSION (R369): GET_VERSION negotiates version 1.2 and ends the transport's sessions. -/
  | getVersion (t : Fin 5)
  /-- GET_CAPABILITIES (R367): GET_CAPABILITIES returns the responder capabilities. -/
  | getCapabilities (t : Fin 5)
  /-- NEGOTIATE_ALGORITHMS (R367): NEGOTIATE_ALGORITHMS settles the algorithm set. -/
  | negotiateAlgorithms (t : Fin 5)
  /-- GET_DIGESTS (R367): GET_DIGESTS returns the certificate-chain digest of slot 0. -/
  | getDigests (t : Fin 5)
  /-- GET_CERTIFICATE (R365): GET_CERTIFICATE returns a portion of the slot 0 certificate chain. -/
  | getCertificate (t : Fin 5)
  /-- GET_MEASUREMENTS (R368): GET_MEASUREMENTS returns the measurement indices, signed when asked. -/
  | getMeasurements (t : Fin 5)
  /-- SPDM_CHALLENGE (R367): An SPDM CHALLENGE is answered with a response signed by the identity key. -/
  | spdmChallenge (t : Fin 5)
  /-- KEY_EXCHANGE (R367): KEY_EXCHANGE opens a secured session up to the limit of 8. -/
  | keyExchange (t : Fin 5)
  /-- FINISH (R367): FINISH completes the session handshake, with mutual authentication when requested. -/
  | finish (t : Fin 5) (leaf : List Byte)
  /-- HEARTBEAT_SPDM (R367): An SPDM HEARTBEAT is answered within a session. -/
  | heartbeatSpdm (t : Fin 5)
  /-- KEY_UPDATE (R367): KEY_UPDATE updates a session's keys. -/
  | keyUpdate (t : Fin 5)
  /-- END_SESSION (R369): END_SESSION ends a secured session, leaving bound rings running. -/
  | endSession (t : Fin 5)
  /-- BIND_RING (R370): BIND_RING checks ring state, mode and ticket, draws CHAIN_ID and binds the derived key. -/
  | bindRing (t : Fin 5)
  /-- RING_STATUS (R370): RING_STATUS returns a ring's current CHAIN_ID. -/
  | ringStatus (t : Fin 5)
  /-- UNBIND (R370): UNBIND erases the key and CHAIN_ID of a disabled ring from the binding session. -/
  | unbind (t : Fin 5)
  /-- IDE_KM_QUERY (R381): IDE_KM QUERY within a secured DOE session reports the Link IDE stream. -/
  | ideKmQuery (t : Fin 5)
  /-- KEY_PROG (R381): IDE_KM KEY_PROG programs a Link IDE key. -/
  | keyProg (t : Fin 5)
  /-- K_SET_GO (R381): IDE_KM K_SET_GO starts the Link IDE stream with its keys. -/
  | kSetGo (t : Fin 5)
  /-- K_SET_STOP (R381): IDE_KM K_SET_STOP stops the Link IDE stream. -/
  | kSetStop (t : Fin 5)
  /-- IDE_CHECK_FAILED (R381): An IDE check fails and the stream becomes Insecure with its keys discarded. -/
  | ideCheckFailed
  /-- CANCELLATION_DUE (R375): A chain reaches 4,096 units or 10 s since its last cancellation record and a record falls due for signing. -/
  | cancellationDue (r : Fin 256)
  /-- CANCEL_SIGNED (R377): The signer finishes a cancellation record, which is franked and the ring's refusal ends. -/
  | cancelSigned
  /-- NOISE_WINDOW (R356): A running noise-source test window of 1,024 samples completes, and three failed windows enter LOCKDOWN. -/
  | noiseWindow (ok : Bool)
  /-- GLITCH_DETECTED (R451): A glitch detector sees VDD_CORE or VDD_AON below threshold, or the ROOT clock off band, and enters LOCKDOWN. -/
  | glitchDetected
  /-- ROOT_CORE_EXCEPTION (R379): A root-core exception or watchdog expiry enters LOCKDOWN with CAUSE 4. -/
  | rootCoreException
  /-- EBK_CFG_WRITE (R388): A link configuration write enabling or changing a link starts it at SEND. -/
  | ebkCfgWrite (k : Fin 8) (v : Word)
  /-- EBK_RESTART (R388): EBK_CMD.RESTART returns a link to SEND. -/
  | ebkRestart (k : Fin 8)
  /-- TX_READY (R388): The link transmitter reaches its rate and the link enters HUNT. -/
  | txReady (k : Fin 8)
  /-- BLOCK_LOCK (R388): 64 consecutive valid sync headers arrive and the link enters ADAPT. -/
  | blockLock (k : Fin 8)
  /-- ADAPT_END (R388): 2 ms of adaptation pass, the rate offset is checked and the link enters GREET. -/
  | adaptEnd (k : Fin 8) (ppm : BitVec 16) (eq : Word)
  /-- IDENT (R390): A received IDENT block counts toward accepting or refusing the partner's identity. -/
  | ident (k : Fin 8) (p : Dword)
  /-- GREET_TMO (R388): 10 ms in GREET without an identity returns the link to HUNT. -/
  | greetTmo (k : Fin 8)
  /-- PROBE (R391): A received PROBE is echoed, or an echo is used for ranging and sixteen good echoes enter RUN. -/
  | probe (k : Fin 8) (p : Dword) (sub : Fin 16)
  /-- PROBE_SEND (R391): In RANGE the link sends the next PROBE every 1 µs. -/
  | probeSend (k : Fin 8)
  /-- RANGE_FAIL (R388): 10 ms in RANGE without accepted ranging returns the link to HUNT. -/
  | rangeFail (k : Fin 8)
  /-- LOST (R389): Loss of signal or too many invalid headers returns a link to HUNT. -/
  | lost (k : Fin 8) (invalid : BitVec 16) (slip : Bool)
  /-- LINK_ABSENT (R389): 100 ms without reaching RANGE sets LINK_ABSENT. -/
  | linkAbsent (k : Fin 8)
  /-- BEACON_SEND (R395): A beacon entry's period elapses and a BEACON with its sampled value is sent. -/
  | beaconSend (k : Fin 8) (b : Fin 8)
  /-- BEACON (R395): A received BEACON feeds remote axes or the time-beacon offset. -/
  | beacon (k : Fin 8) (p : Dword) (value : Dword) (sub : Fin 16)
  /-- REMOTE_OUT (R396): A remote-out input takes an event and sends an EVENT block on its link or links. -/
  | remoteOut (r : Fin 128)
  /-- EVENT (R396): A received EVENT raises the remote producer or is forwarded. -/
  | event (k : Fin 8) (p : Dword)
  /-- ACK (R398): A received ACK or NAK advances or rewinds the link's retry window. -/
  | ack (k : Fin 8) (p : Dword)
  /-- FRAME (R397): A received frame from START to END is checked, accepted, acknowledged, forwarded or discarded. -/
  | frame (k : Fin 8) (start : Dword) (data : List Byte) (crcOk : Bool)
  /-- RETRY_TMO (R398): RETRY_TMO passes without advance and the sender rewinds, or after RETRY_MAX returns to HUNT. -/
  | retryTmo (k : Fin 8)
  /-- EBK_X_GO (R399): EBK_X_GO queues a COPY transfer to a destination node. -/
  | ebkXGo (r : Requester) (v : Word)
  /-- TRANSFER_SEND (R399): The sending queue takes the next strip or copy transfer and frames it. -/
  | transferSend
  /-- AXIS_SAMPLE_SEND (R402): An axis sample entry's period elapses and a 40-byte datagram is sent. -/
  | axisSampleSend (t : Fin 16)
  /-- AXIS_SAMPLE (R402): A received axis sample datagram feeds the remote axes. -/
  | axisSample
  /-- MARGIN_CHECK (R394): Every 10 ms the eye height is measured and MARGIN_LOW or FROZEN set. -/
  | marginCheck (n : Fin 24) (eye : BitVec 16)
  /-- ADAPT_STEP (R393): Each STEP_INT in RUN the receiver adapts each coefficient by at most one step. -/
  | adaptStep (n : Fin 24) (eq : Word)
  /-- SNAPSHOT (R394): LNK_L_CMD.SNAPSHOT takes a new margin snapshot. -/
  | snapshot (n : Fin 24)
  /-- UNFREEZE (R394): LNK_L_CMD.UNFREEZE releases frozen coefficients. -/
  | unfreeze (n : Fin 24)
  /-- LNK_TXEQ_WRITE (R392): A transmit equalisation write takes effect at once, clamped to its limits. -/
  | lnkTxeqWrite (n : Fin 24) (v : Word)
  /-- REQ_REPLAY (R408): DEV_MODE_CMD.REQ 6 requests REPLAY mode. -/
  | reqReplay
  /-- REQ_CALIBRATE (R408): DEV_MODE_CMD.REQ 7 requests CALIBRATE mode. -/
  | reqCalibrate
  /-- REQ_DIAGNOSE (R408): DEV_MODE_CMD.REQ 8 requests DIAGNOSE mode. -/
  | reqDiagnose
  /-- REQ_SLEEP (R416): DEV_MODE_CMD.REQ 10 requests SLEEP while the link is down. -/
  | reqSleep
  /-- LEAVE (R408): DEV_MODE_CMD.REQ 15 ends the requested mode in force. -/
  | leave
  /-- FULL_RESET (R414): DEV_CMD.FULL_RESET acts as RESET_N held low for 1 µs. -/
  | fullReset
  /-- REPLAY_GO (R409): DEV_RPL_CMD.GO starts the replay feeder. -/
  | replayGo
  /-- REPLAY_ABORT (R409): DEV_RPL_CMD.ABORT stops the feeder after the current line. -/
  | replayAbort
  /-- REPLAY_LINE (R409): The replay feeder feeds the next line with its header postmark, or stops with REPLAY_BAD or REPLAY_DONE. -/
  | replayLine
  /-- BIST_GO (R411): DEV_BIST_CMD.GO starts the built-in memory self-test in DIAGNOSE. -/
  | bistGo
  /-- BIST_DONE (R411): The self-test ends, banks are emptied and DONE, PASS and FAILS are set. -/
  | bistDone (fails : List (Fin 148))
  /-- PME_TURN_OFF (R416): PME_Turn_Off in D3hot with AUTO_SLEEP enters SLEEP. -/
  | pmeTurnOff
  /-- SLEEP_ENTRY_DONE (R417): Sleep entry completes with cores frozen and memory in self-refresh. -/
  | sleepEntryDone
  /-- SYS_WAKE_N (R418): SYS_WAKE_N low for 1 µs wakes the L9. -/
  | sysWakeN
  /-- WAKE_TIMER (R418): PWR_WAKE_TMR ms pass in SLEEP and the L9 wakes. -/
  | wakeTimer
  /-- WAKE_AXIS (R418): The wake axis moves TICKS or more during SLEEP and the L9 wakes. -/
  | wakeAxis
  /-- WAKE_PERST (R418): PERST# release or reference and receiver detection wakes the L9. -/
  | wakePerst
  /-- WAKE_COMPLETE (R419): Wake completes: PLLs, memory, clock, axes, slots, cores, lanes and host side resume. -/
  | wakeComplete
  /-- CLUSTER_GATE (R420): A PWR_CFG.CLUSTER_GATE write gates a halted, idle cluster's clock. -/
  | clusterGate (v : Word)
  /-- WARM (R428): RAS_CMD.WARM or RAS_H_CMD.WARM starts a warm restart. -/
  | warm (r : Requester)
  /-- WARM_DONE (R431): A warm restart completes, WARM_DONE is set and FATAL clears. -/
  | warmDone
  /-- UNCORRECTABLE_CONTROL_STATE (R426): An uncorrectable error in on-die control state is a FATAL fault leading to a warm restart. -/
  | uncorrectableControlState (part : Fin 7)
  /-- UNCORRECTABLE_FRANKING_STATE (R426): An uncorrectable error in a ring's franking state disables the ring and erases its key. -/
  | uncorrectableFrankingState (r : Fin 256)
  /-- STALL_FAULT (R426): A block holds work without progress for 10 ms and a FATAL stall is recorded. -/
  | stallFault
  /-- PLL_LOCK_LOSS (R426): The TIME, CORE, THR or MEM PLL loses lock, a FATAL fault. -/
  | pllLockLoss (p : Fin 4)
  /-- REFL_LOSS (R426): Loss of REFLq takes the quad's ports down and links to HUNT. -/
  | reflLoss (quad : Fin 6)
  /-- HBM_FAILURE (R426): An HBM3E stack or PHY fails while running and acquisition halts. -/
  | hbmFailure (stack : Bool)
  /-- THERM_WARN (R426): PWR_TJ reaches THERM_WARN and the warning is set. -/
  | thermWarn (tj : BitVec 16)
  /-- THERMAL_TRIP (R426): PWR_TJ reaches 125 °C and the L9 acts as RESET_N held low and drives THERMTRIP_N. -/
  | thermalTrip (tj : BitVec 16)
  /-- THERMAL_TRIP_END (R426): PWR_TJ falls below 100 °C after a trip and the L9 boots. -/
  | thermalTripEnd (tj : BitVec 16)
  /-- SWD_EXPIRY (R432): The system watchdog count reaches zero and acts by ACTION. -/
  | swdExpiry
  /-- RAS_SWD_KICK (R432): A write of RAS_SWD_KICK or RAS_SWD reloads the system watchdog. -/
  | rasSwdKick
  /-- LOG_CLEAR (R426): RAS_CMD.LOG_CLEAR empties the error log without resetting SEQ. -/
  | logClear
  /-- SUPPLY_OUT_OF_RANGE (R415): A supply is out of range for 10 µs and the power-good detector holds the L9 in reset. -/
  | supplyOutOfRange (pg : BitVec 4)
  /-- SUPPLIES_IN_RANGE (R415): Every supply returns in range and the L9 leaves power-good reset and boots. -/
  | suppliesInRange
  /-- TWI_ADDRESS (R438): A matching I²C address byte is acknowledged, waking the L9 in SLEEP when enabled. -/
  | twiAddress (addr : BitVec 7) (read : Bool)
  /-- TWI_WRITE_BYTE (R439): A written data byte sets the pointer or TWI_V_LOG_SEL, or is rejected. -/
  | twiWriteByte (b : Byte)
  /-- TWI_READ_BYTE (R440): A read byte is returned from the view, latching the word at byte 0, and the pointer advances. -/
  | twiReadByte
  /-- TWI_STOP (R439): A STOP or repeated START ends the transaction and counts in TWI_XFER. -/
  | twiStop
  /-- TWI_BUS_ERROR (R445): A START or STOP inside a byte or acknowledge slot aborts the transaction. -/
  | twiBusError
  /-- STRETCH_TMO (R444): A stretch lasts STRETCH_TMO ms and the target releases the bus. -/
  | stretchTmo
  /-- HOLD_TMO (R446): SDA held low with SCL high for HOLD_TMO ms and the target releases SDA. -/
  | holdTmo
  /-- TWI_WAKE_RELEASE (R443): The wake completes and the target releases the stretched SCL. -/
  | twiWakeRelease
  /-- UPDATE_IR (R465): A JTAG Update-IR loads an instruction, which takes the balls only while RESET_N is low. -/
  | updateIr (ir : TapInstr)
  /-- RC_READ (R6): A read of an RC register returns and clears its value. -/
  | rcRead (r : Requester) (a : BitVec 34)
  /-- LO_READ (R9): A read of an _LO register latches the matching _HI for the requester. -/
  | loRead (r : Requester) (a : BitVec 34)
  /-- HI_WRITE (R9): A write to a writable _HI commits the pair with the requester's last _LO. -/
  | hiWrite (r : Requester) (a : BitVec 34) (v : Word)
  /-- REGISTER_WRITE (R6): A write to a register with no behaviour of its own sets, clears or shadows it by type, clamping and flagging. -/
  | registerWrite (r : Requester) (a : BitVec 34) (v : Word)
  /-- ACTION_TIME_REACHED (R155): The clock reaches the edge time of a scheduled action command whose entry is still unmatched, and each stream samples the short position of its own axis into the entry. -/
  | actionTimeReached
  /-- PAR_SAMPLE (R172): At a PCLK edge with FVAL, LVAL and DVAL active, the port takes a sample of DATA into the open line, in DDR also on the falling edge. -/
  | parSample (p : PortLevel) (rise : BitVec 16) (fall : BitVec 16)
  /-- BAR4_REQUEST (R340): A host memory request to BAR4 reads or writes the MSI-X table or PBA, and unmasking an entry whose PBA bit is set sends its message. -/
  | bar4Request (q : HostReq)
  /-- IDENT_SEND (R387): In GREET and RANGE a link sends an IDENT block every 1 µs. -/
  | identSend (k : Fin 8)
  /-- PRBS_CHECKER_LOCK (R403): In TEST with PRBS set, the checker locks by itself onto the received pattern and begins counting EBK_PRBS_ERR and EBK_PRBS_BITS. -/
  | prbsCheckerLock (k : Fin 8) (errs : Word) (bits : Dword)
deriving DecidableEq, Repr

end Sys2Proof
end

