-- ==== Sys2Proof/Machine/State.lean ====
section
/-! DEFINITION. Machine/State.lean: everything the spec gives the part, as plain data; the reasons a step can stop; reset. -/

namespace Sys2Proof.Machine
open Sys2Proof

/-! ### What the part drives to the outside -/

/-- Pins the part drives. -/
inductive Pin where
  | trig (n : Nat)
  | gpio (n : Nat)
  | ppsOut
  | alertN
  | thermtripN
  | sda
  | scl
  | xspCsN
  | wakeN
deriving DecidableEq, Repr

/-- Messages on PCI Express that carry no data (R334 to R353). -/
inductive PciMsg where
  | assertInta | deassertInta | pmePm | pmeToAck | ltr (v : Nat) | errCor | errNonfatal | errFatal
  | l1Request | enterL23 | rrs (tag : Nat)
deriving DecidableEq, Repr

/-- Something the part sends or drives, in the order it does so. -/
inductive Out where
  /-- a write to host memory -/
  | hostWrite (addr : Nat) (data : List (BitVec 8))
  /-- a read request to host memory: the tag, the address and the length -/
  | hostRead (tag addr len : Nat)
  /-- a completion of a host request: its tag, whether it succeeded, its data -/
  | completion (tag : Nat) (ok : Bool) (data : List (BitVec 8))
  /-- a completion with data and EP set: the data met a poisoned unit of device memory (R337) -/
  | poisoned (tag : Nat) (data : List (BitVec 8))
  /-- an MSI-X message (R340) -/
  | msix (vector addr data : Nat)
  | pciMsg (m : PciMsg)
  /-- an Ethernet frame, from the destination address, without FCS -/
  | frame (port : Nat) (bytes : List (BitVec 8))
  /-- a block on an Ebkel link (R386, R387): its type when it is a control block, and its payload -/
  | block (link : Nat) (type : Option Nat) (content : List (BitVec 8))
  | pin (p : Pin) (level : Bool)
  /-- a pin is no longer driven: high-impedance (R181, R186, R188) -/
  | release (p : Pin)
  /-- a byte given on the two-wire bus (R440) -/
  | twiByte (b : BitVec 8)
deriving DecidableEq, Repr


/-! ### The grain and the clock (ch. 02) -/

/-- A decoded encoder edge that the glitch filter has confirmed and whose tick is not yet counted (R29):
its unfiltered edge time in ns of TIME, and whether it counts forward. -/
structure PendTick where
  edge : Nat
  fwd : Bool
deriving DecidableEq, Repr

/-- What a position axis keeps beside its registers (R28 to R41). -/
structure AxisSt where
  /-- position word at the last tick, preset or hold -/
  word : Dword := 0
  /-- time stamp of the last tick's edge -/
  lastTick : Option Nat := none
  /-- ticks in one direction since the last reset, preset, quadrature error or stall (R31) -/
  run : Nat := 0
  /-- ticks still to pass below the rate limit since an overspeed (R31) -/
  slow : Nat := 0
  /-- grain fraction held by a stall or a quadrature error (R28, R34) -/
  heldF : Option Nat := none
  /-- confirmed ticks not yet counted -/
  ticks : List PendTick := []
  /-- net ticks counted since the last Z edge (R32) -/
  zNet : Int := 0
  /-- a Z edge has been seen since reset -/
  zSeen : Bool := false
  /-- start of the stall timeout (R34) -/
  stallFrom : Nat := 0
  /-- count at sleep entry, for the AXIS wake source (R418) -/
  sleepWord : Dword := 0
  /-- remote axis: number of samples taken, at most 2 (R39) -/
  samples : Nat := 0
  /-- remote axis: position and time (total ns) of the last sample -/
  pk : Int := 0
  tk : Int := 0
  /-- remote axis: velocity, grains over nanoseconds -/
  dP : Int := 0
  dT : Int := 1
  /-- remote axis: difference being removed, from when and over how long (R40) -/
  corr : Int := 0
  corrFrom : Int := 0
  corrLen : Nat := 0
  /-- remote axis: held at this position until the extrapolation overtakes it (R40) -/
  held : Option Int := none
  /-- remote axis: last sequence number taken (R58) -/
  seq : Option Word := none
  /-- remote axis: TIME cycle of the last valid sample (R41) -/
  lastSample : Nat := 0
deriving DecidableEq, Repr

/-- The lines of one encoder channel as one axis's filter gives them (R28, R58). -/
structure ChanSt where
  a : Bool := false
  b : Bool := false
  /-- unfiltered edge time of the last change of A and of B -/
  edgeA : Option Nat := none
  edgeB : Option Nat := none
deriving DecidableEq, Repr

/-- A slew in progress (R46): the offset to remove and what has been removed, in 2^-32 ns, and the TIME cycles it has run. -/
structure Slew where
  total : Int
  done : Int
  cycles : Nat
  /-- slewed at -500 ppm rather than over 1 s -/
  neg : Bool
deriving DecidableEq, Repr

/-- What the clock keeps beside its registers (R42 to R54, R472). -/
structure TimSt where
  /-- the clock, in 2^-32 ns since 0 s, 0 ns -/
  clk : Int := 0
  slew : Option Slew := none
  /-- the causes of HOLDOVER (R472) -/
  stepRef : Bool := false
  refLost : Bool := false
  forced : Bool := false
  /-- the last TIM_RATE values at submissions, newest first, at most 16 (R51) -/
  rates : List Int := []
  /-- start of REF_TMO (R52) -/
  refFrom : Nat := 0
  /-- TIME cycle of the last valid PPS_IN edge, or of enabling it (R58) -/
  ppsFrom : Nat := 0
  /-- the last second boundary PPS_OUT has acted on (R54) -/
  ppsSec : Int := 0
  /-- end of the running PPS_OUT pulse (R54) -/
  ppsEnd : Option Nat := none
  /-- clock and TIME cycle at sleep entry (R57) -/
  sleepAt : Nat := 0
  /-- TIME cycle of the last authorised step (R49) -/
  authAt : Option Nat := none
  /-- offsets submitted in this TIME cycle, oldest first: the clock acts on them at the next (R46, R49) -/
  adj : List Int := []
  /-- steps of the clock so far (R157) -/
  steps : Nat := 0
deriving DecidableEq, Repr


/-! ### Urelm cores (ch. 03) and their programs (ch. 04) -/

/-- What a core waits for (R74, R78, R80, R81, R83, R84). Destination registers by number; timeouts in core cycles. -/
inductive Wait where
  | none
  | await (axis : Nat) (target : Word) (tmo : Nat) (rd : Nat)
  | evwait (input : Nat) (tmo : Nat) (rd : Nat)
  | tfeed (addr : Nat) (tmo : Nat) (rd : Nat)
  | flpush (addr : Nat) (handle : Word)
  | fenceC
  | fenceD
deriving DecidableEq, Repr

/-- A device-memory window of a grant (R95), in 4 KiB units. -/
structure Win where
  base : Nat := 0
  size : Nat := 0
  ro : Bool := false
deriving DecidableEq, Repr

/-- A grant record as the L9 enforces it (R95, R98). Ranges are first and count. -/
structure Grant where
  start : Bool := false
  clockStep : Bool := false
  codeKib : Nat := 0
  blkRead : Word := 0
  blkWrite : Word := 0
  wins : List Win := []
  slots : Nat × Nat := (0, 0)
  producers : Nat × Nat := (0, 0)
  inputs : Nat × Nat := (0, 0)
  rings : Nat × Nat := (0, 0)
  mbx : Nat := 0
deriving DecidableEq, Repr

/-- A route entry of a manifest (R97). -/
structure Route where
  input : Nat
  prod : Nat
  group : Nat
  cycleOk : Bool
deriving DecidableEq, Repr

/-- Whether a core runs (CCX_C_STAT.RUN). -/
inductive RunSt where
  | halted | running | fault | never
deriving DecidableEq, Repr

/-- The bank not in use (R101). -/
inductive BankSt where
  | empty | ready | retained
deriving DecidableEq, Repr

/-- One Urelm core: its architectural registers (R61 to R65), its program banks and its grant. -/
structure CoreSt where
  pc : Word := 0
  /-- s1 to s31; s0 reads zero (R61) -/
  s : List (Nat × Word) := []
  /-- v0 to v31 -/
  v : List (Nat × BitVec 512) := []
  /-- p1 to p7; p0 reads all ones (R61) -/
  p : List (Nat × Dword) := []
  run : RunSt := .never
  wait : Wait := .none
  /-- core cycles the wait has lasted -/
  waited : Nat := 0
  cycle : Dword := 0
  instret : Dword := 0
  exc : Bool := false
  tmo : Bool := false
  range : Bool := false
  epc : Word := 0
  cause : Nat := 0
  detail : Nat := 0
  eaddr : Word := 0
  escratch : Word := 0
  dmbase : Nat := 0
  wdtLoad : Word := 0
  wdtCount : Word := 0
  /-- addresses of posted stores that failed and are not yet reported, oldest first (R89) -/
  busErrs : List Word := []
  /-- bytes of cluster memory that its tfeed has copied and that the other cores do not see before its fence.c, by key (R80) -/
  fed : List (Nat × BitVec 8) := []
  /-- 0 bank A, 1 bank B -/
  bank : Nat := 0
  other : BankSt := .empty
  forcedSw : Bool := false
  activeId : Word := 0
  otherId : Word := 0
  lastCause : Nat := 0
  haltPc : Word := 0
  grant : Grant := {}
  otherGrant : Grant := {}
  /-- data segments held until the switch (R102): core addresses and bytes -/
  staged : List (Nat × List (BitVec 8)) := []
deriving DecidableEq, Repr

/-- A parcel that is in use, READY or RETAINED in some bank: its routes, its staged cluster segments and how many
staging bytes it holds (R99 to R105). -/
structure ParcelSt where
  id : Word
  cores : List Nat
  routes : List Route
  /-- cluster, core address and bytes of each staged cluster segment -/
  cluster : List (Nat × Nat × List (BitVec 8))
  stagedBytes : Nat
  /-- its 512-byte header, for the measurements (R368) and for the checks at a later switch (R366) -/
  hdr : List (BitVec 8)
deriving DecidableEq, Repr

/-- A letter in process, as the mailbox copied it (R109, R112). -/
structure Letter where
  bytes : List (BitVec 8)
deriving DecidableEq, Repr

/-- What a mailbox keeps beside its registers and buffers (R107, R112). -/
structure MboxSt where
  /-- the letter in process -/
  letter : Option Letter := none
  /-- served by the root core -/
  root : Bool := false
  /-- order of its SEND among all mailboxes -/
  order : Nat := 0
  /-- the reply is discarded: a host-side reset has taken the requester away (R24) -/
  orphan : Bool := false
  /-- the outstanding challenge and the TIME cycle it was given (R363) -/
  nonce : Option (List (BitVec 8) × Nat) := none
  /-- a letter sent while the letter before it, whose reply is discarded, is still with its server: and its order (R24) -/
  next : Option (Letter × Nat) := none
deriving DecidableEq, Repr

/-- A switch in progress (R103): the mailbox, the parcel, its sheaf and sequence, and the counts so far. -/
structure SwitchSt where
  mbox : Nat
  id : Word
  now : Bool
  seq : Nat
  sheaf : Int
  left : List Nat
  /-- cores eligible, with the TIME cycle they became so -/
  eligible : List (Nat × Nat)
  switched : Nat
  forced : Nat
deriving DecidableEq, Repr

/-- The loader (R99 to R106): parcels known, the load being fetched, the switch in progress, the order of letters. -/
structure LoaderSt where
  parcels : List ParcelSt := []
  sw : Option SwitchSt := none
  /-- mailbox whose LOAD is being fetched -/
  loading : Option Nat := none
  /-- mailboxes whose LOAD or SWITCH waits its turn (R112) -/
  queue : List Nat := []
  sends : Nat := 0
deriving DecidableEq, Repr


/-! ### Schedule and events (ch. 05) -/

/-- A schedule slot's settings and progress (R115 to R124). The image words are the ones last armed. -/
structure SlotSt where
  img : List Word := []
  armed : Bool := false
  target : Dword := 0
  remain : Word := 0
  /-- the current target was found late and fires in the next TIME cycle (R117, R118, R122) -/
  late : Bool := false
  /-- the next target is to be tested in the following TIME cycle (R122) -/
  test : Bool := false
  /-- edge of the firing in 0.5 ns of TIME, once the target has been seen reached, or found late (R119) -/
  due : Option Nat := none
  /-- end of its pulse, seen before the firing, in 0.5 ns of TIME (R120) -/
  stop : Option Nat := none
  /-- TIME cycle of the last firing or discard (R122) -/
  acted : Option Nat := none
  /-- firings since arming (R124) -/
  seq : Word := 0
  /-- the core that armed it, for R105 -/
  core : Nat := 0
deriving DecidableEq, Repr

/-- An event raised and not yet counted at its inputs (R127, R131): producer, hop count, origin, and the groups enabled
in the TIME cycle it was raised, and that cycle. -/
structure Ev where
  prod : Nat
  hop : Nat
  origin : Nat
  groups : Word
  at_ : Nat
deriving DecidableEq, Repr

/-- What the event router keeps of one consumer input (R129, R130, R132): the pending events, oldest first, each by hop and origin;
the events that arrive in this TIME cycle, which are counted at its end; the TIME cycle in which the hardware consumer last took one. -/
structure InputSt where
  pend : List (Nat × Nat) := []
  arr : List (Nat × Nat) := []
  took : Option Nat := none
deriving DecidableEq, Repr



/-! ### Postmarks, trigger queues, ports (ch. 06, ch. 07) -/

/-- A postmark (R21, R159): the edge or arrival time as a total nanosecond count, the epoch, the axis and the full position on it
(the short position is its low word, R210), the exposure generation and the trigger sequence. -/
structure Postmark where
  time : Int := 0
  epoch : Nat := 0
  axis : Nat := 0
  pos : Int := 0
  gen : Nat := 0
  seq : Word := 0
deriving DecidableEq, Repr

/-- An entry of a trigger queue (R124, R155). `pos` is none while an action command's edge time lies ahead of the clock; `slot` is the
slot that fired it, none for an event, FIRE or action command. -/
structure TrigEntry where
  seq : Word
  edge : Int
  epoch : Nat
  axis : Nat
  pos : Option Int
  gen : Nat
  slot : Option Nat := none
deriving DecidableEq, Repr

/-- The matcher of a stream or a parallel port (R155 to R159, R178). -/
structure Matcher where
  queue : List TrigEntry := []
  /-- generation of the last entry matched since the last enable -/
  lastGen : Option Nat := none
  /-- clock steps seen by the last opening (R157) -/
  steps : Nat := 0
deriving DecidableEq, Repr

/-- A line of raw samples as a port hands it to the Mill: `none` is a filled sample (R150, R173, R174, R176). A line of pixel words
from the replay feeder (R409) holds 2^32 + the word where it enters after stage 1, 2^33 + the word where it enters after noise
reduction. -/
abbrev RawLine := List (Option Nat)

/-- How often a stream has been enabled, has taken an apply that changed a MIL field, and has begun a calibration: a frame carries the
counts of the moment its port opened it (R206, R220, R221). -/
structure MillVer where
  enables : Nat := 0
  applies : Nat := 0
  cals : Nat := 0
deriving DecidableEq, Repr

/-- What a frame takes with it into the Mill: its stream and number, its postmark, the pixel format, the fill sample, its size,
whether its lines carry postmarks of their own (LINE trigger mode), and the MIL settings in force when the port opened it (R221). -/
structure FrameInfo where
  stream : Nat
  frame : Nat
  pm : Postmark
  fmt : Nat
  fill : Nat
  sizeX : Nat
  sizeY : Nat
  lineMode : Bool
  cfg : List (Nat × Word)
  ver : MillVer := {}
deriving DecidableEq, Repr

/-- What a port hands to the Mill, in order: a frame opened, a line of it with its row and postmark, its close with its flags (in
the order of R216) and its actual line count. -/
inductive MillIn where
  | opened (f : FrameInfo)
  | line (stream frame row : Nat) (px : RawLine) (pm : Postmark)
  | closed (stream frame flags lines : Nat)
deriving DecidableEq, Repr

/-- A gap of an open block (R148): first and last packet, and the TIME cycle it was found. -/
structure Gap where
  first : Nat
  last : Nat
  found : Nat
deriving DecidableEq, Repr

/-- A record of the device-wide gap queue (R148). -/
structure GapRec where
  stream : Nat
  block : Nat
  first : Nat
  last : Nat
deriving DecidableEq, Repr

/-- A block that a stream holds (R145 to R153). -/
structure Block where
  id : Nat
  /-- number of the frame it makes -/
  frame : Nat
  /-- the registers in force at its leader, or, while that is missing, when it opened (R167, R221) -/
  cfg : List (Nat × Word)
  ver : MillVer := {}
  /-- none while its leader is missing -/
  pm : Option Postmark := none
  /-- postmark of the arrival of its first data -/
  arr : Postmark
  /-- lines the leader announces -/
  sizeY : Nat := 0
  /-- LINE mode: the postmark of each line after the first -/
  linePm : List (Nat × Postmark) := []
  flags : Nat := 0
  chunkOnly : Bool := false
  /-- carries chunks (R145, R166) -/
  chunks : Bool := false
  padX : Nat := 0
  /-- payload packets received, by packet ID -/
  pkts : List (Nat × List (BitVec 8)) := []
  /-- packet ID of the trailer and the line count it reports -/
  trailer : Option (Nat × Nat) := none
  /-- next packet ID expected -/
  next : Nat := 0
  gaps : List Gap := []
  /-- requests counted, and packets requested (R149) -/
  reqs : Nat := 0
  asked : Nat := 0
  /-- packet IDs requested and not yet resent -/
  wanted : List Nat := []
  /-- start of WAIT: the last request or the trailer (R150) -/
  waitFrom : Option Nat := none
  /-- start of the frame watchdog on the clock (R153) -/
  wdFrom : Option Int := none
  /-- closed, and waiting for an earlier block: what it hands to the Mill (R147) -/
  closed : Option (List MillIn) := none
deriving DecidableEq, Repr

/-- What a network stream keeps beside its registers (R144 to R167). -/
structure StreamSt where
  m : Matcher := {}
  blocks : List Block := []
  /-- last block opened -/
  lastId : Option Nat := none
  /-- block discarded by its leader (R145) -/
  badId : Option Nat := none
  /-- frames opened, for numbering -/
  frames : Nat := 0
  /-- heartbeat: the TIME cycle of the last read, the reads still unanswered with their req_id and TIME cycle, oldest first, and how
  many in a row went unanswered (R165) -/
  hbFrom : Nat := 0
  hbOut : List (Nat × Nat) := []
  hbMiss : Nat := 0
deriving DecidableEq, Repr

/-- A datagram accepted by a port and not yet taken by its consumer (R141). -/
inductive Rx where
  | arpRequest (port : Nat) (mac : Nat) (ip : Word)
  | arpReply (port : Nat) (mac : Nat) (ip : Word)
  | icmp (port : Nat) (mac : Nat) (ip : Word) (body : List (BitVec 8))
  | gvsp (stream : Nat) (body : List (BitVec 8))
  | gvcp (port : Nat) (ip : Word) (body : List (BitVec 8))
  /-- the frame, and its receive stamp in 2^-32 ns of the clock, with the epoch -/
  | ptp (port : Nat) (frame : List (BitVec 8)) (stamp : Int) (epoch : Nat)
  | axis (port : Nat) (body : List (BitVec 8))
deriving DecidableEq, Repr

/-- An IP packet that waits for an ARP answer (R142): port, next hop, requests sent, TIME cycle of the last, the packet and
what it is for. -/
inductive TxFor where
  | none | resend (stream : Nat) | relay (req : Nat) | action (t : Nat) (time : Int) | heartbeat (stream : Nat) | display (out : Nat)
deriving DecidableEq, Repr

structure ArpWait where
  port : Nat
  ip : Word
  sent : Nat
  at_ : Nat
  packets : List (TxFor × List (BitVec 8))
deriving DecidableEq, Repr

/-- The state of the Ethernet side that is common to the ports (R142, R143, R148, R163). -/
structure EthSt where
  rx : List Rx := []
  /-- ARP cache: port, address, MAC, TIME cycle of the last answer; newest first, at most 128 -/
  arp : List (Nat × Word × Nat × Nat) := []
  waits : List ArpWait := []
  gapq : List GapRec := []
  /-- management receive queue of each port: frame, stamp, epoch -/
  mrq : List (Nat × List (BitVec 8) × Int × Nat) := []
  /-- echo requests answered by a port in the current second, and when that second began -/
  icmp : List (Nat × Nat × Nat) := []
  /-- the relay: stream, command as sent, original req_id, start of the wait (none while the command has not left) and its length -/
  relay : Option (Nat × List (BitVec 8) × Nat × Option Nat × Nat) := none
  /-- req_ids used, IP identification -/
  reqId : Nat := 0
  /-- send count of each action template -/
  acts : List (Nat × Word) := []
  /-- when each enabled port was enabled, for lane conflicts: ports whose lanes and PCS are up at the medium -/
  medium : List Nat := []
deriving DecidableEq, Repr

/-- A line being taken by a parallel port: its samples, newest first, and what was beyond SIZE_X. -/
structure ParLine where
  px : List Nat := []
  /-- a sample other than the last falling-edge sample carried excess pixels (R173) -/
  long : Bool := false
  /-- the last sample taken carried excess pixels and was a falling-edge sample -/
  excused : Bool := false
  pm : Postmark
deriving DecidableEq, Repr

/-- A frame open on a parallel port. -/
structure ParFrame where
  frame : Nat
  cfg : List (Nat × Word)
  pm : Postmark
  flags : Nat := 0
  /-- lines taken -/
  lines : Nat := 0
  line : Option ParLine := none
  wdFrom : Int
  /-- TRG_CUR_GEN of TRIG(SRC_INDEX) as it opened (R178) -/
  gen0 : Nat := 0
deriving DecidableEq, Repr

/-- What a parallel port keeps beside its registers (R169 to R178). -/
structure ParSt where
  m : Matcher := {}
  frame : Option ParFrame := none
  frames : Nat := 0
  fval : Bool := false
  lval : Bool := false
  /-- after a TIMEOUT: nothing opens until FVAL, or LVAL with FVAL_IGN, has been inactive (R176) -/
  blocked : Bool := false
  /-- settings in force refused by R171, R195 or a zero size -/
  refused : Bool := false
  /-- another source of its stream keeps it from capturing (R169) -/
  conflict : Bool := false
  /-- PCLK has been out of range and not yet at or below 204 MHz for 100 µs; when it was last measured out of range (R177) -/
  badClk : Bool := false
  goodFrom : Option Nat := none
deriving DecidableEq, Repr

/-- A pulse on a trigger output (R120, R121), times in units of 0.5 ns of TIME. -/
structure Pulse where
  start : Nat
  stop : Option Nat
  /-- ends when this axis reaches this position, in this direction -/
  at_ : Option (Nat × Dword × Bool)
  slot : Option Nat
  /-- the minimum width in force at its rising edge (R181) -/
  least : Nat := 0
deriving DecidableEq, Repr

/-- How a pulse ends (R120, R180). -/
inductive PulseEnd where
  /-- after a width in 0.5 ns -/
  | width (w : Nat)
  /-- after the output's exposure width in force at the rising edge -/
  | expo
  /-- when an axis reaches a position in a direction; the end when it has been seen, in 0.5 ns of TIME -/
  | reach (axis : Nat) (pos : Dword) (dir : Bool) (seen : Option Nat)
deriving DecidableEq, Repr

/-- A pulse that is due on a trigger output (R180): its rising edge in 0.5 ns of TIME, how it ends, and the slot that fired it, with
its sequence. -/
structure Rise where
  edge : Nat
  ends : PulseEnd
  slot : Option (Nat × Word) := none
deriving DecidableEq, Repr

/-- A trigger output beside its registers. -/
structure TrigSt where
  pulses : List Pulse := []
  /-- pulses whose rising edge is still to be placed, in the order they were commanded -/
  due : List Rise := []
  /-- when the last pulse ended, in 0.5 ns -/
  lastStop : Option Nat := none
deriving DecidableEq, Repr

/-- A strobe (R187): its start, its end when it is fixed, in 0.5 ns of TIME, and the rising edge of its own trigger pulse. -/
structure Strobe where
  start : Nat
  stop : Option Nat
  edge : Nat
deriving DecidableEq, Repr

/-- The strobes of a GPIO pin: those still to start, and those that run. -/
structure GpioSt where
  due : List Strobe := []
  running : List Strobe := []
deriving DecidableEq, Repr



/-! ### The Mill (ch. 08) -/

/-- A pixel word (R190): the value in sixteenths, and the flags, bit 24 lowest. -/
structure Px where
  v : Nat := 0
  f : Nat := 0
deriving DecidableEq, Repr

/-- What a line carries beside its pixels: its frame and row, its postmark, its position (R210), the frame's position, the frame
flags, and whether it is the last of its frame. -/
structure LineMeta where
  frame : Nat
  row : Nat
  pm : Postmark
  pos : Int
  framePos : Int
  flags : Nat
  last : Bool
  /-- the frame's actual line count -/
  actual : Nat
  /-- MIL_ROW_GRAINS of the frame's settings (R210, R234) -/
  rowG : Int
  /-- lines of a frame; of accumulated lines, SIZE_Y (R249) -/
  rows : Nat
deriving DecidableEq, Repr

/-- A line that leaves stage 9, or is handed to the granary (R194, R210). -/
structure OutLine where
  stream : Nat
  chans : Nat
  md : LineMeta
  px : List Px
deriving DecidableEq, Repr

/-- A frame as the Mill gathers it. -/
structure MillFrame where
  info : FrameInfo
  /-- rows in order, with their own postmarks -/
  rows : List (RawLine × Postmark) := []
  /-- a line of it met a full queue (R198) -/
  overflow : Bool := false
deriving DecidableEq, Repr

/-- The temporal reference (R203 to R206): the postmark, its flags, and the pixels. -/
structure RefSt where
  pm : Postmark
  flags : Nat
  rows : List (List Px)
deriving DecidableEq, Repr

/-- A bin of line accumulation (R211): its number, the rows accepted, each pixel's sum, count and flags; due for emission. -/
structure TdiBin where
  n : Int
  rows : Nat := 0
  px : List (Nat × Nat × Nat) := []
  due : Bool := false
  /-- the latest frame that contributed, and the settings the bin was opened under -/
  md : LineMeta
  info : FrameInfo
deriving DecidableEq, Repr

/-- The statistics being gathered for a record (R216 to R218). -/
structure StatAcc where
  lines : Nat := 0
  clip : Nat := 0
  fill : Nat := 0
  repl : Nat := 0
  unreg : Nat := 0
  mn : Nat := 0xFFFFFF
  mx : Nat := 0
  sum : Nat := 0
  /-- count, sum and sum of squares of each region -/
  roi : List (Nat × Nat × Nat) := [(0, 0, 0), (0, 0, 0), (0, 0, 0), (0, 0, 0)]
  hist : List (Nat × Nat) := []
  tdiPart : Bool := false
deriving DecidableEq, Repr

/-- What the Mill keeps of one stream beside its registers. -/
structure MillSt where
  /-- the input queue: lines and frame marks in order; a filled line that stands for a dropped one is marked -/
  inq : List (MillIn × Bool) := []
  /-- fill lines in the place of dropped ones, and the frame marks after them, until the queue has room (R198) -/
  owed : List MillIn := []
  /-- positions of the head line already taken -/
  taken : Nat := 0
  cur : Option MillFrame := none
  ref : Option RefSt := none
  /-- enables, applies and calibrations so far, and those of the last frame (R206) -/
  ver : MillVer := {}
  lastVer : Option MillVer := none
  /-- MIL_CMD.TNR_RESET was written (R206) -/
  cmdReset : Bool := false
  /-- the last frame, or on a LINE stream its last line: postmark and flags (R206) -/
  lastPm : Option (Postmark × Nat) := none
  /-- position of the last frame (R212) -/
  lastPos : Option Int := none
  /-- the bins' grid: offset, pitch, axis, epoch (R211) -/
  grid : Int × Nat × Nat × Nat := (0, 0, 0, 0)
  bins : List TdiBin := []
  /-- bins emitted, by number -/
  gone : List Int := []
  rev : Bool := false
  /-- bins final and not yet put out (TDI_BIN_EMIT) -/
  ready : List TdiBin := []
  /-- lines held for demosaic on a line stream, newest first, at most three (R213) -/
  demo : List (LineMeta × FrameInfo × List Px) := []
  /-- a frame whose record waits for its last line, which demosaic holds (R218) -/
  statDue : Option (LineMeta × FrameInfo) := none
  /-- line accumulation: statistics since the last frame arrival -/
  acc : StatAcc := {}
  accFor : Option (LineMeta × FrameInfo) := none
  /-- records made and not yet written: a record without its number -/
  recs : List (List (BitVec 8) × Nat × Nat) := []
  calRun : Bool := false
deriving DecidableEq, Repr



/-! ### The collator (ch. 09) -/

/-- State of a buffer that is not FREE (R232). -/
inductive SheafStage where
  | opened | cut | closed
deriving DecidableEq, Repr

/-- A member's span and offsets, as computed at the collator apply point (R228, R229). -/
structure Span where
  ok : Bool := false
  uFirst : Int := 0
  uLast : Int := 0
  vMin : Int := 0
  vMax : Int := 0
deriving DecidableEq, Repr

/-- A sheaf that holds a buffer (R232 to R239). -/
structure SheafSt where
  no : Int
  buf : Nat
  stage : SheafStage := .opened
  /-- the COL settings in force when it opened, and the members' spans (R244) -/
  cfg : List (Nat × Word)
  spans : List (Nat × Span)
  epoch : Nat
  flags : Nat := 0
  contrib : Nat := 0
  flagged : Nat := 0
  /-- generation first seen of each contributing stream -/
  gens : List (Nat × Nat) := []
  /-- working entries by place: 64 bits each (R231) -/
  work : List (Nat × Nat) := []
  settled : Nat := 0
  filled : Nat := 0
  cutTime : Int := 0
  cutAt : Option Nat := none
  /-- bands arrived and sent, as (right side, band) -/
  got : List (Bool × Nat) := []
  sent : List (Bool × Nat) := []
  /-- consumers that hold the closed buffer, as in COL_SQ_CONS -/
  holders : Nat := 0
  absent : Nat := 0
  closeTime : Int := 0
  /-- order of closing -/
  order : Nat := 0
deriving DecidableEq, Repr

/-- A sequence beside its registers. -/
structure SeqSt where
  sheaves : List SheafSt := []
  floor : Option Int := none
  restart : Bool := false
  lost : List Int := []
  epoch : Option Nat := none
  /-- position of the latest line delivered by a member (R409) -/
  lastPos : Option Int := none
  closed : Nat := 0
  /-- the furthest sheaf of travel at which the sequence has been cut in its epoch (R103) -/
  cutK : Option Int := none
  /-- bands formed at a close or a loss and not yet sent: right side, link, payload -/
  bands : List (Bool × Nat × List (BitVec 8)) := []
deriving DecidableEq, Repr

/-- A member beside its registers (R234, R235). -/
structure MemberSt where
  state : Nat := 0
  mark : Option Int := none
  missed : Nat := 0
  span : Span := {}
deriving DecidableEq, Repr

/-- A strip band given to an Ebkel link (R242, R399). -/
structure Bulk where
  link : Nat
  bytes : List (BitVec 8)
deriving DecidableEq, Repr



/-! ### Units on their way to a delivery ring (ch. 12) -/

/-- Whose source a unit holds until its completion record is written (R307): the franking stage itself, a head's unit by its number,
so many records of the intake, the granary's extract, an extract report. -/
inductive Source where
  | own
  | head (id : Nat)
  | recs (n : Nat)
  | extract
  | report
deriving DecidableEq, Repr

/-- A unit as a producer offers it (R297, R298): what its envelope says, and its payload. -/
structure UnitIn where
  kind : Nat
  head : Nat := 0
  stream : Nat := 0xFF
  seq : Nat := 0xFF
  stamp : Nat := 0
  pos : Nat := 0
  axis : Nat := 0
  epoch : Nat := 0
  gen : Nat := 0
  trig : Nat := 0
  sheaf : Nat := 2 ^ 63
  flags : Nat := 0
  format : Nat := 0
  width : Nat := 0
  lines : Nat := 0
  aux : Nat := 0
  payload : List (BitVec 8) := []
  /-- the first address at which a read of its source met uncorrectable data (R299, R324) -/
  poison : Option Nat := none
  /-- defect records in it -/
  recs : Nat := 0
  src : Source := .own
deriving DecidableEq, Repr

/-- A unit offered to a ring and not yet judged (R304). -/
structure Offer where
  ring : Nat
  u : UnitIn
deriving DecidableEq, Repr


/-! ### Output heads and the thresher (ch. 10) -/

/-- A unit in progress in a head (R249 to R252, R262). -/
structure HUnit where
  id : Nat
  out : Nat
  /-- the sheaf it is made from, by sequence, buffer and number -/
  sheaf : Option (Nat × Nat × Int) := none
  /-- the staging unit it holds -/
  stage : Option Nat := none
  /-- the HED settings it began under -/
  cfg : List (Nat × Word)
  /-- what its envelope will say; no payload yet -/
  u : UnitIn
  /-- its pixel words: address of the first, columns, channels, bytes from row to row, rows -/
  addr : Nat
  cols : Nat
  chans : Nat
  step : Nat
  rows : Nat
  /-- first global column of its window -/
  u0 : Int := 0
  /-- TIME cycle at which its sheaf closed (OVL_WAIT), or its last line came -/
  from_ : Nat
  /-- its payload has been made -/
  formed : Bool := false
  /-- OVL_WAIT has passed -/
  waited : Bool := false
  /-- offered and not yet judged; franked -/
  offered : Bool := false
  franked : Bool := false
  /-- TIME cycles of its first and its last offer -/
  first : Option Nat := none
  last : Nat := 0
deriving DecidableEq, Repr

/-- Work that has reached a head, in order of arrival (R249, R251): a sheaf for one output, with whether its buffer is held for it and the
TIME cycle at which it closed, or a stream unit whose pixel words lie in the staging area. -/
inductive Arrive where
  | sheaf (out q buf : Nat) (held : Bool) (at_ : Nat)
  | lines (h : HUnit)
deriving DecidableEq, Repr

/-- The stream unit that an output gathers (R249): where it goes (none for a unit that is dropped whole or has no column), the lines it
will have, those that have come, and the first of them. -/
structure Gather where
  unit : Option HUnit
  total : Nat
  count : Nat
  first : LineMeta
deriving DecidableEq, Repr

/-- An overlay box (R257, R261): from a record, with its sheaf and whether it is to be drawn. -/
structure Box where
  seq : Nat
  sheaf : Int
  u0 : Int
  u1 : Int
  line0 : Nat
  line1 : Nat
  draw : Bool
  pal : Nat
  cls : Nat
deriving DecidableEq, Repr

/-- A display pixel: red, green and blue over one denominator, each at most it; a denominator of zero marks a fill pixel (R255). -/
structure DPx where
  r : Nat
  g : Nat
  b : Nat
  d : Nat
deriving DecidableEq, Repr

/-- What an output keeps beside its registers. -/
structure OutSt where
  /-- the settings in force let it run -/
  ok : Bool := false
  /-- the stream unit being gathered, and its index in its frame -/
  gather : Option Gather := none
  idx : Nat := 0
  /-- TIME cycle of the last frame emitted (R256) -/
  lastFrame : Option Nat := none
  /-- SCROLL: source lines kept, oldest first, and the number of the first of them -/
  src : List (List DPx) := []
  srcAt : Nat := 0
  /-- SCROLL: display lines made so far, and the visible ones, newest first, each with its source lines -/
  made : Nat := 0
  img : List (List DPx × Nat × Nat) := []
  /-- SCROLL: where each sheaf's lines began, and its boxes, oldest first -/
  sheaves : List (Int × Nat) := []
  boxes : List Box := []
  /-- the newest source unit shown -/
  newest : Option UnitIn := none
  /-- SCROLL: source lines that met uncorrectable data, with the first address of each -/
  bad : List (Nat × Nat) := []
  /-- end of the frame being sent over Ethernet, and the last block ID -/
  txUntil : Nat := 0
  block : Nat := 0
deriving DecidableEq, Repr

/-- A sheaf that the thresher has to deal, or is dealing (R263, R264). -/
structure ThrJob where
  q : Nat
  buf : Nat
  no : Int
  /-- settings once dealing has begun (R274) -/
  cfg : Option (List (Nat × Word)) := none
  next : Nat := 0
deriving DecidableEq, Repr

/-- A tile dealt to a core (R263, R264): its place in the sheaf's own columns and lines, and its core area. -/
structure Tile where
  q : Nat
  buf : Nat
  no : Int
  x : Nat
  y : Nat
  w : Nat
  h : Nat
  cx : Nat
  cy : Nat
  cw : Nat
  ch : Nat
  first : Bool
  last : Bool
  cfg : List (Nat × Word)
deriving DecidableEq, Repr

/-- What a handle stands for (R270, R271). -/
structure Handle where
  h : Nat
  core : Nat
  q : Nat
  buf : Nat
  no : Int
  epoch : Nat
  flags : Nat
  stamp : Nat
  axis : Nat
  start : Int
  lpitch : Nat
  u0 : Int
  width : Nat
  lines : Nat
  chans : Nat
  /-- serial number of its sheaf's close, to tell a buffer used again -/
  order : Nat
  /-- address of the sheaf's first pixel word -/
  addr : Nat
  /-- the THR settings the sheaf is dealt under (R274) -/
  cfg : List (Nat × Word)
deriving DecidableEq, Repr

/-- A defect record taken by the franking stage (R271, R273). -/
structure DefRec where
  ring : Nat
  bytes : List (BitVec 8)
  h : Option Handle
  at_ : Nat
  /-- a crop asked for and not yet cut: first column, first line, columns, lines -/
  crop : Option (Int × Int × Nat × Nat) := none
  cut : List (BitVec 8) := []
  /-- the first address at which the crop met uncorrectable data -/
  poison : Option Nat := none
deriving DecidableEq, Repr

/-- What the thresher keeps (R263 to R273). -/
structure ThrSt where
  jobs : List ThrJob := []
  /-- sheaves whose tiles are all dealt and which are not yet released: sequence, buffer, number -/
  dealt : List (Nat × Nat × Int) := []
  /-- the core dealt to last, and the sequence dealt from last -/
  lastCore : List (Nat × Nat) := []
  lastSeq : Nat := 7
  /-- tile queues, by thresher core -/
  queues : List (Nat × List Tile) := []
  holds : List (Nat × Nat × Nat × Nat) := []
  nextHandle : Nat := 1
  /-- handles of the last 4,096 tiles fed, newest first -/
  handles : List Handle := []
  /-- the flail's queue: core, cluster-memory address, handle -/
  flq : List (Nat × Nat × Nat) := []
  intake : Nat := 0
  recs : List DefRec := []
  /-- record units closed and not yet admitted, with their ring -/
  units : List Offer := []
deriving DecidableEq, Repr


/-! ### Device memory and the granary (ch. 11) -/

/-- A segment of the granary that is FILLING or FULL (R284 to R287). -/
structure Seg where
  i : Nat
  stream : Nat
  epoch : Nat
  full : Bool := false
  minPos : Int := 0
  maxPos : Int := 0
  minTime : Int := 0
  maxTime : Int := 0
  alloc : Nat
  lines : Nat := 0
  bytes : Nat := 0
  pins : Nat := 0
deriving DecidableEq, Repr

/-- A line at the granary tap, with how it is to be stored (R285): pixel words or packed samples of so many bits, normalised to 16
bits or not, and its TAP bit. -/
structure TapLine where
  line : OutLine
  words : Bool
  bits : Nat
  norm : Bool
  tap : Bool
deriving DecidableEq, Repr

/-- An extract request (R288). -/
structure XReq where
  byTime : Bool
  wait : Bool
  axis : Nat
  ring : Nat
  id : Nat
  mask : Nat
  from_ : Int
  to_ : Int
  epoch : Nat
  tmo : Nat
deriving DecidableEq, Repr

/-- An extract unit (R290): the unit, its stream, the segment's ALLOC_NO, its lines, and the least and greatest v in it. -/
structure XCur where
  u : UnitIn
  stream : Nat
  alloc : Nat
  lines : Nat
  lo : Int
  hi : Int
deriving DecidableEq, Repr

/-- An extract in progress (R289 to R291). -/
structure XRun where
  r : XReq
  /-- the segments still to read, each by stream, index and ALLOC_NO, with whether it is pinned -/
  todo : List (Nat × Nat × Nat × Bool)
  started : Nat
  flags : Nat := 0
  delivered : Nat := 0
  skipped : Nat := 0
  lines : Nat := 0
  units : Nat := 0
  first : Option Int := none
  last : Option Int := none
  /-- newest v of each named stream when it was last read, for NOT_YET: none for a stream without lines -/
  newest : List (Nat × Option Int) := []
  avail : Int := 0
  /-- the unit made and not yet admitted -/
  cur : Option XCur := none
  /-- the unit stands offered -/
  offered : Bool := false
  stop : Bool := false
  /-- answered with a report alone, of this RESULT -/
  forced : Option Nat := none
deriving DecidableEq, Repr

/-- What the granary and the memory block keep beside their registers. -/
structure GranSt where
  segs : List Seg := []
  alloc : Nat := 0
  reqs : List XReq := []
  run : Option XRun := none
  /-- reports made and not yet admitted -/
  reports : List Offer := []
  /-- corrected errors of the last hour: when, and of which stack (R282) -/
  ce : List (Nat × Bool) := []
  /-- the next 64-byte unit the patrol scrub reads (R282) -/
  scrub : Nat := 0
  /-- newest line of each stream: position and time -/
  newest : List (Nat × Int × Int) := []
deriving DecidableEq, Repr


/-! ### Delivery rings, completion queues and DMA channels (ch. 12) -/

/-- A franked unit (R374): its envelope with its tag, and its payload as delivered; `poste` when its bytes stand in poste restante. -/
structure FUnit where
  envNo : Nat
  kind : Nat
  recs : Nat
  env : List (BitVec 8)
  payload : List (BitVec 8)
  len : Nat
  src : Source
  poste : Bool := false
  /-- the first address at which a read of its source met uncorrectable data -/
  poison : Option Nat := none
deriving DecidableEq, Repr

/-- What stands in a ring's slots: a unit (none for a pad), its first slot and how many (R295). -/
structure Placed where
  u : Option FUnit
  first : Nat
  n : Nat
deriving DecidableEq, Repr

/-- Output lost under R26 and not yet reported (R308). -/
structure Loss where
  units : Nat := 0
  bytes : Nat := 0
  first : Int := 0
  last : Int := 0
  recs : Nat := 0
  kinds : Nat := 0
deriving DecidableEq, Repr

/-- A ring beside its registers (R294 to R308, R370 to R377). -/
structure RingSt where
  /-- a chain runs and EN is set -/
  on : Bool := false
  /-- EN is set and the chain waits for its key, or for the former chain's last record -/
  wanted : Bool := false
  envNo : Nat := 0
  prev : List (BitVec 8) := []
  chainId : Nat := 0
  key : Option (BitVec 256) := none
  /-- the session that bound the key -/
  session : Nat := 0
  /-- byte credit in 1/1000 byte, and when it was last brought up (R303) -/
  credit : Int := 0
  creditAt : Nat := 0
  alloc : Nat := 0
  placed : List Placed := []
  /-- franked output that waits for slots -/
  waiting : List FUnit := []
  /-- held output, oldest first -/
  held : List FUnit := []
  /-- poste restante: chunks in order, and the bytes of the first already drained and of all written -/
  chunks : List Nat := []
  prRd : Nat := 0
  prWr : Nat := 0
  loss : Option Loss := none
  /-- units of this chain discarded under R26 -/
  lost : Nat := 0
  /-- cancellation records: made so far, first ENV_NO not covered, when the last was franked, units since (R375) -/
  cancelNo : Nat := 0
  firstEnv : Nat := 0
  cancelAt : Nat := 0
  since : Nat := 0
  /-- a record awaiting its signature: its first 96 bytes, and whether it ends the chain (R377) -/
  signing : Option (List (BitVec 8) × Bool) := none
  /-- the last full postmark record: epoch, TIME cycle, position (R302) -/
  lastPm : Option (Nat × Nat × Int) := none
  /-- a DEACTIVATE waits for the unit in transfer -/
  deact : Bool := false
  /-- a DISCARD waits for the unit in transfer -/
  discard : Bool := false
  /-- records not yet signalled on the ring's own vector, and when the oldest was written (R312) -/
  unsig : Nat := 0
  unsigAt : Nat := 0
deriving DecidableEq, Repr

/-- A completion queue's own vector (R312). -/
structure CqSt where
  unsig : Nat := 0
  unsigAt : Nat := 0
  /-- DISABLE waits for the record of a unit in transfer (R311) -/
  off : Bool := false
deriving DecidableEq, Repr

/-- A read of host memory outstanding (R323, R333, R342): its tag, what it is for (0 the data of a DMA transfer, 1 a descriptor), its
channel, host address and length, its offset in the transfer and that of its burst, the bytes received, the TIME cycle of the
request. -/
structure HRead where
  tag : Nat
  use : Nat := 0
  chan : Nat
  addr : Nat
  len : Nat
  off : Nat := 0
  boff : Nat := 0
  got : Nat := 0
  at_ : Nat
  /-- discarded when it comes: the channel was aborted or failed, or Bus Master Enable was cleared -/
  dead : Bool := false
deriving DecidableEq, Repr

/-- How a transfer ends, while its record is not written: STATUS, faulting address, host error, poison. -/
structure DmaEnd where
  status : Nat
  /-- REMAIN when it failed -/
  count : Nat := 0
  addr : Nat := 0
  host : Bool := false
  poison : Bool := false
deriving DecidableEq, Repr

/-- A DMA channel's working state (R313 to R325). -/
structure DmaSt where
  /-- where the transfer stands: addresses and bytes at its start, or where it was rolled back to; bytes not yet issued -/
  src : Nat := 0
  dst : Nat := 0
  len : Nat := 0
  remain : Nat := 0
  ctrl : Word := 0
  user : Word := 0
  /-- a transfer is loaded and has not ended; it is a descriptor's -/
  active : Bool := false
  chain : Bool := false
  /-- the current descriptor, whether the chain lies in host memory, and the descriptor's NEXT when valid -/
  desc : Nat := 0
  descHost : Bool := false
  next : Option Nat := none
  /-- the descriptor at `desc` is to be read; it is a read of the tail; the bytes read from host memory, none when the read failed -/
  fetch : Bool := false
  tail : Bool := false
  data : Option (Option (List (BitVec 8))) := none
  /-- paused from PARKED; a pause waits for the bursts issued -/
  parked : Bool := false
  pausing : Bool := false
  stop : Option DmaEnd := none
  /-- hop and origin of the event that started what it runs, for its next done event (R131, R132) -/
  relay : Option (Nat × Nat) := none
  /-- ring channel: the ring whose unit is in transfer, bytes of it moved, the ring served last -/
  ring : Option Nat := none
  off : Nat := 0
  lastRing : Nat := 255
deriving DecidableEq, Repr


/-! ### The PCI Express endpoint (ch. 13) -/

/-- What the endpoint keeps beside its registers (R331 to R355). -/
structure PciSt where
  /-- configuration space, by dword offset; an unlisted dword holds its reset value (R334) -/
  cfg : List (Nat × Word) := []
  /-- a host-side reset in progress: its source (1 PERST#, 2 hot reset, 3 FLR, 4 link down) and when it began (R346) -/
  rst : Option (Nat × Nat) := none
  /-- PERST# is asserted -/
  perst : Bool := false
  /-- BAR4: MSI-X table by dword, and the vectors whose PBA bit is set (R340) -/
  table : List (Nat × Word) := []
  pba : List Nat := []
  /-- the INTA level last sent (R341) -/
  inta : Bool := false
  /-- the LTR value last sent (R349) -/
  ltr : Option Nat := none
  /-- quarantined tags, when their quarantine ends, and whether a completion counts as late: the timeout was reported (R344, R346) -/
  quar : List (Nat × Nat × Bool) := []
  /-- channels that containment paused (R351) -/
  paused : List Nat := []
  /-- when the function returned to D0 (R348) -/
  d0At : Option Nat := none
  /-- when the last outbound request was issued (R349) -/
  lastReq : Nat := 0
  /-- Subsystem ID as PCI_SUBSYS held at the last link-up -/
  ssid : Nat := 0
  /-- poste restante stood at or below the PME threshold (R348); WAKE# is driven -/
  low : Bool := false
  wake : Bool := false
  /-- the device directory (R338, R339) -/
  dir : List (BitVec 8) := []
deriving DecidableEq, Repr

/-- The burst scheduler (R323), by direction and level: how often a level was passed over, and the channel it served last. -/
structure DmaSched where
  starve : List (Nat × Nat) := []
  last : List (Nat × Nat) := []
deriving DecidableEq, Repr


/-! ### Trust (ch. 14) -/

/-- A secured session of the SPDM responder (R367, R369, R371). Secrets are those of the SPDM 1.2 key schedule. -/
structure Session where
  /-- the session ID: the requester's half in the low 16 bits -/
  id : Nat
  /-- its transport: 0 to 3 a mailbox, 4 DOE -/
  via : Nat
  /-- the handshake is finished -/
  ready : Bool := false
  /-- the requester has authenticated itself, and SHA-384 of its leaf public key -/
  mutAuth : Bool := false
  leaf : List (BitVec 8) := []
  /-- the transcript of the handshake -/
  th : List (BitVec 8) := []
  /-- handshake secret, then the secrets of the two directions in force, with the messages each has carried -/
  hs : List (BitVec 8) := []
  req : List (BitVec 8) := []
  rsp : List (BitVec 8) := []
  reqSeq : Nat := 0
  rspSeq : Nat := 0
  /-- export master secret -/
  ems : List (BitVec 8) := []
deriving DecidableEq, Repr

/-- An SPDM connection on one transport (R367, R369): how far the negotiation has gone, and the transcripts it keeps. -/
structure Conn where
  /-- 0 nothing, 1 version, 2 capabilities, 3 algorithms -/
  stage : Nat := 0
  vca : List (BitVec 8) := []
  /-- digests and certificates since the negotiation, for CHALLENGE -/
  msgB : List (BitVec 8) := []
  /-- measurements since the last signed ones -/
  msgL : List (BitVec 8) := []
deriving DecidableEq, Repr

/-- An SPDM request handed to the responder and not yet answered: its transport, the session it came in, the message. -/
structure SpdmReq where
  via : Nat
  sess : Option Nat := none
  msg : List (BitVec 8)
deriving DecidableEq, Repr

/-- The SPDM responder, the DOE mailbox and the Link IDE stream (R367 to R371, R381). -/
structure SpdmSt where
  conns : List (Nat × Conn) := []
  sessions : List Session := []
  reqs : List SpdmReq := []
  /-- DOE: dwords written and not yet taken; response dwords not yet read; an object was in error -/
  doeIn : List Word := []
  doeOut : List Word := []
  doeErr : Bool := false
  /-- keys of the Link IDE stream: (key set, direction, substream) as one number, key and IV; the key set in use -/
  ideKeys : List (Nat × List (BitVec 8)) := []
  ideSet : Option Nat := none
deriving DecidableEq, Repr


/-! ### Ebkel links (ch. 15) -/

/-- A frame on a link or on its way to one (R397, R400): its class, destination, source, hops left and payload, and the copy it
belongs to. -/
structure EbkFrame where
  cls : Nat
  dest : Nat
  src : Nat
  ttl : Nat
  bytes : List (BitVec 8)
  copy : Option Nat := none
deriving DecidableEq, Repr

/-- A control block that waits for a slot of its link (R401): its kind's place in the order, when it fell due, its beacon entry or probe
index, its type and its payload. Beacons and probes get their payload when they are sent. -/
structure ReadyBlock where
  rank : Nat
  due : Nat
  order : Nat := 0
  type : Nat
  content : List (BitVec 8) := []
deriving DecidableEq, Repr

/-- A link beside its registers (R388 to R398). -/
structure LinkSt where
  /-- TIME cycle at which its phase was entered, and start of LINK_ABSENT's 100 ms, none once RANGE is reached -/
  phaseAt : Nat := 0
  absentAt : Option Nat := none
  /-- the last IDENT content in GREET and how often in a row it has come -/
  ident : Option (Nat × Nat) := none
  /-- when the last IDENT and the last PROBE were sent; probes sent in the round; echoes of it: index and L in 1/32 ns -/
  identAt : Nat := 0
  probeAt : Nat := 0
  probes : Nat := 0
  stamps : List (Nat × Nat) := []
  echoes : List (Nat × Int) := []
  /-- frames not yet sent, frames sent and not acknowledged, the SEQ of the oldest of those -/
  queue : List EbkFrame := []
  unacked : List EbkFrame := []
  base : Nat := 0
  /-- last advance of ACK or resend; resends in a row -/
  ackAt : Nat := 0
  resends : Nat := 0
  /-- the SEQ expected; when a NAK was last sent for it -/
  expect : Nat := 0
  nakAt : Option Nat := none
  /-- when each beacon entry was last sent, and how many it has sent -/
  bcn : List (Nat × Nat × Nat) := []
  /-- control blocks that wait for a slot; the VALUE block that follows a beacon; the blocks left of the frame in progress, with their
  types; frames with their SEQ that have not begun (R401) -/
  ready : List ReadyBlock := []
  value : Option (List (BitVec 8)) := none
  wire : List (Option Nat × List (BitVec 8)) := []
  txq : List (Nat × EbkFrame) := []
deriving DecidableEq, Repr

/-- A lane's receiver (R393, R394): the coefficients of its snapshot, and when it last adapted. -/
structure LaneSt where
  snap : Word := 0
  stepAt : Nat := 0
  marginAt : Nat := 0
deriving DecidableEq, Repr

/-- A copy asked for (R399): source, destination, length and node. -/
structure CopyReq where
  src : Nat
  dst : Nat
  len : Nat
  node : Nat
deriving DecidableEq, Repr

/-- A transfer being received (R399). -/
structure RxXfer where
  src : Nat
  xfer : Nat
  cls : Nat
  link : Nat
  daddr : Nat
  bytes : List (BitVec 8)
  /-- discarded and counted: its further frames are dropped -/
  bad : Bool := false
deriving DecidableEq, Repr

/-- What the Ebkel block keeps beside its registers. -/
structure EbkSt where
  links : List (Nat × LinkSt) := []
  lanes : List (Nat × LaneSt) := []
  copies : List CopyReq := []
  /-- the transfer being sent, a strip or a copy as `stripLast` says: its number, and the frames of it not yet acknowledged -/
  sending : Option (Nat × Nat) := none
  copyNo : Nat := 0
  xfer : Nat := 0
  /-- the last transfer taken from the sending queue was a strip -/
  stripLast : Bool := false
  rx : List RxXfer := []
  /-- when each axis sample entry last sent, and how many it has sent -/
  xs : List (Nat × Nat × Nat) := []
deriving DecidableEq, Repr


/-! ### Boot, modes and sleep (ch. 16) -/

/-- Where the part stands between reset, boot, run and sleep (R406, R412 to R419). -/
structure BootSt where
  /-- held in reset by RESET_N low -/
  resetN : Bool := true
  /-- held in reset by the power-good detector (R415) -/
  supply : Bool := false
  /-- held in reset by a thermal trip (R426) -/
  trip : Bool := false
  /-- boot begun, and its steps (R412) -/
  begun : Bool := false
  pll : Bool := false
  tests : Bool := false
  hbm : Bool := false
  dir : Bool := false
  flash : Bool := false
  done : Bool := false
  /-- asleep, or entering or leaving sleep (R406 row 3) -/
  asleep : Bool := false
  /-- sleep entry complete (R417) -/
  entered : Bool := false
  /-- waking (R419) -/
  waking : Bool := false
  sleepFrom : Nat := 0
  wakeFrom : Nat := 0
  /-- TIME cycle at which the last wake completed (R419) -/
  wokeAt : Option Nat := none
  /-- wake sources held at the wake (R418) -/
  wakeHeld : Nat := 0
  /-- a dip of VDD_AON in sleep: the wake ends in LOCKDOWN (R418) -/
  wakeLock : Bool := false
  /-- power good of the CORE, HBM, SDS and IO groups, bits 3 to 0 (R442) -/
  pg : Nat := 0
  /-- the TAP's instruction in effect (R464, R465) -/
  tap : TapInstr := .idcode
  /-- the straps sampled at the release of RESET_N (R438, R466) -/
  flashEn : Bool := false
  /-- the built-in self-test runs, since (R411) -/
  bistFrom : Option Nat := none
  /-- the self-test was started by the letter of this mailbox (R411) -/
  bistMbox : Option Nat := none
deriving DecidableEq, Repr


/-! ### Faults (ch. 17) -/

/-- One record of the error log (R425). -/
structure LogRec where
  seq : Nat
  code : Nat
  cls : Nat
  unit : Nat
  time : Int
  addr : Nat
  detail : Nat
  epoch : Nat
  mode : Nat
  rep : Nat
  resets : Nat
deriving DecidableEq, Repr

/-- What the RAS block keeps beside its registers (R424, R428 to R434). -/
structure RasSt where
  /-- the log, newest first, at most 1,024 records -/
  log : List LogRec := []
  /-- TIME cycle of the newest record (R424) -/
  logAt : Nat := 0
  /-- RESET_N events since power-on -/
  resets : Nat := 0
  /-- TIME cycles of the automatic restarts of the last hour, newest first (R428) -/
  autos : List Nat := []
  /-- a warm restart in progress: the CODE that named it, zero for a WARM write (R430) -/
  warm : Option Nat := none
  /-- acquisition stopped by a FATAL fault without a restart (R428) -/
  stopped : Bool := false
  /-- TIME cycle of the detection of the fault whose outage is still counted (R434) -/
  outFrom : Option Nat := none
  /-- some stream has acquired in the current millisecond (R434) -/
  msAcq : Bool := false
  /-- a warm restart in progress meets a second FATAL fault (R427) -/
  again : Bool := false
  /-- a FATAL fault has not ended, and will not end, in a completed warm restart (R429) -/
  stuck : Bool := false
  /-- noise-source windows failed in a row (R379) -/
  noise : Nat := 0
  /-- ALERT_N is driven low (R436) -/
  alert : Bool := false
  /-- TIME cycle at which the system watchdog was reloaded (R432) -/
  swdFrom : Nat := 0
deriving DecidableEq, Repr


/-! ### The two-wire target (ch. 18) -/

/-- What the target keeps beside its registers (R438 to R446). -/
structure TwiSt where
  ptr : Nat := 0
  logSel : Word := 0
  /-- a transaction is in progress; it reads -/
  busy : Bool := false
  read : Bool := false
  /-- the pointer byte of a write has been taken, and bytes of TWI_V_LOG_SEL taken after it -/
  ptrSet : Bool := false
  sel : List (BitVec 8) := []
  /-- pointer and selector before the transaction -/
  ptr0 : Nat := 0
  logSel0 : Word := 0
  /-- SCL is held low since; SDA is held low with SCL high since -/
  stretch : Option Nat := none
  hold : Option Nat := none
deriving DecidableEq, Repr

/-- A frame the replay feeder has open: its stream and number, size, postmark, flags, lines so far, and the parallel port its stream
comes from. -/
structure RplFrame where
  stream : Nat
  frame : Nat
  sx : Nat
  sy : Nat
  pm : Postmark
  flags : Nat
  lines : Nat := 0
  port : Option Nat := none
deriving DecidableEq, Repr

/-- The replay feeder (R409). -/
structure RplSt where
  /-- bytes of the source taken, and its length when GO was written -/
  pos : Nat := 0
  len : Nat := 0
  /-- open frames, oldest first -/
  frames : List RplFrame := []
  /-- TIME cycle from which DEV_RPL_RATE lets the next line go -/
  next : Nat := 0
deriving DecidableEq, Repr

/-- Why a step stops with a fault. -/
inductive Fault where
  /-- raised by no command: kept for a state that is not one of this machine's. Safe. -/
  | malformed
deriving DecidableEq, Repr

/-- Why a step has no meaning. -/
inductive Refusal where
  /-- raised by an arm of exec whose command has no meaning yet, by name. Safe. -/
  | notModelled (mnemonic : String)
deriving DecidableEq, Repr

/-- The whole part. -/
structure State where
  /-- TIME cycles (1 ns each) since power-on; the model's own time base, counted on every idle step -/
  now : Nat := 0
  /-- the commands that are waiting, first in, first out -/
  pending : List Instr := []
  /-- the register map: what a read gives, by address; an unlisted register holds its reset value (R5, R6) -/
  regs : List (Nat × Word) := []
  /-- the values in force of SH registers, brought in at apply points (R6) -/
  live : List (Nat × Word) := []
  /-- high words latched by a requester's read of a low word (R9), by requester and address -/
  latch : List (Nat × Word) := []
  /-- low words a requester has written and not yet committed (R9), by requester and address -/
  pendLo : List (Nat × Word) := []
  /-- byte buffers: mailbox buffers, port frame buffers, the relay buffers (R107, R162, R163) -/
  bufs : List (Nat × BitVec 8) := []
  /-- local data and instruction memory of every core, by core -/
  lmem : List (Nat × BitVec 8) := []
  /-- cluster memory, by cluster -/
  cmem : List (Nat × BitVec 8) := []
  /-- the 72 GiB of device memory -/
  dmem : List (Nat × BitVec 8) := []
  /-- the clock beside its registers (ch. 02) -/
  tim : TimSt := {}
  /-- the axes a0 to a15 beside their registers (ch. 02) -/
  axes : List (Nat × AxisSt) := []
  /-- the encoder channels as the axes' filters give them, by 8 times the channel plus the axis (R27, R58) -/
  chans : List (Nat × ChanSt) := []
  /-- the schedule slots (ch. 05) -/
  slots : List (Nat × SlotSt) := []
  /-- events raised and not yet counted at their inputs, oldest first (R131) -/
  evq : List Ev := []
  /-- the consumer inputs (R129) -/
  inputs : List (Nat × InputSt) := []
  /-- groups enabled and disabled in this TIME cycle, from the next on (R128) -/
  grpOn : Word := 0
  grpOff : Word := 0
  /-- the cores: 0 to 3 are CC0 to CC3, 4 to 131 are TC0 to TC127 (ch. 03) -/
  cores : List (Nat × CoreSt) := []
  /-- the loader (ch. 04) -/
  loader : LoaderSt := {}
  /-- the mailboxes (R107) -/
  mboxes : List (Nat × MboxSt) := []
  /-- the error log and the warm restart (ch. 17) -/
  ras : RasSt := {}
  /-- the model's own: how many free values have been taken -/
  freeCtr : Nat := 0
  /-- where the part stands between reset, boot, run and sleep (ch. 16) -/
  boot : BootSt := {}
  /-- interrupt vectors signalled and not yet sent, oldest first (R340) -/
  sigs : List Nat := []
  /-- what the part has sent or driven, oldest first -/
  out : List Out := []
  /-- poisoned 64-byte units of device memory (R280) -/
  poison : List Nat := []
  /-- words of local memory with an uncorrectable error (R426 code 0x05) -/
  lpoison : List Nat := []
  /-- words of cluster memory with an uncorrectable error (R426 code 0x05) -/
  cpoison : List Nat := []
  /-- the network streams (ch. 06) -/
  streams : List (Nat × StreamSt) := []
  /-- what the Ethernet ports share (ch. 06) -/
  eth : EthSt := {}
  /-- lines and frame closes on their way from the ports to the Mill, oldest first -/
  toMill : List MillIn := []
  /-- the parallel ports (ch. 07) -/
  pars : List (Nat × ParSt) := []
  /-- the trigger outputs (ch. 07) -/
  trigs : List (Nat × TrigSt) := []
  /-- the GPIO pins (ch. 07) -/
  gpios : List (Nat × GpioSt) := []
  /-- the Mill, by stream (ch. 08) -/
  mills : List (Nat × MillSt) := []
  /-- the stream the Mill served last (R197) -/
  millLast : Nat := 63
  /-- positions the Mill has taken in the current millisecond (MIL_LOAD) -/
  millPos : Nat := 0
  /-- lines that have left stage 9 and are not yet taken by the collator -/
  toCol : List OutLine := []
  /-- lines at the granary tap, not yet stored (R194) -/
  toTap : List TapLine := []
  /-- the sequences of the collator (ch. 09) -/
  seqs : List (Nat × SeqSt) := []
  /-- the members of the collator, by stream (ch. 09) -/
  members : List (Nat × MemberSt) := []
  /-- bulk transfers waiting for their Ebkel link, oldest first (R399, R401) -/
  toLink : List Bulk := []
  /-- strip bands received whole and not yet taken: link and payload (R243) -/
  strips : List (Nat × List (BitVec 8)) := []
  /-- work that has reached the heads, in order of arrival (R251) -/
  hedQ : List Arrive := []
  /-- units in progress in the heads (R249) -/
  hunits : List HUnit := []
  /-- the head outputs (ch. 10) -/
  outs : List (Nat × OutSt) := []
  /-- closed sheaves the heads hold: head, sequence, buffer, outputs still to deliver (R252) -/
  sheafHeads : List (Nat × Nat × Nat × Nat) := []
  /-- units the heads have begun -/
  hunitNo : Nat := 0
  /-- boxes of records whose sheaf is still held (R257, R261) -/
  boxes : List Box := []
  /-- the thresher (ch. 10) -/
  thr : ThrSt := {}
  /-- the granary and its extracts (ch. 11) -/
  gran : GranSt := {}
  /-- units offered and not yet judged, oldest first (R304) -/
  offers : List Offer := []
  /-- the delivery rings (ch. 12) -/
  rings : List (Nat × RingSt) := []
  /-- the completion queues' vectors (R312) -/
  cqs : List (Nat × CqSt) := []
  /-- the DMA channels (ch. 12) -/
  dmas : List (Nat × DmaSt) := []
  /-- reads of host memory outstanding (R333) -/
  reads : List HRead := []
  /-- rings whose cancellation record awaits its signature, in the order they fell due (R377) -/
  signQ : List Nat := []
  /-- the fuse array as blown, by word (R357): a blank part of serial number 1 -/
  fuses : List (Nat × Word) := [(3, 1), (64, 0x01000000), (76, 0x01000000), (85, 0x1341481c)]
  /-- the PCI Express endpoint (ch. 13) -/
  pci : PciSt := {}
  /-- the burst scheduler (R323) -/
  sched : DmaSched := {}
  /-- the SPDM responder, the DOE mailbox and Link IDE (ch. 14) -/
  spdm : SpdmSt := {}
  /-- the Ebkel links (ch. 15) -/
  ebk : EbkSt := {}
  /-- the replay feeder (R409) -/
  rpl : RplSt := {}
  /-- the two-wire target (ch. 18) -/
  twi : TwiSt := {}
deriving DecidableEq, Repr

/-- The machine right after power-on reset: every register at its reset value, every memory empty, every queue empty,
the boot not begun (R22, R43, R422). -/
def State.reset : State := {}

end Sys2Proof.Machine
end

