-- ==== Sys2Proof/Machine/Ops.lean ====
section
/-! DEFINITION. Machine/Ops.lean: the named operations over the state: reading and writing register fields, apply points,
memories, outputs, free values, raising events, logging faults, signalling vectors, the clock's readings. -/

namespace Sys2Proof.Machine
open Sys2Proof

/-! ### Registers -/

/-- The stored value of a register. -/
def State.rd (s : State) (a : Nat) : Word := mget resetWord s.regs a
/-- Store a register. -/
def State.wr (s : State) (a : Nat) (w : Word) : State := { s with regs := mset resetWord s.regs a w }
/-- A field of a register. -/
def State.f (s : State) (r : RF) : Nat := fieldOf (s.rd r.addr) r.hi r.lo
/-- A field is not zero. -/
def State.on (s : State) (r : RF) : Bool := s.f r != 0
/-- Store a field. -/
def State.sf (s : State) (r : RF) (v : Nat) : State := s.wr r.addr (setField (s.rd r.addr) r.hi r.lo v)
/-- Set a flag. -/
def State.set1 (s : State) (r : RF) : State := s.sf r 1
/-- Clear a flag. -/
def State.clr (s : State) (r : RF) : State := s.sf r 0
/-- Set or clear a flag. -/
def State.put (s : State) (r : RF) (b : Bool) : State := s.sf r (if b then 1 else 0)
/-- Add to a count that saturates at the field's greatest value. -/
def State.bumpBy (s : State) (r : RF) (n : Nat) : State := s.sf r (satAdd (2 ^ (r.hi + 1 - r.lo) - 1) (s.f r) n)
/-- Add one to a saturating count. -/
def State.bump (s : State) (r : RF) : State := s.bumpBy r 1
/-- Add to a count that wraps at the field's width. -/
def State.incr (s : State) (r : RF) (n : Nat) : State := s.sf r (s.f r + n)
/-- A 64-bit pair of registers. -/
def State.pair (s : State) (lo hi : Nat) : Nat := (s.rd lo).toNat + 2 ^ 32 * (s.rd hi).toNat
/-- Store a 64-bit pair of registers. -/
def State.setPair (s : State) (lo hi v : Nat) : State :=
  (s.wr lo (BitVec.ofNat 32 v)).wr hi (BitVec.ofNat 32 (v / 2 ^ 32))
/-- Add to a 64-bit pair, modulo 2^64. -/
def State.incrPair (s : State) (lo hi n : Nat) : State := s.setPair lo hi (s.pair lo hi + n)

/-- The value in force of an SH register (R6). -/
def State.lrd (s : State) (a : Nat) : Word := mget resetWord s.live a
/-- The value in force of an SH field (R6). -/
def State.lf (s : State) (r : RF) : Nat := fieldOf (s.lrd r.addr) r.hi r.lo
/-- A field in force is not zero. -/
def State.lon (s : State) (r : RF) : Bool := s.lf r != 0

/-- The registers listed in an address range. -/
def regsIn (m : SMap Word) (lo hi : Nat) : SMap Word :=
  m.filter (fun e => decide (lo ≤ e.1) && decide (e.1 < hi))

/-- An apply point (R6): every SH register of [lo, hi) takes its shadow value. -/
def State.applyRange (s : State) (lo hi : Nat) : State :=
  { s with live := (regsIn s.regs lo hi).foldl (fun m e => minsert m e.1 e.2) (mdropRange s.live lo hi) }

/-- Every register of [lo, hi) goes back to its reset value. -/
def State.resetRange (s : State) (lo hi : Nat) : State :=
  { s with regs := mdropRange s.regs lo hi, live := mdropRange s.live lo hi }

/-! ### Requesters' latches (R9) -/

/-- A number for each requester: the cores 0 to 131, the host 132, the two-wire target 133. -/
def reqNo : Requester → Nat
  | .core c => c.val
  | .host => 132
  | .twi => 133

/-- The latch of a requester for a register. -/
def latchKey (r : Requester) (a : Nat) : Nat := reqNo r * 2 ^ 40 + a

/-- The latched value, when the requester has one. Kept as the value plus one, so that an unlisted key means none. -/
def State.latched (s : State) (r : Requester) (a : Nat) : Option Word :=
  (s.latch.find? (fun e => e.1 == latchKey r a)).map (·.2)

/-- Latch a value for a requester. -/
def State.setLatch (s : State) (r : Requester) (a : Nat) (w : Word) : State :=
  { s with latch := minsert s.latch (latchKey r a) w }

/-- The low word a requester has written and not committed. -/
def State.pendingLo (s : State) (r : Requester) (a : Nat) : Option Word :=
  (s.pendLo.find? (fun e => e.1 == latchKey r a)).map (·.2)

/-- Keep a low word for a requester until it writes the high word. -/
def State.setPendLo (s : State) (r : Requester) (a : Nat) (w : Word) : State :=
  { s with pendLo := minsert s.pendLo (latchKey r a) w }

/-- Forget a requester's low word. -/
def State.dropPendLo (s : State) (r : Requester) (a : Nat) : State :=
  { s with pendLo := merase s.pendLo (latchKey r a) }

/-! ### Memories: bytes by address, zero where nothing is listed -/

/-- What a byte of any memory or buffer reads as while nothing has written it. -/
def zeroByte (_ : Nat) : BitVec 8 := 0

/-- Read `n` bytes, lowest address first. -/
def mreadBytes (m : SMap (BitVec 8)) (a : Nat) : Nat → List (BitVec 8)
  | 0 => []
  | n + 1 => mget zeroByte m a :: mreadBytes m (a + 1) n

/-- Write bytes, lowest address first. -/
def mwriteBytes (m : SMap (BitVec 8)) (a : Nat) : List (BitVec 8) → SMap (BitVec 8)
  | [] => m
  | b :: r => mwriteBytes (mset zeroByte m a b) (a + 1) r

/-- A little-endian number of `n` bytes. -/
def mreadN (m : SMap (BitVec 8)) (a n : Nat) : Nat := ofLE (mreadBytes m a n)

/-- The canonical form of a memory. -/
def Memory.wf (m : SMap (BitVec 8)) : Bool := mwf zeroByte m

/-- Bytes of device memory: 72 GiB (ch. 11). -/
def dmemBytes : Nat := 72 * 2 ^ 30

/-- Read device memory; addresses past its end read zero. -/
def State.dread (s : State) (a n : Nat) : List (BitVec 8) := mreadBytes s.dmem a n
/-- A little-endian number in device memory. -/
def State.dreadN (s : State) (a n : Nat) : Nat := mreadN s.dmem a n

/-- Write device memory; bytes past its end are not stored. A write of a whole 64-byte unit ends its poison (R280). -/
def State.dwrite (s : State) (a : Nat) (l : List (BitVec 8)) : State :=
  let l := l.take (dmemBytes - a)
  let s := { s with dmem := mwriteBytes s.dmem a l }
  if s.poison.isEmpty then s
  else { s with poison := s.poison.filter (fun u => !(decide (a ≤ u * 64) && decide (u * 64 + 64 ≤ a + l.length))) }

/-- Zero a range of device memory. -/
def State.dzero (s : State) (a n : Nat) : State :=
  { s with dmem := mdropRange s.dmem a (a + n),
           poison := s.poison.filter (fun u => !(decide (a ≤ u * 64) && decide (u * 64 + 64 ≤ a + n))) }

/-- Read a byte buffer. -/
def State.bread (s : State) (a n : Nat) : List (BitVec 8) := mreadBytes s.bufs a n
/-- Write a byte buffer. -/
def State.bwrite (s : State) (a : Nat) (l : List (BitVec 8)) : State := { s with bufs := mwriteBytes s.bufs a l }

/-! ### Outputs and free values -/

/-- Send or drive something. -/
def State.emit (s : State) (o : Out) : State := { s with out := s.out ++ [o] }

/-- Take a value the spec leaves open: nothing constrains it. -/
def State.free (s : State) : Nat × State :=
  ((Config.freeValue s.freeCtr).toNat, { s with freeCtr := s.freeCtr + 1 })

/-! ### Numbered units -/

def State.axis (s : State) (n : Nat) : AxisSt := mget (fun _ => {}) s.axes n
def State.setAxis (s : State) (n : Nat) (a : AxisSt) : State := { s with axes := mset (fun _ => {}) s.axes n a }
def State.chan (s : State) (n : Nat) : ChanSt := mget (fun _ => {}) s.chans n
def State.setChan (s : State) (n : Nat) (a : ChanSt) : State := { s with chans := mset (fun _ => {}) s.chans n a }
def State.slot (s : State) (n : Nat) : SlotSt := mget (fun _ => {}) s.slots n
def State.setSlot (s : State) (n : Nat) (a : SlotSt) : State := { s with slots := mset (fun _ => {}) s.slots n a }
def State.input (s : State) (n : Nat) : InputSt := mget (fun _ => {}) s.inputs n
def State.setInput (s : State) (n : Nat) (a : InputSt) : State := { s with inputs := mset (fun _ => {}) s.inputs n a }
def State.core (s : State) (n : Nat) : CoreSt := mget (fun _ => {}) s.cores n
def State.setCore (s : State) (n : Nat) (a : CoreSt) : State := { s with cores := mset (fun _ => {}) s.cores n a }
def State.mbox (s : State) (n : Nat) : MboxSt := mget (fun _ => {}) s.mboxes n
def State.setMbox (s : State) (n : Nat) (a : MboxSt) : State := { s with mboxes := mset (fun _ => {}) s.mboxes n a }

/-! ### The clock's readings (R42) -/

/-- Nanoseconds since 0 s, 0 ns, exact. -/
def TimSt.ns (t : TimSt) : Int := floorDiv t.clk (2 ^ 32)
/-- The fraction of a nanosecond in 2^-32 ns. -/
def TimSt.frac (t : TimSt) : Nat := (t.clk % (2 ^ 32 : Int)).toNat
/-- The seconds count, modulo 2^48 (R42). -/
def TimSt.sec (t : TimSt) : Nat := wrapN 48 (floorDiv t.ns 1000000000)
/-- The nanoseconds count. -/
def TimSt.nsec (t : TimSt) : Nat := (t.ns % 1000000000).toNat
/-- The sub-nanosecond fraction, 16 bits. -/
def TimSt.sub (t : TimSt) : Nat := t.frac / 2 ^ 16
/-- The total nanosecond count (R42). -/
def TimSt.total (t : TimSt) : Int := wrapI 64 (signed 48 t.sec * 1000000000 + t.nsec)
/-- The short stamp (R42). -/
def TimSt.short (t : TimSt) : Word := BitVec.ofInt 32 t.total
/-- The position word of a15 (R42). -/
def TimSt.word (t : TimSt) : Dword := BitVec.ofInt 64 (t.total * 4096 + (t.sub / 16 : Nat))

/-- The epoch. -/
def State.epoch (s : State) : Nat := s.f F.TIM_STAT_EPOCH

/-! ### Standing of the part -/

/-- Held in reset. -/
def State.held (s : State) : Bool := s.boot.resetN || s.boot.supply || s.boot.trip
/-- LOCKDOWN in force (R379). -/
def State.lockdown (s : State) : Bool := s.on F.SEC_STAT_LOCKDOWN
/-- Not held in reset, not asleep, not in LOCKDOWN: the acquisition side runs. -/
def State.up (s : State) : Bool := !s.held && !s.lockdown && !s.boot.asleep
/-- The lifecycle in force: 0 BLANK, 1 PROVISION, 2 SEALED, 3 RETIRED (R360). -/
def State.lifecycle (s : State) : Nat := s.f F.FUS_LC_LIFECYCLE
/-- The host side is in reset (R25). -/
def State.hostInReset (s : State) : Bool := s.on F.DEV_RSTSTAT_HOST_IN_RESET

/-! ### Events (R125 to R132) -/

/-- Raise producer `p` with a hop count and an origin: the event waits to be counted at its inputs (R127, R131). -/
def State.raiseEv (s : State) (p hop origin : Nat) : State :=
  { s with evq := s.evq ++ [⟨p, hop, origin, s.rd R.EVR_GRP_EN, s.now⟩] }

/-- A hardware producer raises with hop 0 and is its own origin (R132). -/
def State.raise (s : State) (p : Nat) : State := s.raiseEv p 0 p

/-! ### Interrupts -/

/-- Signal an interrupt vector (R340, R341): its message is sent by the command that sends messages. -/
def State.signal (s : State) (v : Nat) : State := { s with sigs := s.sigs ++ [v] }

/-! ### The error log (R423 to R426, R429, R436) -/

/-- A fault repeats the newest record: the same code and unit, within 1 ms of it (R424). -/
def State.logRepeats (s : State) (code unit : Nat) : Bool :=
  match s.ras.log with
  | r :: _ => r.code == code && r.unit == unit && decide (s.now ≤ s.ras.logAt + 1000000)
  | [] => false

/-- The newest record is counted again (R424). -/
def countAgain : List LogRec → List LogRec
  | [] => []
  | r :: rest => { r with rep := satAdd 0xFFFF r.rep 1 } :: rest

/-- Enter a fault in the error log: a new record, or the newest one counted again (R423, R424). -/
def State.logEnter (s : State) (code cls unit addr detail : Nat) : State :=
  if s.logRepeats code unit then { s with ras := { s.ras with log := countAgain s.ras.log } }
  else
    let rec' : LogRec := ⟨s.f F.RAS_LOG_WR_COUNT, code, cls, unit, s.tim.total, addr, detail, s.epoch,
      s.f F.DEV_MODE_MODE, 0, s.ras.resets % 256⟩
    let full := decide (s.ras.log.length ≥ 1024)
    let s := { s with ras := { s.ras with log := (rec' :: s.ras.log).take 1024, logAt := s.now } }
    let s := s.incr F.RAS_LOG_WR_COUNT 1
    if full then s.set1 F.RAS_STAT_LOG_OVF else s

/-- A FATAL record shows in RAS_STAT and RAS_LAST, and an outage begins (R429, R433). -/
def State.logFatal (s : State) (code unit : Nat) : State :=
  let t := (s.set1 F.RAS_STAT_FATAL).sf F.RAS_LAST_FATAL_CODE code
  let t := t.sf F.RAS_LAST_FATAL_UNIT (unit % 256)
  { t with ras := { t.ras with outFrom := some (t.ras.outFrom.getD t.now) } }

/-- Write a fault to the error log, signal the host and show a fatal one (R423, R424, R429, R436). -/
def State.logFault (s : State) (code cls unit addr detail : Nat) : State :=
  let t := s.logEnter code cls unit addr detail
  let t := if cls ≥ 2 && t.on F.RAS_H_CFG_IRQ_EN && !s.logRepeats code unit then t.signal (t.f F.RAS_H_CFG_VECTOR) else t
  if cls = 3 then t.logFatal code unit else t

/-- An uncorrectable read of a 64-byte unit of device memory (R280): counted, its address kept, UE set, the unit poisoned, the fault
logged (R426 code 0x04). -/
def State.uncorrectable (s : State) (u : Nat) : State :=
  let s := (s.bump F.MEM_UE_CNT_UE).set1 F.MEM_STAT_UE
  let s := s.setPair R.MEM_UE_ADDR_LO R.MEM_UE_ADDR_HI (u * 64)
  let s := { s with poison := if s.poison.contains u then s.poison else s.poison ++ [u] }
  s.logFault 0x04 1 0xFFFF (u * 64) 0

/-- A unit lies in bytes [a, a + n) at least in part. -/
def unitMeets (a n u : Nat) : Bool := decide (u * 64 < a + n) && decide (a < u * 64 + 64)

/-- The first byte of [a, a + n) that lies in a poisoned unit. -/
def poisonIn (s : State) (a n : Nat) : Option Nat :=
  (s.poison.filter (unitMeets a n)).foldl
    (fun m u => match m with | some x => some (min x (max a (u * 64))) | none => some (max a (u * 64))) none

/-- A read of bytes [a, a + n) of device memory: each poisoned unit it meets reads as uncorrectable (R280). -/
def State.meets (s : State) (a n : Nat) : State := (s.poison.filter (unitMeets a n)).foldl State.uncorrectable s

/-- The block bit of R96 of an internal address, or 28 outside every span. -/
def blockBit (a : Nat) : Nat :=
  let o := a - 0x20000000
  if a < 0x20000000 then 28
  else if o < 0x10000 then 0 else if o < 0x20000 then 1 else if o < 0x30000 then 2
  else if o < 0x100000 then 28
  else if o < 0x110000 then 3 else if o < 0x120000 then 4 else if o < 0x130000 then 5 else if o < 0x140000 then 6
  else if o < 0x200000 then 28
  else if o < 0x210000 then 7 else if o < 0x220000 then 8 else if o < 0x230000 then 9 else if o < 0x240000 then 10
  else if o < 0x250000 then 11 else if o < 0x260000 then 12
  else if o < 0x300000 then 28
  else if o < 0x341000 then 13
  else if o < 0x400000 then 28
  else if o < 0x410000 then 14
  else if o < 0x500000 then 28
  else if o < 0x510000 then 15
  else if o < 0x600000 then 28
  else if o < 0x610000 then 16
  else if o < 0x700000 then 28
  else if o < 0x710000 then 17 else if o < 0x720000 then 18
  else if o < 0x800000 then 28
  else if o < 0x810000 then 19 else if o < 0x820000 then 20
  else if o < 0x900000 then 28
  else if o < 0x910000 then 21
  else if o < 0xA00000 then 28
  else if o < 0xA10000 then 22 else if o < 0xA20000 then 23
  else if o < 0xB00000 then 28
  else if o < 0xB10000 then 24
  else if o < 0xC00000 then 28
  else if o < 0xC10000 then 25
  else if o < 0xD00000 then 28
  else if o < 0xD20000 then 26
  else if o < 0xE00000 then 28
  else if o < 0xE10000 then 27
  else 28

/-- A locked write (R7): ignored and logged, DETAIL the block bit (R426 code 0x02). -/
def State.lockedWrite (s : State) (a : Nat) : State := s.logFault 0x02 0 0xFFFF a (blockBit a)

/-! ### Pixel formats (R195) -/

/-- A pixel format: bits of a sample, channels, how samples are laid out (0 one or two bytes each, 1 packed lowest bit first,
2 the GigE Vision packing of two samples in three bytes, 3 RGB8, 4 BGR8), the mosaic (0 none, 1 GR, 2 RG, 3 GB, 4 BG), and whether
a parallel port takes it. -/
structure PixFmt where
  bits : Nat
  chans : Nat
  layout : Nat
  bayer : Nat
  par : Bool
deriving DecidableEq, Repr

/-- The formats that unpack accepts, by PFNC code (R195). -/
def pixFmt (c : Nat) : Option PixFmt :=
  let mono (b : Nat) : Option PixFmt := some ⟨b, 1, 0, 0, true⟩
  if c = 0x01080001 then mono 8 else if c = 0x01100003 then mono 10 else if c = 0x01100005 then mono 12
  else if c = 0x01100025 then mono 14 else if c = 0x01100007 then mono 16
  else if c = 0x010A0046 then some ⟨10, 1, 1, 0, false⟩ else if c = 0x010C0047 then some ⟨12, 1, 1, 0, false⟩
  else if c = 0x010C0004 then some ⟨10, 1, 2, 0, false⟩ else if c = 0x010C0006 then some ⟨12, 1, 2, 0, false⟩
  else if 0x01080008 ≤ c && c ≤ 0x0108000B then some ⟨8, 1, 0, c - 0x01080007, true⟩
  else if 0x0110000C ≤ c && c ≤ 0x0110000F then some ⟨10, 1, 0, c - 0x0110000B, true⟩
  else if 0x01100010 ≤ c && c ≤ 0x01100013 then some ⟨12, 1, 0, c - 0x0110000F, true⟩
  else if 0x0110002E ≤ c && c ≤ 0x01100031 then some ⟨16, 1, 0, c - 0x0110002D, true⟩
  else if c = 0x02180014 then some ⟨8, 3, 3, 0, false⟩ else if c = 0x02180015 then some ⟨8, 3, 4, 0, false⟩
  else none

/-! ### Streams and ports that capture (R144, R169, R171) -/

/-- The settings in force of a network stream let it receive (R144, R195, GVS_S_SIZE): enabled, a size, an accepted format. -/
def gvsUsable (s : State) (n : Nat) : Bool :=
  s.lon (F.GVS_S_CFG_ENABLE n) && s.lon (F.GVS_S_SIZE_SIZE_X n) && s.lon (F.GVS_S_SIZE_SIZE_Y n) &&
  (pixFmt (s.lrd (R.GVS_S_FMT n)).toNat).isSome

/-- A lower-numbered stream that receives shares the camera address and UDP port (R144). -/
def gvsClash (s : State) (n : Nat) : Bool :=
  (List.range n).any (fun k => gvsUsable s k && s.lrd (R.GVS_S_CAM_IP k) == s.lrd (R.GVS_S_CAM_IP n) &&
    s.lf (F.GVS_S_PORTS_DST_UDP k) == s.lf (F.GVS_S_PORTS_DST_UDP n))

/-- A network stream receives (R144). -/
def gvsActive (s : State) (n : Nat) : Bool := gvsUsable s n && !gvsClash s n

def State.strm (s : State) (n : Nat) : StreamSt := mget (fun _ => {}) s.streams n
def State.setStrm (s : State) (n : Nat) (a : StreamSt) : State := { s with streams := mset (fun _ => {}) s.streams n a }
def State.par (s : State) (n : Nat) : ParSt := mget (fun _ => {}) s.pars n
def State.setPar (s : State) (n : Nat) (a : ParSt) : State := { s with pars := mset (fun _ => {}) s.pars n a }
def State.trig (s : State) (n : Nat) : TrigSt := mget (fun _ => {}) s.trigs n
def State.setTrig (s : State) (n : Nat) (a : TrigSt) : State := { s with trigs := mset (fun _ => {}) s.trigs n a }
def State.gpio (s : State) (n : Nat) : GpioSt := mget (fun _ => {}) s.gpios n
def State.setGpio (s : State) (n : Nat) (a : GpioSt) : State := { s with gpios := mset (fun _ => {}) s.gpios n a }

/-- The ports take data (R409): not while REPLAY is requested. -/
def capturing (s : State) : Bool := s.f F.DEV_MODE_REQ != 6
/-- The ports open frames (R409, R428, R431): not in REPLAY, during a warm restart, or while acquisition is stopped. -/
def opensFrames (s : State) : Bool := capturing s && s.ras.warm.isNone && !s.ras.stopped
/-- A stream accepts a frame: an outage is over (R434). -/
def frameAccepted (s : State) : State := { s with ras := { s.ras with outFrom := none } }

/-- A parallel port captures: enabled, its settings accepted, no CONFLICT (R169, R171). -/
def parActive (s : State) (p : Nat) : Bool := s.lon (F.PAR_CFG_ENABLE p) && !(s.par p).refused && !(s.par p).conflict

/-! ### The mode (R406) -/

/-- The streams that acquire (R406): a GVS stream enabled with its port up; a stream named by a parallel port that is enabled
without CONFLICT; in REPLAY the streams of the replay mask, since ports then capture nothing. -/
def State.acquiring (s : State) : List Nat :=
  if s.f F.DEV_MODE_REQ == 6 then
    let m := s.pair R.DEV_RPL_MASK_LO R.DEV_RPL_MASK_HI
    (List.range 64).filter (fun n => m.testBit n)
  else
    let gvs := (List.range 64).filter (fun n => gvsActive s n && s.on (F.ETH_STAT_LINK_UP (s.lf (F.GVS_S_CFG_PORT n))))
    let par := ((List.range 4).filter (parActive s)).map (fun p => s.lf (F.PAR_CFG_STREAM p))
    gvs ++ par

/-- A stream acquires (R406). -/
def State.acquires (s : State) (n : Nat) : Bool := s.acquiring.contains n

/-- An axis shows STALE (R41): its own bit, or on a derived axis its source's. -/
def State.stale (s : State) (n : Nat) : Bool :=
  if n < 8 || n == 15 then false
  else if n < 12 then
    let src := s.f (F.AXS_CFG_SOURCE n)
    decide (12 ≤ src) && decide (src < 15) && s.on (F.AXS_STAT_STALE src)
  else s.on (F.AXS_STAT_STALE n)

/-- Some core runs. -/
def State.coreRuns (s : State) : Bool := s.cores.any (fun e => e.2.run == .running)

/-- The mode that the first holding row of R406 gives. -/
def State.modeOf (s : State) : Nat :=
  let lc := s.lifecycle
  if s.lockdown then 11
  else if !s.boot.done then 0
  else if s.boot.asleep then 10
  else if lc == 3 || (lc == 0 && !s.coreRuns) then 1
  else
    let req := s.f F.DEV_MODE_REQ
    if req == 6 || req == 7 || req == 8 then req
    else
      let acq := s.acquiring
      if acq.isEmpty then (if s.coreRuns then 3 else 2)
      else if s.on F.TIM_STAT_HOLDOVER || acq.any (fun n => s.stale (s.lf (F.MIL_CFG_AXIS n))) then 9
      else if acq.any (fun n => s.lf (F.MIL_CFG_AXIS n) != 15) then 5
      else 4

/-- Decide the mode again (R406): a change copies the old mode into PREV. -/
def State.settle (s : State) : State :=
  let m := s.modeOf
  if m = s.f F.DEV_MODE_MODE then s
  else (s.sf F.DEV_MODE_PREV (s.f F.DEV_MODE_MODE)).sf F.DEV_MODE_MODE m

/-- ALERT_N is to be low (R436). -/
def State.alertLow (s : State) : Bool :=
  s.on F.RAS_STAT_FATAL || s.on F.RAS_STAT_HALTED || (s.on F.RAS_STAT_THERM_WARN && s.on F.RAS_CFG_ALERT_EN)

/-- Drive ALERT_N when its level changes (R436). -/
def State.driveAlert (s : State) : State :=
  if s.alertLow = s.ras.alert then s
  else { s with ras := { s.ras with alert := s.alertLow }, out := s.out ++ [.pin .alertN (!s.alertLow)] }

/-- The outcome of a command: the state it leaves, with the mode decided again (R406) and ALERT_N driven (R436). -/
def done (s : State) : Host.Outcome State Fault Refusal := .next s.settle.driveAlert

/-! ### Cores that become eligible for a switch (R103) -/

/-- Sheaf `k` is sheaf `n` or a later one, in the direction of travel of sequence `q`. -/
def sheafReached (s : State) (q : Nat) (n k : Int) : Bool :=
  if s.lon (F.COL_SQ_CFG_DIR q) then decide (k ≤ n) else decide (n ≤ k)

/-- A thresher core lies in the dispatch range of a sequence (R264). -/
def inDispatch (s : State) (q c : Nat) : Bool :=
  let a := s.lf (F.THR_SQ_CFG_CORE_FIRST q)
  let n := s.lf (F.THR_SQ_CFG_CORE_COUNT q)
  decide (4 ≤ c) && s.lon (F.THR_SQ_CFG_EN q) && decide (a + n ≤ 128) && decide (a ≤ c - 4) && decide (c - 4 < a + n)

/-- The cores of a switch in progress that a test names become eligible (R103). -/
def makeEligible (s : State) (p : Nat → Bool) : State :=
  match s.loader.sw with
  | none => s
  | some w =>
    let new := (w.left.filter (fun c => p c && !w.eligible.any (fun e => e.1 == c))).map (fun c => (c, s.now))
    { s with loader := { s.loader with sw := some { w with eligible := w.eligible ++ new } } }

/-- The switch waits for sheaf `k` of `q`, or an earlier one. -/
def swWaits (s : State) (q : Nat) (k : Int) : Bool :=
  match s.loader.sw with
  | some w => w.seq == q && sheafReached s q w.sheaf k
  | none => false

/-- What the Mill keeps of a stream. -/
def State.mill (s : State) (n : Nat) : MillSt := mget (fun _ => {}) s.mills n
def State.setMill (s : State) (n : Nat) (a : MillSt) : State := { s with mills := mset (fun _ => {}) s.mills n a }

/-- The state of a sequence beside its registers. -/
def State.seq (s : State) (q : Nat) : SeqSt := mget (fun _ => {}) s.seqs q
def State.setSeq (s : State) (q : Nat) (a : SeqSt) : State := { s with seqs := mset (fun _ => {}) s.seqs q a }

/-- A cut at K: the control cores, and the thresher cores outside the dispatch range (R103). -/
def noteCut (s : State) (q : Nat) (k : Int) : State :=
  let x := s.seq q
  let far := match x.cutK with | some j => if sheafReached s q j k then k else j | none => k
  let s := s.setSeq q { x with cutK := some far }
  if swWaits s q k then makeEligible s (fun c => !inDispatch s q c) else s
/-- A sheaf closes or is lost: the thresher cores of the dispatch range (R103). -/
def noteClose (s : State) (q : Nat) (k : Int) : State :=
  if swWaits s q k then makeEligible s (inDispatch s q) else s
/-- A tile of a sheaf stands in a thresher core's queue (R103). -/
def noteTile (s : State) (q : Nat) (k : Int) (c : Nat) : State :=
  if swWaits s q k then makeEligible s (fun x => x == c && inDispatch s q c) else s

end Sys2Proof.Machine
end

