-- ==== Sys2Proof/Machine/Axis.lean ====
section
/-! DEFINITION. Machine/Axis.lean: the axes and their positions (R27 to R41), and what a move of an axis does to the schedule
slots (R118). -/

namespace Sys2Proof.Machine
open Sys2Proof

/-! ### Producers of this chapter (R125) -/

def prodAxisFault (n : Nat) : Nat := 0x180 + n
def prodClockStep : Nat := 0x204
def prodStepRefused : Nat := 0x205
def prodHoldover : Nat := 0x206
def prodPpsIn : Nat := 0x207

/-! ### Positions -/

/-- Interpolation is on (R31). -/
def interpOn (s : State) (n : Nat) : Bool :=
  let a := s.axis n
  s.on (F.AXS_CFG_INTERP n) && decide ((s.rd (R.AXS_INTERVAL n)).toNat ≤ 16777216) && decide (2 ≤ a.run) &&
    a.slow == 0 && !s.boot.asleep && a.heldF.isNone && s.on (F.AXS_CFG_ENABLE n)

/-- The grain fraction of a physical axis (R30, R31, R34). -/
def grainF (s : State) (n : Nat) : Nat :=
  let a := s.axis n
  match a.heldF with
  | some f => f
  | none =>
    if interpOn s n then
      let e := s.now - a.lastTick.getD 0
      let i := (s.rd (R.AXS_INTERVAL n)).toNat
      if i = 0 then (if e = 0 then 0 else 4095) else min 4095 (4096 * e / i)
    else 0

/-- The position of a physical axis, signed, in grains (R30, R35). -/
def physPos (s : State) (n : Nat) : Int :=
  let w := (s.axis n).word.toInt
  let f := grainF s n
  wrapI 64 (if s.on (F.AXS_STAT_DIR n) then w - f else w + f)

/-- The extrapolation of a remote axis at a time (R39). -/
def remoteExtrap (a : AxisSt) (t : Int) : Int :=
  if a.samples = 0 then a.word.toInt else a.pk + floorDiv (a.dP * (t - a.tk)) (max 1 a.dT)

/-- The part of a remote axis's difference not yet removed at a time (R40). -/
def remoteCorr (a : AxisSt) (t : Int) : Int :=
  let e := t - a.corrFrom
  if a.corrLen = 0 || decide (e ≥ a.corrLen) then 0
  else floorDiv (a.corr * ((a.corrLen : Int) - e)) a.corrLen

/-- The position of a remote axis at a time (R39, R40). -/
def remotePosAt (a : AxisSt) (t : Int) : Int :=
  let x := remoteExtrap a t
  match a.held with
  | some h => if a.dP ≥ 0 then max h x else min h x
  | none => x + remoteCorr a t

/-- A derived axis has a scale and a source it may follow (R37). -/
def derivedValid (s : State) (n : Nat) : Bool :=
  let src := s.f (F.AXS_CFG_SOURCE n)
  (decide (src < 8) || decide (12 ≤ src)) && (s.lrd (R.AXS_RATIO_N n)).toNat != 0 && s.on (F.AXS_CFG_ENABLE n)

/-- The scaled position of a derived axis before its offset (R37): the quotient rounds towards minus infinity. -/
def scaledPos (s : State) (n : Nat) (ps : Int) : Int :=
  floorDiv (ps * (s.lrd (R.AXS_RATIO_M n)).toInt) ((s.lrd (R.AXS_RATIO_N n)).toNat)

/-- The offset of a derived axis in force (R37). -/
def derivedOffset (s : State) (n : Nat) : Int :=
  signed 64 ((s.lrd (R.AXS_OFFSET_LO n)).toNat + 2 ^ 32 * (s.lrd (R.AXS_OFFSET_HI n)).toNat)

/-- The position of an axis that follows no other. -/
def rootPos (s : State) (n : Nat) : Int :=
  if n < 8 then physPos s n
  else if n = 15 then s.tim.word.toInt
  else if s.on (F.AXS_CFG_ENABLE n) then wrapI 64 (remotePosAt (s.axis n) s.tim.total)
  else (s.axis n).word.toInt

/-- The position of an axis, signed, in grains (R35, R37, R39, R42). -/
def axisPos (s : State) (n : Nat) : Int :=
  if 8 ≤ n && n < 12 then
    if derivedValid s n then
      wrapI 64 (scaledPos s n (rootPos s (s.f (F.AXS_CFG_SOURCE n))) + derivedOffset s n)
    else (s.axis n).word.toInt
  else rootPos s n

/-- The position word of an axis (R35). -/
def axisWord (s : State) (n : Nat) : Dword := BitVec.ofInt 64 (axisPos s n)
/-- The short position of an axis (R36). -/
def shortPos (s : State) (n : Nat) : Word := BitVec.ofInt 32 (axisPos s n)

/-! ### Slots: next target, discard, disarm (R118, R122, R124) -/

def SlotSt.ctrl (x : SlotSt) : Word := x.img.getD 5 0
def SlotSt.axis (x : SlotSt) : Nat := fieldOf x.ctrl 3 0
def SlotSt.action (x : SlotSt) : Nat := fieldOf x.ctrl 6 4
def SlotSt.raise (x : SlotSt) : Bool := x.ctrl.getLsbD 7
def SlotSt.param (x : SlotSt) : Nat := fieldOf x.ctrl 15 8
def SlotSt.wunit (x : SlotSt) : Nat := fieldOf x.ctrl 17 16
def SlotSt.dir (x : SlotSt) : Bool := x.ctrl.getLsbD 19
def SlotSt.dropLate (x : SlotSt) : Bool := x.ctrl.getLsbD 20
def SlotSt.width (x : SlotSt) : Nat := (x.img.getD 2 0).toNat
/-- The pitch in grains (R116). -/
def SlotSt.pitch (x : SlotSt) : Nat := (x.img.getD 3 0).toNat * (if x.ctrl.getLsbD 18 then 4096 else 1)

/-- How far a position stands past a target in a direction (R116, R117): negative while the target is ahead. -/
def pastBy (t : Dword) (dir : Bool) (pos : Int) : Int := wrapI 64 (if dir then t.toInt - pos else pos - t.toInt)

/-- How far the position stands past a slot's target in its direction (R117). -/
def slotDiff (x : SlotSt) (pos : Int) : Int := pastBy x.target x.dir pos

/-- Where the pulse of a slot with WUNIT 0 ends (R120). -/
def SlotSt.endPos (x : SlotSt) : Dword :=
  BitVec.ofInt 64 (if x.dir then x.target.toInt - x.width else x.target.toInt + x.width)

/-- A slot's firing drives a pulse that ends at a position (R116, R120). -/
def SlotSt.endsAtPos (x : SlotSt) : Bool := x.action == 1 && x.wunit == 0

/-- A slot taken out of service. -/
def SlotSt.off (x : SlotSt) : SlotSt := { x with armed := false, late := false, test := false, due := none, stop := none }

/-- Disarm a slot whose target has gone out of range (R118, R122): why is 1, 2 or 3 (RANGE_WHY). -/
def slotRange (s : State) (n why : Nat) : State :=
  let s := s.setSlot n (s.slot n).off
  let s := s.set1 F.SCH_STAT_ARM_RANGE
  let s := s.sf (F.SCH_REC_FLAGS_RANGE_WHY n) why
  s.bump F.SCH_RANGE_CNT_RANGE

/-- Use one repeat in TIME cycle `now` and take the next target (R122): the target steps by the pitch from the previous target; with no
repeat left, or a pitch of zero, the slot disarms itself. -/
def slotAdvance (x : SlotSt) (now : Nat) : SlotSt :=
  let x := { x with acted := some now }
  if x.remain = 0 || x.pitch = 0 then x.off
  else
    { x with
      remain := if x.remain = 0xFFFFFFFF then x.remain else x.remain - 1
      target := BitVec.ofInt 64 (if x.dir then x.target.toInt - x.pitch else x.target.toInt + x.pitch)
      late := false
      test := true
      due := none
      stop := none }

/-- Discard a late target (R117, R122, R124): only the flags are rewritten, VALID kept when the slot has fired since it
was armed. -/
def slotDiscard (s : State) (n : Nat) : State :=
  let x := s.slot n
  let s := s.wr (R.SCH_REC_FLAGS n) (if x.seq = 0 then 4 else 5)
  let s := (s.set1 F.SCH_STAT_DROPPED).bump F.SCH_LATE_CNT_DROPPED
  s.setSlot n (slotAdvance x s.now)

/-- Time in units of 0.5 ns: the start of the TIME cycle. -/
def half (s : State) : Nat := 2 * s.now

/-- A target found late is fired at the start of the next TIME cycle (R117, R119). -/
def SlotSt.findLate (x : SlotSt) (now : Nat) : SlotSt := { x with late := true, due := some (2 * (now + 1)) }

/-- A move that is not motion carries an axis onto or past a position in a direction (R118). -/
def carries (before s : State) (n : Nat) (t : Dword) (dir : Bool) : Bool :=
  decide (pastBy t dir (axisPos before n) < 0) && decide (0 ≤ pastBy t dir (axisPos s n))

/-- What a move that is not motion does to one armed slot (R118): a target it carries the axis onto or past is late; the end of a pulse
that is still to be driven is passed (R120). -/
def slotMoved (before : State) (s : State) (n : Nat) : State :=
  let x := s.slot n
  if !x.armed then s
  else if x.due.isSome then
    if x.endsAtPos && x.stop.isNone && carries before s x.axis x.endPos x.dir then
      s.setSlot n { x with stop := some (half s + 2) }
    else s
  else if !x.test && carries before s x.axis x.target x.dir then
    if slotDiff x (axisPos s x.axis) ≥ 2 ^ 31 then slotRange s n 3
    else if x.dropLate then slotDiscard s n
    else s.setSlot n (x.findLate s.now)
  else s

/-- The pulses of an output that end at a position, after a look at the axes: `look` says when the end at a position falls, in 0.5 ns
of TIME, once it has been seen (R120). -/
def TrigSt.look (x : TrigSt) (look : Nat → Dword → Bool → Option Nat) : TrigSt :=
  { x with
    pulses := x.pulses.map (fun p =>
      match p.stop, p.at_ with
      | none, some (a, t, d) => { p with stop := look a t d }
      | _, _ => p)
    due := x.due.map (fun r =>
      match r.ends with
      | .reach a t d none => { r with ends := .reach a t d (look a t d) }
      | _ => r) }

/-- After a preset, a Z load, a step of the clock or an apply to a derived axis: every armed slot carried onto or past its
target treats it as late (R118); every pulse carried onto or past its end position ends at the start of the next TIME cycle (R120). -/
def afterMove (before s : State) : State :=
  let s := (s.slots.map (·.1)).foldl (fun t n => slotMoved before t n) s
  { s with trigs := s.trigs.map (fun e =>
      (e.1, e.2.look (fun a t d => if carries before s a t d then some (half s + 2) else none))) }

/-! ### Firing instants (R119, R120) -/

/-- The latency L of an axis, in ns (R119). -/
def axisLat (s : State) (n : Nat) : Nat :=
  if n < 8 then s.f (F.AXS_FILT_MIN_WIDTH n) + 24 else if n = 15 then 0 else 24

/-- An armed slot after a look at the axes: whether its target has been reached, and the end of its pulse (R119, R120). -/
def SlotSt.look (x : SlotSt) (look : Nat → Dword → Bool → Option Nat) : SlotSt :=
  if !x.armed || x.test then x
  else
    let x := if x.due.isNone then { x with due := look x.axis x.target x.dir } else x
    if x.due.isSome && x.endsAtPos && x.stop.isNone then { x with stop := look x.axis x.endPos x.dir } else x

/-- Look at every slot and every pulse. -/
def lookAll (s : State) (look : Nat → Dword → Bool → Option Nat) : State :=
  { s with slots := s.slots.map (fun e => (e.1, e.2.look look)), trigs := s.trigs.map (fun e => (e.1, e.2.look look)) }

/-- The firing instant of a position that a counted tick has brought physical axis `n` to, in ns (R119): the stamp of the tick's edge,
or, past the new tick, that stamp and the time the new interval gives to the grain. -/
def tickInstant (s : State) (n : Nat) (p : PendTick) (t : Dword) (dir : Bool) : Nat :=
  if dir == p.fwd then s.now
  else
    let g := pastBy t dir (s.axis n).word.toInt
    if 0 ≤ g then p.edge else p.edge + ceilDiv ((-g).toNat * (s.rd (R.AXS_INTERVAL n)).toNat) 4096

/-- What is seen as a tick of axis `n` is counted (R119): positions it and the axes derived from it have reached; a15 is placed ahead of
the clock instead. -/
def lookTick (s : State) (n : Nat) (p : PendTick) (a : Nat) (t : Dword) (dir : Bool) : Option Nat :=
  if a ≠ 15 && decide (0 ≤ pastBy t dir (axisPos s a)) then
    some (2 * ((if a = n then tickInstant s n p t dir else s.now) + axisLat s a))
  else none

/-! ### Faults of an axis -/

def axisFault (s : State) (n : Nat) : State := s.raise (prodAxisFault n)

/-- A quadrature error (R28): counted, flagged, the axis fault event; the position keeps its value and interpolation is off
until two further ticks arrive in one direction. -/
def quadErr (s : State) (n : Nat) : State :=
  let f := grainF s n
  let a := s.axis n
  let s := s.setAxis n { a with run := 0, heldF := some f }
  let s := (s.bump (F.AXS_ERRCNT_QUAD_ERRS n)).set1 (F.AXS_STAT_QUAD_ERR n)
  axisFault s n

/-! ### Encoder edges -/

/-- Whether an edge of A (or of B) counts a tick in a decode mode, and forward or reverse (R27). `a`, `b` are the levels
after the edge. -/
def decodeTick (mode : Nat) (isA : Bool) (a b : Bool) : Option Bool :=
  match mode with
  | 1 => if isA && a then some (!b) else none
  | 2 => if isA then some (a != b) else none
  | 3 => if isA then some (a != b) else some (a == b)
  | 4 => if isA && a then some (!b) else none
  | 5 => if isA && a then some true else if !isA && b then some false else none
  | _ => none

/-- The axes that take a channel and run (R27): enabled, a physical axis whose SOURCE names it. -/
def axesOn (s : State) (ch : Nat) : List Nat :=
  (List.range 8).filter (fun n => s.on (F.AXS_CFG_ENABLE n) && s.f (F.AXS_CFG_SOURCE n) == ch)

/-- The length of a level as the glitch filter measures it: in whole steps of 40 ns while asleep (R57). -/
def filtWidth (s : State) (width : Nat) : Nat := if s.boot.asleep then width / 40 * 40 else width

/-- A level is shorter than the filter of an axis lets pass (R57, R58). -/
def filtered (s : State) (n width : Nat) : Bool := decide (filtWidth s width < s.f (F.AXS_FILT_MIN_WIDTH n))

/-- An axis takes a confirmed edge of its channel: A changed, B changed, the levels after, the unfiltered edge time, the time of the
other line's last edge. -/
def axisEdge (s : State) (n : Nat) (chA chB a b : Bool) (t : Nat) (other : Option Nat) : State :=
  let mw := s.f (F.AXS_FILT_MIN_WIDTH n)
  let mode := s.f (F.AXS_CFG_DECODE n)
  let near := match other with
    | some o => let g := t - o; if mw = 0 then g == 0 && decide (o ≤ t) else decide (g < mw) && decide (o ≤ t)
    | none => false
  if mode = 3 && ((chA && chB) || near) then
    let x := s.axis n
    let s := s.setAxis n { x with ticks := x.ticks.filter (fun p => !(some p.edge == other)) }
    quadErr s n
  else
    let push (s : State) (isA : Bool) : State :=
      match decodeTick mode isA a b with
      | some fwd =>
        let fwd := if s.on (F.AXS_CFG_INVERT n) then !fwd else fwd
        let x := s.axis n
        s.setAxis n { x with ticks := x.ticks ++ [⟨t, fwd⟩] }
      | none => s
    let s := if chA then push s true else s
    if chB then push s false else s

/-- The filter of one axis on a channel meets levels (R28, R58): levels as it gives them already are no edge; a level shorter than
MIN_WIDTH is discarded, and counted when the axis runs on the channel; any other is confirmed. -/
def chanEdge (s : State) (ch n : Nat) (a b : Bool) (t width : Nat) : State :=
  let c := s.chan (8 * ch + n)
  let chA := c.a != a
  let chB := c.b != b
  let runs := (axesOn s ch).contains n
  if !chA && !chB then s
  else if filtered s n width then (if runs then s.bump (F.AXS_ERRCNT_GLITCHES n) else s)
  else
    let other := if chA && !chB then c.edgeB else if chB && !chA then c.edgeA else none
    let s := if runs then axisEdge s n chA chB a b t other else s
    s.setChan (8 * ch + n) { a := a, b := b, edgeA := if chA then some t else c.edgeA, edgeB := if chB then some t else c.edgeB }

/-- ENCODER_EDGE (R27, R28, R29, R58): the levels of A and B after an edge, how long ago the unfiltered edge was, and how long
the new level has lasted. Each axis filters the channel for itself. -/
def execEncoderEdge (ch : Fin 8) (a b : Bool) (age width : Word) (s : State) : Host.Outcome State Fault Refusal :=
  if s.held then done s
  else done ((List.range 8).foldl (fun s n => chanEdge s ch n a b (s.now - age.toNat) width.toNat) s)

/-- Count one confirmed tick (R29 to R31, R34, R58): interval, overspeed, direction, the run of ticks in one direction. -/
def countTick (s : State) (n : Nat) (p : PendTick) : State :=
  let x := s.axis n
  let dir := !p.fwd
  let same := s.on (F.AXS_STAT_DIR n) == dir && x.lastTick.isSome
  let run := if same || x.run = 0 then x.run + 1 else 1
  let iv := x.lastTick.map (fun l => min 0xFFFFFFFF (p.edge - l))
  let rate := let r := s.f (F.AXS_FILT_MAX_RATE n); if r = 0 then 50 else r
  let fast := match iv with
    | some i => decide (i * rate < 1000)
    | none => false
  let tick : Int := floorDiv x.word.toInt 4096 + (if p.fwd then 1 else -1)
  let s := s.setAxis n { x with
    word := BitVec.ofInt 64 (tick * 4096)
    lastTick := some p.edge
    run := run
    slow := if fast then 16 else x.slow - 1
    heldF := none
    ticks := x.ticks.drop 1
    zNet := x.zNet + (if p.fwd then 1 else -1)
    stallFrom := s.now }
  let s := match iv with
    | some i => s.wr (R.AXS_INTERVAL n) (BitVec.ofNat 32 i)
    | none => s
  let s := (s.put (F.AXS_STAT_DIR n) dir).clr (F.AXS_STAT_STALLED n)
  let s := if s.boot.asleep && (match iv with | some i => decide (i < 200) | none => false)
    then s.set1 (F.AXS_STAT_SLEEP_OVERSPEED n) else s
  let s := if fast then axisFault (s.set1 (F.AXS_STAT_OVERSPEED n)) n else s
  lookAll s (lookTick s n p)

/-- The TIME cycle in which the count advances for a tick (R29). -/
def tickDue (s : State) (n : Nat) (p : PendTick) : Nat := p.edge + s.f (F.AXS_FILT_MIN_WIDTH n) + 8

/-- TICK_COUNT (R29): the count advances by the oldest confirmed tick of the axis, MIN_WIDTH + 8 ns after its edge. -/
def execTickCount (a : Fin 8) (s : State) : Host.Outcome State Fault Refusal :=
  match (s.axis a).ticks with
  | p :: _ => if s.held || decide (s.now < tickDue s a p) then done s else done (countTick s a p)
  | [] => done s

/-- Count the ticks of an axis whose time has come. -/
def countDue (s : State) (n : Nat) : List PendTick → State
  | [] => s
  | p :: r => if tickDue s n p ≤ s.now then countDue (countTick s n p) n r else s

/-- Load AXS_SET into the position word (R32, R33): ticks due before are counted; a tick due in the TIME cycle of the load is
lost. -/
def loadSet (s : State) (n : Nat) : State :=
  let s := countDue s n (s.axis n).ticks
  let x := s.axis n
  let s' := s.setAxis n { x with
    word := BitVec.ofNat 64 (s.pair (R.AXS_SET_LO n) (R.AXS_SET_HI n))
    run := 0
    heldF := none
    ticks := x.ticks.filter (fun p => tickDue s n p != s.now + 1)
    samples := 0
    held := none
    corrLen := 0 }
  afterMove s (s'.set1 (F.AXS_STAT_PRESET_DONE n))

/-- A write of AXS_CMD.PRESET (R33); a15 ignores AXS_CMD. -/
def doPreset (s : State) (n : Nat) : State :=
  if n < 8 then loadSet s n else s

/-- PRESET (R33). -/
def execPreset (a : Fin 16) (s : State) : Host.Outcome State Fault Refusal :=
  if s.up then done (doPreset s a) else done s

/-- One axis sees a rising Z edge (R32). -/
def axisZ (s : State) (n : Nat) (width : Nat) : State :=
  if filtered s n width then s.bump (F.AXS_ERRCNT_GLITCHES n)
  else
    let zm := s.f (F.AXS_CFG_Z_MODE n)
    if zm = 0 || zm = 3 then s
    else
      let x := s.axis n
      let w := axisWord s n
      let s := s.setPair (R.AXS_ZPOS_LO n) (R.AXS_ZPOS_HI n) w.toNat
      let s := s.set1 (F.AXS_STAT_Z_SEEN n)
      let zp := (s.rd (R.AXS_ZPERIOD n)).toNat
      let s := if zp != 0 && x.zSeen && x.zNet.natAbs != zp then axisFault (s.set1 (F.AXS_STAT_Z_ERR n)) n else s
      let s := s.setAxis n { x with zNet := 0, zSeen := true }
      if zm = 2 then loadSet s n else s

/-- Z_EDGE (R32, R58): a rising edge of Z on a channel, and how long the level lasted. -/
def execZEdge (ch : Fin 8) (width : Word) (s : State) : Host.Outcome State Fault Refusal :=
  if s.up then done ((axesOn s ch).foldl (fun s n => axisZ s n width.toNat) s) else done s

/-- The apply point of a derived axis (R38): the ratio and the offset take effect together; with APPLY_CONT the offset becomes
the value that leaves the position unchanged. -/
def doAxsApply (s : State) (n : Nat) : State :=
  if 8 ≤ n && n < 12 then
    let p := axisPos s n
    let s1 := s.applyRange (R.AXS_RATIO_M n) (R.AXS_OFFSET_HI n + 4)
    let s2 :=
      if s.on (F.AXS_CFG_APPLY_CONT n) && derivedValid s1 n then
        let o := BitVec.ofInt 64 (p - scaledPos s1 n (rootPos s1 (s1.f (F.AXS_CFG_SOURCE n))))
        let t := s1.setPair (R.AXS_OFFSET_LO n) (R.AXS_OFFSET_HI n) o.toNat
        t.applyRange (R.AXS_RATIO_M n) (R.AXS_OFFSET_HI n + 4)
      else s1
    let s3 := if derivedValid s2 n then s2
      else
        let t := s2.setAxis n { s2.axis n with word := BitVec.ofInt 64 p }
        if s2.on (F.AXS_CFG_ENABLE n) then t.set1 (F.AXS_STAT_RANGE n) else t
    afterMove s s3
  else s

/-- AXS_APPLY (R38). -/
def execAxsApply (a : Fin 16) (s : State) : Host.Outcome State Fault Refusal :=
  if s.up then done (doAxsApply s a) else done s

/-- STALL (R34): no tick for STALL_TMO µs; f is held, STALLED set, the axis fault event raised. -/
def execStall (a : Fin 8) (s : State) : Host.Outcome State Fault Refusal :=
  let tmo := s.f (F.AXS_FILT_STALL_TMO a)
  let x := s.axis a
  if s.up && tmo != 0 && s.on (F.AXS_CFG_ENABLE a) && !s.on (F.AXS_STAT_STALLED a) &&
     decide (x.stallFrom + tmo * 1000 ≤ s.now) then
    let f := grainF s a
    let s := s.setAxis a { x with heldF := some f, run := 0 }
    done (axisFault (s.set1 (F.AXS_STAT_STALLED a)) a)
  else done s

/-! ### Remote axes -/

/-- The sample passes the filter of R58: the link, node and axis match AXS_REMOTE, and the sequence number is new. -/
def sampleMatches (s : State) (n : Nat) (x : AxisSample) : Bool :=
  let via := s.f (F.AXS_REMOTE_VIA n)
  (via == 1 || via == 2) && via == x.via.val && s.f (F.AXS_REMOTE_PORT n) == x.port.val &&
    s.f (F.AXS_REMOTE_NODE n) == x.node.val && s.f (F.AXS_REMOTE_AXIS n) == x.axis.val

/-- Take a sample into a remote axis (R39, R40, R41, R58): `t` is the sample time on this part's clock. -/
def takeSample (s : State) (n : Nat) (seq : Word) (pos t : Int) : State :=
  let a := s.axis n
  let now := s.tim.total
  let dT := t - a.tk
  let dP := wrapI 64 (pos - a.pk)
  let tooFast := decide (a.samples ≠ 0) && (decide (dT ≤ 0) || decide ((dP.natAbs : Int) * 10 > 2048 * dT))
  if a.seq = some seq || decide (t - now > 1000000) || tooFast then s.bump (F.AXS_ERRCNT_QUAD_ERRS n)
  else
    let old := remotePosAt a now
    let b : AxisSt := { a with
      samples := min 2 (a.samples + 1), pk := pos, tk := t
      dP := if a.samples = 0 then 0 else dP
      dT := if a.samples = 0 then 1 else dT
      seq := some seq, lastSample := s.now, held := none, corr := 0, corrLen := 0 }
    let b :=
      if a.samples = 0 then b
      else
        let x := remoteExtrap b now
        let d := wrapI 64 (old - x)
        if (b.dP > 0 && decide (b.dP - d < 0)) || (b.dP < 0 && decide (b.dP - d > 0)) then { b with held := some (x + d) }
        else { b with corr := d, corrFrom := now, corrLen := dT.toNat }
    (s.setAxis n b).clr (F.AXS_STAT_STALE n)

/-- The latency of a link: as ranged, and as corrected, in 1/16 ns (R391, R395). -/
def linkLat (s : State) (link : Nat) : Int := (s.f (F.EBK_LAT_LAT link) : Nat) + signed 16 (s.f (F.EBK_LAT_ADJ_ADJ link))

/-- The sample time of a beacon is its arrival, `sub` sixteenths into the present nanosecond, less the latency of its link, rounded to
1 ns (R39, R395). -/
def beaconTime (s : State) (link sub : Nat) : Int := roundDiv (16 * s.tim.total + (sub : Nat) - linkLat s link) 16

/-- Offer a sample to one remote axis (R39, R58). -/
def offerSample (s : State) (n : Nat) (x : AxisSample) (sub : Nat) : State :=
  if s.on (F.AXS_CFG_ENABLE n) && sampleMatches s n x then
    takeSample s n x.seq x.pos.toInt (if x.via = 1 then beaconTime s (x.port.val % 8) sub else x.time.toInt)
  else s

/-- REMOTE_AXIS_SAMPLE (R39): a sample reaches remote axis a12 + a. -/
def execRemoteAxisSample (a : Fin 3) (x : AxisSample) (s : State) : Host.Outcome State Fault Refusal :=
  if s.up then
    if sampleMatches s (12 + a) x then done (offerSample s (12 + a) x 0)
    else done (s.bump (F.AXS_ERRCNT_QUAD_ERRS (12 + a.val)))
  else done s

/-- STALE (R41): no valid sample within STALE_TMO (10 µs units). -/
def execStale (a : Fin 3) (s : State) : Host.Outcome State Fault Refusal :=
  let n := 12 + a.val
  let tmo := s.f (F.AXS_REMOTE_STALE_TMO n)
  if s.up && tmo != 0 && s.on (F.AXS_CFG_ENABLE n) && !s.on (F.AXS_STAT_STALE n) &&
     decide ((s.axis n).lastSample + tmo * 10000 ≤ s.now) then
    done (axisFault (s.set1 (F.AXS_STAT_STALE n)) n)
  else done s

end Sys2Proof.Machine
end

