-- ==== Sys2Proof/Machine/Clock.lean ====
section
/-! DEFINITION. Machine/Clock.lean: the clock, its servo interface, HOLDOVER and PPS (R42 to R54, R472). -/

namespace Sys2Proof.Machine
open Sys2Proof

/-- 500 µs in 2^-16 ns (R46). -/
def slewLimit : Int := 500 * 1000 * 65536

/-- TIM_STEP_LIMIT in 2^-16 ns (R46). -/
def stepLimit (s : State) : Int := (s.f F.TIM_CFG_STEP_LIMIT : Nat) * 1000 * 65536

/-- The trim the clock runs at (R44, R51): the hold rate alone in HOLDOVER, TIM_RATE otherwise, in 2^-32 ns per ns. -/
def rateNow (s : State) : Int :=
  if s.on F.TIM_STAT_HOLDOVER then (s.rd R.TIM_HOLD_RATE).toInt else (s.rd R.TIM_RATE).toInt

/-- What a slew has removed after `k` TIME cycles, in 2^-32 ns (R46): linearly over 1 s, or at -500 ppm. -/
def slewDone (w : Slew) (k : Nat) : Int :=
  if w.neg then max w.total (-((2147483648 * k / 1000 : Nat) : Int))
  else if k ≥ 1000000000 then w.total
  else floorDiv (w.total * k) 1000000000

/-- One TIME cycle of the clock (R42): 1 ns plus the trim plus the slew. -/
def TimSt.tick (t : TimSt) (rate : Int) : TimSt :=
  match t.slew with
  | none => { t with clk := t.clk + 2 ^ 32 + rate }
  | some w =>
    let d := slewDone w (w.cycles + 1)
    { t with clk := t.clk + 2 ^ 32 + rate + (d - w.done), slew := some { w with done := d, cycles := w.cycles + 1 } }

/-- End a slew: SLEWING and NEG_SLEW clear (R46, R51). -/
def endSlew (s : State) : State :=
  let s := { s with tim := { s.tim with slew := none } }
  (s.clr F.TIM_STAT_SLEWING).clr F.TIM_STAT_NEG_SLEW

/-- Begin a slew that replaces any slew in progress (R46, R47). -/
def beginSlew (s : State) (x : Int) (neg : Bool) : State :=
  let s := { s with tim := { s.tim with slew := some ⟨x * 65536, 0, 0, neg⟩ } }
  (s.set1 F.TIM_STAT_SLEWING).put F.TIM_STAT_NEG_SLEW neg

/-- HOLDOVER stands while any cause stands (R472); entering it ends a slew (R51) and raises its producer. -/
def updateHoldover (s : State) : State :=
  let any := s.tim.stepRef || s.tim.refLost || s.tim.forced
  let was := s.on F.TIM_STAT_HOLDOVER
  if any && !was then (endSlew (s.set1 F.TIM_STAT_HOLDOVER)).raise prodHoldover
  else if !any && was then s.clr F.TIM_STAT_HOLDOVER
  else s

/-! ### Positions seen at the start of a TIME cycle (R119) -/

/-- The position of a15 at the start of the next TIME cycle, as the clock now runs. -/
def clockAhead (s : State) : Int := (s.tim.tick (rateNow s)).word.toInt

/-- The firing instant plus L of a position, in 0.5 ns of TIME, as the start of a TIME cycle shows it (R119): on a15 the instant itself,
ahead of the clock within the cycle, to the nearest 0.5 ns; on a physical axis this cycle, in which the grain fraction reaches it, or
the stamp of the next tick when that is earlier; on another axis this cycle. -/
def lookCycle (s : State) (n : Nat) (t : Dword) (dir : Bool) : Option Nat :=
  if n = 15 then
    let a := pastBy t dir s.tim.word.toInt
    let b := pastBy t dir (clockAhead s)
    if 0 ≤ a then some (half s)
    else if 0 < b then some (half s + (roundDiv (2 * -a) (b - a).toNat).toNat)
    else none
  else if 0 ≤ pastBy t dir (axisPos s n) then
    let at_ := match (s.axis n).ticks with
      | p :: _ => if n < 8 && p.fwd != dir then min s.now p.edge else s.now
      | [] => s.now
    some (2 * (at_ + axisLat s n))
  else none

/-- A time in 0.5 ns of TIME on the clock, as a total nanosecond count: as far from the present reading as TIME is from it. -/
def stampAt (s : State) (h : Nat) : Int := s.tim.total - ((s.now : Int) - (h / 2 : Nat))

/-! ### PPS output (R54) -/

/-- The second in which the clock plus TIM_PPS_OUT_OFS stands. -/
def ppsIndex (s : State) : Int :=
  floorDiv (s.tim.clk + (s.rd R.TIM_PPS_OUT_OFS).toInt * 2 ^ 32) (1000000000 * 2 ^ 32)

/-- Drive PPS_OUT at its active or inactive level. -/
def drivePps (s : State) (active : Bool) : State :=
  s.emit (.pin .ppsOut (active != s.on F.TIM_PPS_CFG_OUT_POL))

/-- A second boundary crossed forward emits the pulse; a pulse still running is extended (R54). -/
def ppsCross (s : State) : State :=
  let i := ppsIndex s
  if i > s.tim.ppsSec then
    let running := s.tim.ppsEnd.isSome
    let s := { s with tim := { s.tim with ppsSec := i } }
    let w := s.f F.TIM_PPS_CFG_OUT_WIDTH
    if s.on F.TIM_PPS_CFG_OUT_EN && w != 0 then
      let s := { s with tim := { s.tim with ppsEnd := some (s.now + w * 1000000) } }
      if running then s else drivePps s true
    else s
  else s

/-! ### Steps -/

/-- Move the clock by an amount in 2^-32 ns: a step cancels any slew, raises producer 0x204, is a move of a15 and of the axes
derived from it (R47, R48, R118), and crosses second boundaries of PPS_OUT (R54). -/
def stepClock (s : State) (d : Int) : State :=
  let s1 := endSlew { s with tim := { s.tim with clk := s.tim.clk + d, steps := s.tim.steps + 1 } }
  let i := ppsIndex s1
  let s1 := if i < s1.tim.ppsSec then { s1 with tim := { s1.tim with ppsSec := i } } else if ppsIndex s < i then ppsCross s1 else s1
  afterMove s (s1.raise prodClockStep)

/-- The effects of an authorised step (R45, R48): the epoch goes up by one modulo 256, AUTH_DONE is set, the STEP_REFUSED cause
ends. The full postmark records of the new epoch fall due on every active ring, because their epoch differs (R50). -/
def authStep (s : State) (d : Int) : State :=
  let s := stepClock (s.sf F.TIM_STAT_EPOCH (s.epoch + 1)) d
  let s := { s with tim := { s.tim with stepRef := false, authAt := some s.now } }
  updateHoldover (s.set1 F.TIM_STAT_AUTH_DONE)

/-- Refuse an offset (R46, R472). -/
def refuseOffset (s : State) : State :=
  let s := { s with tim := { s.tim with stepRef := true } }
  updateHoldover ((s.set1 F.TIM_STAT_STEP_REFUSED).raise prodStepRefused)

/-- Act on an offset while locked and not in HOLDOVER (R46, R47). -/
def actOffset (s : State) (x : Int) : State :=
  if x = 0 then endSlew s
  else if x ≤ slewLimit && -slewLimit ≤ x then beginSlew s x false
  else if x > stepLimit s || x < -(stepLimit s) then refuseOffset s
  else if x > 0 then (stepClock s (x * 65536)).set1 F.TIM_STAT_STEPPED
  else beginSlew s x true

/-- The mean of TIM_RATE over the last 16 submissions, rounded towards minus infinity (R51). -/
def meanRate (l : List Int) : Int := if l.isEmpty then 0 else floorDiv l.sum l.length

/-- The clock acts on an offset (R45 to R47, R49, R51, R472): one in the TIME cycle of an authorised step is discarded. An offset of zero,
which R46 neither slews nor steps, does not end the REF_LOST cause. -/
def takeOffset (s : State) (x : Int) : State :=
  if s.tim.authAt = some s.now then s.set1 F.TIM_STAT_ADJ_DROPPED
  else
    let s := s.setPair R.TIM_LASTOFF_LO R.TIM_LASTOFF_HI (wrapN 64 x)
    if !s.on F.TIM_STAT_LOCKED then
      if s.tim.forced then s
      else
        let s := { s with tim := { s.tim with refLost := false, refFrom := s.now } }
        authStep (s.set1 F.TIM_STAT_LOCKED) (x * 65536)
    else
      let hold := s.on F.TIM_STAT_HOLDOVER
      let s := { s with tim := { s.tim with refFrom := s.now } }
      if hold then
        if x > stepLimit s || x < -(stepLimit s) then refuseOffset s
        else if s.tim.refLost && x != 0 then
          let s := updateHoldover { s with tim := { s.tim with refLost := false } }
          if s.on F.TIM_STAT_HOLDOVER then s else actOffset s x
        else s
      else
        let rates := ((s.rd R.TIM_RATE).toInt :: s.tim.rates).take 16
        let s := { s with tim := { s.tim with rates := rates } }
        actOffset (s.wr R.TIM_HOLD_RATE (BitVec.ofInt 32 (meanRate rates))) x

/-- The offsets submitted in a TIME cycle are acted on at its end, for the next cycle (R46). -/
def takeOffsets (s : State) : State := s.tim.adj.foldl takeOffset { s with tim := { s.tim with adj := [] } }

/-- An offset is submitted (R45): it waits for the end of the TIME cycle, so that an authorised step of the same cycle, before or after
it, discards it (R49). -/
def submitOffset (s : State) (x : Int) : State := { s with tim := { s.tim with adj := s.tim.adj ++ [x] } }

/-- A write of TIM_ADJ_HI commits the pair with the requester's low word (R9) and submits it (R45). -/
def doTimAdj (s : State) (r : Requester) (hi : Word) : State :=
  let lo := (s.pendingLo r R.TIM_ADJ_LO).getD (s.rd R.TIM_ADJ_LO)
  let s := (s.dropPendLo r R.TIM_ADJ_LO).wr R.TIM_ADJ_LO lo
  let s := s.wr R.TIM_ADJ_HI hi
  submitOffset s (signed 64 (lo.toNat + 2 ^ 32 * hi.toNat))

/-- TIM_ADJ_SUBMIT (R45, R46): the offset is acted on at the next TIME cycle. -/
def execTimAdjSubmit (r : Requester) (hi : Word) (s : State) : Host.Outcome State Fault Refusal :=
  if s.up then done (doTimAdj s r hi) else done s

/-- SLEW_END (R46): the slew in progress has removed its whole offset. -/
def execSlewEnd (s : State) : Host.Outcome State Fault Refusal :=
  match s.tim.slew with
  | some w => if w.done = w.total then done (endSlew s) else done s
  | none => done s

/-- A write of TIM_CMD.AUTH_STEP (R48): only from a core with the clock-step right; otherwise a locked write. -/
def doAuthStep (s : State) (r : Requester) : State :=
  let right := match r with
    | .core c => (s.core c).grant.clockStep
    | _ => false
  if right then authStep s (signed 64 (s.pair R.TIM_STEP_LO R.TIM_STEP_HI) * 2 ^ 32)
  else s.lockedWrite R.TIM_CMD

/-- AUTH_STEP (R48). -/
def execAuthStep (r : Requester) (s : State) : Host.Outcome State Fault Refusal :=
  if s.up then done (doAuthStep s r) else done s

/-- Enter a forced holdover (R52). -/
def doHold (s : State) : State := updateHoldover { s with tim := { s.tim with forced := true } }
/-- End a forced holdover (R52). -/
def doRelease (s : State) : State := updateHoldover { s with tim := { s.tim with forced := false } }

/-- HOLD (R52). -/
def execHold (s : State) : Host.Outcome State Fault Refusal := if s.up then done (doHold s) else done s
/-- RELEASE (R52). -/
def execRelease (s : State) : Host.Outcome State Fault Refusal := if s.up then done (doRelease s) else done s

/-- REF_LOST (R52): REF_TMO (100 ms units) has elapsed while locked. -/
def execRefLost (s : State) : Host.Outcome State Fault Refusal :=
  let tmo := s.f F.TIM_CFG_REF_TMO
  if s.up && s.on F.TIM_STAT_LOCKED && tmo != 0 && !s.tim.refLost &&
     decide (s.tim.refFrom + tmo * 100000000 ≤ s.now) then
    done (updateHoldover ({ s with tim := { s.tim with refLost := true } }.set1 F.TIM_STAT_REF_LOST))
  else done s

/-- A write of TIM_RATE (R44, R51): clamped to plus or minus 2,147,484 with RANGE; ignored in HOLDOVER. -/
def doTimRate (s : State) (v : Word) : State :=
  if s.on F.TIM_STAT_HOLDOVER then s
  else
    let x := clampI (-2147484) 2147484 v.toInt
    let s' := s.wr R.TIM_RATE (BitVec.ofInt 32 x)
    if x = v.toInt then s' else s'.set1 F.TIM_STAT_RANGE

/-- TIM_RATE_WRITE (R44). -/
def execTimRateWrite (v : Word) (s : State) : Host.Outcome State Fault Refusal :=
  if s.up then done (doTimRate s v) else done s

/-- PPS_IN_EDGE (R53, R58): IN_POL chooses the active edge; a pulse shorter than 100 ns is ignored. -/
def execPpsInEdge (width : PinPulse) (s : State) : Host.Outcome State Fault Refusal :=
  if s.up && s.on F.TIM_PPS_CFG_IN_EN && width.level != s.on F.TIM_PPS_CFG_IN_POL && decide (100 ≤ width.ns.toNat) then
    let ns := s.tim.nsec
    let far := min ns (1000000000 - ns)
    let w := s.f F.TIM_PPS_CFG_IN_WINDOW
    if w != 0 && decide (far > w * 1000) then done (s.set1 F.TIM_STAT_PPS_OUTLIER)
    else
      let s := (s.wr R.TIM_PPS_NS (BitVec.ofNat 32 ns)).wr R.TIM_PPS_SEC (BitVec.ofNat 32 s.tim.sec)
      done ({ s with tim := { s.tim with ppsFrom := s.now, refFrom := s.now } }.raise prodPpsIn)
  else done s

/-- PPS_LOST (R58): 1.5 s without a valid edge while IN_EN is set. -/
def execPpsLost (s : State) : Host.Outcome State Fault Refusal :=
  if s.up && s.on F.TIM_PPS_CFG_IN_EN && decide (s.tim.ppsFrom + 1500000000 ≤ s.now) then
    done (s.set1 F.TIM_STAT_PPS_LOST)
  else done s

/-- PPS_OUT_PULSE (R54). -/
def execPpsOutPulse (s : State) : Host.Outcome State Fault Refusal :=
  if s.up then done (ppsCross s) else done s

/-- PPS_OUT_END (R54). -/
def execPpsOutEnd (s : State) : Host.Outcome State Fault Refusal :=
  match s.tim.ppsEnd with
  | some e =>
    if s.up && decide (e ≤ s.now) then done (drivePps { s with tim := { s.tim with ppsEnd := none } } false)
    else done s
  | none => done s

end Sys2Proof.Machine
end

