-- ==== Sys2Proof/Machine/Events.lean ====
section
/-! DEFINITION. Machine/Events.lean: the event router (R125 to R135): arrival at the consumer inputs, consumption, groups,
selectors, relays and their hop counts. -/

namespace Sys2Proof.Machine
open Sys2Proof

def prodLoop : Nat := 0x224
def prodOverrun : Nat := 0x225
/-- Consumer inputs (R126). -/
def inDma (c : Nat) : Nat := 0x0C0 + c
def inGroupOn (g : Nat) : Nat := 0x100 + g
def inGroupOff (g : Nat) : Nat := 0x120 + g
def inPulse (n : Nat) : Nat := 0x140 + n
def inCut (q : Nat) : Nat := 0x160 + q
def inHoldover : Nat := 0x168
def inRemote (k : Nat) : Nat := 0x170 + k

/-- A relay input (R126, R132). -/
def isRelay (i : Nat) : Bool :=
  (decide (0x0C0 ≤ i) && decide (i < 0x100)) || (decide (0x160 ≤ i) && decide (i < 0x168)) ||
  (decide (0x170 ≤ i) && decide (i < 0x1F0))

/-- An event arrives at an input (R129): it is counted at the end of the TIME cycle, after what the cycle consumes. -/
def addPending (s : State) (i hop origin : Nat) : State :=
  let x := s.input i
  s.setInput i { x with arr := x.arr ++ [(hop, origin)] }

/-- One arrival counted at an input (R129): at 255 it is lost and counted, OVERRUN is set, and producer 0x225 is raised when the
input's OVERRUN changes from 0 to 1. -/
def countPending (s : State) (i : Nat) (e : Nat × Nat) : State :=
  let x := s.input i
  if x.pend.length ≥ 255 then
    let was := s.on (F.EVR_IN_STAT_OVERRUN i)
    let s := ((s.bump (F.EVR_IN_STAT_LOST i)).set1 (F.EVR_IN_STAT_OVERRUN i)).set1 F.EVR_STAT_OVERRUN
    if was then s else s.raise prodOverrun
  else s.setInput i { x with pend := x.pend ++ [e] }

/-- The arrivals of a TIME cycle are counted at one input (R129). -/
def countArrivals (s : State) (i : Nat) : State :=
  let x := s.input i
  x.arr.foldl (fun t e => countPending t i e) (s.setInput i { x with arr := [] })

/-- The inputs an event reaches (R127): some valid selector names the producer and its group was enabled when it was raised;
an input counts it once. -/
def reached (s : State) (e : Ev) : List Nat :=
  let b := R.EVR_SEL 0 0
  ((regsIn s.regs b (b + 0x4000)).filterMap (fun r =>
    let off := r.1 - b
    if off % 0x20 < 0x10 && r.2.getLsbD 31 && fieldOf r.2 9 0 == e.prod && e.groups.getLsbD (fieldOf r.2 20 16) then
      some (off / 0x20)
    else none)).dedup

/-- EVENT_ARRIVAL (R127, R129, R131): the oldest event raised arrives at its inputs three TIME cycles after it was raised. -/
def execEventArrival (s : State) : Host.Outcome State Fault Refusal :=
  match s.evq with
  | [] => done s
  | e :: rest =>
    if s.now < e.at_ + 3 then done s
    else done ((reached s e).foldl (fun t i => addPending t i e.hop e.origin) { s with evq := rest })

/-- A hardware consumer takes the oldest pending event of its input (R130): its hop and origin, and the state without it. A relay
input that takes an event of hop 7 discards it (R132): none, with LOOP set and producer 0x224 raised. -/
def takeEvent (s : State) (i : Nat) : Option (Nat × Nat) × State :=
  let x := s.input i
  match x.pend with
  | [] => (none, s)
  | (h, o) :: rest =>
    let s := s.setInput i { x with pend := rest, took := some s.now }
    if isRelay i && h == 7 then
      let s := (s.sf F.EVR_LOOP_SRC_ORIGIN o).sf F.EVR_LOOP_SRC_INPUT i
      (none, ((s.set1 F.EVR_STAT_LOOP).bump F.EVR_LOOP_CNT_LOOPS).raise prodLoop)
    else (some (h, o), s)

/-- A group, trigger or HOLDOVER input takes at most one event per TIME cycle (R130). -/
def mayTake (s : State) (i : Nat) : Bool := (s.input i).took != some s.now

/-- Groups are enabled, or disabled, from the next TIME cycle on (R128). -/
def groupsOn (s : State) (m : Word) : State := { s with grpOn := s.grpOn ||| m }
def groupsOff (s : State) (m : Word) : State := { s with grpOff := s.grpOff ||| m }

/-- The group changes of a TIME cycle take effect (R128): a disable wins over an enable, and group 0 stays enabled. -/
def applyGroups (s : State) : State :=
  if s.grpOn = 0 && s.grpOff = 0 then s
  else { s with grpOn := 0, grpOff := 0 }.wr R.EVR_GRP_EN (((s.rd R.EVR_GRP_EN ||| s.grpOn) &&& ~~~s.grpOff) ||| 1)

/-- The end of a TIME cycle at the router (R128, R129): arrivals are counted, and group changes take effect for the next cycle. -/
def routerTick (s : State) : State := applyGroups ((s.inputs.map (·.1)).foldl countArrivals s)

/-- ENABLE_GROUP (R128). -/
def execEnableGroup (g : RegNo) (s : State) : Host.Outcome State Fault Refusal :=
  if s.up && mayTake s (inGroupOn g) then
    match takeEvent s (inGroupOn g) with
    | (some _, t) => done (groupsOn t (1 <<< g.val))
    | (none, t) => done t
  else done s

/-- DISABLE_GROUP (R128). -/
def execDisableGroup (g : RegNo) (s : State) : Host.Outcome State Fault Refusal :=
  if s.up && mayTake s (inGroupOff g) then
    match takeEvent s (inGroupOff g) with
    | (some _, t) => done (groupsOff t (1 <<< g.val))
    | (none, t) => done t
  else done s

/-- ENTER_HOLDOVER (R52, R126): an event taken at input 0x168. -/
def execEnterHoldover (s : State) : Host.Outcome State Fault Refusal :=
  if s.up && mayTake s inHoldover then
    match takeEvent s inHoldover with
    | (some _, t) => done (doHold t)
    | (none, t) => done t
  else done s

/-- EVR_GRP_ON (R128). -/
def execEvrGrpOn (v : Word) (s : State) : Host.Outcome State Fault Refusal :=
  if s.up then done (groupsOn s v) else done s

/-- EVR_GRP_OFF (R128): bit 0 is ignored. -/
def execEvrGrpOff (v : Word) (s : State) : Host.Outcome State Fault Refusal :=
  if s.up then done (groupsOff s v) else done s

/-- Flush an input (R129): the pending events are dropped; what arrives in the TIME cycle of the flush is counted after it. -/
def doFlush (s : State) (i : Nat) : State := s.setInput i { s.input i with pend := [] }

/-- FLUSH (R129). -/
def execFlush (i : Fin 512) (s : State) : Host.Outcome State Fault Refusal :=
  if s.up then done (doFlush s i) else done s

/-- A parcel is in use: it is the active parcel of some core (R105). -/
def parcelInUse (s : State) (p : ParcelSt) : Bool := p.cores.any (fun c => (s.core c).activeId == p.id && p.id != 0)

/-- The routes of the parcels in use (R134). -/
def routesInUse (s : State) : List Route := (s.loader.parcels.filter (parcelInUse s)).flatMap (·.routes)

/-- A triple of input, producer and group is declared (R134). -/
def declared (s : State) (i p g : Nat) : Bool :=
  (routesInUse s).any (fun r => r.input == i && r.prod == p && r.group == g)

/-- A write of a selector entry (R134). -/
def doSelWrite (s : State) (i k : Nat) (v : Word) : State :=
  let v := v &&& 0x801F03FF
  if !v.getLsbD 31 || declared s i (fieldOf v 9 0) (fieldOf v 20 16) then s.wr (R.EVR_SEL i k) v
  else (s.lockedWrite (R.EVR_SEL i k)).set1 F.EVR_STAT_UNDECLARED

/-- EVR_SEL_WRITE (R134). -/
def execEvrSelWrite (i : Fin 512) (k : Fin 4) (v : Word) (s : State) : Host.Outcome State Fault Refusal :=
  if s.up then done (doSelWrite s i k v) else done s

/-- At the end of a switch every valid entry that no parcel in use declares is cleared (R134). -/
def clearUndeclared (s : State) : State :=
  let b := R.EVR_SEL 0 0
  { s with regs := s.regs.filter (fun r =>
      !(decide (b ≤ r.1) && decide (r.1 < b + 0x4000) && (r.1 - b) % 0x20 < 0x10 && r.2.getLsbD 31 &&
        !declared s ((r.1 - b) / 0x20) (fieldOf r.2 9 0) (fieldOf r.2 20 16))) }

end Sys2Proof.Machine
end

