-- ==== Sys2Proof/Machine/Trigger.lean ====
section
/-! DEFINITION. Machine/Trigger.lean: trigger queues and matching, common to network streams and parallel ports (R155 to R159,
R178), trigger outputs and their pulses (R120, R121, R180 to R185), strobes and GPIO (R186 to R188). -/

namespace Sys2Proof.Machine
open Sys2Proof

/-! ### Frame flags (R216) -/

def flShort : Nat := 1
def flLong : Nat := 2
def flTimeout : Nat := 4
def flMissing : Nat := 8
def flOrphan : Nat := 16
def flUncertain : Nat := 32
def flOverflow : Nat := 64
def flTnrReset : Nat := 128
def flTdiPart : Nat := 256

/-- A field of a snapshot of settings. -/
def cfgF (c : List (Nat × Word)) (r : RF) : Nat := fieldOf (mget resetWord c r.addr) r.hi r.lo
def cfgOn (c : List (Nat × Word)) (r : RF) : Bool := cfgF c r != 0

/-! ### Feeds: a network stream or a parallel port -/

/-- What delivers frames as a stream (R169). -/
inductive Feed where
  | net (n : Nat)
  | par (p : Nat)
deriving DecidableEq, Repr

/-- The stream a feed delivers, in the settings in force (R179). -/
def feedStream (s : State) : Feed → Nat
  | .net n => n
  | .par p => s.lf (F.PAR_CFG_STREAM p)

def feedM (s : State) : Feed → Matcher
  | .net n => (s.strm n).m
  | .par p => (s.par p).m

def setFeedM (s : State) (f : Feed) (m : Matcher) : State :=
  match f with
  | .net n => s.setStrm n { s.strm n with m := m }
  | .par p => s.setPar p { s.par p with m := m }

/-- The frame end and stream fault producers (R125). -/
def prodFrameEnd (n : Nat) : Nat := 0x100 + n
def prodStreamFault (n : Nat) : Nat := 0x140 + n

/-- The trigger mode that settings give: 0 NONE, 1 FRAME, 2 LINE; 3 acts as 0. -/
def cfgMode (c : List (Nat × Word)) (f : Feed) : Nat :=
  let m := match f with
    | .net n => cfgF c (F.GVS_S_CFG_TRIG_MODE n)
    | .par p => cfgF c (F.PAR_CFG_TRIG_MODE p)
  if m = 3 then 0 else m

/-- Trigger mode in force. -/
def feedMode (s : State) (f : Feed) : Nat := cfgMode s.live f

def cfgWindow (c : List (Nat × Word)) : Feed → Bool
  | .net n => cfgOn c (F.GVS_S_CFG_WINDOW_EN n)
  | .par p => cfgOn c (F.PAR_CFG_WINDOW_EN p)

/-- The window of R156 in ns. -/
def cfgLo (c : List (Nat × Word)) : Feed → Int
  | .net n => signed 16 (cfgF c (F.GVS_S_MATCH_MATCH_LO n)) * 1000
  | .par p => signed 16 (cfgF c (F.PAR_MATCH_MATCH_LO p)) * 1000
def cfgHi (c : List (Nat × Word)) : Feed → Int
  | .net n => signed 16 (cfgF c (F.GVS_S_MATCH_MATCH_HI n)) * 1000
  | .par p => signed 16 (cfgF c (F.PAR_MATCH_MATCH_HI p)) * 1000

/-- FRAME_TMO in µs. -/
def feedTmo (s : State) : Feed → Nat
  | .net n => s.lf (F.GVS_S_TMO_FRAME_TMO n)
  | .par p => s.lf (F.PAR_TMO_FRAME_TMO p)

/-- The generation of a frame that no entry gives (R159, R178). -/
def feedGen (s : State) : Feed → Nat
  | .net n => s.f (F.GVS_S_GEN_CURRENT n)
  | .par p => s.lf (F.TRG_GEN_GEN (s.lf (F.PAR_CFG_SRC_INDEX p)))

def feedActive (s : State) : Feed → Bool
  | .net n => gvsActive s n
  | .par p => parActive s p

/-- Raise the stream fault producer of a stream (R473). -/
def streamFault (s : State) (n : Nat) : State := s.raise (prodStreamFault n)

/-- A MISSED report (R155). -/
def missed (s : State) (f : Feed) : State :=
  let s := match f with
    | .net n => (s.bump (F.GVS_S_MATCH_CNT_MISSED n)).set1 (F.GVS_S_FLAGS_MISSED n)
    | .par p => (s.bump (F.PAR_MATCH_CNT_MISSED p)).set1 (F.PAR_FLAGS_MISSED p)
  streamFault s (feedStream s f)

/-- An ORPHAN frame or line of stream `n` (R156, R158, R473). -/
def orphan (s : State) (f : Feed) (n : Nat) : State :=
  let s := match f with
    | .net n => (s.bump (F.GVS_S_MATCH_CNT_ORPHAN n)).set1 (F.GVS_S_FLAGS_ORPHAN n)
    | .par p => (s.bump (F.PAR_MATCH_CNT_ORPHAN p)).set1 (F.PAR_FLAGS_ORPHAN p)
  streamFault s n

/-- The axis of a stream (R155). -/
def streamAxis (s : State) (n : Nat) : Nat := s.lf (F.MIL_CFG_AXIS n)

/-- Put an entry into a feed's queue (R155): at a full queue the oldest is reported MISSED and TRIGQ_OVF is set. -/
def pushEntry (s : State) (f : Feed) (e : TrigEntry) : State :=
  let m := feedM s f
  if m.queue.length ≥ 1024 then
    let s := missed s f
    let s := match f with
      | .net n => s.set1 (F.GVS_S_FLAGS_TRIGQ_OVF n)
      | .par p => s.set1 (F.PAR_FLAGS_TRIGQ_OVF p)
    setFeedM s f { m with queue := m.queue.drop 1 ++ [e] }
  else setFeedM s f { m with queue := m.queue ++ [e] }

/-- The feeds that take an entry of a pulse on output `n` (R178, R180): capturing, in FRAME or LINE mode, their source TRIGn. -/
def feedsOf (s : State) (n : Nat) : List Feed :=
  ((List.range 64).filter (fun k => gvsActive s k && feedMode s (.net k) != 0 && !s.lon (F.GVS_S_CFG_TRIG_SRC k) &&
    s.lf (F.GVS_S_CFG_SRC_INDEX k) == n)).map .net ++
  ((List.range 4).filter (fun p => parActive s p && feedMode s (.par p) != 0 &&
    s.lf (F.PAR_CFG_SRC_INDEX p) == n)).map .par

/-- Hand one entry of a pulse whose rising edge stands at `edge` (0.5 ns of TIME) to every stream whose trigger source is output `n`;
each samples its own axis (R124, R155, R180). -/
def handEntry (s : State) (n edge : Nat) (seq : Word) (gen : Nat) (slot : Option Nat) : State :=
  (feedsOf s n).foldl (fun t f =>
    let ax := streamAxis t (feedStream t f)
    pushEntry t f ⟨seq, stampAt t edge, t.epoch, ax, some (axisPos t ax), gen, slot⟩) s

/-- The window loop of R156 on a queue: the entry matched, what is left, and how many entries were reported MISSED. -/
def windowMatch (window : Bool) (lo hi stamp : Int) : List TrigEntry → Option TrigEntry × List TrigEntry × Nat
  | [] => (none, [], 0)
  | e :: r =>
    if !window then (some e, r, 0)
    else
      let d := stamp - e.edge
      if d < lo then (none, e :: r, 0)
      else if d > hi then
        match windowMatch window lo hi stamp r with
        | (a, b, k) => (a, b, k + 1)
      else (some e, r, 0)

/-- The postmark of a frame or line taken from an entry (R159). -/
def markOf (s : State) (e : TrigEntry) : Postmark :=
  ⟨e.edge, e.epoch, e.axis, e.pos.getD (axisPos s e.axis), e.gen, e.seq⟩

/-- The postmark taken now on an axis, at the arrival of data (R21, R159, R203). -/
def arrivalMark (s : State) (ax gen : Nat) : Postmark := ⟨s.tim.total, s.epoch, ax, axisPos s ax, gen, 0⟩

/-- Match a frame under its settings (R156, R157, R159): its postmark and flags. `arr` is the postmark of the arrival of its first data,
which the frame takes when no entry gives one. -/
def openMark (s : State) (f : Feed) (cfg : List (Nat × Word)) (arr : Postmark) (stamp : Int) : Postmark × Nat × State :=
  let m := feedM s f
  if cfgMode cfg f = 0 then ({ arr with gen := feedGen s f }, 0, setFeedM s f { m with steps := s.tim.steps })
  else
    let window := cfgWindow cfg f && m.steps == s.tim.steps
    match windowMatch window (cfgLo cfg f) (cfgHi cfg f) stamp m.queue with
    | (some e, rest, k) =>
      let t := setFeedM s f { m with queue := rest, lastGen := some e.gen, steps := s.tim.steps }
      (markOf s e, 0, (List.replicate k ()).foldl (fun t _ => missed t f) t)
    | (none, rest, k) =>
      let t := setFeedM s f { m with queue := rest, steps := s.tim.steps }
      let t := (List.replicate k ()).foldl (fun t _ => missed t f) t
      ({ arr with gen := m.lastGen.getD (feedGen s f) }, flOrphan + flUncertain, orphan t f (feedStream s f))

/-- Match a further line in LINE mode (R158): the next entry without a window check; none left: ORPHAN, postmarked at its arrival on
axis `ax`, with generation `gen` when nothing has been matched. `n` is the stream of its frame. -/
def lineMark (s : State) (f : Feed) (n ax gen : Nat) : Postmark × Nat × State :=
  let m := feedM s f
  match m.queue with
  | e :: rest => (markOf s e, 0, setFeedM s f { m with queue := rest, lastGen := some e.gen })
  | [] => (arrivalMark s ax (m.lastGen.getD gen), flOrphan + flUncertain, orphan s f n)

/-- TRIGGER_ENTRY_TIMEOUT (R155): the head entry's edge time plus FRAME_TMO has passed. -/
def entryTimeout (s : State) (f : Feed) : State :=
  let m := feedM s f
  match m.queue with
  | e :: rest =>
    let tmo := feedTmo s f
    if tmo != 0 && decide (e.edge + tmo * 1000 ≤ s.tim.total) then missed (setFeedM s f { m with queue := rest }) f else s
  | [] => s

/-- TRIGGER_ENTRY_TIMEOUT (R155, R178): of a network stream, or of a parallel port. -/
def execTriggerEntryTimeout (port : Bool) (n : Fin 64) (s : State) : Host.Outcome State Fault Refusal :=
  if s.up then done (entryTimeout s (if port then .par (n.val % 4) else .net n)) else done s

/-- Sample the axis into every entry of a queue whose edge time the clock has reached (R155). -/
def sampleQueue (s : State) (n : Nat) : State :=
  let x := s.strm n
  let q := x.m.queue.map (fun e =>
    if e.pos.isNone && decide (e.edge ≤ s.tim.total) then { e with pos := some (axisPos s e.axis) } else e)
  s.setStrm n { x with m := { x.m with queue := q } }

/-- ACTION_TIME_REACHED (R155). -/
def execActionTimeReached (s : State) : Host.Outcome State Fault Refusal :=
  if s.up then done ((s.streams.map (·.1)).foldl sampleQueue s) else done s

/-- FLUSH_TRIGQ (R167, R179): the queue is emptied without reporting MISSED. -/
def flushTrigq (s : State) (f : Feed) : State := setFeedM s f { feedM s f with queue := [] }

/-- FLUSH_TRIGQ (R167, R179): of a network stream, or of a parallel port. -/
def execFlushTrigq (port : Bool) (n : Fin 64) (s : State) : Host.Outcome State Fault Refusal :=
  if s.up then done (flushTrigq s (if port then .par (n.val % 4) else .net n)) else done s

/-! ### Trigger outputs -/

/-- The level of an output with no pulse on it (R181): driven inactive while enabled or while DRIVE is set, else high-impedance. -/
def trigIdle (s : State) (n : Nat) : Option Bool :=
  if s.lon (F.TRG_CFG_ENABLE n) || s.lon (F.TRG_CFG_DRIVE n) then some (s.lon (F.TRG_CFG_POL n)) else none

/-- The level an output drives (R181): its active level while TRG_STAT.ACTIVE stands. -/
def trigLevel (s : State) (n : Nat) : Option Bool :=
  if s.on (F.TRG_STAT_ACTIVE n) then some (!s.lon (F.TRG_CFG_POL n)) else trigIdle s n

/-- Drive a pin at a level, or let it go. -/
def driveOrRelease (s : State) (p : Pin) : Option Bool → State
  | some b => s.emit (.pin p b)
  | none => s.emit (.release p)

/-- Drive an output at its active level, or at what it shows with no pulse on it (R181). -/
def driveTrig (s : State) (n : Nat) (active : Bool) : State :=
  let t := s.put (F.TRG_STAT_ACTIVE n) active
  driveOrRelease t (.trig n) (trigLevel t n)

/-- A pin stops driving its active level. -/
def isFall (p : Pin) : Out → Bool
  | .pin q _ => q == p
  | .release q => q == p
  | _ => false

/-- Take back the last fall of an output that a pulse bridges (R121, R182). -/
def dropFall (p : Pin) : List Out → List Out
  | [] => []
  | o :: r => if isFall p o then r else o :: dropFall p r

/-- Strobes follow a pulse on every pin in STROBE mode whose source is the output (R187): `edge` is the pulse's rising edge and `stop`
its end, when it is fixed. -/
def startStrobes (s : State) (n edge : Nat) (stop : Option Nat) : State :=
  (List.range 16).foldl (fun t g =>
    if t.f (F.TRG_GPIO_CFG_MODE g) == 2 && t.f (F.TRG_GPIO_CFG_SRC g) == n then
      let w := t.f (F.TRG_GPIO_WID_WIDTH g)
      let st := edge + t.f (F.TRG_GPIO_DLY_DELAY g)
      let x := t.gpio g
      t.setGpio g { x with due := x.due ++ [⟨st, if w = 0 then stop.map (fun e => st + (e - edge)) else some (st + w), edge⟩] }
    else t) s

/-- A trigger pulse has ended: a strobe of it without a width of its own ends as long after its start (R187). -/
def Strobe.close (x : Strobe) (edge stop : Nat) : Strobe :=
  if x.stop.isNone && x.edge == edge then { x with stop := some (x.start + (stop - edge)) } else x

/-- The strobes of a pulse that has ended on output `n`. -/
def closeStrobes (s : State) (n edge stop : Nat) : State :=
  (List.range 16).foldl (fun t g =>
    if t.f (F.TRG_GPIO_CFG_SRC g) == n then
      let x := t.gpio g
      t.setGpio g { due := x.due.map (·.close edge stop), running := x.running.map (·.close edge stop) }
    else t) s

/-! ### Pulses -/

/-- The end of a pulse, when it is fixed (R120, R181): not before its minimum width. -/
def Pulse.end_ (p : Pulse) : Option Nat := p.stop.map (fun e => max e (p.start + p.least))

/-- The limit of a pulse that ends at a position (R120): 16,777,216 ns after its rising edge. -/
def Pulse.cap (p : Pulse) : Nat := p.start + 2 * 16777216

/-- A pulse has reached its end by a time (R120). -/
def Pulse.over (p : Pulse) (t : Nat) : Bool :=
  match p.end_ with
  | some e => decide (e ≤ t) && (p.at_.isNone || decide (e ≤ p.cap))
  | none => false

/-- A pulse has reached the limit of R120 by a time, and its end position not before it. -/
def Pulse.capped (p : Pulse) (t : Nat) : Bool :=
  p.at_.isSome && decide (p.cap ≤ t) && (match p.end_ with | some e => decide (p.cap < e) | none => true)

/-- When a pulse that is over ended. -/
def Pulse.endedAt (p : Pulse) : Nat := if p.at_.isSome then min p.cap (p.end_.getD p.cap) else p.end_.getD p.start

/-- A pulse at a rising edge merges with one that ended at `stop` (R121, R182): it ends in the same 0.5 ns step or later, or MIN_GAP
holds the output over the gap. -/
def bridges (s : State) (n stop edge : Nat) : Bool := decide (edge ≤ stop) || decide (edge < stop + s.lf (F.TRG_MIN_MIN_GAP n))

/-- A pulse is already known that holds the output active after `stop` (R182): one due on it, or one of a slot whose target has been
seen. -/
def heldOver (s : State) (n stop : Nat) : Bool :=
  s.lon (F.TRG_CFG_ENABLE n) &&
    ((s.trig n).due.any (fun r => bridges s n stop r.edge) ||
      s.slots.any (fun e => e.2.armed && e.2.action == 1 && e.2.param == n &&
        (match e.2.due with | some d => bridges s n stop d | none => false)))

/-- The output falls when no pulse is left and none that is known holds it (R121, R182). -/
def fallIfDone (s : State) (n : Nat) : State :=
  let x := s.trig n
  if x.pulses.isEmpty && s.on (F.TRG_STAT_ACTIVE n) && !heldOver s n (x.lastStop.getD 0) then driveTrig s n false else s

/-- Remove the pulses of an output that a test names: their ends are kept, and a pulse whose end position came before MIN_WIDTH sets
STRETCHED (R181). -/
def removePulses (s : State) (n : Nat) (isOver : Pulse → Bool) : State :=
  let x := s.trig n
  let ended := x.pulses.filter isOver
  if ended.isEmpty then s
  else
    let stop := (ended.map Pulse.endedAt).foldl max (x.lastStop.getD 0)
    let s := s.setTrig n { x with pulses := x.pulses.filter (fun p => !isOver p), lastStop := some stop }
    let s := ended.foldl (fun t p => closeStrobes t n p.start p.endedAt) s
    if ended.any (fun p => match p.stop with | some e => decide (e < p.start + p.least) | none => false)
    then s.set1 (F.TRG_STAT_STRETCHED n) else s

/-- End the pulses that a test names; the output falls when none is left (R121). -/
def endPulses (s : State) (n : Nat) (isOver : Pulse → Bool) : State := fallIfDone (removePulses s n isOver) n

/-- The pulse that a due one becomes at its rising edge (R120, R181): its width and its minimum are fixed there. -/
def Rise.pulse (r : Rise) (minW expo : Nat) : Pulse :=
  let slot := r.slot.map (·.1)
  match r.ends with
  | .width w => ⟨r.edge, some (r.edge + w), none, slot, minW⟩
  | .expo => ⟨r.edge, some (r.edge + expo), none, slot, minW⟩
  | .reach a t d seen => ⟨r.edge, seen, some (a, t, d), slot, minW⟩

/-- A pulse that takes a width, of width zero (R120, R180). -/
def Rise.none_ (r : Rise) (expo : Nat) : Bool :=
  match r.ends with
  | .width w => w == 0
  | .expo => expo == 0
  | .reach _ _ _ _ => false

/-- A pulse is driven (R121, R180 to R182, R184): it merges with a pulse still active, one that ended in the same step, or one that
MIN_GAP bridges; it is counted, its strobes are set, and its entry is handed to the streams. -/
def drivePulse (s : State) (n : Nat) (r : Rise) : State :=
  let p := r.pulse (s.lf (F.TRG_MIN_MIN_WIDTH n)) (s.lf (F.TRG_EXPO_WIDTH n))
  let s := removePulses s n (fun q => (q.over (r.edge - 1) || q.capped (r.edge - 1)) && decide (0 < r.edge))
  let x := s.trig n
  let alone := x.pulses.isEmpty
  let touch := alone && (match x.lastStop with | some l => decide (r.edge ≤ l) | none => false)
  let gap := alone && !touch && (match x.lastStop with | some l => bridges s n l r.edge | none => false)
  let merged := !alone || touch || gap
  let shown := s.on (F.TRG_STAT_ACTIVE n)
  let s :=
    if merged then
      (if shown then s else { s.set1 (F.TRG_STAT_ACTIVE n) with out := (dropFall (.trig n) s.out.reverse).reverse })
    else driveTrig (if shown then driveTrig s n false else s) n true
  let s := s.setTrig n { s.trig n with pulses := (s.trig n).pulses ++ [p] }
  let s := s.incrPair (R.TRG_PULSES_LO n) (R.TRG_PULSES_HI n) 1
  let s := s.wr (R.TRG_LAST_EDGE n) (BitVec.ofInt 32 (stampAt s r.edge))
  let short := match p.stop with | some e => decide (e < p.start + p.least) | none => false
  let s := if short then s.set1 (F.TRG_STAT_STRETCHED n) else s
  let s := if gap then s.set1 (F.TRG_STAT_GAP_MERGE n) else s
  let s := match r.slot with
    | some (k, _) => if merged then (s.set1 (F.SCH_REC_FLAGS_MERGED k)).set1 F.SCH_STAT_MERGED else s
    | none => s.incr (F.TRG_SEQ_SEQ n) 1
  let seq := match r.slot with | some (_, q) => q | none => s.rd (R.TRG_SEQ n)
  handEntry (startStrobes s n r.edge p.end_) n r.edge seq (s.lf (F.TRG_GEN_GEN n)) (r.slot.map (·.1))

/-- A rising edge is placed (R180, R183): a pulse of width zero is not driven and is counted nowhere; one on a disabled output is
suppressed. -/
def placeRise (s : State) (n : Nat) (r : Rise) : State :=
  if r.none_ (s.lf (F.TRG_EXPO_WIDTH n)) then fallIfDone s n
  else if !s.lon (F.TRG_CFG_ENABLE n) then fallIfDone ((s.bump (F.TRG_SUPPRESSED_COUNT n)).set1 (F.TRG_STAT_SUPPRESSED n)) n
  else drivePulse s n r

/-- The rising edges that lie in the TIME cycle, or before it, in their order: those of its first half, then those of its second. -/
def risesNow (s : State) (l : List Rise) : List Rise :=
  l.filter (fun r => decide (r.edge ≤ half s)) ++ l.filter (fun r => r.edge == half s + 1)

/-- The rising edges of the TIME cycle are placed on one output (R180), under the settings that any apply point of the cycle has brought
into force (R184). -/
def placeRises (s : State) (n : Nat) : State :=
  let x := s.trig n
  let now := risesNow s x.due
  if now.isEmpty then s
  else now.foldl (fun t r => placeRise t n r) (s.setTrig n { x with due := x.due.filter (fun r => decide (half s + 1 < r.edge)) })

/-- The end of a TIME cycle at the trigger outputs. -/
def placeEdges (s : State) : State := if s.up then (s.trigs.map (·.1)).foldl placeRises s else s

/-- A pulse is due on output `n` (R180): its rising edge is placed in its own TIME cycle. -/
def pulse (s : State) (n edge : Nat) (e : PulseEnd) (slot : Option (Nat × Word)) : State :=
  let x := s.trig n
  s.setTrig n { x with due := x.due ++ [⟨edge, e, slot⟩] }

/-- A write of TRG_CMD.FIRE (R180): the rising edge stands 24 ns after the start of the next TIME cycle. -/
def doFire (s : State) (n : Nat) : State := pulse s n (2 * (s.now + 1 + 24)) .expo none

/-- FIRE (R180). -/
def execFire (n : RegNo) (s : State) : Host.Outcome State Fault Refusal :=
  if s.up then done (doFire s n) else done s

/-- EVENT_PULSE (R126, R180): an event taken at input 0x140 + n; the rising edge stands 24 ns after it is taken. -/
def execEventPulse (n : RegNo) (s : State) : Host.Outcome State Fault Refusal :=
  if s.up && mayTake s (inPulse n) then
    match takeEvent s (inPulse n) with
    | (some _, t) => done (pulse t n (2 * (t.now + 24)) .expo none)
    | (none, t) => done t
  else done s

/-- PULSE_END (R120, R181): every pulse of the output that has reached its end ends. -/
def execPulseEnd (n : RegNo) (s : State) : Host.Outcome State Fault Refusal :=
  if s.held then done s else done (endPulses s n (fun p => p.over (half s + 1)))

/-- WIDTH_CAP (R120): a pulse ended by the limit sets WIDTH_CAP, in its slot's record too. -/
def execWidthCap (n : RegNo) (s : State) : Host.Outcome State Fault Refusal :=
  if s.held then done s else
  let capped := (s.trig n).pulses.filter (fun p => p.capped (half s + 1))
  if capped.isEmpty then done s
  else
    let t := (capped.filterMap (·.slot)).foldl (fun t k => t.set1 (F.SCH_REC_FLAGS_WIDTH_CAP k)) (s.set1 F.SCH_STAT_WIDTH_CAP)
    done (endPulses t n (fun p => p.capped (half s + 1)))

/-- The apply point of an output (R184): width and generation, with the output's other settings, take effect together; the output takes
the level its new settings give (R181). -/
def applyTrig (s : State) (n : Nat) : State :=
  let t := s.applyRange (R.TRG_CFG n) (R.TRG_MIN n + 4)
  if trigLevel t n = trigLevel s n then t else driveOrRelease t (.trig n) (trigLevel t n)

/-- TRIGGER_OUTPUT_APPLY (R184). -/
def execTriggerOutputApply (n : RegNo) (s : State) : Host.Outcome State Fault Refusal :=
  if s.up then done (applyTrig s n) else done s

/-! ### Strobes and GPIO -/

/-- The active or inactive level of a strobe (R187). -/
def driveStrobe (s : State) (g : Nat) (active : Bool) : State :=
  s.emit (.pin (.gpio g) (active != s.on (F.TRG_GPIO_CFG_POL g)))

/-- A strobe is due, or over, in this TIME cycle or before it. -/
def Strobe.starts (x : Strobe) (s : State) : Bool := decide (x.start ≤ half s + 1)
def Strobe.over (x : Strobe) (s : State) : Bool := match x.stop with | some e => decide (e ≤ half s + 1) | none => false

/-- STROBE (R187): every strobe of a pin in STROBE mode that is due starts. -/
def execStrobe (g : Fin 16) (s : State) : Host.Outcome State Fault Refusal :=
  if s.up && s.f (F.TRG_GPIO_CFG_MODE g) == 2 then
    let x := s.gpio g
    let start := x.due.filter (·.starts s)
    if start.isEmpty then done s
    else
      let t := s.setGpio g { due := x.due.filter (fun d => !d.starts s), running := x.running ++ start }
      done (if x.running.isEmpty then driveStrobe t g true else t)
  else done s

/-- STROBE_END (R187): a strobe ends when its width has elapsed, or, with WID zero, as long after its start as its own trigger pulse
lasted. -/
def execStrobeEnd (g : Fin 16) (s : State) : Host.Outcome State Fault Refusal :=
  if s.held then done s else
  let x := s.gpio g
  let left := x.running.filter (fun e => !e.over s)
  if left.length = x.running.length then done s
  else
    let t := s.setGpio g { x with running := left }
    done (if left.isEmpty then driveStrobe t g false else t)

/-- GPIO_INPUT (R186, R189): a level on a pin and how long it has lasted in ns; pulses shorter than FILT are discarded. MODE 3 acts
as INPUT. -/
def execGpioInput (g : Fin 16) (level : Bool) (width : Word) (s : State) : Host.Outcome State Fault Refusal :=
  let m := s.f (F.TRG_GPIO_CFG_MODE g)
  if s.up && (m == 0 || m == 3) && decide (s.f (F.TRG_GPIO_CFG_FILT g) ≤ width.toNat) then
    done (s.put ⟨R.TRG_GPIO_IN, g, g⟩ level)
  else done s

/-- The level a GPIO pin drives (R186, R187): LEVEL in OUTPUT, that of the strobe in STROBE, none as an INPUT. -/
def gpioLevel (s : State) (g : Nat) : Option Bool :=
  match s.f (F.TRG_GPIO_CFG_MODE g) with
  | 1 => some (s.on (F.TRG_GPIO_CFG_LEVEL g))
  | 2 => some ((!(s.gpio g).running.isEmpty) != s.on (F.TRG_GPIO_CFG_POL g))
  | _ => none

/-- A pin takes its level under settings that have changed from those of `before` (R186): strobes stay only in STROBE. -/
def gpioWritten (before s : State) (g : Nat) : State :=
  let s := if s.f (F.TRG_GPIO_CFG_MODE g) = 2 then s else s.setGpio g {}
  if gpioLevel s g = gpioLevel before g then s else driveOrRelease s (.gpio g) (gpioLevel s g)

/-- Every trigger output and every GPIO pin becomes high-impedance (R188). -/
def releaseOutputs (s : State) : State :=
  let t := (List.range 32).foldl (fun t n => if (trigLevel s n).isSome then t.emit (.release (.trig n)) else t) s
  (List.range 16).foldl (fun t g => if (gpioLevel s g).isSome then t.emit (.release (.gpio g)) else t) t

/-- Pins in OUTPUT drive LEVEL again as the part wakes (R188). -/
def resumeOutputs (s : State) : State :=
  (List.range 16).foldl (fun t g => if t.f (F.TRG_GPIO_CFG_MODE g) = 1 then driveOrRelease t (.gpio g) (gpioLevel t g) else t) s

end Sys2Proof.Machine
end

