-- ==== Sys2Proof/Machine/Stage.lean ====
section
/-! DEFINITION. Machine/Stage.lean: outputs of the heads and the staging of their stream units (R248 to R250). -/

namespace Sys2Proof.Machine
open Sys2Proof

def State.hout (s : State) (o : Nat) : OutSt := mget (fun _ => {}) s.outs o
def State.setHout (s : State) (o : Nat) (a : OutSt) : State := { s with outs := mset (fun _ => {}) s.outs o a }

/-- The head an output belongs to (R248): 0 VISION, 1 DISPLAY, 2 CODING. -/
def headOf (o : Nat) : Nat := if o < 16 then 0 else if o < 24 then 1 else 2

/-- The HED settings in force of an output, palette included (R262). -/
def hedCfg (s : State) (o : Nat) : List (Nat × Word) :=
  regsIn s.live (R.HED_PAL 0) (R.HED_PAL 0 + 0x40) ++ regsIn s.live (R.HED_O_CFG o) (R.HED_O_CFG o + 0x80)

/-! ### Flags and drops -/

def hedRange (s : State) (o : Nat) : State := (s.set1 (F.HED_O_FLAGS_RANGE o)).set1 F.HED_STAT_RANGE
/-- A unit dropped before franking (R249, R251). -/
def hedDrop (s : State) (o : Nat) : State :=
  ((s.bump (F.HED_O_DROP_DROPPED o)).set1 (F.HED_O_FLAGS_DROPPED o)).set1 F.HED_STAT_DROPPED
def hedDenied (s : State) (o : Nat) : State := (s.set1 (F.HED_O_FLAGS_DENIED o)).set1 F.HED_STAT_DENIED

/-! ### Staging (R249, R250) -/

/-- First column and columns of the window over so many columns (R250); none when it lies wholly outside. -/
def windowOf (cfg : List (Nat × Word)) (o cols : Nat) : Option (Nat × Nat) :=
  let a := cfgF cfg (F.HED_O_WIN_COL_FIRST o)
  let n := cfgF cfg (F.HED_O_WIN_COL_COUNT o)
  if cols ≤ a then none else some (a, if n = 0 then cols - a else min n (cols - a))

/-- Two areas of device memory, by base and length, share a byte. -/
def areasMeet (a la b lb : Nat) : Bool := decide (a < b + lb) && decide (b < a + la)

/-- What the envelope of a stream unit says (R298, R299): `f` and `z` are its first and its latest line, `n` its lines. -/
def streamUnit (o idx : Nat) (ends whole : Bool) (per cols stream n : Nat) (f z : LineMeta) : UnitIn :=
  let p := f.pm
  let lines := if whole then z.actual else if ends then min n (z.actual - idx * per) else n
  { kind := 1, head := headOf o + 1, stream := stream, stamp := wrapN 32 p.time, pos := wrapN 32 (if whole then p.pos else f.pos)
    axis := p.axis, epoch := p.epoch, gen := p.gen, trig := p.seq.toNat
    flags := if ends || whole then z.flags % 512 else z.flags % 512 / 16 * 16, width := cols, lines := lines, aux := idx }

/-- The 32-bit pixel word. -/
def Px.word (p : Px) : Word := BitVec.ofNat 32 (p.f * 2 ^ 24 + p.v)

/-- Half of an output's staging area, which holds one unit. -/
def stageHalf (s : State) (o : Nat) : Nat := s.lf (F.HED_O_STAGE_SIZE_SIZE o) * 32
def stageAddr (s : State) (o k : Nat) : Nat := s.lf (F.HED_O_STAGE_BASE o) * 64 + k * stageHalf s o

/-- The stream units of an output that have not been delivered or dropped. -/
def stagedUnits (s : State) (o : Nat) : List HUnit :=
  (s.hedQ.filterMap (fun a => match a with | .lines h => some h | .sheaf _ _ _ _ _ => none) ++ s.hunits).filter (fun h =>
    h.out == o && h.stage.isSome)

/-- A half of the staging area that no unit holds. -/
def freeHalf (s : State) (o : Nat) : Option Nat :=
  [0, 1].find? (fun k => !(stagedUnits s o).any (fun h => areasMeet h.addr (h.step * h.rows) (stageAddr s o k) (stageHalf s o)))

/-- A stream unit begins with its first line (R249, R250): it takes a free half of the staging area. A unit that no longer fits, or comes
while both halves are held, is dropped whole; a window outside the stream has no column. -/
def beginGather (s : State) (o : Nat) (l : OutLine) : Gather × State :=
  let cfg := hedCfg s o
  let per := cfgF cfg (F.HED_O_LINES_LINES o)
  let g : Gather := { unit := none, total := if per = 0 then l.md.rows else per, count := 0, first := l.md }
  match windowOf cfg o (l.px.length / max 1 l.chans) with
  | none => (g, hedRange s o)
  | some (a, n) =>
    let step := 4 * l.chans * n
    if s.lf (F.HED_O_STAGE_BASE o) = 0 || stageHalf s o < step * g.total then (g, (hedDrop s o).set1 (F.HED_O_FLAGS_STAGE_SMALL o))
    else
      match freeHalf s o with
      | none => (g, hedDrop s o)
      | some k =>
        ({ g with unit := some { id := 0, out := o, stage := some k, cfg := cfg, u := { kind := 1 }, addr := stageAddr s o k, cols := n
                                 chans := l.chans, step := step, rows := 0, u0 := a, from_ := s.now } }, s)

/-- An output shows its source as a scrolling image (R256). -/
def scrolls (cfg : List (Nat × Word)) (o : Nat) : Bool := decide (16 ≤ o) && decide (o < 24) && cfgF cfg (F.HED_O_MODE_DMODE o) == 1

/-- A line that leaves stage 9 reaches an output (R249): it is staged, and a unit that it completes has arrived at the head. On a SCROLL
output each line arrives at once (R256). -/
def headLine (s : State) (l : OutLine) (o : Nat) : State :=
  let (g, s) := match (s.hout o).gather with
    | some g => (g, s)
    | none => beginGather s o l
  let x := s.hout o
  let n := g.count + 1
  let ends := l.md.last || decide (g.total ≤ n)
  let s := s.setHout o { x with gather := if ends then none else some { g with count := n }, idx := if l.md.last then 0 else if ends then x.idx + 1 else x.idx }
  match g.unit with
  | none => s
  | some h =>
    let at_ := h.addr + h.step * g.count
    let s := s.dwrite at_ (((l.px.drop (h.u0.toNat * h.chans)).take (h.cols * h.chans)).flatMap (fun p => bytesLE 4 p.word.toNat))
    let per := cfgF h.cfg (F.HED_O_LINES_LINES o)
    let h := { h with u := streamUnit o x.idx l.md.last (per == 0) per h.cols l.stream n g.first l.md, u0 := 0, from_ := s.now }
    if scrolls h.cfg o then { s with hedQ := s.hedQ ++ [.lines { h with addr := at_, rows := 1 }] }
    else if ends then { s with hedQ := s.hedQ ++ [.lines { h with rows := n }] }
    else s

end Sys2Proof.Machine
end

