-- ==== Sys2Proof/Machine/Net.lean ====
section
/-! DEFINITION. Machine/Net.lean: the Ethernet ports (R136 to R143): placement, budget, link state, acceptance of frames, ARP,
ICMP, and sending IP packets; the management queues (R161, R162). -/

namespace Sys2Proof.Machine
open Sys2Proof

def prodEthLink (m : Nat) : Nat := 0x210 + m

/-! ### Lanes and ports -/

/-- Lanes of a port type (R136); none for an invalid type. -/
def ethLanes : Nat → Nat
  | 0 => 1 | 1 => 1 | 2 => 2 | 3 => 4 | _ => 0
/-- Nominal rate of a port type in Gb/s (R136). -/
def ethRate : Nat → Nat
  | 0 => 10 | 1 => 25 | 2 => 50 | 3 => 100 | _ => 0

/-- The lanes an enabled port's settings name. -/
def portLanes (s : State) (m : Nat) : List Nat :=
  (List.range (ethLanes (s.f (F.ETH_CFG_TYPE m)))).map (fun k => s.f (F.ETH_CFG_FIRST_LANE m) + k)

/-- A lane in ETH mode at the rate of a port type (R136, R137). -/
def laneFits (s : State) (type l : Nat) : Bool :=
  let rate := let r := s.f (F.LNK_LANE_CFG_RATE l); if r = 3 then 0 else r
  s.f (F.LNK_LANE_CFG_MODE l) == 1 && rate == (if type = 0 then 0 else 1)

/-- The placement conditions of R137. -/
def placementOk (s : State) (m : Nat) : Bool :=
  let ty := s.f (F.ETH_CFG_TYPE m)
  let n := ethLanes ty
  let a := s.f (F.ETH_CFG_FIRST_LANE m)
  let ls := portLanes s m
  n != 0 && decide (a + n ≤ 24) && a / 4 == (a + n - 1) / 4 && a % n == 0 && ls.all (laneFits s ty) &&
    (List.range 16).all (fun k => k == m || !s.on (F.ETH_CFG_ENABLE k) || (portLanes s k).all (fun l => !ls.contains l))

def State.lane (s : State) (n : Nat) : LaneSt := mget (fun _ => {}) s.ebk.lanes n
def State.setLane (s : State) (n : Nat) (a : LaneSt) : State := { s with ebk := { s.ebk with lanes := mset (fun _ => {}) s.ebk.lanes n a } }

/-- The link or port of a lane reaches RUN or comes up (R394): the eye height then is a free value; the coefficients in force are kept
beside it. -/
def laneRun (s : State) (n : Nat) : State :=
  let (eye, s) := s.free
  (s.sf (F.LNK_MARGIN_SNAPSHOT n) eye).setLane n { snap := s.rd (R.LNK_RXEQ n), stepAt := s.now, marginAt := s.now }

/-- The lane leaves RUN (R394): held coefficients are released. -/
def laneLeft (s : State) (n : Nat) : State := s.clr (F.LNK_L_FLAGS_FROZEN n)

/-- Take a port down (R139). -/
def portDown (s : State) (m : Nat) : State :=
  if s.on (F.ETH_STAT_LINK_UP m) then
    let s := (((s.clr (F.ETH_STAT_LINK_UP m)).clr (F.ETH_STAT_BLOCK_LOCK m)).clr (F.ETH_STAT_ALIGNED m)).clr (F.ETH_STAT_FEC_LOCK m)
    let s := (portLanes s m).foldl laneLeft s
    (s.set1 (F.ETH_STAT_LINK_CHG m)).raise (prodEthLink m)
  else s

/-- An enabled port whose placement breaks R137 stays down, with CONFLICT and RANGE. -/
def checkPlacement (s : State) (m : Nat) : State :=
  if s.on (F.ETH_CFG_ENABLE m) && !placementOk s m then
    ((portDown s m).set1 F.LNK_STAT_CONFLICT).set1 (F.ETH_STAT_RANGE m)
  else s

/-- A write of ETH_CFG (R136 to R139, R12): a change of lanes, type, rate or FEC takes the port down; FEC counts only on
25GBASE-R. -/
def doEthCfg (s : State) (m : Nat) (v : Word) : State :=
  let old := s.rd (R.ETH_CFG m)
  let mf := fieldOf v 13 0
  let mf' := max 64 (min 9216 mf)
  let lane := fieldOf v 27 23
  let v := setField (setField (v &&& 0xFFC03FFF) 13 0 mf') 27 23 (min 23 lane)
  let ty := fieldOf v 30 28
  let others := ((List.range 16).filter (fun k => k != m && s.on (F.ETH_CFG_ENABLE k))).map (fun k => ethRate (s.f (F.ETH_CFG_TYPE k)))
  let tooMuch := v.getLsbD 31 && decide (400 < others.sum + ethRate ty)
  let v := if tooMuch then setField v 31 31 0 else v
  let kept : Word := if ty = 1 then 0xFFC00000 else 0xFF800000
  let s := if old &&& kept != v &&& kept then portDown s m else s
  let s := s.wr (R.ETH_CFG m) v
  let s := if tooMuch then s.set1 F.LNK_STAT_OVERBUDGET else s
  let s := if mf' != mf || decide (23 < lane) || (v.getLsbD 31 && decide (ty ≥ 4)) then s.set1 (F.ETH_STAT_RANGE m) else s
  (List.range 16).foldl checkPlacement s

/-- ETH_CFG_WRITE (R138). -/
def execEthCfgWrite (m : Fin 16) (v : Word) (s : State) : Host.Outcome State Fault Refusal :=
  if s.up then done (doEthCfg s m v) else done s

/-! ### Frames and packets sent -/

/-- A port's MAC address, byte 0 highest. -/
def portMac (s : State) (m : Nat) : Nat := s.f (F.ETH_MAC_HI_MAC m) * 2 ^ 32 + (s.rd (R.ETH_MAC_LO m)).toNat

/-- Pad to the least length without FCS. -/
def padFrame (l : List (BitVec 8)) : List (BitVec 8) := l ++ List.replicate (60 - l.length) 0

/-- Send an Ethernet frame; a down port sends nothing (R139, R140). -/
def sendFrame (s : State) (m dst ethertype : Nat) (body : List (BitVec 8)) : State :=
  if s.on (F.ETH_STAT_LINK_UP m) then
    let tag := if s.on (F.ETH_VLAN_TAGGED m) then
        bytesBE 2 0x8100 ++ bytesBE 2 (s.f (F.ETH_VLAN_PCP m) * 8192 + s.f (F.ETH_VLAN_VID m))
      else []
    s.emit (.frame m (padFrame (bytesBE 6 dst ++ bytesBE 6 (portMac s m) ++ tag ++ bytesBE 2 ethertype ++ body)))
  else s

/-- Sum of 16-bit big-endian words, folded (the checksum of IPv4 and UDP). -/
def sum16 : List (BitVec 8) → Nat
  | a :: b :: r => (a.toNat * 256 + b.toNat) + sum16 r
  | [a] => a.toNat * 256
  | [] => 0
def fold16 (n : Nat) : Nat :=
  let n := n % 65536 + n / 65536
  n % 65536 + n / 65536
/-- The checksum field tooMuch bytes in which it stands as zero. -/
def cksum (l : List (BitVec 8)) : Nat := 0xFFFF - fold16 (sum16 l)

/-- An IPv4 packet of the part. Identification and time to live are not given by the spec: free. -/
def ipPacket (s : State) (src dst proto : Nat) (body : List (BitVec 8)) : List (BitVec 8) × State :=
  let (x, s) := s.free
  let h (c : Nat) := [0x45, 0] ++ bytesBE 2 (20 + body.length) ++ bytesBE 2 (x % 65536) ++ [0, 0] ++
    bytesBE 1 (x / 65536 % 256) ++ bytesBE 1 proto ++ bytesBE 2 c ++ bytesBE 4 src ++ bytesBE 4 dst
  (h (cksum (h 0)) ++ body, s)

/-- A UDP datagram with its checksum. -/
def udpDatagram (src dst sport dport : Nat) (body : List (BitVec 8)) : List (BitVec 8) :=
  let h (c : Nat) := bytesBE 2 sport ++ bytesBE 2 dport ++ bytesBE 2 (8 + body.length) ++ bytesBE 2 c
  let pseudo := bytesBE 4 src ++ bytesBE 4 dst ++ bytesBE 2 17 ++ bytesBE 2 (8 + body.length)
  let c := cksum (pseudo ++ h 0 ++ body)
  h (if c = 0 then 0xFFFF else c) ++ body

/-- On-link (R141). -/
def onLink (s : State) (m ip : Nat) : Bool :=
  let p := s.f (F.ETH_MASK_PREFIX m)
  p == 0 || ip / 2 ^ (32 - min 32 p) == (s.rd (R.ETH_IP m)).toNat / 2 ^ (32 - min 32 p)

/-- Limited or subnet broadcast. -/
def isBroadcast (s : State) (m ip : Nat) : Bool :=
  let p := s.f (F.ETH_MASK_PREFIX m)
  ip == 0xFFFFFFFF || (p != 0 && decide (p < 31) && onLink s m ip && ip % 2 ^ (32 - min 32 p) == 2 ^ (32 - min 32 p) - 1)

/-- The MAC of an IPv4 multicast group. -/
def groupMac (ip : Nat) : Nat := 0x01005E000000 + ip % 2 ^ 23

/-- An ARP request (R142). -/
def sendArp (s : State) (m ip : Nat) : State :=
  sendFrame s m 0xFFFFFFFFFFFF 0x0806
    ([0, 1, 8, 0, 6, 4, 0, 1] ++ bytesBE 6 (portMac s m) ++ bytesBE 4 (s.rd (R.ETH_IP m)).toNat ++ bytesBE 6 0 ++ bytesBE 4 ip)

/-- How the sending of an IP packet went (R139, R142). -/
inductive Sent where
  | sent | waits | refused
deriving DecidableEq, Repr

/-- Send an IP packet (R139, R141, R142): refused while the port is down, has no address, or the destination is off-link (ARP_FAIL);
a unicast packet whose address is not in the cache waits behind an ARP request. -/
def sendIp (s : State) (m dst proto : Nat) (body : List (BitVec 8)) (why : TxFor) : Sent × State :=
  let me := (s.rd (R.ETH_IP m)).toNat
  if !s.on (F.ETH_STAT_LINK_UP m) || me == 0 then (.refused, s)
  else if !isBroadcast s m dst && !onLink s m dst then (.refused, s.set1 (F.ETH_STAT_ARP_FAIL m))
  else
    let (p, s) := ipPacket s me dst proto body
    if isBroadcast s m dst then (.sent, sendFrame s m 0xFFFFFFFFFFFF 0x0800 p)
    else if 0xE0000000 ≤ dst && dst < 0xF0000000 then (.sent, sendFrame s m (groupMac dst) 0x0800 p)
    else
      let ip := BitVec.ofNat 32 dst
      match s.eth.arp.find? (fun e => e.1 == m && e.2.1 == ip) with
      | some e => (.sent, sendFrame s m e.2.2.1 0x0800 p)
      | none =>
        if s.eth.waits.any (fun w => w.port == m && w.ip == ip) then
          (.waits, { s with eth := { s.eth with waits := s.eth.waits.map (fun w =>
            if w.port == m && w.ip == ip then { w with packets := w.packets ++ [(why, p)] } else w) } })
        else
          let s := sendArp s m dst
          (.waits, { s with eth := { s.eth with waits := s.eth.waits ++ [⟨m, ip, 1, s.now, [(why, p)]⟩] } })

/-- Send a UDP datagram. -/
def sendUdp (s : State) (m dst sport dport : Nat) (body : List (BitVec 8)) (why : TxFor) : Sent × State :=
  sendIp s m dst 17 (udpDatagram (s.rd (R.ETH_IP m)).toNat dst sport dport body) why

/-! ### Link state -/

/-- ETH_PORT_UP (R139, R142): lanes, PCS and FEC have locked; one gratuitous ARP when the port has an address. -/
def execEthPortUp (m : Fin 16) (s : State) : Host.Outcome State Fault Refusal :=
  if s.up && s.on (F.ETH_CFG_ENABLE m) && !s.on (F.ETH_STAT_LINK_UP m) && placementOk s m then
    let ty := s.f (F.ETH_CFG_TYPE m)
    let fec := decide (ty ≥ 2) || (ty == 1 && s.on (F.ETH_CFG_FEC m))
    let s := ((s.set1 (F.ETH_STAT_LINK_UP m)).set1 (F.ETH_STAT_BLOCK_LOCK m)).put (F.ETH_STAT_ALIGNED m) (decide (ty ≥ 2))
    let s := (s.put (F.ETH_STAT_FEC_LOCK m) fec).set1 (F.ETH_STAT_LINK_CHG m)
    let s := (portLanes s m).foldl (fun t l =>
      let t := ((t.set1 (F.LNK_LANE_STAT_SIGNAL l)).set1 (F.LNK_LANE_STAT_CDR_LOCK l)).set1 (F.LNK_LANE_STAT_TX_READY l)
      let (eq, t) := t.free
      laneRun (t.wr (R.LNK_RXEQ l) (BitVec.ofNat 32 eq)) l) s
    let s := s.raise (prodEthLink m)
    let ip := (s.rd (R.ETH_IP m)).toNat
    done (if ip = 0 then s else sendArp s m ip)
  else done s

/-- ETH_PORT_DOWN (R139): the port loses lock. -/
def execEthPortDown (m : Fin 16) (s : State) : Host.Outcome State Fault Refusal :=
  if s.held then done s else done (portDown s m)

/-! ### Frames received (R140, R141) -/

/-- Drop a frame or datagram under FILTER. -/
def dropFilter (s : State) (m : Nat) : State := s.bump (F.ETH_DROP_FILTER m)

/-- Hand a datagram to its consumer. -/
def pushRx (s : State) (r : Rx) : State := { s with eth := { s.eth with rx := s.eth.rx ++ [r] } }

/-- The destination MAC of a frame is taken (R140). -/
def macTaken (s : State) (m dst : Nat) : Bool :=
  dst == portMac s m || dst == 0xFFFFFFFFFFFF ||
  (List.range 4).any (fun k => let g := (s.rd (R.ETH_MCAST m k)).toNat; g != 0 && dst == groupMac g)

/-- The destination address of a packet is taken (R141). -/
def ipTaken (s : State) (m dst : Nat) : Bool :=
  (dst == (s.rd (R.ETH_IP m)).toNat && dst != 0) || dst == 0xFFFFFFFF ||
  (List.range 4).any (fun k => let g := (s.rd (R.ETH_MCAST m k)).toNat; g != 0 && dst == g)

/-- PTP is taken on a port (R141, R161). -/
def ptpOn (s : State) (m : Nat) : Bool := s.f (F.ETH_PTP_CFG_ROLE m) == 1 || s.f (F.ETH_PTP_CFG_ROLE m) == 2

/-- Receive stamp of a frame, in 2^-32 ns (R162). -/
def rxStamp (s : State) (m : Nat) : Int := s.tim.clk - (s.f (F.ETH_PTP_RXLAT_RXLAT m) : Nat) * 2 ^ 28

/-- The header of a packet: extended, block ID, format code, packet ID, and the rest (R144). -/
def gvspHeader (l : List (BitVec 8)) : Bool × Nat × Nat × Nat × List (BitVec 8) :=
  let ext := decide (128 ≤ beAt l 4 1)
  let fmt := beAt l 4 1 % 16
  if ext then (true, beAt l 8 8, fmt, beAt l 16 4, l.drop 20) else (false, beAt l 2 2, fmt, beAt l 5 3, l.drop 8)

/-- A packet is of this block, which is open, in the form its settings give (R144, R167). -/
def ofBlock (n : Nat) (b : Block) (l : List (BitVec 8)) : Bool :=
  let (ext, id, _, _, _) := gvspHeader l
  b.closed.isNone && decide ((if ext then 20 else 8) ≤ l.length) && ext == cfgOn b.cfg (F.GVS_S_CFG_EXT_ID n) && id == b.id

/-- A datagram belongs to a block of stream `n` that is open under settings that name the port, the camera and the UDP port
(R167). -/
def forOpenBlock (s : State) (n m dport : Nat) (ip : Word) (l : List (BitVec 8)) : Bool :=
  (s.strm n).blocks.any (fun b => ofBlock n b l && cfgF b.cfg (F.GVS_S_CFG_PORT n) == m &&
    mget resetWord b.cfg (R.GVS_S_CAM_IP n) == ip && cfgF b.cfg (F.GVS_S_PORTS_DST_UDP n) == dport)

/-- Take a UDP datagram to its consumer (R141, R144, R167). `frame` is the whole frame. -/
def takeUdp (s : State) (m src dport : Nat) (body frame : List (BitVec 8)) : State :=
  let ip := BitVec.ofNat 32 src
  match (List.range 64).find? (fun n => forOpenBlock s n m dport ip body || (gvsActive s n && s.lf (F.GVS_S_CFG_PORT n) == m &&
      s.lrd (R.GVS_S_CAM_IP n) == ip && s.lf (F.GVS_S_PORTS_DST_UDP n) == dport)) with
  | some n => pushRx s (.gvsp n body)
  | none =>
    if dport == 49152 && (List.range 64).any (fun n => s.lf (F.GVS_S_CFG_PORT n) == m && s.lrd (R.GVS_S_CAM_IP n) == ip &&
        ip != 0) then
      pushRx s (.gvcp m ip body)
    else if (dport == 319 || dport == 320) && ptpOn s m && beAt body 4 1 == s.f (F.ETH_PTP_CFG_DOMAIN m) &&
        decide (frame.length ≤ 256) then
      pushRx s (.ptp m frame (rxStamp s m) s.epoch)
    else if dport == s.f F.EBK_AXS_UDP_PORT && dport != 0 && body.length == 40 then
      pushRx s (.axis m body)
    else dropFilter s m

/-- Take an accepted IPv4 packet further (R141). `mac` is the sender's. -/
def takeIp (s : State) (m mac : Nat) (p frame : List (BitVec 8)) : State :=
  let total := beAt p 2 2
  let src := beAt p 12 4
  let dst := beAt p 16 4
  let okLen := decide (20 ≤ total) && decide (total ≤ p.length) && (total == p.length || decide (frame.length ≤ 64))
  if beAt p 0 1 != 0x45 || decide (p.length < 20) || fold16 (sum16 (p.take 20)) != 0xFFFF || beAt p 6 2 % 0x4000 != 0 ||
      !okLen || !ipTaken s m dst then dropFilter s m
  else
    let body := (p.drop 20).take (total - 20)
    if beAt p 9 1 = 1 then
      if beAt body 0 1 = 8 && onLink s m src then pushRx s (.icmp m mac (BitVec.ofNat 32 src) body) else dropFilter s m
    else if beAt p 9 1 = 17 then
      let c := beAt body 6 2
      let pseudo := bytesBE 4 src ++ bytesBE 4 dst ++ bytesBE 2 17 ++ bytesBE 2 body.length
      if decide (body.length < 8) || beAt body 4 2 != body.length ||
          (c != 0 && fold16 (sum16 (pseudo ++ body)) != 0xFFFF) then dropFilter s m
      else takeUdp s m src (beAt body 2 2) (body.drop 8) frame
    else dropFilter s m

/-- Take an ARP frame (R142, R168): a request for ETH_IP or a reply to a request of the part, from an on-link sender; anything else is
ignored. -/
def takeArp (s : State) (m : Nat) (p : List (BitVec 8)) : State :=
  let me := (s.rd (R.ETH_IP m)).toNat
  let mac := beAt p 8 6
  let sip := beAt p 14 4
  if decide (p.length < 28) || me == 0 || !onLink s m sip then s
  else if beAt p 6 2 = 1 && beAt p 24 4 = me then pushRx s (.arpRequest m mac (BitVec.ofNat 32 sip))
  else if beAt p 6 2 = 2 && s.eth.waits.any (fun w => w.port == m && w.ip == BitVec.ofNat 32 sip) then
    pushRx s (.arpReply m mac (BitVec.ofNat 32 sip))
  else s

/-- ETH_FRAME (R140, R141): a frame from destination address to before its FCS, whether its FCS is correct, and whether the
receivers as a whole are past 40 million packets a second (R154). -/
def execEthFrame (m : Fin 16) (bytes : List Byte) (fcsOk overload : Bool) (s : State) : Host.Outcome State Fault Refusal :=
  if !s.up || !s.on (F.ETH_STAT_LINK_UP m) then done s
  else if !fcsOk then done (s.bump (F.ETH_DROP_FCS m))
  else if overload then done ((s.bump (F.ETH_DROP_OVERLOAD m)).set1 (F.ETH_STAT_OVERLOAD m))
  else
    let len := bytes.length + 4
    let dst := beAt bytes 0 6
    let et := beAt bytes 12 2
    let tagged := et == 0x8100
    let tagOk := if s.on (F.ETH_VLAN_TAGGED m) then
        tagged && beAt bytes 14 2 % 4096 == s.f (F.ETH_VLAN_VID m) && beAt bytes 16 2 != 0x8100
      else !tagged
    if decide (len < 64) || decide (s.f (F.ETH_CFG_MAX_FRAME m) < len) || !macTaken s m dst || !tagOk then done (dropFilter s m)
    else
      let s := s.incrPair (R.ETH_RX_FRAMES_LO m) (R.ETH_RX_FRAMES_HI m) 1
      let (ty, p) := if tagged then (beAt bytes 16 2, bytes.drop 18) else (et, bytes.drop 14)
      if ty = 0x0806 then done (takeArp s m p)
      else if ty = 0x0800 then done (takeIp s m (beAt bytes 6 6) p bytes)
      else done (dropFilter s m)

/-- The first datagram for which a test holds, and the queue without it. -/
def takeRx (s : State) (p : Rx → Bool) : Option (Rx × State) :=
  match s.eth.rx.find? p with
  | some r => some (r, { s with eth := { s.eth with rx := s.eth.rx.erase r } })
  | none => none

/-! ### ARP and ICMP (R142, R143) -/

/-- ARP_REQUEST (R142): answered. -/
def execArpRequest (s : State) : Host.Outcome State Fault Refusal :=
  match takeRx s (fun r => match r with | .arpRequest _ _ _ => true | _ => false) with
  | some (.arpRequest m mac ip, s) =>
    done (sendFrame s m mac 0x0806
      ([0, 1, 8, 0, 6, 4, 0, 2] ++ bytesBE 6 (portMac s m) ++ bytesBE 4 (s.rd (R.ETH_IP m)).toNat ++ bytesBE 6 mac ++
        bytesBE 4 ip.toNat))
  | _ => done s

/-- ICMP_ECHO_REQUEST (R143): answered, at most 1,000 a second per port, up to MAX_FRAME. -/
def execIcmpEchoRequest (s : State) : Host.Outcome State Fault Refusal :=
  match takeRx s (fun r => match r with | .icmp _ _ _ _ => true | _ => false) with
  | some (.icmp m _ ip body, s) =>
    let rec' := (s.eth.icmp.find? (fun e => e.1 == m)).getD (m, 0, s.now)
    let (n, t0) := if decide (rec'.2.2 + 1000000000 ≤ s.now) then (0, s.now) else rec'.2
    if n ≥ 1000 then done (dropFilter s m)
    else
      let s := { s with eth := { s.eth with icmp := (m, n + 1, t0) :: s.eth.icmp.filter (fun e => e.1 != m) } }
      let b := [0] ++ (body.drop 1).take 1 ++ [0, 0] ++ body.drop 4
      let b' := b.take 2 ++ bytesBE 2 (cksum b) ++ b.drop 4
      done (sendIp s m ip.toNat 1 b' .none).2
  | _ => done s

/-- ARP_ENTRY_EXPIRY (R142): entries whose last answer lies 60 s back leave the cache. -/
def execArpEntryExpiry (s : State) : Host.Outcome State Fault Refusal :=
  done { s with eth := { s.eth with arp := s.eth.arp.filter (fun e => decide (s.now < e.2.2.2 + 60000000000)) } }

/-! ### Management queues (R161, R162) -/

/-- Frames in a port's management receive queue. -/
def mrqOf (s : State) (m : Nat) : List (List (BitVec 8) × Int × Nat) :=
  (s.eth.mrq.filter (fun e => e.1 == m)).map (·.2)

/-- PTP_MESSAGE (R162): the stamped message enters the port's queue of 16, or is dropped and counted in MRQ. -/
def execPtpMessage (s : State) : Host.Outcome State Fault Refusal :=
  match takeRx s (fun r => match r with | .ptp _ _ _ _ => true | _ => false) with
  | some (.ptp m fr st ep, s) =>
    if (mrqOf s m).length ≥ 16 then done (s.bump (F.ETH_DROP_MRQ m))
    else done { s with eth := { s.eth with mrq := s.eth.mrq ++ [(m, fr, st, ep)] } }
  | _ => done s

/-- Remove the head frame of a management receive queue (R162). -/
def doMrqPop (s : State) (m : Nat) : State :=
  match s.eth.mrq.find? (fun e => e.1 == m) with
  | some e => { s with eth := { s.eth with mrq := s.eth.mrq.erase e } }
  | none => s

/-- ETH_MRQ_POP (R162). -/
def execEthMrqPop (m : Fin 16) (s : State) : Host.Outcome State Fault Refusal :=
  if s.up then done (doMrqPop s m) else done s

/-- Seconds, nanoseconds and 16-bit fraction of a clock value in 2^-32 ns. -/
def stampParts (c : Int) : Nat × Nat × Nat :=
  let t : TimSt := { clk := c }
  (t.sec, t.nsec, t.sub)

/-- Where the PTP message stands in a frame: after the tag, IPv4 and UDP headers. -/
def ptpAt (fr : List (BitVec 8)) : Nat := if beAt fr 12 2 = 0x8100 then 46 else 42

/-- Write the egress stamp into originTimestamp and correct the UDP checksum (R162). -/
def oneStep (fr : List (BitVec 8)) (sec ns : Nat) : List (BitVec 8) :=
  let o := ptpAt fr
  let fr := fr.take (o + 34) ++ bytesBE 6 sec ++ bytesBE 4 ns ++ fr.drop (o + 44)
  let u := o - 8
  let n := beAt fr (u + 4) 2
  if beAt fr (u + 6) 2 = 0 then fr
  else
    let dg := (sliceB fr u n).take 6 ++ [0, 0] ++ (sliceB fr u n).drop 8
    let pseudo := sliceB fr (u - 8) 8 ++ bytesBE 2 17 ++ bytesBE 2 n
    let c := cksum (pseudo ++ dg)
    fr.take (u + 6) ++ bytesBE 2 (if c = 0 then 0xFFFF else c) ++ fr.drop (u + 8)

/-- Where the transmit window of a port stands in the byte buffers. -/
def mtxData (m : Nat) : Nat := 0x20210300 + 0x400 * m

/-- A write of ETH_MTX_CMD (R162): SEND transmits LENGTH bytes of the window; lengths outside 60 to 256 are clamped with RANGE. -/
def doMtx (s : State) (m : Nat) (v : Word) : State :=
  let n := fieldOf v 8 0
  if !v.getLsbD 31 || n == 0 then s
  else
    let k := max 60 (min 256 n)
    let s := if k = n then s else s.set1 (F.ETH_STAT_RANGE m)
    if !s.on (F.ETH_STAT_LINK_UP m) then s
    else
      let (sec, ns, sub) := stampParts (s.tim.clk + (s.f (F.ETH_PTP_TXLAT_TXLAT m) : Nat) * 2 ^ 28)
      let fr := s.bread (mtxData m) k
      let fr := if v.getLsbD 29 then oneStep fr sec ns else fr
      let s := s.emit (.frame m fr)
      if v.getLsbD 30 then
        let s := (s.wr (R.ETH_TXTS_NS m) (BitVec.ofNat 32 ns)).wr (R.ETH_TXTS_SEC m) (BitVec.ofNat 32 sec)
        (s.sf (F.ETH_TXTS_SUB_EPOCH m) s.epoch).sf (F.ETH_TXTS_SUB_SUB m) sub
      else s

/-- ETH_MTX_SEND (R162). -/
def execEthMtxSend (m : Fin 16) (v : Word) (s : State) : Host.Outcome State Fault Refusal :=
  if s.up then done (doMtx s m v) else done s

/-- A write of ETH_PTP_CFG (R161): a second SLAVE is stored as DISABLED with RANGE; 3 is treated as 0 with RANGE. -/
def doPtpCfg (s : State) (m : Nat) (v : Word) : State :=
  let role := fieldOf v 31 30
  let second := role == 1 && (List.range 16).any (fun k => k != m && s.f (F.ETH_PTP_CFG_ROLE k) == 1)
  let v := (if second then setField v 31 30 0 else v) &&& 0xC00000FF
  let s := s.wr (R.ETH_PTP_CFG m) v
  if second || role == 3 then s.set1 (F.ETH_STAT_RANGE m) else s

end Sys2Proof.Machine
end

