-- ==== Sys2Proof/Machine/Camera.lean ====
section
/-! DEFINITION. Machine/Camera.lean: network cameras (R144 to R167): blocks and their packets, gaps and resend, the frame watchdog,
action commands, the GVCP relay, heartbeats and the exposure generation. -/

namespace Sys2Proof.Machine
open Sys2Proof

/-- The MIL settings in force of a stream (R221), and its granary settings (R285). -/
def millCfg (s : State) (n : Nat) : List (Nat × Word) := regsIn s.live (R.MIL_CFG n) (R.MIL_CFG n + 0x1000) ++
  regsIn s.regs (R.GRN_S_CFG n) (R.GRN_S_CFG n + 4)
/-- The settings in force of a network stream. -/
def gvsCfg (s : State) (n : Nat) : List (Nat × Word) := regsIn s.live (R.GVS_S_CFG n) (R.GVS_S_CFG n + 0x80)

/-! ### Bytes to samples (R195) -/

/-- Bits a position takes in the payload. -/
def PixFmt.bpp (p : PixFmt) : Nat :=
  match p.layout with
  | 0 => if p.bits ≤ 8 then 8 else 16
  | 1 => p.bits
  | 2 => 12
  | _ => 24

/-- A sample of which every byte has arrived. -/
def need (l : List (Option (BitVec 8))) (f : List Nat → Nat) : Option Nat :=
  if l.all Option.isSome then some (f (l.filterMap (fun b => b.map (·.toNat)))) else none

/-- The samples of position `i` counted from a base byte (PFNC and GigE Vision layouts). -/
def samplesAt (p : PixFmt) (get : Nat → Option (BitVec 8)) (base i : Nat) : List (Option Nat) :=
  match p.layout with
  | 0 =>
    if p.bits ≤ 8 then [need [get (base + i)] (fun l => l.getD 0 0)]
    else [need [get (base + 2 * i), get (base + 2 * i + 1)] (fun l => (l.getD 0 0 + 256 * l.getD 1 0) % 2 ^ p.bits)]
  | 1 =>
    let o := i * p.bits
    [need [get (base + o / 8), get (base + (o + p.bits - 1) / 8)]
      (fun l => ((l.getD 0 0 + 256 * l.getD 1 0) / 2 ^ (o % 8)) % 2 ^ p.bits)]
  | 2 =>
    let b := base + 3 * (i / 2)
    let low := p.bits - 8
    if i % 2 = 0 then [need [get b, get (b + 1)] (fun l => l.getD 0 0 * 2 ^ low + l.getD 1 0 % 2 ^ low)]
    else [need [get (b + 2), get (b + 1)] (fun l => l.getD 0 0 * 2 ^ low + l.getD 1 0 / 16 % 2 ^ low)]
  | 3 => [need [get (base + 3 * i)] (·.getD 0 0), need [get (base + 3 * i + 1)] (·.getD 0 0),
          need [get (base + 3 * i + 2)] (·.getD 0 0)]
  | _ => [need [get (base + 3 * i + 2)] (·.getD 0 0), need [get (base + 3 * i + 1)] (·.getD 0 0),
          need [get (base + 3 * i)] (·.getD 0 0)]

/-! ### Blocks -/

def Block.sx (b : Block) (n : Nat) : Nat := cfgF b.cfg (F.GVS_S_SIZE_SIZE_X n)
def Block.sy (b : Block) (n : Nat) : Nat := cfgF b.cfg (F.GVS_S_SIZE_SIZE_Y n)
def Block.fmt (b : Block) (n : Nat) : PixFmt := (pixFmt (cfgF b.cfg (F.GVS_S_FMT_PFNC n))).getD ⟨8, 1, 0, 0, true⟩

/-- Bytes a payload packet carries: all but the last carry the same. -/
def Block.psize (b : Block) : Nat := (b.pkts.map (fun p => p.2.length)).foldl max 1

/-- A byte of the payload by its offset. -/
def Block.byte (b : Block) (o : Nat) : Option (BitVec 8) :=
  match b.pkts.find? (fun p => p.1 == o / b.psize + 1) with
  | some p => p.2[o % b.psize]?
  | none => none

/-- Base byte and first position of a line. -/
def Block.lineAt (b : Block) (n r : Nat) : Nat × Nat :=
  if b.padX = 0 then (0, r * b.sx n)
  else (r * (ceilDiv (b.sx n * (b.fmt n).bpp) 8 + b.padX), 0)

/-- First byte past line `r`. -/
def Block.lineEnd (b : Block) (n r : Nat) : Nat :=
  if b.padX = 0 then ceilDiv ((r + 1) * b.sx n * (b.fmt n).bpp) 8
  else (r + 1) * (ceilDiv (b.sx n * (b.fmt n).bpp) 8 + b.padX)

/-- First byte of line `r`. -/
def Block.lineStart (b : Block) (n r : Nat) : Nat :=
  if b.padX = 0 then r * b.sx n * (b.fmt n).bpp / 8 else r * (ceilDiv (b.sx n * (b.fmt n).bpp) 8 + b.padX)

/-- A line of samples. -/
def Block.line (b : Block) (n r : Nat) : RawLine :=
  let (base, i) := b.lineAt n r
  (List.range (b.sx n)).flatMap (fun x => samplesAt (b.fmt n) b.byte base (i + x))

/-- Bytes a payload packet carries, of the packets received, or, while none has come, of the packets and lines the trailer reports. -/
def Block.psizeFor (b : Block) (n : Nat) : Nat :=
  match b.trailer with
  | some (t, lines) => if b.pkts.isEmpty then max 1 (ceilDiv (b.lineEnd n (lines - 1)) (t - 1)) else b.psize
  | none => b.psize

/-- The last payload packet that carries a byte of the first `k` lines. -/
def Block.lastFor (b : Block) (n k : Nat) : Nat := if k = 0 then 0 else ceilDiv (b.lineEnd n (k - 1)) (b.psizeFor n)

/-- Payload packets missing among 1 to `k`. -/
def Block.lacks (b : Block) (k : Nat) : List Nat :=
  (List.range k).filterMap (fun i => if b.pkts.any (fun p => p.1 == i + 1) then none else some (i + 1))

/-- The packets a block still lacks as it closes (R150): its leader, the payload packets up to its trailer, and with no trailer those up to
the last one of SIZE_Y lines, where a received packet shows how many bytes one carries. -/
def Block.lost (b : Block) (n : Nat) : Nat :=
  let k := match b.trailer with
    | some (t, _) => t - 1
    | none => max (b.next - 1) (if b.pkts.isEmpty then 0 else b.lastFor n (b.sy n))
  (b.lacks k).length + (if b.pm.isNone then 1 else 0)

/-- Complete (R150, R151): leader, trailer, and every payload packet up to its last line, chunks included. -/
def Block.complete (b : Block) (n : Nat) : Bool :=
  match b.trailer with
  | none => false
  | some (t, lines) =>
    b.pm.isSome && (b.lacks (if b.chunks then t - 1 else min (t - 1) (b.lastFor n (min lines (b.sy n))))).isEmpty

/-- Lines of which some byte has arrived. -/
def Block.linesSeen (b : Block) (n : Nat) : Nat :=
  ((List.range (b.sy n)).filter (fun r =>
    (List.range (b.lineEnd n r - b.lineStart n r)).any (fun k => (b.byte (b.lineStart n r + k)).isSome))).length

/-- Lines the payload carries: whole lines up to the last byte that has arrived. -/
def Block.linesCarried (b : Block) (n : Nat) : Nat :=
  let last := (b.pkts.map (fun p => (p.1 - 1) * b.psize + p.2.length)).foldl max 0
  let row := b.lineEnd n 0
  if b.chunks || row = 0 then 0 else last / row

/-- The chunk of an ID, walking back from the end of the payload (GigE Vision chunk layout): the low 16 bits of the first
big-endian word of its data. -/
def chunkValue (id : Nat) : Nat → List (BitVec 8) → Option Nat
  | 0, _ => none
  | k + 1, l =>
    if l.length < 8 then none
    else
      let h := l.drop (l.length - 8)
      let len := beAt h 4 4
      if l.length < 8 + len then none
      else
        let data := (l.drop (l.length - 8 - len)).take len
        if beAt h 0 4 = id then (if len < 4 then none else some (beAt data 0 4 % 65536))
        else chunkValue id k (l.take (l.length - 8 - len))

/-- The whole payload in packet order. -/
def Block.payload (b : Block) : List (BitVec 8) :=
  (List.range (b.pkts.length)).flatMap (fun i => ((b.pkts.find? (fun p => p.1 == i + 1)).map (·.2)).getD [])

/-- Flags of a frame once the exposure is known (R166): EXPO_UNCERTAIN stays only where the frame is ORPHAN. -/
def flagsKnown (fl : Nat) : Nat := if fl.testBit 5 && !fl.testBit 4 then fl - flUncertain else fl

/-- What a frame not yet in the Mill carries once generation `g` is known (R166); none leaves the generations of its entries. -/
def MillIn.known (g : Option Nat) : MillIn → MillIn
  | .opened f => .opened { f with pm := { f.pm with gen := g.getD f.pm.gen } }
  | .line a b c d pm => .line a b c d { pm with gen := g.getD pm.gen }
  | .closed a b fl n => .closed a b (flagsKnown fl) n

/-- A block once generation `g` is known (R166). -/
def Block.known (b : Block) (g : Option Nat) : Block :=
  let mark (p : Postmark) : Postmark := { p with gen := g.getD p.gen }
  { b with
    flags := flagsKnown b.flags, pm := b.pm.map mark, arr := mark b.arr
    linePm := b.linePm.map (fun e => (e.1, mark e.2)), closed := b.closed.map (fun l => l.map (MillIn.known g)) }

/-- The stream takes its triggers from an output: the generation comes with the entry (R166). -/
def trigOut (cfg : List (Nat × Word)) (n : Nat) : Bool :=
  cfgMode cfg (.net n) != 0 && !cfgOn cfg (F.GVS_S_CFG_TRIG_SRC n)

/-- Every block of a stream after block `id`, and every entry that waits, once generation `g` is known (R166). -/
def laterKnown (s : State) (n id g : Nat) : State :=
  let x := s.strm n
  let upTo := (x.blocks.takeWhile (fun b => b.id != id)).length + 1
  let later := (x.blocks.drop upTo).map (fun b => b.known (if trigOut b.cfg n then none else some g))
  let m := if trigOut s.live n then x.m
    else { x.m with queue := x.m.queue.map (fun e => { e with gen := g }), lastGen := x.m.lastGen.map (fun _ => g) }
  s.setStrm n { x with blocks := x.blocks.take upTo ++ later, m := m }

/-- Read a block's generation chunk (R166): equal to EXPECTED it ends the uncertainty and becomes current; the block and every later
one take it. -/
def readChunk (s : State) (n : Nat) (b : Block) : Block × State :=
  let id := cfgF b.cfg (F.GVS_S_CHUNK_ID_ID n)
  if b.chunks && id != 0 && s.on (F.GVS_S_STAT_EXPO_UNCERTAIN n) &&
      chunkValue id 64 b.payload == some (s.f (F.GVS_S_GEN_EXPECTED n)) then
    let g := s.f (F.GVS_S_GEN_EXPECTED n)
    let s := (s.clr (F.GVS_S_STAT_EXPO_UNCERTAIN n)).sf (F.GVS_S_GEN_CURRENT n) g
    (b.known (if trigOut b.cfg n then none else some g), laterKnown s n b.id g)
  else (b, s)

/-- Why a block closes. -/
inductive Close where
  | complete | missing | timeout
deriving DecidableEq, Repr

/-- Hand what is closed to the Mill in block order (R147). -/
def flushBlocks (s : State) (n : Nat) : State :=
  let x := s.strm n
  let ready := x.blocks.takeWhile (fun b => b.closed.isSome)
  let out := ready.flatMap (fun b => b.closed.getD [])
  { s.setStrm n { x with blocks := x.blocks.drop ready.length } with toMill := s.toMill ++ out }

/-- Replace a block by its ID. -/
def setBlock (s : State) (n : Nat) (b : Block) : State :=
  let x := s.strm n
  s.setStrm n { x with blocks := x.blocks.map (fun c => if c.id == b.id && c.closed.isNone then b else c) }

/-- Close a block (R147, R150 to R153, R473): flags, counts, the frame end producer first, then its stream faults. -/
def closeBlock (s : State) (n : Nat) (b : Block) (why : Close) : State :=
  let (b, s) := readChunk s n b
  if b.chunkOnly then flushBlocks (setBlock s n { b with closed := some [] }) n
  else
    let (sx, sy) := (b.sx n, b.sy n)
    let known := (b.trailer.map (·.2)).getD sy
    let lost := if why = .complete then 0 else b.lost n
    let s := s.bumpBy (F.GVS_S_PKT_ERR_LOST n) lost
    let alone := b.pm.isNone && cfgMode b.cfg (.net n) != 0
    let pm := b.pm.getD b.arr
    let miss := why = .missing || decide (0 < lost)
    let short := decide (known < sy) && b.trailer.isSome
    let many := max (max b.sizeY ((b.trailer.map (·.2)).getD 0)) (b.linesCarried n)
    let long := decide (sy < many)
    let lines := if why = .timeout then b.linesSeen n else min known sy
    let fl := b.flags ||| (if short then flShort else 0) ||| (if long then flLong else 0) |||
      (if why = .timeout then flTimeout else 0) ||| (if miss then flMissing else 0) |||
      (if alone then flOrphan ||| flUncertain else if b.pm.isNone && s.on (F.GVS_S_STAT_EXPO_UNCERTAIN n) then flUncertain else 0)
    let s := if long then (s.set1 (F.GVS_S_FLAGS_LONG n)).bumpBy (F.GVS_S_CHAFF_CHAFF n) (many - sy) else s
    let s := if short then s.set1 (F.GVS_S_FLAGS_SHORT n) else s
    let s := if why = .timeout then s.set1 (F.GVS_S_FLAGS_TIMEOUT n) else s
    let s := if miss then s.set1 (F.GVS_S_FLAGS_MISSING n) else s
    let mode := cfgF b.cfg (F.GVS_S_CFG_TRIG_MODE n)
    let info : FrameInfo := ⟨n, b.frame, pm, cfgF b.cfg (F.GVS_S_FMT_PFNC n), cfgF b.cfg (F.GVS_S_FILL_FILL n), sx, sy,
      mode == 2, b.cfg, b.ver⟩
    let fillLine : RawLine := List.replicate (sx * (b.fmt n).chans) none
    let rows := (List.range sy).map (fun r =>
      let m := if r = 0 then pm else ((b.linePm.find? (fun e => e.1 == r)).map (·.2)).getD pm
      MillIn.line n b.frame r (if r < known then b.line n r else fillLine) m)
    let out := [.opened info] ++ rows ++ [.closed n b.frame fl lines]
    let s := s.incrPair (R.GVS_S_BLOCKS_LO n) (R.GVS_S_BLOCKS_HI n) 1
    let s := setBlock s n { b with closed := some out }
    let s := s.raise (prodFrameEnd n)
    let s := if alone then orphan s (.net n) n else s
    let s := if short then streamFault s n else s
    let s := if long then streamFault s n else s
    let s := if why = .timeout then streamFault s n else s
    flushBlocks s n

/-- Close a block that is now complete. -/
def closeIfComplete (s : State) (n : Nat) (b : Block) : State :=
  if b.complete n then closeBlock s n b .complete else setBlock s n b

/-! ### GVSP packets -/

/-- A packet fails the header checks of R144: the form of its IDs, a block ID of zero, a format that is none of leader, trailer and
payload, or a leader that is not packet 0. -/
def badHeader (s : State) (n : Nat) (l : List (BitVec 8)) : Bool :=
  let (ext, id, fmt, pid, _) := gvspHeader l
  let mine := (s.strm n).blocks.any (fun b => ofBlock n b l)
  decide (l.length < (if ext then 20 else 8)) || (!mine && ext != s.lon (F.GVS_S_CFG_EXT_ID n)) || id == 0 ||
    !(fmt == 1 || fmt == 2 || fmt == 3) || (fmt == 1 && pid != 0)

/-- Take the stream's next packet when it has a format code; a packet that fails R144 is discarded and counted in BAD. -/
def takePacket (s : State) (n fmt : Nat) : Option (Nat × Nat × List (BitVec 8)) × State :=
  match s.eth.rx.find? (fun r => match r with | .gvsp k _ => k == n | _ => false) with
  | some (.gvsp k l) =>
    let t := { s with eth := { s.eth with rx := s.eth.rx.erase (.gvsp k l) } }
    if !capturing s then (none, t)
    else if badHeader s n l then (none, t.bump (F.GVS_S_PKT_ERR_BAD n))
    else
      let (_, id, f, pid, rest) := gvspHeader l
      if f = fmt then (some (id, pid, rest), t) else (none, s)
  | _ => (none, s)

/-- The open block of an ID. -/
def openBlock (s : State) (n id : Nat) : Option Block := (s.strm n).blocks.find? (fun b => b.id == id && b.closed.isNone)

/-- A block ID comes after the last one opened (R146). -/
def idAfter (s : State) (n id : Nat) : Bool :=
  match (s.strm n).lastId with
  | none => true
  | some l =>
    let w := if s.lon (F.GVS_S_CFG_EXT_ID n) then 64 else 16
    let d := wrapN w ((id : Int) - l)
    decide (0 < d) && decide (d < 2 ^ (w - 1))

/-- A packet of a block already closed, or of an earlier one, is late (R146); of a block its leader discarded, it goes with it. -/
def latePacket (s : State) (n id : Nat) : State :=
  if (s.strm n).badId = some id then s else s.set1 (F.GVS_S_FLAGS_LATE_BLK n)

/-- Open a block (R146, R147): a third open block closes the oldest with MISSING. -/
def newBlock (s : State) (n id : Nat) : Block × State :=
  let opened := (s.strm n).blocks.filter (fun b => b.closed.isNone)
  let s := if opened.length ≥ 2 then (match opened with | b :: _ => closeBlock s n b .missing | [] => s) else s
  let x := s.strm n
  let gen := if feedMode s (.net n) = 0 then feedGen s (.net n) else x.m.lastGen.getD (feedGen s (.net n))
  let b : Block := { id := id, frame := x.frames, cfg := gvsCfg s n ++ millCfg s n, ver := (s.mill n).ver
                     arr := arrivalMark s (streamAxis s n) gen }
  let s := frameAccepted (s.setStrm n { x with blocks := x.blocks ++ [b], lastId := some id, frames := x.frames + 1 })
  (b, s.setPair (R.GVS_S_LASTBLK_LO n) (R.GVS_S_LASTBLK_HI n) id)

/-- Remove a packet from the gaps that hold it (R148, R149). -/
def fillGap (gaps : List Gap) (pid : Nat) : List Gap :=
  gaps.flatMap (fun g =>
    if g.first ≤ pid && pid ≤ g.last then
      (if g.first < pid then [⟨g.first, pid - 1, g.found⟩] else []) ++ (if pid < g.last then [⟨pid + 1, g.last, g.found⟩] else [])
    else [g])

/-- A packet ID that is not the next expected opens a gap (R148). -/
def noteGap (s : State) (b : Block) (pid : Nat) : Block :=
  if b.next < pid then { b with gaps := b.gaps ++ [⟨b.next, pid - 1, s.now⟩], next := pid + 1 }
  else { b with gaps := fillGap b.gaps pid, next := max b.next (pid + 1) }

/-- A packet asked for has come (R149): once all of them have, and the trailer has not, the block still arrives and WAIT does not run
(R150). -/
def Block.received (b : Block) (pid : Nat) : Block :=
  let left := b.wanted.filter (· != pid)
  { b with wanted := left, waitFrom := if b.wanted.contains pid && left.isEmpty && b.trailer.isNone then none else b.waitFrom }

/-- A block takes the settings in force at its leader (R167, R221). -/
def Block.underLeader (b : Block) (s : State) (n : Nat) : Block :=
  if gvsActive s n then { b with cfg := gvsCfg s n ++ millCfg s n, ver := (s.mill n).ver } else b

/-- A leader's payload type, timestamp, format, size and padding. -/
def leaderFields (l : List (BitVec 8)) : Nat × Nat × Nat × Nat × Nat × Nat :=
  (beAt l 2 2, beAt l 4 8, beAt l 12 4, beAt l 16 4, beAt l 20 4, beAt l 32 2)

/-- GVSP_LEADER (R145, R146, R153, R156, R157, R159, R166). -/
def execGvspLeader (n : Fin 64) (s : State) : Host.Outcome State Fault Refusal :=
  match takePacket s n 1 with
  | (none, t) => done t
  | (some (id, _, l), t) =>
    let old := openBlock t n id
    let fresh := old.isNone && idAfter t n id
    if old.isNone && (!opensFrames t || !gvsActive t n) then done t
    else if !fresh && !(match old with | some b => b.pm.isNone && !b.chunkOnly | none => false) then
      done (if old.isSome then (t.bump (F.GVS_S_PKT_ERR_DUP n)).set1 (F.GVS_S_FLAGS_DUP n) else latePacket t n id)
    else
      let (ty, ts, fmt, sx, sy, padX) := leaderFields l
      let image := ty == 1 || ty == 0x4001
      let cfg := match old with | some b => if gvsActive t n then t.live else b.cfg | none => t.live
      let good := ty == 4 || (image && fmt == cfgF cfg (F.GVS_S_FMT_PFNC n) && sx == cfgF cfg (F.GVS_S_SIZE_SIZE_X n))
      if !good then
        let x := t.strm n
        let t := t.setStrm n { x with
          blocks := x.blocks.filter (fun b => !(b.id == id && b.closed.isNone))
          lastId := if fresh then some id else x.lastId, badId := some id }
        done (flushBlocks (streamFault (t.set1 (F.GVS_S_FLAGS_FORMAT n)) n) n)
      else
        let (b, t) := match old with | some b => (b.underLeader t n, t) | none => newBlock t n id
        let t := if b.wanted.contains 0 then t.bump (F.GVS_S_RSND_CNT_RECOVERED n) else t
        let b := { b.received 0 with
          next := max 1 b.next, gaps := fillGap b.gaps 0
          chunks := ty == 0x4001 || ty == 4, chunkOnly := ty == 4, sizeY := if image then sy else 0, padX := padX }
        if ty = 4 then done (closeIfComplete (setBlock t n b) n { b with pm := some b.arr, wdFrom := some t.tim.total })
        else
          let (pm, fl, t) := openMark t (.net n) b.cfg b.arr ts
          let fl := if t.on (F.GVS_S_STAT_EXPO_UNCERTAIN n) then fl ||| flUncertain else fl
          let now := t.tim.total
          let wd := if cfgMode b.cfg (.net n) = 0 || fl.testBit 4 then now else min now pm.time
          let b := { b with pm := some pm, flags := b.flags ||| fl, wdFrom := some wd }
          done (closeIfComplete t n b)

/-- In LINE mode every line after the first takes its entry when its first packet arrives (R158). -/
def markLines (s : State) (n : Nat) (b : Block) (pid len : Nat) : Block × State :=
  if cfgF b.cfg (F.GVS_S_CFG_TRIG_MODE n) = 2 && !b.chunkOnly then
    let a := (pid - 1) * b.psize
    (List.range (b.sy n)).foldl (fun (acc : Block × State) r =>
      let (b, s) := acc
      if r != 0 && decide (b.lineStart n r < a + len) && decide (a < b.lineEnd n r) && !b.linePm.any (fun e => e.1 == r) then
        let (pm, fl, s) := lineMark s (.net n) n (cfgF b.cfg (F.MIL_CFG_AXIS n)) (feedGen s (.net n))
        ({ b with linePm := b.linePm ++ [(r, pm)], flags := b.flags ||| fl }, s)
      else acc) (b, s)
  else (b, s)

/-- GVSP_PAYLOAD (R147 to R149, R158). -/
def execGvspPayload (n : Fin 64) (s : State) : Host.Outcome State Fault Refusal :=
  match takePacket s n 3 with
  | (none, t) => done t
  | (some (id, pid, data), t) =>
    let old := openBlock t n id
    let limit := 1 + (match old with | some b => max b.sizeY (b.sy n) | none => t.lf (F.GVS_S_SIZE_SIZE_Y n))
    if old.isNone && (!opensFrames t || !gvsActive t n) then done t
    else if pid = 0 || decide (limit < pid) then done (t.bump (F.GVS_S_PKT_ERR_BAD n))
    else if old.isNone && (!idAfter t n id || (t.strm n).badId == some id) then done (latePacket t n id)
    else
      let (b, t) := match old with
        | some b => (b, t)
        | none =>
          let (b, t) := newBlock t n id
          ({ b with wdFrom := some t.tim.total }, t)
      if b.pkts.any (fun p => p.1 == pid) then
        done (((setBlock t n b).bump (F.GVS_S_PKT_ERR_DUP n)).set1 (F.GVS_S_FLAGS_DUP n))
      else
        let b := noteGap t b pid
        let b := { b with pkts := b.pkts ++ [(pid, data)] }
        let t := if b.wanted.contains pid then t.bump (F.GVS_S_RSND_CNT_RECOVERED n) else t
        let b := b.received pid
        let (b, t) := markLines t n b pid data.length
        done (closeIfComplete t n b)

/-- GVSP_TRAILER (R148, R150, R151): the line count, the gap before it, and the start of WAIT. -/
def execGvspTrailer (n : Fin 64) (s : State) : Host.Outcome State Fault Refusal :=
  match takePacket s n 2 with
  | (none, t) => done t
  | (some (id, pid, l), t) =>
    match openBlock t n id with
    | none => done (if idAfter t n id then t else latePacket t n id)
    | some b =>
      if pid = 0 || decide (1 + max b.sizeY (b.sy n) < pid) then done (t.bump (F.GVS_S_PKT_ERR_BAD n))
      else if b.trailer.isSome then done ((t.bump (F.GVS_S_PKT_ERR_DUP n)).set1 (F.GVS_S_FLAGS_DUP n))
      else
        let lines := if beAt l 2 2 = 0x4001 then beAt l 8 4 else beAt l 4 4
        let b := noteGap t b pid
        let b := { b with trailer := some (pid, lines), waitFrom := some (b.waitFrom.getD t.now) }
        if b.complete n then done (closeBlock t n b .complete)
        else if cfgF b.cfg (F.GVS_S_RESEND_WAIT n) = 0 then done (closeBlock t n b .missing)
        else done (setBlock t n b)

/-- The parts of a gap that are asked for (R152): packets that carry only lines past SIZE_Y are not. Where the block carries chunks, those
stand after the last line its leader announces. -/
def Block.asksOf (b : Block) (n : Nat) (g : Gap) : List (Nat × Nat) :=
  let most := max b.sizeY ((b.trailer.map (·.2)).getD 0)
  let blind := b.pkts.isEmpty && (b.trailer.isNone || b.chunks)
  if decide (most ≤ b.sy n) && b.chunks || blind then [(g.first, g.last)]
  else
    let last := b.lastFor n (b.sy n)
    let tail := if b.chunks then [(max g.first (max (last + 1) (b.lineEnd n (most - 1) / b.psizeFor n + 1)), g.last)] else []
    ([(g.first, min g.last last)] ++ tail).filter (fun r => decide (r.1 ≤ r.2))

/-- A gap record enters the device-wide queue of 64 (R148). -/
def queueGap (s : State) (n id : Nat) (r : Nat × Nat) : State :=
  if s.eth.gapq.length ≥ 64 then s.set1 F.GVS_STAT_GAPQ_OVF
  else { s with eth := { s.eth with gapq := s.eth.gapq ++ [⟨n, id, r.1, r.2⟩] } }

/-- GAP_DELAY (R148): what remains of a gap after its delay is written to the device-wide queue of 64; packets past SIZE_Y lines are
not asked for (R152). -/
def execGapDelay (n : Fin 64) (s : State) : Host.Outcome State Fault Refusal :=
  let due (b : Block) (g : Gap) : Bool := decide (g.found + cfgF b.cfg (F.GVS_S_RESEND_GAP_DELAY n) * 1000 ≤ s.now)
  match (s.strm n).blocks.find? (fun b => b.closed.isNone && b.gaps.any (due b)) with
  | some b =>
    match b.gaps.find? (due b) with
    | some g =>
      let s := setBlock s n { b with gaps := b.gaps.erase g }
      done ((b.asksOf n g).foldl (fun t r => queueGap t n b.id r) s)
    | none => done s
  | none => done s

/-- The next request number of the part, never zero. -/
def nextReq (s : State) : Nat × State :=
  let r := s.eth.reqId % 65535 + 1
  (r, { s with eth := { s.eth with reqId := r } })

/-- A GVCP command: key, flags, command, length, request number. -/
def gvcp (flags cmd req : Nat) (body : List (BitVec 8)) : List (BitVec 8) :=
  [0x42] ++ bytesBE 1 flags ++ bytesBE 2 cmd ++ bytesBE 2 body.length ++ bytesBE 2 req ++ body

/-- GVS_GAP_CMD.SEND (R149). -/
def doGapSend (s : State) : State :=
  match s.eth.gapq with
  | [] => s
  | g :: rest =>
    let s := { s with eth := { s.eth with gapq := rest } }
    let n := g.stream
    match openBlock s n g.block with
    | none => s
    | some b =>
      let k := g.last + 1 - g.first
      if b.reqs < cfgF b.cfg (F.GVS_S_RESEND_MAX_REQ n) && b.asked + k ≤ cfgF b.cfg (F.GVS_S_RESEND_MAX_PKTS n) then
        let (req, s) := nextReq s
        let ext := cfgOn b.cfg (F.GVS_S_CFG_EXT_ID n)
        let ch := bytesBE 2 (cfgF b.cfg (F.GVS_S_PORTS_CHANNEL n))
        let body := if ext then ch ++ [0, 0] ++ bytesBE 4 g.first ++ bytesBE 4 g.last ++ bytesBE 8 g.block
          else ch ++ bytesBE 2 g.block ++ bytesBE 4 g.first ++ bytesBE 4 g.last
        let (r, s) := sendUdp s (cfgF b.cfg (F.GVS_S_CFG_PORT n)) (cfgF b.cfg (F.GVS_S_CAM_IP_IP n)) 49152 3956
          (gvcp (if ext then 0x10 else 0) 0x0040 req body) (.resend n)
        let s := if r = .sent then s.bump (F.GVS_S_RSND_CNT_SENT n) else s
        setBlock s n { b with reqs := b.reqs + 1, asked := b.asked + k, waitFrom := some s.now
                              wanted := b.wanted ++ (List.range k).map (· + g.first) }
      else s.set1 (F.GVS_S_FLAGS_BUDGET n)

/-- GVS_GAP_CMD.DROP (R149). -/
def doGapDrop (s : State) : State := { s with eth := { s.eth with gapq := s.eth.gapq.drop 1 } }

/-- GAP_SEND (R149). -/
def execGapSend (s : State) : Host.Outcome State Fault Refusal := if s.up then done (doGapSend s) else done s
/-- GAP_DROP (R149). -/
def execGapDrop (s : State) : Host.Outcome State Fault Refusal := if s.up then done (doGapDrop s) else done s

/-- RESEND_WAIT (R150): WAIT × 100 µs since the last request, or since the trailer. -/
def execResendWait (n : Fin 64) (s : State) : Host.Outcome State Fault Refusal :=
  match (s.strm n).blocks.find? (fun b => b.closed.isNone && (match b.waitFrom with
      | some w => decide (w + cfgF b.cfg (F.GVS_S_RESEND_WAIT n) * 100000 ≤ s.now)
      | none => false)) with
  | some b => if s.up then done (closeBlock s n b .missing) else done s
  | none => done s

/-- FRAME_WATCHDOG (R153). -/
def execFrameWatchdog (n : Fin 64) (s : State) : Host.Outcome State Fault Refusal :=
  match (s.strm n).blocks.find? (fun b => b.closed.isNone && cfgF b.cfg (F.GVS_S_TMO_FRAME_TMO n) != 0 && (match b.wdFrom with
      | some w => decide (w + (cfgF b.cfg (F.GVS_S_TMO_FRAME_TMO n) : Nat) * 1000 ≤ s.tim.total)
      | none => false)) with
  | some b => if s.up then done (closeBlock s n b .timeout) else done s
  | none => done s

/-! ### Action commands (R160) -/

/-- Queue the entries of an action command that has been sent (R155, R160). -/
def actEntries (s : State) (t : Nat) (time : Int) : State :=
  let cnt := mget (fun _ => (0 : Word)) s.eth.acts t + 1
  let s := { s with eth := { s.eth with acts := mset (fun _ => 0) s.eth.acts t cnt } }
  let now := s.tim.total
  let late := time != 0 && decide (time ≤ now)
  let s := if late then s.set1 F.GVS_STAT_ACT_LATE else s
  let edge := if time = 0 || late then now else time
  ((List.range 64).filter (fun k => gvsActive s k && feedMode s (.net k) != 0 && s.lon (F.GVS_S_CFG_TRIG_SRC k) &&
    s.lf (F.GVS_S_CFG_SRC_INDEX k) == t)).foldl (fun u k =>
      let ax := streamAxis u k
      pushEntry u (.net k) ⟨cnt, edge, u.epoch, ax, if edge ≤ now then some (axisPos u ax) else none,
        u.f (F.GVS_S_GEN_CURRENT k), none⟩) s

/-- A write of GVS_ACT_SEND.SEND (R160). -/
def doActSend (s : State) (t : Nat) : State :=
  if s.on (F.GVS_ACT_CFG_VALID t) then
    let time := signed 64 (s.pair (R.GVS_ACT_TIME_LO t) (R.GVS_ACT_TIME_HI t))
    let (req, s) := nextReq s
    let body := bytesBE 4 (s.rd (R.GVS_ACT_DEVKEY t)).toNat ++ bytesBE 4 (s.rd (R.GVS_ACT_GRPKEY t)).toNat ++
      bytesBE 4 (s.rd (R.GVS_ACT_GRPMASK t)).toNat ++ (if time = 0 then [] else bytesBE 8 (wrapN 64 time))
    let (r, s) := sendUdp s (s.f (F.GVS_ACT_CFG_PORT t)) (s.rd (R.GVS_ACT_DST_IP t)).toNat 49152 3956
      (gvcp (if time = 0 then 0 else 0x80) 0x0100 req body) (.action t time)
    match r with
    | .sent => actEntries s t time
    | .waits => s
    | .refused => s.set1 F.GVS_STAT_ACT_REFUSED
  else s

/-- ACT_SEND (R160). -/
def execActSend (t : Fin 16) (s : State) : Host.Outcome State Fault Refusal :=
  if s.up then done (doActSend s t) else done s

/-! ### The relay (R163, R164, R166) -/

/-- Where the relay's command and acknowledge stand in the byte buffers. -/
def rlyBuf : Nat := 0x20220800
def rlyAck : Nat := 0x20220C00

/-- The address ranges a write command writes: first byte and count. -/
def gvcpWrites (c : List (BitVec 8)) : List (Nat × Nat) :=
  let len := min (beAt c 4 2) (c.length - 8)
  if beAt c 2 2 = 0x0082 then (List.range (len / 8)).map (fun k => (beAt c (8 + 8 * k) 4, 4))
  else if beAt c 2 2 = 0x0086 then [(beAt c 8 4, len - 4)]
  else []

/-- A relayed write to an exposure address makes the stream's exposure uncertain (R166). -/
def expoWrite (s : State) (n : Nat) (c : List (BitVec 8)) : State :=
  let hit := [0, 1].any (fun k =>
    let a := (s.lrd (R.GVS_S_EXPO_ADDR n k)).toNat
    a != 0 && (gvcpWrites c).any (fun w => decide (w.1 ≤ a + 3) && decide (a < w.1 + w.2)))
  if hit then (s.set1 (F.GVS_S_STAT_EXPO_UNCERTAIN n)).sf (F.GVS_S_GEN_EXPECTED n) (s.f F.GVS_RLY_GEN_GEN) else s

/-- End the relay's transaction with a result. -/
def relayEnd (s : State) (r : Nat) : State :=
  ({ s with eth := { s.eth with relay := none } }.clr F.GVS_RLY_STAT_BUSY).sf F.GVS_RLY_STAT_RESULT r

/-- The wait for an acknowledge in ns: zero selects 200 ms. -/
def ackTmo (s : State) : Nat := (let t := s.f F.GVS_RLY_CFG_ACK_TMO; if t = 0 then 200 else t) * 1000000

/-- The relay's command has left (R164, R166): the wait for its acknowledge starts, and a write to an exposure address makes the
exposure uncertain. -/
def relaySent (s : State) (req : Nat) : State :=
  match s.eth.relay with
  | some (n, c, orig, _, _) =>
    if beAt c 6 2 = req then expoWrite { s with eth := { s.eth with relay := some (n, c, orig, some s.now, ackTmo s) } } n c else s
  | none => s

/-- The relay's command is refused (R164). -/
def relayRefused (s : State) (req : Nat) : State :=
  match s.eth.relay with
  | some (_, c, _, _, _) => if beAt c 6 2 = req then relayEnd s 3 else s
  | none => s

/-- Send the relay's command to the stream's camera. -/
def relaySend (s : State) (n : Nat) (c : List (BitVec 8)) : State :=
  let req := beAt c 6 2
  let (r, s) := sendUdp s (s.lf (F.GVS_S_CFG_PORT n)) (s.lrd (R.GVS_S_CAM_IP n)).toNat 49152 3956 c (.relay req)
  match r with
  | .sent => relaySent s req
  | .waits => s
  | .refused => relayRefused s req

/-- A write of GVS_RLY_CMD with GO (R163). -/
def doRelayGo (s : State) (v : Word) : State :=
  if !v.getLsbD 31 then s
  else if s.on F.GVS_RLY_STAT_BUSY then s.set1 F.GVS_STAT_RELAY_BUSY
  else
    let len := fieldOf v 9 0
    let n := fieldOf v 21 16
    if len < 8 || 576 < len then (s.sf F.GVS_RLY_STAT_RESULT 3).set1 F.GVS_STAT_RANGE
    else
      let (req, s) := nextReq s
      let c := s.bread rlyBuf len
      let c' := c.take 6 ++ bytesBE 2 req ++ c.drop 8
      let s := ((s.set1 F.GVS_RLY_STAT_BUSY).sf F.GVS_RLY_STAT_RESULT 0).sf F.GVS_RLY_STAT_ATTEMPTS 1
      let s := s.sf F.GVS_RLY_STAT_ACK_LEN 0
      relaySend { s with eth := { s.eth with relay := some (n, c', beAt c 6 2, none, ackTmo s) } } n c'

/-- RELAY_GO (R163, R166). -/
def execRelayGo (v : Word) (s : State) : Host.Outcome State Fault Refusal :=
  if s.up then done (doRelayGo s v) else done s

/-- An acknowledge that answers a heartbeat read (R165). -/
def heartbeatAck (s : State) (m : Nat) (ip : Word) (id : Nat) : State :=
  match (List.range 64).find? (fun n => (s.strm n).hbOut.any (fun r => r.1 == id) &&
      s.lrd (R.GVS_S_CAM_IP n) == ip && s.lf (F.GVS_S_CFG_PORT n) == m) with
  | some n =>
    let x := s.strm n
    (s.setStrm n { x with hbOut := x.hbOut.filter (fun r => r.1 != id), hbMiss := 0 }).clr (F.GVS_S_STAT_CAM_LOST n)
  | none => s

/-- GVCP_ACK (R163 to R165): completes the relay, restarts its wait (PENDING_ACK), or answers a heartbeat; others are discarded. -/
def execGvcpAck (s : State) : Host.Outcome State Fault Refusal :=
  match takeRx s (fun r => match r with | .gvcp _ _ _ => true | _ => false) with
  | some (.gvcp m ip a, s) =>
    let id := beAt a 6 2
    match s.eth.relay with
    | some (n, c, orig, _, _) =>
      if s.lrd (R.GVS_S_CAM_IP n) == ip && s.lf (F.GVS_S_CFG_PORT n) == m && beAt c 6 2 == id then
        if a.length < 8 || 576 < a.length then done s
        else if beAt a 2 2 = 0x0089 then
          done { s with eth := { s.eth with relay := some (n, c, orig, some s.now, beAt a 10 2 * 1000000) } }
        else
          let s := s.bwrite rlyAck (a.take 6 ++ bytesBE 2 orig ++ a.drop 8)
          done ((relayEnd s 1).sf F.GVS_RLY_STAT_ACK_LEN a.length)
      else done (heartbeatAck s m ip id)
    | none => done (heartbeatAck s m ip id)
  | _ => done s

/-- ACK_TMO (R164): the command is sent again up to RETRIES times, then RESULT becomes 2. -/
def execAckTmo (s : State) : Host.Outcome State Fault Refusal :=
  match s.eth.relay with
  | some (n, c, orig, some from_, wait) =>
    if s.up && decide (from_ + wait ≤ s.now) then
      let k := s.f F.GVS_RLY_STAT_ATTEMPTS
      if k ≤ s.f F.GVS_RLY_CFG_RETRIES then
        let s := s.sf F.GVS_RLY_STAT_ATTEMPTS (k + 1)
        done (relaySend { s with eth := { s.eth with relay := some (n, c, orig, none, ackTmo s) } } n c)
      else done (relayEnd s 2)
    else done s
  | _ => done s

/-! ### Waiting packets (R142) -/

/-- What follows when a waiting packet has gone out. -/
def afterSent (s : State) : TxFor → State
  | .action t time => actEntries s t time
  | .resend n => s.bump (F.GVS_S_RSND_CNT_SENT n)
  | .relay req => relaySent s req
  | .display o => s.incrPair (R.HED_O_UNITS_LO o) (R.HED_O_UNITS_HI o) 1
  | _ => s

/-- What follows when a waiting packet is refused (R142). -/
def afterRefused (s : State) : TxFor → State
  | .action _ _ => s.set1 F.GVS_STAT_ACT_REFUSED
  | .relay req => relayRefused s req
  | .display o => (hedDrop s o).set1 (F.HED_O_FLAGS_TX_REFUSED o)
  | _ => s

/-- ARP_REPLY (R142): fills the cache of 128 entries, the oldest leaving, and releases the waiting packets. -/
def execArpReply (s : State) : Host.Outcome State Fault Refusal :=
  match takeRx s (fun r => match r with | .arpReply _ _ _ => true | _ => false) with
  | some (.arpReply m mac ip, s) =>
    match s.eth.waits.find? (fun w => w.port == m && w.ip == ip) with
    | some w =>
      let cache := (m, ip, mac, s.now) :: s.eth.arp.filter (fun e => !(e.1 == m && e.2.1 == ip))
      let s := { s with eth := { s.eth with arp := cache.take 128, waits := s.eth.waits.erase w } }
      if s.on (F.ETH_STAT_LINK_UP m) then done (w.packets.foldl (fun t p => afterSent (sendFrame t m mac 0x0800 p.2) p.1) s)
      else done (w.packets.foldl (fun t p => afterRefused t p.1) s)
    | none => done s
  | _ => done s

/-- ARP_RETRY (R139, R142): 100 ms without an answer; while the port is down what waits is refused; after three requests the packets are refused and ARP_FAIL is set. -/
def execArpRetry (s : State) : Host.Outcome State Fault Refusal :=
  match s.eth.waits.find? (fun w => decide (w.at_ + 100000000 ≤ s.now)) with
  | some w =>
    if !s.up then done s
    else if !s.on (F.ETH_STAT_LINK_UP w.port) then
      done (w.packets.foldl (fun t p => afterRefused t p.1) { s with eth := { s.eth with waits := s.eth.waits.erase w } })
    else if w.sent < 3 then
      let s := sendArp s w.port w.ip.toNat
      done { s with eth := { s.eth with waits := s.eth.waits.map (fun v =>
        if v == w then { w with sent := w.sent + 1, at_ := s.now } else v) } }
    else
      let s := { s with eth := { s.eth with waits := s.eth.waits.erase w } }
      done (w.packets.foldl (fun t p => afterRefused t p.1) (s.set1 (F.ETH_STAT_ARP_FAIL w.port)))
  | none => done s

/-! ### Heartbeats (R165) and the exposure uncertainty (R166) -/

/-- HEARTBEAT (R165): PERIOD ms have passed since the last read. -/
def execHeartbeat (n : Fin 64) (s : State) : Host.Outcome State Fault Refusal :=
  let p := s.lf (F.GVS_S_HB_PERIOD n)
  let x := s.strm n
  if s.up && s.lon (F.GVS_S_HB_EN n) && p != 0 && decide (x.hbFrom + p * 1000000 ≤ s.now) then
    let (req, s) := nextReq s
    let s := s.setStrm n { s.strm n with hbFrom := s.now, hbOut := (s.strm n).hbOut ++ [(req, s.now)] }
    let (_, s) := sendUdp s (s.lf (F.GVS_S_CFG_PORT n)) (s.lrd (R.GVS_S_CAM_IP n)).toNat 49152 3956
      (gvcp 1 0x0080 req (bytesBE 4 0x0A00)) (.heartbeat n)
    done s
  else done s

/-- HEARTBEAT_TIMEOUT (R165): the oldest read has gone unanswered for 200 ms; the third in a row while EN is 1 sets CAM_LOST. -/
def execHeartbeatTimeout (n : Fin 64) (s : State) : Host.Outcome State Fault Refusal :=
  let x := s.strm n
  match x.hbOut with
  | (_, t) :: rest =>
    if s.up && decide (t + 200000000 ≤ s.now) then
      let miss := if s.lon (F.GVS_S_HB_EN n) then x.hbMiss + 1 else 0
      let s := s.setStrm n { x with hbOut := rest, hbMiss := miss }
      if miss ≥ 3 && !s.on (F.GVS_S_STAT_CAM_LOST n) then
        done (streamFault ((s.set1 (F.GVS_S_STAT_CAM_LOST n)).set1 (F.GVS_S_FLAGS_CAM_LOST n)) n)
      else done s
    else done s
  | [] => done s

/-- GVS_S_CMD.CLEAR_UNC (R166): ends the uncertainty and makes EXPECTED current. -/
def doClearUnc (s : State) (n : Nat) : State :=
  if s.on (F.GVS_S_STAT_EXPO_UNCERTAIN n) then
    (s.clr (F.GVS_S_STAT_EXPO_UNCERTAIN n)).sf (F.GVS_S_GEN_CURRENT n) (s.f (F.GVS_S_GEN_EXPECTED n))
  else s

/-- CLEAR_UNC (R166). -/
def execClearUnc (n : Fin 64) (s : State) : Host.Outcome State Fault Refusal :=
  if s.up then done (doClearUnc s n) else done s

end Sys2Proof.Machine
end

