-- ==== Sys2Proof/Machine/Parallel.lean ====
section
/-! DEFINITION. Machine/Parallel.lean: the parallel ports (R169 to R179) and the apply point of a stream (R167, R179, R221). -/

namespace Sys2Proof.Machine
open Sys2Proof

/-! ### Frames and lines of a port -/

/-- Bits of a pixel by the WIDTH code (R171). -/
def parBits (w : Nat) : Nat := if w ≤ 4 then 8 + 2 * w else 0

/-- Settings a port refuses at an apply point that enables it (R171, R179, R195, PAR_SIZE). -/
def parRefuses (s : State) (p : Nat) : Bool :=
  let w := s.lf (F.PAR_CFG_WIDTH p)
  let pack := s.lf (F.PAR_CFG_PACK p)
  let fmtOk := match pixFmt (s.lrd (R.PAR_FMT p)).toNat with
    | some f => f.par && f.bits == parBits w
    | none => false
  decide (5 ≤ w) || pack == 3 || (pack == 2 && w != 0) || !s.lon (F.PAR_SIZE_SIZE_X p) || !s.lon (F.PAR_SIZE_SIZE_Y p) || !fmtOk

/-- Another source of the port's stream takes precedence (R169): the network stream enabled, or a lower-numbered enabled port. -/
def parConflict (s : State) (p : Nat) : Bool :=
  let n := s.lf (F.PAR_CFG_STREAM p)
  s.lon (F.GVS_S_CFG_ENABLE n) ||
  (List.range p).any (fun k => s.lon (F.PAR_CFG_ENABLE k) && !(s.par k).refused && s.lf (F.PAR_CFG_STREAM k) == n)

/-- Hand something to the Mill. -/
def toMill (s : State) (l : List MillIn) : State := { s with toMill := s.toMill ++ l }

/-- FVAL is ignored (R172). -/
def fvalIgn (f : ParFrame) (p : Nat) : Bool := cfgOn f.cfg (F.PAR_CFG_FVAL_IGN p)

/-- The settings a port samples under: those of its open frame, or those in force (R179). -/
def parCfg (s : State) (p : Nat) : List (Nat × Word) := match (s.par p).frame with | some f => f.cfg | none => s.live

/-- A control input at a level is active under a polarity field, 1 active low (R172). -/
def ctlActive (cfg : List (Nat × Word)) (pol : RF) (level : Bool) : Bool := level != cfgOn cfg pol

/-- The port opens a frame (R172, R176, R178): stamped now, matched, and announced to the Mill. -/
def parOpen (s : State) (p : Nat) : State :=
  let x := s.par p
  if !parActive s p || x.frame.isSome || x.blocked || !opensFrames s then s
  else
    let n := s.lf (F.PAR_CFG_STREAM p)
    let cfg := regsIn s.live (R.PAR_CFG p) (R.PAR_CFG p + 0x100) ++ millCfg s n
    let gen0 := feedGen s (.par p)
    let (pm, fl, s) := openMark s (.par p) cfg (arrivalMark s (streamAxis s n) gen0) s.tim.total
    let now := s.tim.total
    let wd := if feedMode s (.par p) = 0 || fl.testBit 4 then now else min now pm.time
    let x := s.par p
    let s := frameAccepted (s.setPar p { x with frame := some ⟨x.frames, cfg, pm, fl, 0, none, wd, gen0⟩, frames := x.frames + 1 })
    toMill s [.opened ⟨n, x.frames, pm, s.lf (F.PAR_FMT_PFNC p), s.lf (F.PAR_FILL_FILL p),
      s.lf (F.PAR_SIZE_SIZE_X p), s.lf (F.PAR_SIZE_SIZE_Y p), feedMode s (.par p) == 2, cfg, (s.mill n).ver⟩]

def ParFrame.sx (f : ParFrame) (p : Nat) : Nat := cfgF f.cfg (F.PAR_SIZE_SIZE_X p)
def ParFrame.sy (f : ParFrame) (p : Nat) : Nat := cfgF f.cfg (F.PAR_SIZE_SIZE_Y p)
def ParFrame.stream (f : ParFrame) (p : Nat) : Nat := cfgF f.cfg (F.PAR_CFG_STREAM p)

/-- The open line closes (R173): filled or trimmed to SIZE_X, counted, and handed to the Mill. -/
def parLineEnd (s : State) (p : Nat) : State :=
  let x := s.par p
  match x.frame with
  | some f =>
    match f.line with
    | some l =>
      let sx := f.sx p
      let got := l.px.reverse.take sx
      let short := decide (got.length < sx)
      let row : RawLine := got.map some ++ List.replicate (sx - got.length) none
      let s := if short then s.bump (F.PAR_LINE_ERR_SHORT_LINES p) else s
      let s := if l.long then s.bump (F.PAR_LINE_ERR_LONG_LINES p) else s
      let s := if short || l.long then s.set1 (F.PAR_FLAGS_LINE_LEN p) else s
      let s := s.setPar p { s.par p with frame := some { f with line := none, lines := f.lines + 1 } }
      toMill s [.line (f.stream p) f.frame f.lines row l.pm]
    | none => s
  | none => s

/-- The frame closes (R174 to R176, R473): missing lines filled, flags set, counted, producers raised. -/
def parEnd (s : State) (p : Nat) (timeout : Bool) : State :=
  let s := parLineEnd s p
  let x := s.par p
  match x.frame with
  | some f =>
    let (sx, sy) := (f.sx p, f.sy p)
    let n := f.stream p
    let short := !timeout && decide (f.lines < sy)
    let long := f.flags.testBit 1
    let fl := f.flags ||| (if short then flShort else 0) ||| (if timeout then flTimeout else 0)
    let fills := (List.range (sy - f.lines)).map (fun k =>
      MillIn.line n f.frame (f.lines + k) (List.replicate sx none) f.pm)
    let s := s.setPar p { x with frame := none, blocked := timeout && (if fvalIgn f p then x.lval else x.fval) }
    let s := toMill s (fills ++ [.closed n f.frame fl f.lines])
    let s := s.incrPair (R.PAR_FRAMES_LO p) (R.PAR_FRAMES_HI p) 1
    let s := s.sf (F.PAR_LAST_LINES_LINES p) f.lines
    let s := if short then s.set1 (F.PAR_FLAGS_SHORT p) else s
    let s := if timeout then s.set1 (F.PAR_FLAGS_TIMEOUT p) else s
    let s := s.raise (prodFrameEnd n)
    let s := if short then streamFault s n else s
    let s := if long then streamFault s n else s
    if timeout then streamFault s n else s
  | none => s

/-- PAR_FRAME_OPEN (R172): FVAL takes a level that is active and the port opens a frame; with FVAL_IGN the frame waits for the first
LVAL. A level that is not active opens nothing. -/
def execParFrameOpen (p : PortLevel) (s : State) : Host.Outcome State Fault Refusal :=
  if !s.up || !ctlActive (parCfg s p.port) (F.PAR_CFG_FVAL_POL p.port) p.level then done s
  else
    let s := s.setPar p.port { s.par p.port with fval := true }
    if s.lon (F.PAR_CFG_FVAL_IGN p.port) then done s else done (parOpen s p.port)

/-- PAR_LINE_OPEN (R172, R175, R176, R178): LVAL takes a level that is active. -/
def execParLineOpen (p : PortLevel) (s : State) : Host.Outcome State Fault Refusal :=
  if !s.up || !ctlActive (parCfg s p.port) (F.PAR_CFG_LVAL_POL p.port) p.level then done s
  else
    let s := s.setPar p.port { s.par p.port with lval := true }
    let ign := s.lon (F.PAR_CFG_FVAL_IGN p.port)
    let s := if ign then parOpen s p.port else s
    let x := s.par p.port
    if !capturing s then done s
    else if x.blocked then done (s.bump (F.PAR_CHAFF_CHAFF p.port))
    else
      match x.frame with
      | none => if parActive s p.port && !x.fval && !ign then done (s.set1 (F.PAR_FLAGS_PROTO p.port)) else done s
      | some f =>
        if f.line.isSome then done s
        else if f.sy p.port ≤ f.lines then
          let s := s.setPar p.port { x with frame := some { f with flags := f.flags ||| flLong } }
          done ((s.set1 (F.PAR_FLAGS_LONG p.port)).bump (F.PAR_CHAFF_CHAFF p.port))
        else
          let mode := cfgF f.cfg (F.PAR_CFG_TRIG_MODE p.port)
          let (pm, fl, s) := if mode = 2 && f.lines != 0 then
              lineMark s (.par p.port) (f.stream p.port) (cfgF f.cfg (F.MIL_CFG_AXIS (f.stream p.port))) f.gen0
            else (f.pm, 0, s)
          done (s.setPar p.port { s.par p.port with frame := some { f with line := some { pm := pm }, flags := f.flags ||| fl } })

/-- The pixels of a sample (R171). -/
def parPixels (cfg : List (Nat × Word)) (p : Nat) (d : BitVec 16) : List Nat :=
  let w := parBits (cfgF cfg (F.PAR_CFG_WIDTH p))
  match cfgF cfg (F.PAR_CFG_PACK p) with
  | 0 => [d.toNat % 2 ^ w]
  | 1 => [d.toNat / 2 ^ (16 - w)]
  | _ => [d.toNat % 256, d.toNat / 256]

/-- Take one sample into a line (R173): pixels beyond SIZE_X make the line long, unless the sample is the line's last and on a
falling edge. -/
def ParLine.take (l : ParLine) (sx : Nat) (px : List Nat) (fall : Bool) : ParLine :=
  let excess := decide (sx < l.px.length + px.length)
  { l with
    px := (px.take (sx - l.px.length)).reverse ++ l.px
    long := l.long || l.excused || (excess && !fall)
    excused := excess && fall }

/-- PAR_SAMPLE (R170 to R173, R177): a PCLK edge with LVAL and DVAL active, and in DDR the falling edge after it. While FVAL is
inactive every sample under LVAL is discarded and counted. -/
def execParSample (p : PortLevel) (rise fall : BitVec 16) (s : State) : Host.Outcome State Fault Refusal :=
  let x := s.par p.port
  let cfg := parCfg s p.port
  let valid := !cfgOn cfg (F.PAR_CFG_DVAL_EN p.port) || ctlActive cfg (F.PAR_CFG_DVAL_POL p.port) p.level
  if !s.up || !x.lval || x.badClk || !capturing s then done s
  else
    match x.frame with
    | none =>
      if parActive s p.port && !x.fval && !s.lon (F.PAR_CFG_FVAL_IGN p.port) && !x.blocked then
        done ((s.bumpBy (F.PAR_PROTO_CNT_SAMPLES p.port) (if s.lon (F.PAR_CFG_DDR p.port) then 2 else 1)).set1 (F.PAR_FLAGS_PROTO p.port))
      else done s
    | some f =>
      match f.line with
      | none => done s
      | some l =>
        if !valid then done s
        else
        let l := l.take (f.sx p.port) (parPixels f.cfg p.port rise) false
        let l := if cfgOn f.cfg (F.PAR_CFG_DDR p.port) then l.take (f.sx p.port) (parPixels f.cfg p.port fall) true else l
        done (s.setPar p.port { x with frame := some { f with line := some l } })

/-- PAR_LINE_CLOSE (R172, R173, R176): LVAL takes a level that is inactive; with FVAL_IGN the frame closes once SIZE_Y lines are
taken. -/
def execParLineClose (p : PortLevel) (s : State) : Host.Outcome State Fault Refusal :=
  if !s.up || ctlActive (parCfg s p.port) (F.PAR_CFG_LVAL_POL p.port) p.level then done s
  else
    let s := if capturing s then parLineEnd s p.port else s
    let x := s.par p.port
    let s := s.setPar p.port { x with lval := false, blocked := x.blocked && !s.lon (F.PAR_CFG_FVAL_IGN p.port) }
    match (s.par p.port).frame with
    | some f => if capturing s && fvalIgn f p.port && decide (f.sy p.port ≤ f.lines) then done (parEnd s p.port false) else done s
    | none => done s

/-- PAR_FRAME_CLOSE (R172, R174 to R176): FVAL takes a level that is inactive. -/
def execParFrameClose (p : PortLevel) (s : State) : Host.Outcome State Fault Refusal :=
  if !s.up || ctlActive (parCfg s p.port) (F.PAR_CFG_FVAL_POL p.port) p.level then done s
  else
    let ign := match (s.par p.port).frame with | some f => fvalIgn f p.port | none => false
    let s := if ign || !capturing s then s else parEnd s p.port false
    done (s.setPar p.port { s.par p.port with fval := false, blocked := (s.par p.port).blocked && s.lon (F.PAR_CFG_FVAL_IGN p.port) })

/-- PAR_FRAME_WATCHDOG (R176). -/
def execParFrameWatchdog (p : Fin 4) (s : State) : Host.Outcome State Fault Refusal :=
  match (s.par p).frame with
  | some f =>
    let tmo := cfgF f.cfg (F.PAR_TMO_FRAME_TMO p)
    if s.up && tmo != 0 && decide (f.wdFrom + (tmo : Nat) * 1000 ≤ s.tim.total) then done (parEnd s p true) else done s
  | none => done s

/-- PCLK_CHECK (R177): the measurement of the last 10 µs in MHz, none when no edge arrived. -/
def execPclkCheck (p : Fin 4) (mhz : Option Nat) (s : State) : Host.Outcome State Fault Refusal :=
  if !s.up then done s
  else
    let x := s.par p
    let f := mhz.getD 0
    let s := s.sf (F.PAR_STAT_PCLK_MHZ p) (min 255 f)
    let s := if mhz.isNone then s.set1 (F.PAR_FLAGS_PCLK_LOST p) else s
    if 204 < f then
      done (((s.set1 (F.PAR_FLAGS_PCLK_RANGE p)).clr (F.PAR_STAT_PCLK_OK p)).setPar p { x with badClk := true, goodFrom := some s.now })
    else
      let g := x.goodFrom.getD s.now
      let bad := x.badClk && !decide (g + 100000 ≤ s.now)
      done ((s.put (F.PAR_STAT_PCLK_OK p) (!bad && mhz.isSome)).setPar p
        { x with badClk := bad, goodFrom := if bad then some g else none })

/-! ### Apply points of a stream -/

/-- A port takes its settings (R169, R171, R179): checked only when they enable it. -/
def parApply (s : State) (p : Nat) : State :=
  let was := s.lon (F.PAR_CFG_ENABLE p) && !(s.par p).refused
  let s := s.applyRange (R.PAR_CFG p) (R.PAR_CFG p + 0x18)
  if s.lon (F.PAR_CFG_ENABLE p) then
    let bad := parRefuses s p
    let con := parConflict s p
    let x := s.par p
    let s := s.setPar p { x with refused := bad, conflict := con, m := if was then x.m else { x.m with lastGen := none } }
    let s := if bad || s.lf (F.PAR_CFG_TRIG_MODE p) == 3 then s.set1 (F.PAR_FLAGS_RANGE p) else s
    if con then s.set1 (F.PAR_FLAGS_CONFLICT p) else s
  else s.setPar p { s.par p with refused := false, conflict := false }

/-- Streams of a higher number that an apply of stream `n` has brought to share its camera address and UDP port set RANGE (R144). -/
def newClash (before s : State) (n : Nat) : State :=
  (List.range 64).foldl (fun t k =>
    if decide (n < k) && gvsUsable s k && gvsClash s k && !gvsClash before k then t.set1 (F.GVS_S_FLAGS_RANGE k) else t) s

/-- A stream has been enabled: its next frame has no reference (R206). -/
def millEnabled (s : State) (n : Nat) : State :=
  let x := s.mill n
  s.setMill n { x with ver := { x.ver with enables := x.ver.enables + 1 } }

/-- A network stream takes its settings (R144, R145, R167). -/
def gvsApply (s : State) (n : Nat) : State :=
  let was := s.lon (F.GVS_S_CFG_ENABLE n)
  let s := newClash s (s.applyRange (R.GVS_S_CFG n) (R.GVS_S_CFG n + 0x34)) n
  if s.lon (F.GVS_S_CFG_ENABLE n) then
    let x := s.strm n
    let s := if was then s
      else millEnabled (s.setStrm n { x with m := { x.m with lastGen := none } }) n
    if !gvsActive s n || s.lf (F.GVS_S_CFG_TRIG_MODE n) == 3 then s.set1 (F.GVS_S_FLAGS_RANGE n) else s
  else s

/-- A port that an apply elsewhere has brought into conflict stops capturing (R169). -/
def newConflict (s : State) (p : Nat) : State :=
  if s.lon (F.PAR_CFG_ENABLE p) && !(s.par p).conflict && parConflict s p then
    (s.setPar p { s.par p with conflict := true }).set1 (F.PAR_FLAGS_CONFLICT p)
  else s

/-- A pitch of zero leaves line accumulation off, with RANGE, as it comes into force (MIL_TDI_PITCH). -/
def millApplyCheck (s : State) (n : Nat) : State :=
  if s.lon (F.MIL_CFG_TDI n) && s.lf (F.MIL_TDI_PITCH_PITCH n) == 0 then s.set1 (F.MIL_S_FLAGS_RANGE n) else s

/-- The MIL fields of a stream that an apply point changes (R206, R221). -/
def milFields (c : List (Nat × Word)) (n : Nat) : List (Nat × Word) :=
  regsIn c (R.MIL_CFG n) (R.MIL_CFG n + 0x6C) ++ regsIn c (R.MIL_CFG n + 0x70) (R.MIL_CFG n + 0x9C)

/-- A stream's MIL settings take effect (R221): the next frame opened after a change of any field has no reference (R206). -/
def millApply (s : State) (n : Nat) : State :=
  let t := s.applyRange (R.MIL_CFG n) (R.MIL_CFG n + 0x1000)
  if milFields t.live n = milFields s.live n then t
  else
    let x := t.mill n
    t.setMill n { x with ver := { x.ver with applies := x.ver.applies + 1 } }

/-- The apply point of stream `n` (R167, R179, R221): its GVS, MIL and PAR shadowed settings together. The parallel ports that
follow it are those whose settings in force name it. -/
def streamApply (s : State) (n : Nat) : State :=
  let ps := (List.range 4).filter (fun p => s.lf (F.PAR_CFG_STREAM p) == n)
  let fresh := ps.any (fun p => !s.lon (F.PAR_CFG_ENABLE p) && s.on (F.PAR_CFG_ENABLE p))
  let s := gvsApply s n
  let s := millApplyCheck (millApply s n) n
  let s := ps.foldl parApply s
  let s := (List.range 4).foldl newConflict s
  if fresh then millEnabled s n else s

/-- STREAM_APPLY (R167, R179, R221). -/
def execStreamApply (n : Fin 64) (s : State) : Host.Outcome State Fault Refusal :=
  if s.up then done (streamApply s n) else done s

/-- MIL_APPLY (R221): the same apply point. -/
def execMilApply (n : Fin 64) (s : State) : Host.Outcome State Fault Refusal :=
  if s.up then done (streamApply s n) else done s

end Sys2Proof.Machine
end

