-- ==== Sys2Proof/Machine/Mill.lean ====
section
/-! DEFINITION. Machine/Mill.lean: the Mill's stages on the rows of a frame (R190 to R215): unpack, noise reduction, black level,
defective pixels, flat field, demosaic, colour matrix and tone. Values are counted in sixteenths. -/

namespace Sys2Proof.Machine
open Sys2Proof

/-! ### Pixel words -/

def fClip : Nat := 1
def fFill : Nat := 2
def fReplaced : Nat := 4
def fUnreg : Nat := 8
def fRawSat : Nat := 16
def fTdiPart : Nat := 32
def fUnder : Nat := 64
def fOverlap : Nat := 128

def Px.fill (p : Px) : Bool := p.f.testBit 1
def Px.flag (p : Px) (b : Nat) : Px := { p with f := p.f ||| b }

/-- Store a result (R191): limited to 0 to 0xFFFFFF with UNDER or CLIP. -/
def limitPx (x : Int) (f : Nat) : Px :=
  if x < 0 then ⟨0, f ||| fUnder⟩ else if x > 0xFFFFFF then ⟨0xFFFFFF, f ||| fClip⟩ else ⟨x.toNat, f⟩

/-- A rational result rounded to the nearest sixteenth, ties up, and stored (R191). -/
def roundPx (num : Int) (den : Nat) (f : Nat) : Px := limitPx (roundDiv num (max 1 den)) f

/-! ### The settings a frame runs under -/

/-- What the stages need of a frame: its stream, settings, size, channels, mosaic, and whether it is an AREA frame. -/
structure MillCtx where
  n : Nat
  cfg : List (Nat × Word)
  sx : Nat
  sy : Nat
  ch : Nat
  bits : Nat
  bayer : Nat
  area : Bool
  fill : Nat

def ctxOf (i : FrameInfo) : MillCtx :=
  let f := (pixFmt i.fmt).getD ⟨8, 1, 0, 0, true⟩
  ⟨i.stream, i.cfg, i.sizeX, i.sizeY, f.chans, f.bits, f.bayer, cfgOn i.cfg (F.MIL_CFG_KIND i.stream), i.fill⟩

def MillCtx.f (c : MillCtx) (r : Nat → RF) : Nat := cfgF c.cfg (r c.n)
def MillCtx.on (c : MillCtx) (r : Nat → RF) : Bool := cfgF c.cfg (r c.n) != 0
/-- Distance to the next pixel of the same colour. -/
def MillCtx.step (c : MillCtx) : Nat := if c.bayer = 0 then 1 else 2
def MillCtx.l6 (c : MillCtx) : Bool := c.on F.MIL_CFG_ROUTE

/-- Rows of pixel words, positions in order, channels side by side. -/
abbrev Rows := List (List Px)

/-- A pixel, when it lies inside. -/
def pxAt (rows : Rows) (w ch : Nat) (x y : Int) (c : Nat) : Option Px :=
  if 0 ≤ x && x < w && 0 ≤ y then
    match rows[y.toNat]? with
    | some r => r[x.toNat * ch + c]?
    | none => none
  else none

/-- Rows made position by position from coordinates and the present pixel. -/
def mapRows (rows : Rows) (ch : Nat) (g : Nat → Nat → Nat → Px → Px) : Rows :=
  rows.mapIdx (fun y r => r.mapIdx (fun i p => g (i / ch) y (i % ch) p))

/-! ### Stage 1: unpack (R195, R196) -/

/-- A sample unpacked; a replayed pixel word stands unchanged (R409). -/
def unpackPx (c : MillCtx) (q : Option Nat) : Px :=
  let up (v : Nat) : Nat := if c.on F.MIL_CFG_NORM16 then v * 16 * 2 ^ (16 - c.bits) else v * 16
  match q with
  | some v =>
    if 2 ^ 32 ≤ v then ⟨v % 2 ^ 24, v / 2 ^ 24 % 256⟩
    else ⟨up v, if v = 2 ^ c.bits - 1 then fRawSat else 0⟩
  | none => ⟨up (c.fill % 2 ^ c.bits), fFill⟩

/-- The rows of a frame that enter after noise reduction (R409). -/
def entersLate (rows : List RawLine) : Bool :=
  match rows with
  | r :: _ => r.any (fun q => match q with | some v => decide (2 ^ 33 ≤ v) | none => false)
  | [] => false

/-! ### Tables in device memory -/

/-- A table lies inside device memory (R193). -/
def tableIn (base bytes : Nat) : Bool := decide (base * 64 + bytes ≤ dmemBytes)

/-- The defect entries that apply, in order, and whether the order was broken (R208): X, Y, METHOD. -/
def dpcScan (raw : List (Nat × Nat × Nat)) : Option (Nat × Nat) → List (Nat × Nat × Nat) × Bool
  | last =>
    match raw with
    | [] => ([], false)
    | (x, y, m) :: r =>
      let ok := match last with | none => true | some (px, py) => decide (py < y) || (py == y && decide (px < x))
      if ok then
        let (l, b) := dpcScan r (some (x, y))
        ((x, y, m) :: l, b)
      else ([], true)

/-- The defect table of a frame (R208): entries outside the frame are skipped. -/
def defects (s : State) (c : MillCtx) : List (Nat × Nat × Nat) × Bool :=
  let base := c.f F.MIL_DPC_TBL_BASE
  let cnt := c.f F.MIL_DPC_CNT_COUNT
  if base = 0 || cnt = 0 || !tableIn base (8 * cnt) then ([], false)
  else
    let raw := (List.range cnt).map (fun k =>
      let a := base * 64 + 8 * k
      (s.dreadN a 2, s.dreadN (a + 2) 2, s.dreadN (a + 4) 1))
    let (l, b) := dpcScan raw none
    (l.filter (fun e => decide (e.1 < c.sx) && (if c.area then decide (e.2.1 < c.sy) else e.2.1 == 0)), b)

/-- A position is listed. -/
def listedAt (c : MillCtx) (l : List (Nat × Nat × Nat)) (x y : Nat) : Option Nat :=
  (l.find? (fun e => e.1 == x && (!c.area || e.2.1 == y))).map (·.2.2)

/-- Bytes of the flat-field table (R209). -/
def ffBytes (c : MillCtx) : Nat :=
  let l := min 6 (c.f F.MIL_FF_CFG_CELL_LOG2)
  let gw := (c.sx - 1) / 2 ^ l + 2
  let gh := if c.area then (c.sy - 1) / 2 ^ l + 2 else 1
  2 * gw * gh

/-- The flat-field stage runs (R193, R209). -/
def ffOn (c : MillCtx) : Bool := c.on F.MIL_CFG_FF && tableIn (c.f F.MIL_FF_TBL_BASE) (ffBytes c)

/-- The gain of a pixel as a fraction over 2^42 (R209): G in Q2.14 over 2^12 for the cells, times MIL_GAIN in Q16.16. -/
def gainAt (s : State) (c : MillCtx) (x y : Nat) : Nat :=
  let l := min 6 (c.f F.MIL_FF_CFG_CELL_LOG2)
  let base := c.f F.MIL_FF_TBL_BASE * 64
  let cell := 2 ^ l
  let g : Nat :=
    if base = 0 then 2 ^ 26
    else
      let gw := (c.sx - 1) / cell + 2
      let knot (i j : Nat) : Nat := s.dreadN (base + 2 * (j * gw + i)) 2
      let (i, fx) := (x / cell, x % cell)
      if c.area then
        let (j, fy) := (y / cell, y % cell)
        (knot i j * (cell - fx) * (cell - fy) + knot (i + 1) j * fx * (cell - fy) + knot i (j + 1) * (cell - fx) * fy +
          knot (i + 1) (j + 1) * fx * fy) * 2 ^ (12 - 2 * l)
      else (knot i 0 * (cell - fx) + knot (i + 1) 0 * fx) * 2 ^ (12 - l)
  g * c.f F.MIL_GAIN_GAIN

/-! ### The noise model (R201) -/

/-- A square root in units of 2^-30 of a value in units of 2^-60 (R191): its relative error stays below 2^-16, which leaves the free
error less than one part in 65,536 of the root, the floor included. -/
def rootQ (v : Nat) : Nat :=
  let r := isqrt v
  let b : Int := (r / 65536 - 1 : Nat)
  ((r : Int) + clampI (-b) b (Config.sqrtError v)).toNat

/-- σ of a pixel in units of 2^-30 (R201). -/
def sigma (s : State) (c : MillCtx) (x y v : Nat) : Nat :=
  let a := c.f F.MIL_NM_A_A
  let b := c.f F.MIL_NM_B_B
  if c.l6 then
    let g := if ffOn c then gainAt s c x y else 2 ^ 42
    -- g over 2^42: the variance is g squared times A over 2^100 plus g times B times v over 2^62
    rootQ ((g * g * a + g * b * v * 2 ^ 38) / 2 ^ 40)
  else rootQ ((a * 16 + b * (v - c.f F.MIL_NM_BLACK_BLACK)) * 2 ^ 40)

/-! ### Stage 2: spatial (R202) -/

def spatial (s : State) (c : MillCtx) (bad : List (Nat × Nat × Nat)) (rows : Rows) : Rows :=
  let st : Int := c.step
  let near : List (Int × Int) := if c.area then
      [(-st, -st), (0, -st), (st, -st), (-st, 0), (st, 0), (-st, st), (0, st), (st, st)]
    else [(-(2 * st), 0), (-st, 0), (st, 0), (2 * st, 0)]
  let str := c.f F.MIL_NR_SP_STR
  let ctr := max 1 (c.f F.MIL_NR_SP_CENTRE)
  let hit (x y : Nat) : Bool := !c.l6 && (listedAt c bad x y).isSome
  mapRows rows c.ch (fun x y k p =>
    if p.fill || hit x y then p
    else
      let sg := sigma s c x y p.v
      let ns := near.filterMap (fun d =>
        match pxAt rows c.sx c.ch (x + d.1) (y + d.2) k with
        | some q =>
          let (nx, ny) := (((x : Int) + d.1).toNat, ((y : Int) + d.2).toNat)
          if q.fill || q.f.testBit 2 || hit nx ny then none
          else if ((q.v : Int) - p.v).natAbs * 2 ^ 30 ≤ str * sg then some q.v else none
        | none => none)
      roundPx (ctr * p.v + ns.sum : Nat) (ctr + ns.length) p.f)

/-! ### Stage 2: temporal (R203 to R205) -/

/-- Displacement in sixteenths of a pixel or line (R203). -/
def displacement (c : MillCtx) (p ref : Postmark) : Int :=
  let d := wrapI 32 (p.pos - ref.pos)
  let ppt := c.f F.MIL_PPT_PPT
  let m := d.natAbs * ppt
  let sgn : Int := if d < 0 then -1 else 1
  if c.bayer = 0 then sgn * ((m + 2 ^ 31) / 2 ^ 32 : Nat)
  else sgn * (32 * ((m + 2 ^ 36) / 2 ^ 37) : Nat)

/-- The blend of R205: value, reference in sixteenths of the value's unit, weight in sixteenths, σ. -/
def blend (c : MillCtx) (p : Px) (r16 : Int) (w16 sg : Nat) : Px :=
  let k := c.f F.MIL_NR_T_K
  let cur : Int := (p.v : Int) * 16
  let diff := r16 - cur
  let d := diff.natAbs * 2 ^ 26
  let t := c.f F.MIL_NR_T_STR * sg
  if d ≤ t then roundPx (cur * 4096 + diff * w16 * (256 - k : Nat)) (16 * 4096) p.f
  else if 2 * t ≤ d then p
  else roundPx (cur * (4096 * t : Nat) + diff * w16 * (256 - k : Nat) * (2 * t - d : Nat)) (16 * 4096 * t) p.f

/-- The reference value of an AREA pixel in sixteenths of the value's unit (R204). -/
def refAt (c : MillCtx) (ref : Rows) (d : Int) (x y k : Nat) : Option Int :=
  let dir := c.f F.MIL_CFG_WEB_DIR
  let along : Int := 16 * (if dir < 2 then (y : Int) else x) + (if dir = 0 || dir = 2 then -d else d)
  let i := floorDiv along 16
  let fr := (along % 16).toNat
  let at_ (j : Int) : Option Px := if dir < 2 then pxAt ref c.sx c.ch x j k else pxAt ref c.sx c.ch j y k
  let good (q : Option Px) : Option Int := match q with
    | some q => if q.fill then none else some q.v
    | none => none
  if fr = 0 then (good (at_ i)).map (· * 16)
  else
    match good (at_ i), good (at_ (i + 1)) with
    | some a, some b => some (a * (16 - fr : Nat) + b * fr)
    | _, _ => none

/-- Temporal filter on an AREA frame (R204, R205). -/
def temporalArea (s : State) (c : MillCtx) (ref : Option Rows) (d : Int) (rows : Rows) : Rows :=
  if c.f F.MIL_NR_T_K = 0 then rows
  else mapRows rows c.ch (fun x y k p =>
    if p.fill then p
    else
      match ref.bind (fun r => refAt c r d x y k) with
      | some r => blend c p r 16 (sigma s c x y p.v)
      | none => p.flag fUnreg)

/-- Temporal filter on one line of a LINE stream (R204, R205). -/
def temporalLine (s : State) (c : MillCtx) (ref : Option (List Px)) (d : Int) (row : List Px) : List Px :=
  if c.f F.MIL_NR_T_K = 0 then row
  else
    let w := 16 - min 16 d.natAbs
    row.mapIdx (fun i p =>
      if p.fill then p
      else
        match ref.bind (fun r => r[i]?) with
        | some q => if w = 0 || q.fill then p.flag fUnreg else blend c p ((q.v : Int) * 16) w (sigma s c (i / c.ch) 0 p.v)
        | none => p.flag fUnreg)

/-! ### Stages 3 to 5 -/

/-- Black level (R207). -/
def blackOn (c : MillCtx) : Bool := c.on F.MIL_CFG_BLACK && tableIn (c.f F.MIL_BLK_TBL_BASE) (2 * c.sx)
def blackStage (s : State) (c : MillCtx) (rows : Rows) : Rows :=
  let base := c.f F.MIL_BLK_TBL_BASE * 64
  mapRows rows c.ch (fun x _ _ p =>
    if p.fill then p
    else
      let e := if base = 0 then 0 else signed 16 (s.dreadN (base + 2 * x) 2)
      limitPx ((p.v : Int) - c.f F.MIL_BLACK_BLACK - e) p.f)

/-- Mean rounded to the nearest sixteenth; none of nothing. -/
def meanOf (l : List Nat) : Option Nat := if l.isEmpty then none else some ((2 * l.sum + l.length) / (2 * l.length))

/-- Lower middle of a sorted list. -/
def medianOf (l : List Nat) : Option Nat :=
  let m := l.mergeSort (fun a b => decide (a ≤ b))
  m[(m.length - 1) / 2]?

/-- Defective pixels (R208). -/
def dpcOn (c : MillCtx) : Bool := c.on F.MIL_CFG_DPC && tableIn (c.f F.MIL_DPC_TBL_BASE) (8 * c.f F.MIL_DPC_CNT_COUNT)
def dpcStage (c : MillCtx) (bad : List (Nat × Nat × Nat)) (rows : Rows) : Rows :=
  let st : Int := c.step
  let usable (k : Nat) (x y : Int) : Option Nat :=
    match pxAt rows c.sx c.ch x y k with
    | some q => if q.fill || (listedAt c bad x.toNat y.toNat).isSome then none else some q.v
    | none => none
  mapRows rows c.ch (fun x y k p =>
    match listedAt c bad x y with
    | none => p
    | some m =>
      let at_ (l : List (Int × Int)) : List Nat := l.filterMap (fun d => usable k (x + d.1) (y + d.2))
      let v :=
        if m = 3 then none
        else if m = 1 && c.area then meanOf (at_ [(0, -st), (0, st)])
        else if m = 2 then
          medianOf (at_ (if c.area then
              [(-st, -st), (0, -st), (st, -st), (-st, 0), (st, 0), (-st, st), (0, st), (st, st)]
            else [(-(2 * st), 0), (-st, 0), (st, 0), (2 * st, 0)]))
        else meanOf (at_ [(-st, 0), (st, 0)])
      ⟨v.getD p.v, p.f ||| fReplaced⟩)

/-- Flat field (R209). -/
def ffStage (s : State) (c : MillCtx) (rows : Rows) : Rows :=
  mapRows rows c.ch (fun x y _ p => roundPx (p.v * gainAt s c x y : Nat) (2 ^ 42) p.f)

/-! ### Stage 7: demosaic (R213) -/

/-- The colour of a site: 0 red, 1 green, 2 blue. -/
def bayerColour (bayer x y : Nat) : Nat :=
  let (a, b) := (x % 2, y % 2)
  match bayer with
  | 1 => if b = 0 then (if a = 0 then 1 else 0) else (if a = 0 then 2 else 1)
  | 2 => if b = 0 then (if a = 0 then 0 else 1) else (if a = 0 then 1 else 2)
  | 3 => if b = 0 then (if a = 0 then 1 else 2) else (if a = 0 then 0 else 1)
  | _ => if b = 0 then (if a = 0 then 2 else 1) else (if a = 0 then 1 else 0)

/-- A coordinate mirrored about the edge pixels of [0, w). -/
def mirror (w : Nat) (x : Int) : Nat :=
  let x := if x < 0 then -x else x
  let x := if x > (w : Int) - 1 then 2 * ((w : Int) - 1) - x else x
  (max 0 x).toNat

/-- The three words of a site from a window of rows: `y` is the row in the window, `yAbs` its parity in the frame. -/
def demosaicAt (c : MillCtx) (rows : Rows) (x y yAbs : Nat) : List Px :=
  let h := rows.length
  let v (dx dy : Int) : Int :=
    match pxAt rows c.sx 1 (mirror c.sx (x + dx)) (mirror h (y + dy)) 0 with
    | some q => q.v
    | none => 0
  let f := match pxAt rows c.sx 1 x y 0 with | some q => q.f | none => 0
  let here := v 0 0
  let own := bayerColour c.bayer x yAbs
  let meth := c.f F.MIL_CFG_DEMO_METHOD == 1
  -- four times the mean of the same-colour pixels at distance 2, for the correction of method 1
  let far := v (-2) 0 + v 2 0 + v 0 (-2) + v 0 2
  let corr := 4 * here - far
  let est (col : Nat) : Px :=
    if col = own then ⟨here.toNat, f⟩
    else
      let side := v (-1) 0 + v 1 0
      let vert := v 0 (-1) + v 0 1
      let diag := v (-1) (-1) + v 1 (-1) + v (-1) 1 + v 1 1
      -- numerators over 4 for the bilinear part, over 8 for the weight of the correction
      let (bil, w8) : Int × Int :=
        if own != 1 && col = 1 then (side + vert, 4)
        else if own != 1 then (diag, 6)
        else (2 * (if bayerColour c.bayer (x + 1) yAbs = col then side else vert), 5)
      if meth then roundPx (8 * bil + w8 * corr) 32 f else roundPx bil 4 f
  [est 0, est 1, est 2]

/-- Demosaic acts on this frame (R193). -/
def demoOn (c : MillCtx) : Bool := c.on F.MIL_CFG_DEMO && c.bayer != 0
/-- Channels after stage 7. -/
def outChans (c : MillCtx) : Nat := if demoOn c then 3 else c.ch

/-- Demosaic of a whole frame. -/
def demosaicRows (c : MillCtx) (rows : Rows) : Rows :=
  rows.mapIdx (fun y r => (List.range r.length).flatMap (fun x => demosaicAt c rows x y y))

/-! ### Stage 8: colour matrix, tone (R214, R215) -/

/-- The coefficients in order. -/
def cmx (c : MillCtx) : List Int :=
  ([c.f F.MIL_CMX0_C00, c.f F.MIL_CMX0_C01, c.f F.MIL_CMX1_C02, c.f F.MIL_CMX1_C10, c.f F.MIL_CMX2_C11, c.f F.MIL_CMX2_C12,
    c.f F.MIL_CMX3_C20, c.f F.MIL_CMX3_C21, c.f F.MIL_CMX4_C22]).map (signed 16)

/-- The colour matrix on a row of three-channel positions. -/
def cmxRow (m : List Int) : List Px → List Px
  | r :: g :: b :: t =>
    let o (k : Nat) (p : Px) : Px :=
      roundPx (m.getD (3 * k) 0 * r.v + m.getD (3 * k + 1) 0 * g.v + m.getD (3 * k + 2) 0 * b.v) 4096 p.f
    o 0 r :: o 1 g :: o 2 b :: cmxRow m t
  | t => t

/-- The tone stage runs (R193, R215). -/
def toneOn (c : MillCtx) : Bool :=
  c.on F.MIL_CFG_TONE && c.f F.MIL_TONE_TBL_BASE != 0 && tableIn (c.f F.MIL_TONE_TBL_BASE) (4100 * outChans c)

/-- One value through a table (R215). -/
def tonePx (s : State) (c : MillCtx) (tbl : Nat) (p : Px) : Px :=
  let sh := min 10 (c.f F.MIL_TONE_CFG_IN_SHIFT)
  let t (i : Nat) : Nat := s.dreadN (tbl + 4 * i) 4 % 2 ^ 24
  let i := p.v / 16 / 2 ^ sh
  if i ≥ 1024 then { p with v := t 1024 }
  else
    let den := 16 * 2 ^ sh
    roundPx ((t i : Int) * den + ((t (i + 1) : Int) - t i) * (p.v - i * den : Nat)) den p.f

/-- Stage 8 on a row. -/
def stage8 (s : State) (c : MillCtx) (row : List Px) : List Px :=
  let ch := outChans c
  let row := if c.on F.MIL_CFG_CMX && ch == 3 then cmxRow (cmx c) row else row
  if toneOn c then
    row.mapIdx (fun i p => tonePx s c (c.f F.MIL_TONE_TBL_BASE * 64 + 4100 * (i % ch)) p)
  else row

/-! ### Stage 9: statistics (R216 to R218) -/

/-- Saturating additions of the record's fields. -/
def sat32 (a b : Nat) : Nat := satAdd (2 ^ 32 - 1) a b
def sat64 (a b : Nat) : Nat := satAdd (2 ^ 64 - 1) a b

/-- Group a row into positions. -/
def positions (ch : Nat) : Nat → List Px → List (List Px)
  | 0, _ => []
  | k + 1, l => if l.isEmpty then [] else l.take ch :: positions ch k (l.drop ch)

/-- Add one position to the statistics (R217). -/
def statPos (c : MillCtx) (a : StatAcc) (x y : Nat) (ps : List Px) : StatAcc :=
  let fl := ps.foldl (fun f p => f ||| p.f) 0
  if fl.testBit 1 then { a with fill := sat32 a.fill 1 }
  else
    let v := match ps with
      | [r, g, b] => (r.v + 2 * g.v + b.v) / 4
      | [p] => p.v
      | _ => 0
    let i := v / 16
    let bin := min 255 (i / 2 ^ min 12 (c.f F.MIL_ST_CFG_HIST_SHIFT))
    let roi := a.roi.mapIdx (fun k r =>
      let (x0, y0, x1, y1) := (cfgF c.cfg (F.MIL_ROI_A_X0 c.n k), cfgF c.cfg (F.MIL_ROI_A_Y0 c.n k),
        cfgF c.cfg (F.MIL_ROI_B_X1 c.n k), cfgF c.cfg (F.MIL_ROI_B_Y1 c.n k))
      if x0 ≤ x && x ≤ x1 && y0 ≤ y && y ≤ y1 then (sat32 r.1 1, sat64 r.2.1 v, sat64 r.2.2 (i * i)) else r)
    { a with
      clip := if fl.testBit 0 then sat32 a.clip 1 else a.clip
      repl := if fl.testBit 2 then sat32 a.repl 1 else a.repl
      unreg := if fl.testBit 3 then sat32 a.unreg 1 else a.unreg
      mn := min a.mn v
      mx := max a.mx v
      sum := sat64 a.sum v
      roi := roi
      hist := mset (fun _ => 0) a.hist bin (sat32 (mget (fun _ => 0) a.hist bin) 1) }

/-- Add one line to the statistics. -/
def statLine (c : MillCtx) (a : StatAcc) (row : List Px) : StatAcc :=
  let a' := ((positions (outChans c) row.length row).zipIdx).foldl (fun a e => statPos c a e.2 a.lines e.1) a
  { a' with lines := sat32 a.lines 1, tdiPart := a'.tdiPart || row.any (fun p => p.f.testBit 5) }

/-- A statistics record (R216); RECORD_NO is put in when it is written. -/
def statRecord (c : MillCtx) (a : StatAcc) (md : LineMeta) : List (BitVec 8) :=
  let fl := md.flags ||| (if a.tdiPart then flTdiPart else 0)
  let head := bytesLE 1 c.n ++ bytesLE 1 (outChans c) ++ bytesLE 2 fl ++ bytesLE 2 md.pm.gen ++ bytesLE 1 md.pm.epoch ++ [0] ++
    bytesLE 4 md.pm.seq.toNat ++ bytesLE 4 (wrapN 32 md.pm.time) ++ bytesLE 4 (wrapN 32 md.pm.pos) ++ bytesLE 4 a.lines ++
    bytesLE 4 c.sx ++ bytesLE 4 0 ++ bytesLE 4 a.clip ++ bytesLE 4 a.fill ++ bytesLE 4 a.repl ++ bytesLE 4 a.unreg ++
    bytesLE 4 a.mn ++ bytesLE 4 a.mx ++ bytesLE 8 a.sum
  let rois := a.roi.flatMap (fun r => bytesLE 4 r.1 ++ bytesLE 4 0 ++ bytesLE 8 r.2.1 ++ bytesLE 8 r.2.2 ++ bytesLE 8 0)
  let hist := (List.range 256).flatMap (fun b => bytesLE 4 (mget (fun _ => 0) a.hist b))
  head ++ rois ++ hist ++ List.replicate 64 0

end Sys2Proof.Machine
end

