-- ==== Sys2Proof/Machine/MillRun.lean ====
section
/-! DEFINITION. Machine/MillRun.lean: how the Mill runs (R197 to R200, R206, R210 to R212, R216 to R221): input queues, segments,
a frame through the stages of its route, line accumulation, statistics records, calibration. -/

namespace Sys2Proof.Machine
open Sys2Proof

/-! ### Region, discards -/

/-- Bins that may be open at once (R200). -/
def binsMax (c : MillCtx) : Nat :=
  ceilDiv ((c.sy - 1) * (signed 32 (c.f F.MIL_ROW_GRAINS_ROW)).natAbs) (max 1 (c.f F.MIL_TDI_PITCH_PITCH)) + 2

/-- Line accumulation runs (R193, MIL_TDI_PITCH). -/
def tdiOn (c : MillCtx) : Bool := c.on F.MIL_CFG_TDI && c.f F.MIL_TDI_PITCH_PITCH != 0

/-- The bytes a stream's region must hold (R200). -/
def millNeed (c : MillCtx) : Nat :=
  let f := if c.on F.MIL_CFG_TNR then (if c.area then c.sy else 1) else 0
  let b := if tdiOn c then binsMax c else 0
  c.sx * c.ch * (4 * (max 4 (c.f F.MIL_INQ_LINES) + 4 + f) + 8 * b)

/-- The region is missing or too small (R200). -/
def histSmall (c : MillCtx) : Bool :=
  c.f F.MIL_HIST_BASE_BASE == 0 || decide (c.f F.MIL_HIST_SIZE_SIZE * 64 < millNeed c)

/-- Two postmarks between which no reference holds (R206): generation, uncertainty, epoch, axis. -/
def refBroken (a b : Postmark) (fa fb : Nat) : Bool :=
  a.gen != b.gen || fa.testBit 5 || fb.testBit 5 || a.epoch != b.epoch || a.axis != b.axis

/-- The displacement leaves the frame (R206). -/
def farMoved (c : MillCtx) (d : Int) : Bool :=
  decide (16 * (if c.f F.MIL_CFG_WEB_DIR < 2 then c.sy else c.sx) ≤ d.natAbs)

/-- The conditions of R206 at the start of a frame, or of the first line of one on a LINE stream. -/
def mustReset (x : MillSt) (c : MillCtx) (ver : MillVer) (pm : Postmark) (flags : Nat) : Bool :=
  x.cmdReset || (match x.lastVer with | some v => v.enables != ver.enables || v.applies != ver.applies | none => true) ||
  (match x.lastPm with
   | some (p, f) => refBroken pm p flags f || farMoved c (displacement c pm p)
   | none => false)

/-! ### Lines out -/

/-- Lines of a unit of an output whose source is a stream (R249): HED_O_LINES, or the stream's SIZE_Y. -/
def unitLines (s : State) (o n : Nat) : Nat :=
  let k := s.lf (F.HED_O_LINES_LINES o)
  if k != 0 then k
  else
    match (List.range 4).find? (fun p => parActive s p && s.lf (F.PAR_CFG_STREAM p) == n) with
    | some p => s.lf (F.PAR_SIZE_SIZE_Y p)
    | none => s.lf (F.GVS_S_SIZE_SIZE_Y n)

/-- The outputs that take a stream, or a sequence, as their source and run (R248). -/
def outsOf (s : State) (kind src : Nat) : List Nat :=
  (List.range 32).filter (fun o => (mget (fun _ => {}) s.outs o : OutSt).ok && s.lon (F.HED_O_CFG_EN o) &&
    s.lf (F.HED_O_CFG_SRC_KIND o) == kind && (if kind = 0 then s.lf (F.HED_O_CFG_SRC o) % 8 else s.lf (F.HED_O_CFG_SRC o)) == src)

/-- Put out a line that has passed stage 8: to the statistics, the collator and the heads (R193, R210, R217). -/
def lineOut (s : State) (c : MillCtx) (md : LineMeta) (row : List Px) : State :=
  let n := c.n
  let s := if c.on F.MIL_CFG_STATS then
      let x := s.mill n
      s.setMill n { x with acc := statLine c x.acc row }
    else s
  let s := s.incrPair (R.MIL_S_LINES_LO n) (R.MIL_S_LINES_HI n) 1
  let l : OutLine := ⟨n, outChans c, md, row⟩
  (outsOf s 1 n).foldl (fun t o => headLine t l o) { s with toCol := s.toCol ++ [l] }

/-- Make the record of what has been gathered and begin anew (R216, R218). -/
def closeStats (s : State) (c : MillCtx) (md : LineMeta) : State :=
  let x := s.mill c.n
  if c.on F.MIL_CFG_STATS && c.f F.MIL_ST_BASE_BASE != 0 then
    s.setMill c.n { x with
      acc := {}
      recs := x.recs ++ [(statRecord c x.acc md, c.f F.MIL_ST_BASE_BASE, min 16 (c.f F.MIL_ST_CFG_RING_LOG2))] }
  else s.setMill c.n { x with acc := {} }

/-- A line that demosaic held leaves stage 9 under the settings of its own frame; when it is the last of a frame whose record waits for
it, the record is made (R213, R218). -/
def heldOut (s : State) (m : LineMeta) (i : FrameInfo) (win : Rows) (y : Nat) : State :=
  let c := ctxOf i
  let len := ((win[y]?).getD []).length
  let s := lineOut s c m (stage8 s c ((List.range len).flatMap (fun x => demosaicAt c win x y m.row)))
  match (s.mill c.n).statDue with
  | some (md, j) =>
    if m.last && j.frame == i.frame then closeStats (s.setMill c.n { s.mill c.n with statDue := none }) (ctxOf j) md else s
  | none => s

/-- Demosaic gives up the line it holds when no line of a mosaic follows it: the rows beyond it are mirrored (R213). -/
def flushHeld (s : State) (n : Nat) : State :=
  let x := s.mill n
  match x.demo with
  | (m1, i, r1) :: rest =>
    let win := (rest.map (·.2.2)).reverse ++ [r1]
    heldOut (s.setMill n { x with demo := [] }) m1 i win (win.length - 1)
  | [] => s

/-- A line of a line stream reaches stage 7: without demosaic it goes on; with it, the line before it is worked out from the lines
around it (R213). -/
def lineStage7 (s : State) (i : FrameInfo) (md : LineMeta) (row : List Px) : State :=
  let c := ctxOf i
  if demoOn c then
    let x := s.mill c.n
    let held := ((md, i, row) :: x.demo).take 4
    let s := s.setMill c.n { x with demo := held.take 3 }
    match held with
    | _ :: (m1, i1, r1) :: rest =>
      let win := (rest.map (·.2.2)).reverse ++ [r1, row]
      heldOut s m1 i1 win (win.length - 2)
    | _ => s
  else
    let s := flushHeld s c.n
    lineOut s c md (stage8 s c row)

/-! ### Line accumulation (R211, R212) -/

/-- The number of the bin nearest a position, the lower of two equally near (R211). -/
def binOf (c : MillCtx) (p : Int) : Int :=
  let pitch := c.f F.MIL_TDI_PITCH_PITCH
  floorDiv (2 * (p - signed 32 (c.f F.MIL_TDI_OFS_OFS)) + pitch - 1) (2 * pitch)
def binPos (c : MillCtx) (n : Int) : Int := signed 32 (c.f F.MIL_TDI_OFS_OFS) + n * (c.f F.MIL_TDI_PITCH_PITCH : Nat)
def tdiTol (c : MillCtx) : Nat :=
  let t := c.f F.MIL_TDI_TOL_TOL
  if t = 0 then c.f F.MIL_TDI_PITCH_PITCH / 2 else t

/-- Insert a bin in rising order. -/
def binInsert (b : TdiBin) : List TdiBin → List TdiBin
  | [] => [b]
  | a :: r => if b.n < a.n then b :: a :: r else if a.n = b.n then b :: r else a :: binInsert b r

/-- Move the bins that are due from the front, along the direction of travel, to those to be put out (R212). -/
def releaseBins (x : MillSt) : MillSt :=
  let order := if x.rev then x.bins.reverse else x.bins
  let go := order.takeWhile (·.due)
  let left := order.drop go.length
  { x with bins := if x.rev then left.reverse else left, ready := x.ready ++ go, gone := x.gone ++ go.map (·.n) }

/-- Every open bin is due (R206, R212). -/
def allBins (x : MillSt) : MillSt := releaseBins { x with bins := x.bins.map (fun b => { b with due := true }) }

/-- Add a row to its bin (R211). -/
def addRow (s : State) (c : MillCtx) (i : FrameInfo) (md : LineMeta) (row : List Px) : State :=
  let n := c.n
  let b := binOf c md.pos
  if (md.pos - binPos c b).natAbs > tdiTol c then s.bump (F.MIL_S_TDI_CNT_OFFBIN n)
  else
    let x := s.mill n
    let old := x.bins.find? (fun a => a.n == b)
    if x.gone.contains b || (match old with | some a => a.due | none => false) then s.bump (F.MIL_S_TDI_CNT_LATE n)
    else
      let a := old.getD { n := b, px := row.map (fun _ => (0, 0, 0)), md := md, info := i }
      let px := (a.px.zip row).map (fun e =>
        if e.2.fill then e.1 else (e.1.1 + e.2.v, e.1.2.1 + 1, e.1.2.2 ||| e.2.f))
      let a := { a with px := px, rows := a.rows + 1, md := md, due := decide (max 1 (c.f F.MIL_TDI_CFG_K) ≤ a.rows + 1) }
      let x := releaseBins { x with bins := binInsert a x.bins }
      let x := if x.bins.length > binsMax c then
          (match (if x.rev then x.bins.reverse else x.bins) with
           | o :: _ => releaseBins { x with bins := x.bins.map (fun q => if q.n == o.n then { q with due := true } else q) }
           | [] => x)
        else x
      s.setMill n x

/-- The line a bin gives (R212). -/
def binLine (c : MillCtx) (b : TdiBin) : LineMeta × List Px :=
  let part := decide (b.rows < max 1 (c.f F.MIL_TDI_CFG_K))
  let px := b.px.map (fun e =>
    let p : Px := if e.2.1 = 0 then ⟨0, fFill⟩
      else if c.on F.MIL_TDI_CFG_MEAN then roundPx e.1 e.2.1 e.2.2 else limitPx e.1 e.2.2
    if part then p.flag fTdiPart else p)
  let fl := if part then b.md.flags ||| flTdiPart else b.md.flags
  ({ b.md with pos := binPos c b.n, flags := fl, last := false, rows := c.sy, pm := { b.md.pm with pos := binPos c b.n } }, px)

/-- A bin leaves as one line (R212). -/
def binOut (s : State) (b : TdiBin) : State :=
  let (md, row) := binLine (ctxOf b.info) b
  lineStage7 s b.info md row

/-- TDI_BIN_EMIT (R212): the next bin that has reached K rows, or been passed, is put out as one line. -/
def execTdiBinEmit (n : Fin 64) (s : State) : Host.Outcome State Fault Refusal :=
  let x := s.mill n
  match x.ready with
  | b :: rest =>
    done (binOut (s.setMill n { x with ready := rest }) b)
  | [] => done s

/-- Every bin that is due is put out (R212). -/
def emitReady (s : State) (n : Nat) : State :=
  let x := s.mill n
  x.ready.foldl binOut (s.setMill n { x with ready := [] })

/-! ### Calibration (R220) -/

/-- Add a frame's pixels to the calibration table. -/
def calAdd (s : State) (c : MillCtx) (rows : Rows) : State :=
  let base := (s.rd (R.MIL_CAL_TBL c.n)).toNat * 64
  ((rows.map (positions c.ch c.sx)).zipIdx).foldl (fun s r =>
    (r.1.zipIdx).foldl (fun s e =>
      let y := if c.area then r.2 else 0
      let a := base + 24 * (y * c.sx + e.2)
      if e.1.any Px.fill then s
      else
        let v := match e.1 with
          | [p] => p.v
          | [p, q, t] => Config.calValue p.v q.v t.v % 2 ^ 24
          | _ => 0
        s.dwrite a (bytesLE 8 (s.dreadN a 8 + v) ++ bytesLE 8 (s.dreadN (a + 8) 8 + v / 16 * (v / 16)) ++
          bytesLE 4 (s.dreadN (a + 16) 4 + 1))) s) s

/-- After a frame that its port opened since CAL_START, CAL_LEFT falls by one; at zero the accumulation is done (R220). -/
def calFrame (s : State) (c : MillCtx) (ver : MillVer) (s1 black : Rows) : State :=
  let x := s.mill c.n
  if x.calRun && ver.cals == x.ver.cals then
    let s := calAdd s c (if s.on (F.MIL_CAL_CFG_CAL_TAP c.n) then black else s1)
    let left := s.f (F.MIL_CAL_LEFT_LEFT c.n) - 1
    let s := s.sf (F.MIL_CAL_LEFT_LEFT c.n) left
    if left = 0 then (s.setMill c.n { x with calRun := false }).set1 (F.MIL_S_FLAGS_CAL_DONE c.n) else s
  else s

/-- MIL_CMD.CAL_START (R220): the entries are zeroed and accumulation begins at the next frame. -/
def doCalStart (s : State) (n : Nat) : State :=
  let x := s.mill n
  let k := s.f (F.MIL_CAL_CFG_FRAMES n)
  let base := (s.rd (R.MIL_CAL_TBL n)).toNat
  if x.calRun || k == 0 || base == 0 then s.set1 (F.MIL_S_FLAGS_RANGE n)
  else
    let p := (List.range 4).find? (fun p => parActive s p && s.lf (F.PAR_CFG_STREAM p) == n)
    let (sx, sy) := match p with
      | some p => (s.lf (F.PAR_SIZE_SIZE_X p), s.lf (F.PAR_SIZE_SIZE_Y p))
      | none => (s.lf (F.GVS_S_SIZE_SIZE_X n), s.lf (F.GVS_S_SIZE_SIZE_Y n))
    let cells := if s.lon (F.MIL_CFG_KIND n) then sx * sy else sx
    let s := s.dzero (base * 64) (24 * cells)
    (s.sf (F.MIL_CAL_LEFT_LEFT n) k).setMill n { x with calRun := true, ver := { x.ver with cals := x.ver.cals + 1 } }

/-- MIL_CMD.CAL_ABORT (R220). -/
def doCalAbort (s : State) (n : Nat) : State := s.setMill n { s.mill n with calRun := false }

/-- CAL_START (R220). -/
def execCalStart (n : Fin 64) (s : State) : Host.Outcome State Fault Refusal :=
  if s.up then done (doCalStart s n) else done s
/-- CAL_ABORT (R220). -/
def execCalAbort (n : Fin 64) (s : State) : Host.Outcome State Fault Refusal :=
  if s.up then done (doCalAbort s n) else done s

/-- MIL_CMD.TNR_RESET (R206): the reference is discarded; the next frame is treated as having none. -/
def doTnrReset (s : State) (n : Nat) : State := s.setMill n { s.mill n with ref := none, cmdReset := true }

/-- TNR_RESET (R206). -/
def execTnrReset (n : Fin 64) (s : State) : Host.Outcome State Fault Refusal :=
  if s.up then done (doTnrReset s n) else done s

/-! ### A frame through the Mill -/

/-- Noise reduction, spatial then temporal (R202 to R205): the rows, the new reference, and whether a line's reference was
discarded. -/
def noiseStage (s : State) (c : MillCtx) (bad : List (Nat × Nat × Nat)) (ref : Option RefSt) (pms : List Postmark) (flags : Nat)
    (rows : Rows) : Rows × Option RefSt × Bool :=
  let rows := if c.on F.MIL_CFG_SNR then spatial s c bad rows else rows
  if !c.on F.MIL_CFG_TNR then (rows, none, false)
  else if c.area then
    let pm := pms.headD {}
    let d := match ref with | some r => displacement c pm r.pm | none => 0
    let out := temporalArea s c (ref.map (·.rows)) d rows
    (out, some ⟨pm, flags, out⟩, false)
  else
    let step := (rows.zip pms).foldl (fun (acc : Rows × Option RefSt × Bool) e =>
      let (done', ref, cut) := acc
      let broken := match ref with
        | some r => refBroken e.2 r.pm flags r.flags || farMoved c (displacement c e.2 r.pm)
        | none => false
      let ref := if broken then none else ref
      let d := match ref with | some r => displacement c e.2 r.pm | none => 0
      let row := temporalLine s c (ref.bind (fun r => r.rows.head?)) d e.1
      (done' ++ [row], some ⟨e.2, flags, [row]⟩, cut || broken)) ([], ref, false)
    step

/-- Hand lines to the granary tap (R194, R285), under the granary settings in force when the port opened the frame. -/
def tapLines (s : State) (c : MillCtx) (rows : Rows) (mds : List LineMeta) : State :=
  if cfgOn c.cfg (F.GRN_S_CFG_EN c.n) then
    { s with toTap := s.toTap ++ (rows.zip mds).map (fun e =>
        ⟨⟨c.n, c.ch, e.2, e.1⟩, cfgOn c.cfg (F.GRN_S_CFG_FORMAT c.n), c.bits, c.on F.MIL_CFG_NORM16, c.on F.MIL_CFG_TAP⟩) }
  else s

/-- A stage that its table's place turns off sets RANGE (R193); so does a demosaic that acts under a method it does not have (R213). -/
def stageRange (s : State) (c : MillCtx) : State :=
  let off := (c.on F.MIL_CFG_BLACK && !blackOn c) || (c.on F.MIL_CFG_DPC && !dpcOn c) || (c.on F.MIL_CFG_FF && !ffOn c) ||
    (c.on F.MIL_CFG_TONE && c.f F.MIL_TONE_TBL_BASE != 0 && !toneOn c) || (demoOn c && decide (2 ≤ c.f F.MIL_CFG_DEMO_METHOD))
  if off then s.set1 (F.MIL_S_FLAGS_RANGE c.n) else s

/-- A frame that arrives at line accumulation (R211, R212, R218): the record of the lines emitted since the last arrival is made, the bins
that are passed are due, and the rows are added. On a LINE stream a line of another exposure, epoch or axis makes every open bin due. -/
def accumulate (s : State) (c : MillCtx) (i : FrameInfo) (md : LineMeta) (mds : List LineMeta) (rows : Rows) : State :=
  let n := c.n
  let s := match (s.mill n).accFor with
    | some (m, j) => closeStats s (ctxOf j) m
    | none => s
  let x := s.mill n
  let ps := mds.map (·.pos)
  let near := if x.rev then ps.foldl max (ps.headD 0) else ps.foldl min (ps.headD 0)
  let passed (b : TdiBin) : Bool :=
    if x.rev then decide (near < binPos c b.n - (tdiTol c : Nat)) else decide (binPos c b.n + (tdiTol c : Nat) < near)
  let x := releaseBins { x with bins := x.bins.map (fun b => if passed b then { b with due := true } else b) }
  let s := s.setMill n { x with accFor := some (md, i) }
  ((rows.zip mds).foldl (fun (acc : State × Option Postmark) e =>
    let t := match acc.2 with
      | some p => if !c.area && refBroken e.2.pm p 0 0 then acc.1.setMill n (allBins (acc.1.mill n)) else acc.1
      | none => acc.1
    (addRow t c i e.2 e.1, some e.2.pm)) (s, none)).1

/-- What a frame leaves with the stream for the next one (R206, R211, R212): the reference, the settings' counts, its postmark, the
direction of travel, and the bins, all due when the reference would be discarded. -/
def afterFrame (x : MillSt) (c : MillCtx) (i : FrameInfo) (newRef : Option RefSt) (lastPm : Postmark) (flags : Nat) (reset : Bool) : MillSt :=
  let grid := (signed 32 (c.f F.MIL_TDI_OFS_OFS), c.f F.MIL_TDI_PITCH_PITCH, i.pm.axis, i.pm.epoch)
  let anew := grid != x.grid || x.lastVer.map (·.enables) != some i.ver.enables
  let y := if reset then allBins x else x
  let rev := match x.lastPos with
    | some p => let d := wrapI 32 (i.pm.pos - p); if d = 0 then x.rev else decide (d < 0)
    | none => false
  { y with
    ref := newRef, lastVer := some i.ver, cmdReset := false, lastPm := some (lastPm, flags), lastPos := some i.pm.pos
    grid := grid, rev := rev, gone := if anew then [] else y.gone }

/-- A whole frame (R192 to R221): `flags` are those of its close. -/
def runFrame (s : State) (fr : MillFrame) (flags actual : Nat) : State :=
  let i := fr.info
  let c := ctxOf i
  let n := c.n
  let small := histSmall c
  let x := s.mill n
  let flags := if fr.overflow then flags ||| flOverflow else flags
  -- positions and postmarks of the rows (R210)
  let row := signed 32 (c.f F.MIL_ROW_GRAINS_ROW)
  let pms := fr.rows.map (·.2)
  let rowPos (r : Nat) (pm : Postmark) : Int := if i.lineMode then pm.pos else i.pm.pos + r * row
  let linePm := pms.mapIdx (fun r pm => if i.lineMode then pm else { i.pm with pos := rowPos r pm })
  let reset := mustReset x c i.ver (if c.area then i.pm else linePm.headD i.pm) flags
  let s := stageRange s c
  let ref := if reset then none else x.ref
  let (bad, disorder) := if dpcOn c || (c.on F.MIL_CFG_SNR && !c.l6) then defects s c else ([], false)
  let s := if disorder then s.set1 (F.MIL_S_FLAGS_DPC_ORDER n) else s
  let s := if dpcOn c && bad.any (fun e => decide (4 ≤ e.2.2)) then s.set1 (F.MIL_S_FLAGS_RANGE n) else s
  let s1 := fr.rows.map (fun r => r.1.map (unpackPx c))
  let corr (rows : Rows) : Rows × Rows :=
    let b := if blackOn c then blackStage s c rows else rows
    let d := if dpcOn c then dpcStage c bad b else b
    (b, if ffOn c then ffStage s c d else d)
  let (pre, noisy, black, newRef, cut) :=
    if entersLate (fr.rows.map (·.1)) then
      let (b, rows) := corr s1
      (if c.l6 then s1 else rows, s1, b, ref, false)
    else if c.l6 then
      let (b, rows) := corr s1
      let (o, r, k) := noiseStage s c bad ref (if c.area then [i.pm] else linePm) flags rows
      (o, o, b, r, k)
    else
      let (o, r, k) := noiseStage s c bad ref (if c.area then [i.pm] else linePm) flags s1
      let (b, rows) := corr o
      (rows, o, b, r, k)
  let discarded := c.on F.MIL_CFG_TNR && (reset || cut)
  let flags := if discarded then flags ||| flTnrReset else flags
  let s := if discarded then s.set1 (F.MIL_S_FLAGS_TNR_RESET n) else s
  let total := fr.rows.length
  let mds : List LineMeta := pms.mapIdx (fun r pm =>
    ⟨i.frame, r, if i.lineMode then pm else i.pm, rowPos r pm, i.pm.pos, flags, r + 1 == total, actual, row, total⟩)
  let md : LineMeta := ⟨i.frame, 0, i.pm, i.pm.pos, i.pm.pos, flags, true, actual, row, total⟩
  let s := tapLines s c (if c.on F.MIL_CFG_TAP then noisy else s1) mds
  let s := calFrame s c i.ver s1 black
  let last := if c.area then i.pm else (linePm.getLast?).getD i.pm
  let s := s.setMill n (afterFrame (s.mill n) c i newRef last flags reset)
  if small then s
  else if tdiOn c then accumulate s c i md mds pre
  else
    let s := emitReady s n
    let s := s.setMill n { s.mill n with accFor := none }
    if c.area then
      let rows := if demoOn c then demosaicRows c pre else pre
      closeStats ((rows.zip mds).foldl (fun t e => lineOut t c e.2 (stage8 t c e.1)) (flushHeld s n)) c md
    else
      let s := (pre.zip mds).foldl (fun t e => lineStage7 t i e.2 e.1) s
      if demoOn c && total != 0 then s.setMill n { s.mill n with statDue := some (md, i) } else closeStats s c md

/-! ### Input queues and segments (R197, R198) -/

/-- The stream of an item on its way to the Mill. -/
def MillIn.stream : MillIn → Nat
  | .opened f => f.stream
  | .line n _ _ _ _ => n
  | .closed n _ _ _ => n

def isLine : MillIn → Bool
  | .line _ _ _ _ _ => true
  | _ => false

/-- Lines queued. -/
def inqUsed (x : MillSt) : Nat := (x.inq.filter (fun e => isLine e.1)).length

/-- Lines a stream's queue holds (MIL_INQ). -/
def inqRoom (s : State) (n : Nat) : Nat := max 4 (s.lf (F.MIL_INQ_LINES n))

/-- The queue of a stream is full, or fill lines wait for room in it (R198). -/
def queueFull (s : State) (n : Nat) : Bool := decide (inqRoom s n ≤ inqUsed (s.mill n)) || !(s.mill n).owed.isEmpty

/-- Of what waits for room, what a queue with `k` lines of room takes: fill lines up to its room, and the frame marks before the next. -/
def owedTake : Nat → List MillIn → List MillIn × List MillIn
  | _, [] => ([], [])
  | k, e :: r =>
    if isLine e then
      match k with
      | 0 => ([], e :: r)
      | j + 1 => let (a, b) := owedTake j r; (e :: a, b)
    else let (a, b) := owedTake k r; (e :: a, b)

/-- The queue has room: lines of fill take the places of dropped ones (R198). -/
def placeOwed (s : State) (n : Nat) : State :=
  let x := s.mill n
  let (go, left) := owedTake (inqRoom s n - inqUsed x) x.owed
  s.setMill n { x with inq := x.inq ++ go.map (fun e => (e, isLine e)), owed := left }

/-- MILL_LINE_ARRIVE (R19, R198, R200): the next item reaches its stream's input queue. A line at a full queue is dropped and counted, and
a line of fill stands in its place once the queue has room; in REPLAY mode it waits instead. -/
def execMillLineArrive (s : State) : Host.Outcome State Fault Refusal :=
  match s.toMill with
  | [] => done s
  | e :: rest =>
    let n := e.stream
    if !s.up || (isLine e && queueFull s n && s.f F.DEV_MODE_MODE == 6) then done s
    else
      let s := { s with toMill := rest }
      let x := s.mill n
      match e with
      | .line st fr r px pm =>
        if queueFull s n then
          let s := s.setMill n { x with owed := x.owed ++ [.line st fr r (px.map (fun _ => none)) pm] }
          let s := (s.bump (F.MIL_S_DROP_LINES n)).set1 (F.MIL_S_FLAGS_OVERFLOW n)
          done (s.set1 F.MIL_STAT_OVERFLOW)
        else done (s.setMill n { x with inq := x.inq ++ [(e, false)] })
      | _ => done (s.setMill n (if x.owed.isEmpty then { x with inq := x.inq ++ [(e, false)] } else { x with owed := x.owed ++ [e] }))

/-- The marks at the head of a stream's queue: frames open, and closed frames run (a bound on their number keeps it structural). -/
def drainMarks : Nat → State → Nat → State
  | 0, s, _ => s
  | k + 1, s, n =>
    let x := s.mill n
    match x.inq with
    | (.opened f, _) :: rest => drainMarks k (s.setMill n { x with inq := rest, cur := some { info := f } }) n
    | (.closed _ _ fl cnt, _) :: rest =>
      match x.cur with
      | some fr => drainMarks k (runFrame (s.setMill n { x with inq := rest, cur := none }) fr fl cnt) n
      | none => drainMarks k (s.setMill n { x with inq := rest }) n
    | _ => s

/-- A stream has a segment ready: its queue's head is a line. -/
def segReady (s : State) (n : Nat) : Bool :=
  match (s.mill n).inq with
  | (.line _ _ _ _ _, _) :: _ => true
  | _ => false

/-- Take one segment of a stream (R197): when the line's last segment is taken the line joins its frame. A line of a stream whose
region is too small is counted as dropped (R200). -/
def takeSegment (s : State) (n : Nat) : State :=
  let x := s.mill n
  match x.inq with
  | (.line _ _ _ px pm, ghost) :: rest =>
    let seg := s.f F.MIL_SEG_SEG_LEN / 32 * 32
    match x.cur with
    | some fr =>
      let c := ctxOf fr.info
      let len := c.sx - x.taken
      let s := { s with millPos := s.millPos + min seg len, millLast := n }
      if len ≤ seg then
        let s := if histSmall c then (s.bump (F.MIL_S_DROP_LINES n)).set1 (F.MIL_S_FLAGS_HIST_SMALL n) else s
        placeOwed (s.setMill n { x with
          inq := rest, taken := 0
          cur := some { fr with rows := fr.rows ++ [(px, pm)], overflow := fr.overflow || ghost } }) n
      else s.setMill n { x with taken := x.taken + seg }
    | none => placeOwed (s.setMill n { x with inq := rest }) n
  | _ => s

/-- MILL_SEGMENT (R197): one segment from the next ready stream in round-robin order. -/
def execMillSegment (s : State) : Host.Outcome State Fault Refusal :=
  if !s.up then done s
  else
    let s := (List.range 64).foldl (fun t n => drainMarks (t.mill n).inq.length t n) s
    match (List.range 64).find? (fun k => segReady s ((s.millLast + 1 + k) % 64)) with
    | some k =>
      let n := (s.millLast + 1 + k) % 64
      let s := takeSegment s n
      done (drainMarks (s.mill n).inq.length s n)
    | none => done s

/-- STATS_RECORD (R219): the next record is written in full, then MIL_ST_WR is incremented. -/
def execStatsRecord (n : Fin 64) (s : State) : Host.Outcome State Fault Refusal :=
  let x := s.mill n
  match x.recs with
  | (r, base, lg) :: rest =>
    if !s.up then done s
    else
      let k := (s.rd (R.MIL_ST_WR n)).toNat
      let r := r.take 28 ++ bytesLE 4 k ++ r.drop 32
      let s := s.setMill n { x with recs := rest }
      let s := s.dwrite (base * 64 + 1280 * (k % 2 ^ lg)) r
      done (s.incr (F.MIL_ST_WR_COUNT n) 1)
  | [] => done s

end Sys2Proof.Machine
end

