-- ==== Sys2Proof/Machine/Collate.lean ====
section
/-! DEFINITION. Machine/Collate.lean: the collator (R225 to R247): maps, sheaf numbers, blending, cuts, watermarks, settling,
closing, strips between devices. -/

namespace Sys2Proof.Machine
open Sys2Proof

def State.member (s : State) (n : Nat) : MemberSt := mget (fun _ => {}) s.members n
def State.setMember (s : State) (n : Nat) (a : MemberSt) : State := { s with members := mset (fun _ => {}) s.members n a }

def prodCut (q : Nat) : Nat := 0x190 + q
def prodClosed (q : Nat) : Nat := 0x198 + q

/-- The COL settings in force. -/
def colCfg (s : State) : List (Nat × Word) := regsIn s.live 0x20401000 0x20403000

/-! ### A sequence's settings (R226, R227, R232) -/

abbrev ColCfg := List (Nat × Word)

def sqOrigin (c : ColCfg) (q : Nat) : Int :=
  signed 64 (cfgF c (F.COL_SQ_ORIGIN_LO_ORIGIN q) + 2 ^ 32 * cfgF c (F.COL_SQ_ORIGIN_HI_ORIGIN q))
def sqPitch (c : ColCfg) (q : Nat) : Nat := cfgF c (F.COL_SQ_PITCH_PITCH q)
def sqLpitch (c : ColCfg) (q : Nat) : Nat := cfgF c (F.COL_SQ_LPITCH_LPITCH q)
def sqLines (c : ColCfg) (q : Nat) : Nat := sqPitch c q / max 1 (sqLpitch c q)
def sqWidth (c : ColCfg) (q : Nat) : Nat := cfgF c (F.COL_SQ_WIDTH_WIDTH q)
def sqU0 (c : ColCfg) (q : Nat) : Int := cfgF c (F.COL_SQ_U0_U0 q)
def sqChans (c : ColCfg) (q : Nat) : Nat := if cfgOn c (F.COL_SQ_CFG_RGB q) then 3 else 1
def sqDir (c : ColCfg) (q : Nat) : Bool := cfgOn c (F.COL_SQ_CFG_DIR q)
def sqSeam (c : ColCfg) (q : Nat) : Bool := cfgOn c (F.COL_SQ_CFG_SEAM q)
/-- Strip widths of the enabled sides. -/
def sqSide (c : ColCfg) (q : Nat) (right : Bool) : Bool :=
  (if right then cfgOn c (F.COL_SQ_XCH_R_EN q) else cfgOn c (F.COL_SQ_XCH_L_EN q)) && cfgOn c (F.COL_SQ_XCH_SW q)
def sqSw (c : ColCfg) (q : Nat) : Nat := min 1024 (cfgF c (F.COL_SQ_XCH_SW q))
def sqLink (c : ColCfg) (q : Nat) (right : Bool) : Nat :=
  if right then cfgF c (F.COL_SQ_XCH_R_LINK q) else cfgF c (F.COL_SQ_XCH_L_LINK q)
def sqSl (c : ColCfg) (q : Nat) : Nat := if sqSide c q false then sqSw c q else 0
def sqSr (c : ColCfg) (q : Nat) : Nat := if sqSide c q true then sqSw c q else 0
/-- Columns of a working row. -/
def sqCols (c : ColCfg) (q : Nat) : Nat := sqSl c q + sqWidth c q + sqSr c q
/-- Bytes of a buffer (R232). -/
def sqBsz (c : ColCfg) (q : Nat) : Nat := ceilDiv (8 * sqChans c q * sqCols c q * sqLines c q) 64 * 64
def sqBufAddr (c : ColCfg) (q b : Nat) : Nat := cfgF c (F.COL_SQ_BUF_BASE_BASE q) * 64 + b * sqBsz c q
def sqRecAddr (c : ColCfg) (q b : Nat) : Nat := cfgF c (F.COL_SQ_REC_BASE_BASE q) * 64 + 128 * b
def sqCount (c : ColCfg) (q : Nat) : Nat := max 2 (min 16 (cfgF c (F.COL_SQ_CFG_COUNT q)))

/-- The conditions under which a sequence runs (R227). -/
def sqUsable (c : ColCfg) (q : Nat) : Bool :=
  cfgOn c (F.COL_SQ_CFG_ENABLE q) && sqPitch c q != 0 && sqLpitch c q != 0 && sqPitch c q % sqLpitch c q == 0 &&
  decide (sqLines c q ≤ 16384) && sqWidth c q != 0 && decide (sqWidth c q ≤ 65536) && cfgOn c (F.COL_SQ_BUF_BASE_BASE q) &&
  cfgOn c (F.COL_SQ_REC_BASE_BASE q) && decide (sqBufAddr c q (sqCount c q) ≤ dmemBytes)

/-- The sheaf of a position (R226). -/
def sheafOf (c : ColCfg) (q : Nat) (p : Int) : Int := floorDiv (wrapI 64 (p - sqOrigin c q)) (sqPitch c q)
/-- S_N (R226). -/
def sheafStart (c : ColCfg) (q : Nat) (n : Int) : Int := sqOrigin c q + n * (sqPitch c q : Nat)

/-! ### Maps (R228, R229) -/

/-- The nodes of a map along one camera row: camera columns over a denominator, U and V over another. -/
structure MapRow where
  xden : Nat
  uden : Nat
  nodes : List (Nat × Int × Int)

/-- A node of a map in device memory: U and V. -/
def mapNode (s : State) (base k : Nat) : Int × Int :=
  (signed 32 (s.dreadN (base + 8 * k) 4), signed 32 (s.dreadN (base + 8 * k + 4) 4))

/-- The shape of a member: columns and rows of its frames, and whether it uses a mesh (R228). -/
structure Shape where
  sx : Nat
  sy : Nat
  mesh : Bool

/-- The map along camera row `r`. -/
def mapRow (s : State) (c : ColCfg) (n : Nat) (h : Shape) (r : Nat) : MapRow :=
  let base := cfgF c (F.COL_M_MAP_BASE n) * 64
  if h.mesh then
    let den := max 1 (h.sy - 1)
    let j := min 62 (r * 63 / den)
    let f := r * 63 - j * den
    ⟨63, den, (List.range 64).map (fun i =>
      let a := mapNode s base (64 * j + i)
      let b := mapNode s base (64 * (j + 1) + i)
      (i * (h.sx - 1), a.1 * (den - f : Nat) + b.1 * f, a.2 * (den - f : Nat) + b.2 * f))⟩
  else
    let l := min 6 (cfgF c (F.COL_M_CFG_NODE_LOG2 n))
    ⟨1, 1, (List.range ((h.sx - 1) / 2 ^ l + 2)).map (fun k => let a := mapNode s base k; (k * 2 ^ l, a.1, a.2))⟩

/-- U is strictly rising or strictly falling along the row (R228). -/
def monotone (m : MapRow) : Bool :=
  let us := m.nodes.map (·.2.1)
  let ps := us.zip (us.drop 1)
  ps.all (fun p => decide (p.1 < p.2)) || ps.all (fun p => decide (p.2 < p.1))

/-- The inverse at a global column (R229): the camera column as a fraction, and V rounded down. -/
def inverseAt (m : MapRow) (u : Int) : Option (Int × Nat × Int) :=
  let t := u * 256 * m.uden
  let pairs := m.nodes.zip (m.nodes.drop 1)
  match pairs.find? (fun p => (decide (p.1.2.1 ≤ t) && decide (t ≤ p.2.2.1)) || (decide (p.2.2.1 ≤ t) && decide (t ≤ p.1.2.1))) with
  | some (a, b) =>
    let du := b.2.1 - a.2.1
    let sg : Int := if du < 0 then -1 else 1
    let den := du.natAbs
    let e := (t - a.2.1) * sg
    some ((a.1 : Int) * den + ((b.1 : Int) - a.1) * e, m.xden * den, floorDiv (a.2.2 * den + (b.2.2 - a.2.2) * e) (m.uden * den))
  | none => none

/-- The camera columns a member uses. -/
def cropOf (c : ColCfg) (n sx : Nat) : Nat × Nat :=
  let hi := cfgF c (F.COL_M_CROP_X_HI n)
  (cfgF c (F.COL_M_CROP_X_LO n), if hi = 0 then sx - 1 else hi)

/-- The camera rows a mesh member uses (R230). -/
def rowsOf (c : ColCfg) (n sy : Nat) : Nat × Nat :=
  let hi := cfgF c (F.COL_M_ROWS_Y_HI n)
  (cfgF c (F.COL_M_ROWS_Y_LO n), if hi = 0 then sy - 1 else hi)

/-- U at a whole camera column, over 256 and the row's denominator. -/
def uAt (m : MapRow) (x : Nat) : Option (Int × Nat) :=
  let t := x * m.xden
  (m.nodes.zip (m.nodes.drop 1)).find? (fun p => decide (p.1.1 ≤ t) && decide (t ≤ p.2.1)) |>.map (fun p =>
    let w := p.2.1 - p.1.1
    (p.1.2.1 * (p.2.1 - t : Nat) + p.2.2.1 * (t - p.1.1 : Nat), max 1 w * 256 * m.uden))

/-- First and last whole global column whose inverse lies between two camera columns of a row, as far as the map covers them (R229);
none when there is no such column. -/
def rowSpan (m : MapRow) (lo hi : Nat) : Option (Int × Int) :=
  let hi := min hi ((m.nodes.getLast?.map (·.1)).getD 0 / m.xden)
  if hi < lo then none
  else
    match uAt m lo, uAt m hi with
    | some (a, da), some (b, db) =>
      let ceil (x : Int) (d : Nat) : Int := -(floorDiv (-x) d)
      let e := if a * db ≤ b * da then (ceil a da, floorDiv b db) else (ceil b db, floorDiv a da)
      if e.1 ≤ e.2 then some e else none
    | _, _ => none

/-- The shape of a stream in the settings in force. -/
def shapeNow (s : State) (n : Nat) : Shape :=
  let p := (List.range 4).find? (fun p => parActive s p && s.lf (F.PAR_CFG_STREAM p) == n)
  let (sx, sy) := match p with
    | some p => (s.lf (F.PAR_SIZE_SIZE_X p), s.lf (F.PAR_SIZE_SIZE_Y p))
    | none => (s.lf (F.GVS_S_SIZE_SIZE_X n), s.lf (F.GVS_S_SIZE_SIZE_Y n))
  ⟨sx, sy, s.lon (F.MIL_CFG_KIND n) && !(s.lon (F.MIL_CFG_TDI n) && s.lon (F.MIL_TDI_PITCH_PITCH n))⟩

/-- Check a member's map and work out its span and offsets (R228, R229): a map that fails still has its least and greatest V. A span
without a column is 1 to 0 (DESIGN CHOICE: R229 names no value for it). -/
def spanOf (s : State) (c : ColCfg) (n : Nat) (h : Shape) : Span :=
  let base := cfgF c (F.COL_M_MAP_BASE n)
  let l := min 6 (cfgF c (F.COL_M_CFG_NODE_LOG2 n))
  let nl := (h.sx - 1) / 2 ^ l + 2
  if base = 0 || h.sx = 0 then {}
  else
    let (ylo, yhi) := rowsOf c n h.sy
    let rows := if h.mesh then (List.range h.sy).map (mapRow s c n h) else [mapRow s c n h 0]
    let used := if h.mesh then ((List.range (min (yhi + 1) h.sy - ylo)).map (fun k => mapRow s c n h (ylo + k))) else rows
    let vs := if h.mesh then (List.range 4096).map (fun k => (mapNode s (base * 64) k).2)
      else (List.range nl).map (fun k => (mapNode s (base * 64) k).2)
    let (lo, hi) := cropOf c n h.sx
    let sp : Span := { vMin := vs.foldl min (vs.headD 0), vMax := vs.foldl max (vs.headD 0) }
    if (!h.mesh && decide (4096 < nl)) || !rows.all monotone then sp
    else
      match used.filterMap (fun m => rowSpan m lo hi) with
      | [] => { sp with ok := true, uFirst := 1, uLast := 0 }
      | f :: r => { sp with ok := true, uFirst := r.foldl (fun a e => min a e.1) f.1, uLast := r.foldl (fun a e => max a e.2) f.2 }

/-! ### Contributions (R229 to R231) -/

/-- One contribution: global column, sheaf, output line, weight in 1/256, and the pixel of each channel. -/
structure Contrib where
  u : Int
  sheaf : Int
  line : Nat
  w : Nat
  px : List Px

/-- Weight at a global column (R231). -/
def weightAt (c : ColCfg) (n : Nat) (sp : Span) (u : Int) : Nat :=
  let part (d : Int) (f : Nat) : Int := roundDiv (d * 256) (f + 1)
  let a := part (u - sp.uFirst + 1) (cfgF c (F.COL_M_FEATHER_FL n))
  let b := part (sp.uLast - u + 1) (cfgF c (F.COL_M_FEATHER_FR n))
  (max 1 (min 256 (min a b))).toNat

/-- The value at a camera column given as a fraction (R229); none when a source pixel carries FILL. -/
def sampleAt (px : List Px) (ch xhi : Nat) (num : Int) (den : Nat) : Option (List Px) :=
  let x := (floorDiv num den).toNat
  let fr := num.toNat - x * den
  let get (x k : Nat) : Option Px := px[x * ch + k]?
  let one (k : Nat) : Option Px :=
    match get x k with
    | none => none
    | some a =>
      if a.fill then none
      else if x = xhi && fr = 0 then some a
      else
        match get (x + 1) k with
        | some b => if b.fill then none else some (roundPx ((a.v : Int) * (den - fr : Nat) + (b.v : Int) * fr) den (a.f ||| b.f))
        | none => none
  let l := (List.range ch).filterMap one
  if l.length = ch then some l else none

/-- The contributions of a line under given settings (R229, R230). -/
def contribs (s : State) (c : ColCfg) (q n : Nat) (h : Shape) (sp : Span) (o : OutLine) : List Contrib :=
  let (ylo, yhi) := rowsOf c n h.sy
  if !sp.ok || (h.mesh && !(decide (ylo ≤ o.md.row) && decide (o.md.row ≤ yhi))) then []
  else
    let m := mapRow s c n h (if h.mesh then o.md.row else 0)
    let (xlo, xhi) := cropOf c n h.sx
    let first := sqU0 c q - sqSl c q
    (List.range (sp.uLast - sp.uFirst + 1).toNat).filterMap (fun (k : Nat) =>
      let u := sp.uFirst + k
      if u < first || first + sqCols c q ≤ u then none
      else
        match inverseAt m u with
        | none => none
        | some (num, den, v) =>
          if num < (xlo : Int) * den || (xhi : Int) * den < num then none
          else
            match sampleAt o.px o.chans xhi num den with
            | none => none
            | some px =>
              let p := o.md.pos + signed 32 (cfgF c (F.COL_M_SHIFT_SHIFT n)) + v
              let nSheaf := sheafOf c q p
              let line := (floorDiv (wrapI 64 (p - sqOrigin c q) - nSheaf * (sqPitch c q : Nat)) (sqLpitch c q)).toNat
              some ⟨u, nSheaf, line, weightAt c n sp u, px⟩)

/-! ### Working entries (R231) -/

/-- An entry's fields: BLEND: flags, WSUM, VSUM; SEAM: flags, W, VALUE, STREAM. -/
def entryFlags (e : Nat) : Nat := e / 2 ^ 56
def entryW (e : Nat) : Nat := e / 2 ^ 40 % 2 ^ 16
def blendEntry (f w v : Nat) : Nat := f * 2 ^ 56 + w * 2 ^ 40 + v
def seamEntry (f w v st : Nat) : Nat := f * 2 ^ 56 + w * 2 ^ 40 + v * 2 ^ 16 + st * 2 ^ 10

/-- Combine one entry into another (R231): sums in BLEND, the higher weight in SEAM; OVERLAP where both have weight. -/
def combine (seam : Bool) (e x : Nat) : Nat :=
  let meets := entryW e != 0 && entryW x != 0
  let ov := if meets then fOverlap else 0
  if seam then
    let st (a : Nat) := a / 2 ^ 10 % 64
    let take := decide (entryW e < entryW x) || (entryW e == entryW x && entryW x != 0 && decide (st x < st e))
    let k := if take then x else e
    (entryFlags k ||| ov) * 2 ^ 56 + k % 2 ^ 56
  else
    blendEntry ((entryFlags e ||| entryFlags x) ||| ov) (satAdd 0xFFFF (entryW e) (entryW x))
      (satAdd (2 ^ 40 - 1) (e % 2 ^ 40) (x % 2 ^ 40))

/-- The entry a contribution makes. -/
def entryOf (seam : Bool) (p : Px) (w st : Nat) : Nat :=
  if seam then seamEntry p.f w p.v st else blendEntry p.f w (p.v * w)

/-- Place of an entry in a buffer, in entries. -/
def entryAt (c : ColCfg) (q line : Nat) (u : Int) (k : Nat) : Nat :=
  (line * sqCols c q + (u - (sqU0 c q - sqSl c q)).toNat) * sqChans c q + k

/-- Combine an entry at a place of a sheaf, in its working area and in device memory. -/
def putEntry (s : State) (q : Nat) (h : SheafSt) (place x : Nat) : SheafSt × State :=
  let e := combine (sqSeam h.cfg q) (mget (fun _ => 0) h.work place) x
  ({ h with work := mset (fun _ => 0) h.work place e }, s.dwrite (sqBufAddr h.cfg q h.buf + 8 * place) (bytesLE 8 e))

/-- The pixel word an entry settles to (R231). -/
def settlePx (c : ColCfg) (q e : Nat) : Px :=
  if entryW e = 0 then ⟨cfgF c (F.COL_SQ_FILL_FILL q), fFill⟩
  else if sqSeam c q then ⟨e / 2 ^ 16 % 2 ^ 24, entryFlags e⟩
  else roundPx (e % 2 ^ 40 : Nat) (entryW e) (entryFlags e)

/-! ### Sheaves of a sequence -/

/-- In the direction of travel, `a` comes before `b`. -/
def before_ (dir : Bool) (a b : Int) : Bool := if dir then decide (b < a) else decide (a < b)

/-- The sheaf of an epoch that is OPEN or CUT with a number. -/
def findSheaf (x : SeqSt) (epoch : Nat) (n : Int) : Option SheafSt :=
  x.sheaves.find? (fun h => h.no == n && h.epoch == epoch && h.stage != .closed)

/-- Store a sheaf by its buffer. -/
def putSheaf (s : State) (q : Nat) (h : SheafSt) : State :=
  let x := s.seq q
  s.setSeq q { x with sheaves := x.sheaves.map (fun g => if g.buf == h.buf then h else g) }

/-- Cut a sheaf (R232, R233). -/
def cutSheaf (s : State) (forced : Bool) (h : SheafSt) : SheafSt :=
  { h with stage := .cut, cutTime := s.tim.total, cutAt := some s.now,
           flags := if forced then h.flags ||| 2 ^ 14 else h.flags }

/-- Cut every OPEN sheaf a test names. -/
def cutWhere (s : State) (q : Nat) (forced : Bool) (p : SheafSt → Bool) : State :=
  let x := s.seq q
  let hit := x.sheaves.any (fun h => h.stage == .opened && p h)
  let s := s.setSeq q { x with sheaves := x.sheaves.map (fun h => if h.stage == .opened && p h then cutSheaf s forced h else h) }
  if forced && hit then s.set1 (F.COL_SQ_FLAGS_FORCED q) else s

/-- A void band for each enabled side of a sheaf that is lost here (R241, R242). -/
def bandHeader (c : ColCfg) (q : Nat) (right : Bool) (no : Int) (band lines : Nat) : List (BitVec 8) :=
  let first := if right then sqU0 c q + sqWidth c q else sqU0 c q - sqSw c q
  bytesLE 2 (cfgF c (F.COL_SQ_XID_XID q)) ++ bytesLE 1 band ++
    bytesLE 1 ((if sqSeam c q then 1 else 0) + (if cfgOn c (F.COL_SQ_CFG_RGB q) then 2 else 0)) ++
    bytesLE 8 (wrapN 64 no) ++ bytesLE 4 (sqLpitch c q) ++ bytesLE 4 (wrapN 32 first) ++ bytesLE 2 (sqSw c q) ++
    bytesLE 2 lines ++ bytesLE 8 0

/-- No buffer is FREE (R232): the sheaf is lost, counted once, and the oldest OPEN sheaf with a lower number is cut. -/
def loseSheaf (s : State) (q : Nat) (n : Int) : State :=
  let x := s.seq q
  if x.lost.contains n then s
  else
    let c := colCfg s
    let voids := [false, true].filterMap (fun r =>
      if sqSide c q r then some (r, sqLink c q r, bandHeader c q r n 0 0) else none)
    let s := s.setSeq q { x with lost := x.lost ++ [n], bands := x.bands ++ voids }
    let s := (s.bump (F.COL_SQ_CNT_LOST q)).setPair (R.COL_SQ_LOST_LO q) (R.COL_SQ_LOST_HI q) (wrapN 64 n)
    let s := noteClose ((s.set1 (F.COL_SQ_FLAGS_NOBUF q)).set1 F.COL_STAT_NOBUF) q n
    match (s.seq q).sheaves.find? (fun h => h.stage == .opened && decide (h.no < n)) with
    | none => s
    | some o => cutWhere s q true (fun g => g.buf == o.buf)

/-- The buffers that are FREE (R232). -/
def freeBufs (c : ColCfg) (x : SeqSt) (q : Nat) : List Nat :=
  (List.range (sqCount c q)).filter (fun b => !x.sheaves.any (fun h => h.buf == b))

/-- A buffer's area is still taken: a sheaf that is held lies in it under the settings it opened with, or it meets an area that a
COL_SQ_BUF_BASE has moved away from while a sheaf is held there (R244). -/
def areaHeld (s : State) (c : ColCfg) (q b : Nat) : Bool :=
  (List.range 8).any (fun r => (s.seq r).sheaves.any (fun h =>
    (r == q && areasMeet (sqBufAddr h.cfg r h.buf) (sqBsz h.cfg r) (sqBufAddr c q b) (sqBsz c q)) ||
    (cfgF h.cfg (F.COL_SQ_BUF_BASE_BASE r) != cfgF c (F.COL_SQ_BUF_BASE_BASE r) &&
      areasMeet (sqBufAddr h.cfg r 0) (sqCount h.cfg r * sqBsz h.cfg r) (sqBufAddr c q b) (sqBsz c q))))

/-- Open a sheaf in the lowest FREE buffer whose area is not held, or lose it (R232, R244). -/
def openSheaf (s : State) (q : Nat) (n : Int) (epoch : Nat) : State :=
  let x := s.seq q
  let c := colCfg s
  match (freeBufs c x q).find? (fun b => !areaHeld s c q b) with
  | none => loseSheaf s q n
  | some b =>
    let spans := (List.range 64).filterMap (fun m =>
      if cfgOn c (F.COL_M_CFG_EN m) && cfgF c (F.COL_M_CFG_SEQ m) == q then some (m, (s.member m).span) else none)
    let s := s.setSeq q { x with sheaves := x.sheaves ++ [{ no := n, buf := b, cfg := c, spans := spans, epoch := epoch }]
                                 epoch := some epoch }
    s.dzero (sqBufAddr c q b) (sqBsz c q)

/-- A member that a sheaf counts (R225, R244). -/
def membersOf (h : SheafSt) : List Nat := h.spans.map (·.1)

/-! ### Watermarks (R234) -/

/-- A member is done with output line `j` of a sheaf. -/
def doneWith (c : ColCfg) (q : Nat) (mark : Option Int) (no : Int) (j : Nat) : Bool :=
  match mark with
  | none => false
  | some m =>
    let st := sheafStart c q no + j * (sqLpitch c q : Nat)
    if sqDir c q then decide (m ≤ st + sqLpitch c q - 1) else decide (st ≤ m)

/-- A member's watermark after a line (R234); none while a mesh member's frame has accepted rows to come. -/
def newMark (c : ColCfg) (q n : Nat) (h : Shape) (sp : Span) (o : OutLine) : Option Int :=
  let sh := signed 32 (cfgF c (F.COL_M_SHIFT_SHIFT n))
  let v := if sqDir c q then sp.vMax else sp.vMin
  if h.mesh then
    let (ylo, yhi) := rowsOf c n h.sy
    if decide (yhi ≤ o.md.row) || o.md.last then
      let e := if sqDir c q then max (ylo * o.md.rowG) (yhi * o.md.rowG) else min (ylo * o.md.rowG) (yhi * o.md.rowG)
      some (o.md.framePos + e + sh + v)
    else none
  else some (o.md.pos + sh + v)

/-! ### A line reaches the collator -/

/-- Mark a contributing line on its sheaf: contributors, frame flags, generations (R238). -/
def noteLine (h : SheafSt) (o : OutLine) : SheafSt :=
  let g := h.gens.find? (fun e => e.1 == o.stream)
  let mixed := match g with | some e => e.2 != o.md.pm.gen | none => false
  { h with
    contrib := h.contrib ||| 2 ^ o.stream
    flagged := if o.md.flags % 512 = 0 then h.flagged else h.flagged ||| 2 ^ o.stream
    flags := (h.flags ||| o.md.flags % 512) ||| (if mixed then 2 ^ 12 else 0)
    gens := if g.isSome then h.gens else h.gens ++ [(o.stream, o.md.pm.gen)] }

/-- A late line (R234): counted once and flagged on its member, and on its sequence (DEDUCED: the register table gives the sequence a
LATE flag and no rule says when it is set). -/
def lateLine (s : State) (q n : Nat) : State :=
  ((s.bump (F.COL_M_CNT_LATE n)).set1 (F.COL_M_FLAGS_LATE n)).set1 (F.COL_SQ_FLAGS_LATE q)

/-- Contribute a line to one OPEN or CUT sheaf under the settings it opened with (R231, R234, R236). The flag says that some
contribution was late. -/
def contribute (s : State) (q : Nat) (o : OutLine) (shape : Shape) (no : Int) : Bool × State :=
  match findSheaf (s.seq q) o.md.pm.epoch no with
  | none => (false, s)
  | some h =>
    let n := o.stream
    match h.spans.find? (fun e => e.1 == n) with
    | none => (false, s)
    | some (_, sp) =>
      let all := (contribs s h.cfg q n shape sp o).filter (fun k => k.sheaf == no)
      let mark := (s.member n).mark
      let late (k : Contrib) : Bool := doneWith h.cfg q mark no k.line || decide (k.line < h.settled)
      let good := all.filter (fun k => !late k)
      let anyLate := all.any late
      let (h', s) := good.foldl (fun (acc : SheafSt × State) k =>
        (k.px.zipIdx).foldl (fun (acc : SheafSt × State) e =>
          putEntry acc.2 q acc.1 (entryAt h.cfg q k.line k.u e.2) (entryOf (sqSeam h.cfg q) e.1 k.w n)) acc) (h, s)
      let h' := if good.isEmpty then h' else noteLine h' o
      let h' := if anyLate then { h' with flags := h'.flags ||| 2 ^ 15 } else h'
      (anyLate, putSheaf s q h')

/-- A number lies at or behind the floor (R240). -/
def behindFloor (x : SeqSt) (dir : Bool) (n : Int) : Bool :=
  match x.floor with
  | some f => !before_ dir f n
  | none => false

/-- A line of a new epoch cuts every open sheaf and clears the floor (R240). -/
def newEpoch (s : State) (q epoch : Nat) : State :=
  let s := cutWhere s q true (fun _ => true)
  let x := s.seq q
  (s.setSeq q { x with floor := none, lost := [], epoch := some epoch, cutK := none }).set1 (F.COL_SQ_FLAGS_EPOCH_CHG q)

/-- COL_LINE (R225, R230 to R235, R240): the next line that has left stage 9. A line of an epoch later than the sequence's begins the
new epoch; a line of an earlier one is late. A line makes its member ACTIVE, and a member that becomes so has missed no sheaf yet. -/
def collateLine (s : State) (o : OutLine) : State :=
  let n := o.stream
  let c := colCfg s
  let q := cfgF c (F.COL_M_CFG_SEQ n)
  if !cfgOn c (F.COL_M_CFG_EN n) || !sqUsable c q then s
  else if o.chans != sqChans c q then (s.set1 (F.COL_M_FLAGS_RANGE n)).set1 F.COL_STAT_RANGE
  else
    let m := s.member n
    let frameW := o.px.length / max 1 o.chans
    let now := shapeNow s n
    let shape : Shape := { now with sx := frameW }
    let x := s.seq q
    let s := s.setSeq q { x with lastPos := some o.md.pos }
    let dir := sqDir c q
    let ep := o.md.pm.epoch
    let ahead := (ep + 256 - (s.seq q).epoch.getD ep) % 256
    if 128 ≤ ahead then lateLine s q n
    else
      let s := if ahead != 0 then newEpoch s q ep else s
      let ks := contribs s c q n shape m.span o
      let ns := (ks.map (·.sheaf)).dedup
      -- sheaves to open first, then contribute to each
      let (late0, s) := ns.foldl (fun (acc : Bool × State) no =>
        let (late, s) := acc
        let x := s.seq q
        if (findSheaf x ep no).isSome then acc
        else if behindFloor x dir no || ks.all (fun k => k.sheaf != no || doneWith c q m.mark no k.line) then (true, s)
        else if x.lost.contains no then acc
        else (late, openSheaf s q no ep)) (false, s)
      let open_ := (((s.seq q).sheaves.filter (fun h => h.stage != .closed && h.epoch == ep)).map (·.no))
      let (late, s) := open_.foldl (fun (acc : Bool × State) no =>
        let (l, t) := contribute acc.2 q o shape no
        (acc.1 || l, t)) (late0, s)
      let s := if late then lateLine s q n else s
      let mk := newMark c q n shape m.span o
      let mark := match mk with | some k => some k | none => m.mark
      let s := s.setMember n { s.member n with mark := mark, state := 1, missed := if m.state = 1 then m.missed else 0 }
      match mark with
      | some k => s.setPair (R.COL_M_WMARK_LO n) (R.COL_M_WMARK_HI n) (wrapN 64 k)
      | none => s

/-- COL_LINE (R230). -/
def execColLine (s : State) : Host.Outcome State Fault Refusal :=
  match s.toCol with
  | o :: rest => if s.up then done (collateLine { s with toCol := rest } o) else done s
  | [] => done s

/-! ### Cuts and RESTART (R233, R240) -/

/-- COL_CUT (R233): an event taken at the cut input; in REPLAY K comes from the latest line delivered (R409). -/
def execColCut (q : Fin 8) (s : State) : Host.Outcome State Fault Refusal :=
  if !s.up then done s
  else
    match takeEvent s (inCut q) with
    | (none, t) => done t
    | (some (hop, origin), t) =>
      let c := colCfg t
      let p := if t.f F.DEV_MODE_MODE = 6 then (t.seq q).lastPos else some (axisPos t (cfgF c (F.COL_SQ_CFG_AXIS q)))
      let t := match p with
        | some p => let k := sheafOf c q p; noteCut (cutWhere t q false (fun h => before_ (sqDir c q) h.no k)) q k
        | none => t
      done (t.raiseEv (prodCut q) (hop + 1) origin)

/-- COL_SQ_CMD.RESTART (R240): every OPEN sheaf is cut; the floor is cleared once they have closed. -/
def doRestart (s : State) (q : Nat) : State :=
  let s := cutWhere s q true (fun _ => true)
  let x := s.seq q
  if x.sheaves.any (fun h => h.stage == .cut) then s.setSeq q { x with restart := true }
  else s.setSeq q { x with floor := none, restart := false, lost := [], cutK := none }

/-- RESTART (R240). -/
def execRestart (q : Fin 8) (s : State) : Host.Outcome State Fault Refusal :=
  if s.up then done (doRestart s q) else done s

/-! ### Settling and closing (R236 to R238) -/

/-- Bands of a sheaf, and the lines of a band (R241). -/
def bandCount (c : ColCfg) (q : Nat) : Nat := ceilDiv (sqLines c q) 256
def bandLines (c : ColCfg) (q b : Nat) : Nat := min 256 (sqLines c q - 256 * b)

/-- Every ACTIVE member is done with a line. -/
def membersDone (s : State) (q : Nat) (h : SheafSt) (j : Nat) : Bool :=
  (membersOf h).all (fun n => (s.member n).state != 1 || doneWith h.cfg q (s.member n).mark h.no j)

/-- The strip band that holds a line has arrived on every enabled side. -/
def bandsThere (q : Nat) (h : SheafSt) (j : Nat) : Bool :=
  [false, true].all (fun r => !sqSide h.cfg q r || h.got.contains (r, j / 256))

/-- Settle the next line of a sheaf (R236, R237): its own columns become pixel words at the start of the buffer. -/
def settleLine (s : State) (q : Nat) (h : SheafSt) : SheafSt × State :=
  let c := h.cfg
  let ch := sqChans c q
  let j := h.settled
  let w := sqWidth c q
  let es := (List.range (w * ch)).map (fun i => mget (fun _ => 0) h.work (entryAt c q j (sqU0 c q + (i / ch : Nat)) (i % ch)))
  let empty := ((es.zipIdx).filter (fun e => e.2 % ch == 0 && entryW e.1 == 0)).length
  let bytes := es.flatMap (fun e => bytesLE 4 (settlePx c q e).word.toNat)
  ({ h with settled := j + 1, filled := h.filled + empty }, s.dwrite (sqBufAddr c q h.buf + 4 * ch * w * j) bytes)

/-- The first sheaf, in the direction of travel, that a test names; the sheaves of an older epoch, which opened before, come before those
of a newer one. -/
def firstSheaf (x : SeqSt) (dir : Bool) (p : SheafSt → Bool) : Option SheafSt :=
  match x.sheaves.filter p with
  | [] => none
  | h :: r => some ((r.filter (fun g => g.epoch == h.epoch)).foldl (fun a b => if before_ dir b.no a.no then b else a) h)

/-- LINE_SETTLE (R236). -/
def execLineSettle (q : Fin 8) (s : State) : Host.Outcome State Fault Refusal :=
  if !s.up then done s
  else
    match firstSheaf (s.seq q) (sqDir (colCfg s) q) (fun h => h.stage != .closed && decide (h.settled < sqLines h.cfg q) &&
        membersDone s q h h.settled && bandsThere q h h.settled) with
    | some h =>
      let (h, s) := settleLine s q h
      done (putSheaf s q h)
    | none => done s

/-- The payload of a band (R242): header, then the entries of the strip, row after row. -/
def bandBytes (q : Nat) (h : SheafSt) (right : Bool) (b : Nat) : List (BitVec 8) :=
  let c := h.cfg
  let ch := sqChans c q
  let first : Int := if right then sqU0 c q + sqWidth c q else sqU0 c q - sqSw c q
  let n := bandLines c q b
  bandHeader c q right h.no b n ++ (List.range n).flatMap (fun i => (List.range (sqSw c q * ch)).flatMap (fun k =>
    bytesLE 8 (mget (fun _ => 0) h.work (entryAt c q (256 * b + i) (first + (k / ch : Nat)) (k % ch)))))

/-- The sheaf record (R238). -/
def sheafRecord (q : Nat) (h : SheafSt) : List (BitVec 8) :=
  let c := h.cfg
  bytesLE 8 (wrapN 64 h.no) ++ bytesLE 8 (wrapN 64 (sheafStart c q h.no)) ++ bytesLE 1 q ++ bytesLE 1 h.epoch ++
    bytesLE 1 (sqChans c q) ++ bytesLE 1 h.buf ++ bytesLE 4 (h.flags % 2 ^ 16) ++ bytesLE 4 (sqWidth c q) ++
    bytesLE 4 (sqLines c q) ++ bytesLE 4 (wrapN 32 (sqU0 c q)) ++ bytesLE 4 h.filled ++ bytesLE 8 h.contrib ++
    bytesLE 8 h.absent ++ bytesLE 8 h.flagged ++ bytesLE 8 (wrapN 64 h.cutTime) ++ bytesLE 8 (wrapN 64 h.closeTime) ++
    bytesLE 8 (sqBufAddr c q h.buf) ++ List.replicate 40 0

/-- Count an absent member (R235, R238): the second sheaf in a row makes an ACTIVE one LAPSED. -/
def noteAbsent (s : State) (n : Nat) (contributed : Bool) : State :=
  let m := s.member n
  if contributed then s.setMember n { m with missed := 0 }
  else
    let s := s.bump (F.COL_M_CNT_ABSENT n)
    if m.state = 1 && m.missed + 1 ≥ 2 then (s.setMember n { m with missed := m.missed + 1, state := 2 }).set1 (F.COL_M_FLAGS_LAPSED n)
    else s.setMember n { m with missed := m.missed + 1 }

/-- Release a closed buffer for one consumer (bit of COL_SQ_CONS); not named or not CLOSED: ignored with RANGE. -/
def releaseBuf (s : State) (q b bit : Nat) : State :=
  let x := s.seq q
  match x.sheaves.find? (fun h => h.buf == b && h.stage == .closed) with
  | some h =>
    if h.holders.testBit bit then
      let left := h.holders - 2 ^ bit
      s.setSeq q { x with sheaves :=
        if left = 0 then x.sheaves.filter (fun g => g.buf != b)
        else x.sheaves.map (fun g => if g.buf == b then { g with holders := left } else g) }
    else (s.set1 (F.COL_SQ_FLAGS_RANGE q)).set1 F.COL_STAT_RANGE
  | none => (s.set1 (F.COL_SQ_FLAGS_RANGE q)).set1 F.COL_STAT_RANGE

/-- A closed sheaf reaches the consumers that COL_SQ_CONS names (R248, R249, R252, R263, R410): each enabled output of a named head
whose source is the sequence gets a unit, and a head without one releases the sheaf; the thresher queues it for dealing, or releases
it when THR_SQ_CFG.EN is 0. In CALIBRATE nothing is held and no tile is dealt. -/
def consumers (s : State) (q buf : Nat) (no : Int) (named : Nat) (calib : Bool) : State :=
  let outs := outsOf s 0 q
  let head (s : State) (h : Nat) : State :=
    if !named.testBit h then s
    else
      let mine := outs.filter (fun o => (if o < 16 then 0 else if o < 24 then 1 else 2) == h)
      let s := { s with hedQ := s.hedQ ++ mine.map (fun o => .sheaf o q buf (!calib) s.now) }
      if calib then s
      else if mine.isEmpty then releaseBuf s q buf h
      else { s with sheafHeads := s.sheafHeads ++ [(h, q, buf, mine.foldl (fun a o => a ||| 2 ^ o) 0)] }
  let s := [0, 1, 2].foldl head s
  if !named.testBit 3 || calib then s
  else if s.lon (F.THR_SQ_CFG_EN q) then { s with thr := { s.thr with jobs := s.thr.jobs ++ [{ q := q, buf := buf, no := no }] } }
  else
    let s := (releaseBuf s q buf 3).set1 (F.THR_SQ_FLAGS_RANGE q)
    s.setPair (R.THR_SQ_LAST_LO q) (R.THR_SQ_LAST_HI q) (wrapN 64 no)

/-- Close a sheaf (R236 to R240): unsettled lines settled at once, unsent bands sent, record written, counts, producer. -/
def closeSheaf (s : State) (q : Nat) (h : SheafSt) (timeout : Bool) : State :=
  let c := h.cfg
  let lines := sqLines c q
  let bands := [false, true].flatMap (fun r =>
    if sqSide c q r then (List.range (bandCount c q)).filterMap (fun b =>
      if h.sent.contains (r, b) then none else some (r, sqLink c q r, bandBytes q h r b)) else [])
  let lack := [false, true].any (fun r => sqSide c q r && (List.range (bandCount c q)).any (fun b => !h.got.contains (r, b)))
  let (h, s) := (List.range (lines - h.settled)).foldl (fun (acc : SheafSt × State) _ => settleLine acc.2 q acc.1) (h, s)
  let ms := membersOf h
  let absent := (ms.filter (fun n => !h.contrib.testBit n)).foldl (fun a n => a ||| 2 ^ n) 0
  let fl := h.flags ||| (if h.filled = 0 then 0 else 2 ^ 9) ||| (if absent = 0 then 0 else 2 ^ 10) |||
    (if timeout then 2 ^ 11 else 0) ||| (if timeout && lack then 2 ^ 13 else 0)
  let named := fieldOf (mget resetWord c (R.COL_SQ_CONS q)) 4 0
  let calib := s.f F.DEV_MODE_MODE == 7
  let cons := if calib then 16 else named
  let x := s.seq q
  let h := { h with stage := .closed, flags := fl, absent := absent, holders := cons, closeTime := s.tim.total, order := x.closed
                    work := [] }
  let s := s.dwrite (sqRecAddr c q h.buf) (sheafRecord q h)
  let sheaves := if cons = 0 then x.sheaves.filter (fun g => g.buf != h.buf) else x.sheaves.map (fun g => if g.buf == h.buf then h else g)
  let pendingCut := sheaves.any (fun g => g.stage == .cut)
  let clearing := x.restart && !pendingCut
  let present := x.epoch == some h.epoch
  let s := s.setSeq q { x with
    sheaves := sheaves, closed := x.closed + 1, bands := x.bands ++ bands
    floor := if clearing then none else if present then some h.no else x.floor
    restart := x.restart && !clearing
    cutK := if clearing then none else x.cutK
    lost := if clearing then [] else if present then x.lost.filter (fun n => before_ (sqDir c q) h.no n) else x.lost }
  let s := consumers s q h.buf h.no named calib
  let s := ms.foldl (fun t n => noteAbsent t n (h.contrib.testBit n)) s
  let s := (s.setPair (R.COL_SQ_LAST_LO q) (R.COL_SQ_LAST_HI q) (wrapN 64 h.no)).sf (F.COL_SQ_LAST_IDX_BUF q) h.buf
  noteClose ((s.bump (F.COL_SQ_CNT_CLOSED q)).raise (prodClosed q)) q h.no

/-- The next sheaf to close: the first that is not yet closed, once it is CUT. -/
def nextToClose (s : State) (q : Nat) : Option SheafSt :=
  match firstSheaf (s.seq q) (sqDir (colCfg s) q) (fun h => h.stage != .closed) with
  | some h => if h.stage = .cut then some h else none
  | none => none

/-- SHEAF_CLOSE (R236, R237). -/
def execSheafClose (q : Fin 8) (s : State) : Host.Outcome State Fault Refusal :=
  match nextToClose s q with
  | some h => if s.up && h.settled == sqLines h.cfg q then done (closeSheaf s q h false) else done s
  | none => done s

/-- CLOSE_TMO (R236). -/
def execCloseTmo (q : Fin 8) (s : State) : Host.Outcome State Fault Refusal :=
  match nextToClose s q with
  | some h =>
    let tmo := cfgF h.cfg (F.COL_SQ_CLOSE_TMO_TMO q)
    if s.up && tmo != 0 && decide (h.cutAt.getD s.now + tmo * 1000 ≤ s.now) then done (closeSheaf s q h true) else done s
  | none => done s

/-! ### Releases (R239) -/

/-- COL_SQ_REL (R239): a program's release. -/
def execColSqRel (q : Fin 8) (b : Fin 16) (s : State) : Host.Outcome State Fault Refusal :=
  if s.up then done (releaseBuf s q b 4) else done s

/-! ### Strips (R241 to R243) -/

/-- STRIP_BAND_SEND (R241): a band formed at a close or a loss, or the next band whose last line every ACTIVE member is done with. -/
def execStripBandSend (q : Fin 8) (s : State) : Host.Outcome State Fault Refusal :=
  if !s.up then done s
  else
    let x := s.seq q
    match x.bands with
    | (_, link, bytes) :: rest =>
      done { s.setSeq q { x with bands := rest } with toLink := s.toLink ++ [{ link := link, bytes := bytes }] }
    | [] =>
      let ready (h : SheafSt) : Option (Bool × Nat) :=
        ([false, true].flatMap (fun r => (List.range (bandCount h.cfg q)).map (fun b => (r, b)))).find? (fun e =>
          sqSide h.cfg q e.1 && !h.sent.contains e &&
            membersDone s q h (256 * e.2 + (if sqDir h.cfg q then 0 else bandLines h.cfg q e.2 - 1)))
      match firstSheaf x (sqDir (colCfg s) q) (fun h => h.stage != .closed && (ready h).isSome) with
      | some h =>
        match ready h with
        | some (r, b) =>
          let s := putSheaf s q { h with sent := h.sent ++ [(r, b)] }
          done { s with toLink := s.toLink ++ [{ link := sqLink h.cfg q r, bytes := bandBytes q h r b }] }
        | none => done s
      | none => done s

/-- A band that fails is discarded and counted (R243). -/
def badBand (s : State) (q : Nat) : State := (s.bump (F.COL_SQ_STRIP_CNT_BAD q)).set1 F.COL_STAT_STRIP_BAD

/-- The first column that a sequence expects on a side (R241). -/
def bandFirst (c : ColCfg) (q : Nat) (right : Bool) : Int :=
  if right then sqU0 c q + sqWidth c q - sqSw c q else sqU0 c q

/-- Take a received band into a sequence on one side (R240, R243). Of two sheaves with its number, one of an epoch that is over and one of
the present, it is for the one that opened first and lacks it (DEDUCED: a band names no epoch). -/
def takeBand (s : State) (q : Nat) (right : Bool) (p : List (BitVec 8)) : State :=
  let c := colCfg s
  let no := signed 64 (leAt p 4 8)
  let band := leAt p 2 1
  let n := leAt p 22 2
  let x := s.seq q
  let held := x.sheaves.filter (fun h => h.no == no && h.stage != .closed)
  let mine := match held.find? (fun h => !h.got.contains (right, band)) with | some h => some h | none => held.head?
  let c' := match mine with | some h => h.cfg | none => c
  let ch := sqChans c' q
  let ok := leAt p 0 2 == cfgF c' (F.COL_SQ_XID_XID q) && leAt p 12 4 == sqLpitch c' q && leAt p 20 2 == sqSw c' q &&
    leAt p 3 1 % 2 == (if sqSeam c' q then 1 else 0) && leAt p 3 1 / 2 % 2 == (if cfgOn c' (F.COL_SQ_CFG_RGB q) then 1 else 0) &&
    signed 32 (leAt p 16 4) == bandFirst c' q right && decide (band < bandCount c' q) && (n == 0 || n == bandLines c' q band)
  if !ok then badBand s q
  else
    match mine with
    | none =>
      if behindFloor x (sqDir c q) no then (s.bump (F.COL_SQ_STRIP_CNT_LATE q)).set1 (F.COL_SQ_FLAGS_STRIP_LATE q)
      else if x.lost.contains no then s
      else
        let epoch := x.epoch.getD s.epoch
        let s := openSheaf s q no epoch
        match findSheaf (s.seq q) epoch no with
        | none => s
        | some h => takeInto s q right h band n ch p
    | some h => if h.got.contains (right, band) then badBand s q else takeInto s q right h band n ch p
where
  /-- Combine a band into an OPEN or CUT sheaf. -/
  takeInto (s : State) (q : Nat) (right : Bool) (h : SheafSt) (band n ch : Nat) (p : List (BitVec 8)) : State :=
    if n = 0 then
      putSheaf s q { h with
        got := h.got ++ (List.range (bandCount h.cfg q)).map (fun b => (right, b)), flags := h.flags ||| 2 ^ 13 }
    else
      let sw := sqSw h.cfg q
      let first := bandFirst h.cfg q right
      let (h', s) := (List.range (n * sw * ch)).foldl (fun (acc : SheafSt × State) i =>
        let (line, k) := (i / (sw * ch), i % (sw * ch))
        let e := leAt p (32 + 8 * i) 8
        if entryW e = 0 then acc
        else putEntry acc.2 q acc.1 (entryAt h.cfg q (256 * band + line) (first + (k / ch : Nat)) (k % ch)) e) (h, s)
      putSheaf s q { h' with got := h'.got ++ [(right, band)] }

/-- The sequence and side that a band on a link is for: an enabled side of that link whose sequence has the band's XID, the one that expects
its first column where there are two. -/
def bandSide (c : ColCfg) (link : Nat) (p : List (BitVec 8)) : Option (Nat × Bool) :=
  let cand := (List.range 8).flatMap (fun q => [false, true].filterMap (fun r =>
    if sqUsable c q && sqSide c q r && sqLink c q r == link then some (q, r) else none))
  let named := cand.filter (fun e => cfgF c (F.COL_SQ_XID_XID e.1) == leAt p 0 2)
  (named.find? (fun e => bandFirst c e.1 e.2 == signed 32 (leAt p 16 4))).or (named.head?.or cand.head?)

/-- A band on a link of no enabled side (R243, R246) is BAD at the lowest sequence with its XID, and where there is none, in COL_STAT alone
(DESIGN CHOICE: the rules name no sequence for it). -/
def strayBand (s : State) (p : List (BitVec 8)) : State :=
  match (List.range 8).find? (fun q => cfgF (colCfg s) (F.COL_SQ_XID_XID q) == leAt p 0 2) with
  | some q => badBand s q
  | none => s.set1 F.COL_STAT_STRIP_BAD

/-- STRIP_BAND (R243, R246): the next band received whole on an Ebkel link. -/
def execStripBand (s : State) : Host.Outcome State Fault Refusal :=
  match s.strips with
  | [] => done s
  | (link, p) :: rest =>
    if !s.up then done s
    else
      let s := { s with strips := rest }
      match bandSide (colCfg s) link p with
      | some (q, r) => done (takeBand s q r p)
      | none => done (strayBand s p)

/-! ### The collator apply point (R227, R228, R235, R244) -/

/-- Fields of a sequence whose change acts as RESTART (R244). -/
def sqShape (c : ColCfg) (q : Nat) : List Nat :=
  [cfgF c (F.COL_SQ_CFG_ENABLE q), cfgF c (F.COL_SQ_CFG_DIR q), cfgF c (F.COL_SQ_CFG_AXIS q), cfgF c (F.COL_SQ_ORIGIN_LO_ORIGIN q),
    cfgF c (F.COL_SQ_ORIGIN_HI_ORIGIN q), sqPitch c q, sqLpitch c q, sqWidth c q, cfgF c (F.COL_SQ_U0_U0 q),
    cfgF c (F.COL_SQ_CFG_COUNT q), cfgF c (F.COL_SQ_BUF_BASE_BASE q), cfgF c (F.COL_SQ_REC_BASE_BASE q),
    (mget resetWord c (R.COL_SQ_XCH q)).toNat, cfgF c (F.COL_SQ_XID_XID q)]

/-- A sheaf after an apply (R244): the fill value, the timeout and the consumers of its sequence act on it at once. -/
def refreshSheaf (c : ColCfg) (q : Nat) (h : SheafSt) : SheafSt :=
  { h with cfg := [R.COL_SQ_FILL q, R.COL_SQ_CLOSE_TMO q, R.COL_SQ_CONS q].foldl (fun k a => mset resetWord k a (mget resetWord c a)) h.cfg }

/-- A sequence after an apply (R227, R244): the sheaves that a RESTART of the apply cuts keep their old settings. -/
def seqApply (old : ColCfg) (s : State) (q : Nat) : State :=
  let c := colCfg s
  let x := s.seq q
  let same := sqShape old q == sqShape c q
  let s := s.setSeq q { x with sheaves := x.sheaves.map (fun h => if h.stage == .cut || (h.stage == .opened && same) then refreshSheaf c q h else h) }
  let s := if same then s else doRestart s q
  if cfgOn c (F.COL_SQ_CFG_ENABLE q) && !sqUsable c q then (s.set1 (F.COL_SQ_FLAGS_RANGE q)).set1 F.COL_STAT_RANGE else s

/-- A member after an apply: its map checked, its span worked out; IDLE from its enable (R228, R235). -/
def memberApply (old : ColCfg) (s : State) (n : Nat) : State :=
  let c := colCfg s
  if cfgOn c (F.COL_M_CFG_EN n) then
    let sp := spanOf s c n (shapeNow s n)
    let fresh := !cfgOn old (F.COL_M_CFG_EN n) || cfgF old (F.COL_M_CFG_SEQ n) != cfgF c (F.COL_M_CFG_SEQ n)
    let m := s.member n
    let s := s.setMember n (if fresh then { span := sp } else { m with span := sp })
    let s := (s.sf (F.COL_M_UFIRST_U n) (wrapN 25 sp.uFirst)).sf (F.COL_M_ULAST_U n) (wrapN 25 sp.uLast)
    let s := (s.wr (R.COL_M_VMIN n) (BitVec.ofInt 32 sp.vMin)).wr (R.COL_M_VMAX n) (BitVec.ofInt 32 sp.vMax)
    if sp.ok then s else ((s.set1 (F.COL_M_FLAGS_MAP_BAD n)).set1 (F.COL_M_FLAGS_RANGE n)).set1 F.COL_STAT_RANGE
  else s.setMember n {}

/-- The collator apply point. -/
def colApply (s : State) : State :=
  let old := colCfg s
  let s := s.applyRange 0x20401000 0x20403000
  let s := (List.range 64).foldl (memberApply old) s
  (List.range 8).foldl (seqApply old) s

/-- COL_APPLY (R244). -/
def execColApply (s : State) : Host.Outcome State Fault Refusal :=
  if s.up then done (colApply s) else done s

end Sys2Proof.Machine
end

