-- ==== Sys2Proof/Machine/Deliver.lean ====
section
/-! DEFINITION. Machine/Deliver.lean: delivery rings and the franking stage (R294 to R308, R371 to R377): slots, envelopes, tags,
admission, poste restante, full postmark records, cancellation records, held-loss reports, ring states. -/

namespace Sys2Proof.Machine
open Sys2Proof

def State.ring (s : State) (r : Nat) : RingSt := mget (fun _ => {}) s.rings r
def State.setRing (s : State) (r : Nat) (a : RingSt) : State := { s with rings := mset (fun _ => {}) s.rings r a }

/-- Ring states (R305). -/
def rDisabled : Nat := 0
def rActive : Nat := 1
def rHeld : Nat := 2
def rDraining : Nat := 3
def ringState (s : State) (r : Nat) : Nat := s.f (F.DLV_R_STAT_STATE r)
def setRingState (s : State) (r v : Nat) : State := s.sf (F.DLV_R_STAT_STATE r) v
/-- The range flag of a ring. -/
def ringRange (s : State) (r : Nat) : State := (s.set1 (F.DLV_R_STAT_RANGE r)).set1 F.DLV_STAT_RANGE

/-! ### Releasing a unit's source (R252, R307) -/

/-- An output is done with a closed sheaf (R252): the head releases it when its last output is. -/
def sheafDone (s : State) (o q buf : Nat) : State :=
  match s.sheafHeads.find? (fun e => e.1 == headOf o && e.2.1 == q && e.2.2.1 == buf) with
  | some e =>
    let left := if e.2.2.2.testBit o then e.2.2.2 - 2 ^ o else e.2.2.2
    if left = 0 then releaseBuf { s with sheafHeads := s.sheafHeads.erase e } q buf (headOf o)
    else { s with sheafHeads := s.sheafHeads.map (fun x => if x = e then (e.1, e.2.1, e.2.2.1, left) else x) }
  | none => s

/-- A head's unit has left the head: delivered, or dropped (R251, R252). -/
def headDone (s : State) (id : Nat) (delivered : Bool) : State :=
  match s.hunits.find? (fun h => h.id == id) with
  | some h =>
    let s := { s with hunits := s.hunits.filter (fun x => x.id != id) }
    let s := if delivered then s.incrPair (R.HED_O_UNITS_LO h.out) (R.HED_O_UNITS_HI h.out) 1 else s
    match h.sheaf with
    | some (q, buf, _) => sheafDone s h.out q buf
    | none => s
  | none => s

/-- The source of a unit is no longer needed (R307). -/
def releaseSource (s : State) (src : Source) (delivered : Bool) : State :=
  match src with
  | .head id => headDone s id delivered
  | .recs n => { s with thr := { s.thr with intake := s.thr.intake - n } }
  | _ => s

/-! ### Bytes and keys -/

/-- The bytes of an ASCII string. -/
def ascii (t : String) : List (BitVec 8) := t.toList.map (fun c => BitVec.ofNat 8 c.toNat)

/-- The device serial number (R357). -/
def dsn (s : State) : Nat := (s.rd (R.FUS_WORD 3)).toNat + 2 ^ 32 * (s.rd (R.FUS_WORD 4)).toNat

/-- SHA-384 of bytes, highest byte first. -/
def sha384B (l : List (BitVec 8)) : List (BitVec 8) := bytesBE 48 (Config.sha384 l).toNat

/-- The first P of a chain (R374). -/
def chainSeed (s : State) (r cid mode : Nat) : List (BitVec 8) :=
  (sha384B (ascii "Odnel L9 chain" ++ bytesLE 8 (dsn s) ++ bytesLE 1 r ++ bytesLE 8 cid ++ bytesLE 1 mode)).take 16

/-- The nonce of a unit (R374). -/
def nonceOf (r envNo : Nat) : List (BitVec 8) := bytesLE 8 envNo ++ bytesLE 1 r ++ [0, 0, 0]

/-- The ciphertext of a text under AES-256-GCM. -/
def gcmCipher (k : BitVec 256) (nonce : List (BitVec 8)) (l : List (BitVec 8)) : List (BitVec 8) :=
  l.mapIdx (fun i b => b ^^^ Config.gcmStream k (BitVec.ofNat 96 (ofBE nonce)) i)

/-- The AES-256-GCM tag as 16 bytes. -/
def gcmTagB (k : BitVec 256) (nonce aad pt : List (BitVec 8)) : List (BitVec 8) :=
  bytesBE 16 (Config.gcmTag k (BitVec.ofNat 96 (ofBE nonce)) aad pt).toNat

/-! ### The envelope (R297) and the tag (R374) -/

/-- Slots of a unit of so many payload bytes (R295). -/
def slotsOf (s : State) (r len : Nat) : Nat := ceilDiv (128 + len) (2 ^ s.f (F.DLV_H_CFG_SLOT_LOG2 r))

/-- Bytes 0x00 to 0x6F of an envelope. -/
def envHead (s : State) (r : Nat) (u : UnitIn) (envNo : Nat) (held : Bool) (nonce : List (BitVec 8)) : List (BitVec 8) :=
  let fl := u.flags % 2 ^ 16 + (if held then 2 ^ 16 else 0) + (if u.poison.isSome then 2 ^ 17 else 0)
  bytesLE 2 u.kind ++ bytesLE 1 1 ++ bytesLE 1 (s.f (F.DLV_R_POLICY_MODE r)) ++ bytesLE 1 r ++ bytesLE 1 u.head ++
    bytesLE 1 u.stream ++ bytesLE 1 u.seq ++ bytesLE 8 envNo ++ bytesLE 4 u.stamp ++ bytesLE 4 u.pos ++ bytesLE 1 u.axis ++
    bytesLE 1 u.epoch ++ bytesLE 2 u.gen ++ bytesLE 4 u.trig ++ bytesLE 8 u.sheaf ++ bytesLE 4 fl ++ bytesLE 4 u.format ++
    bytesLE 4 u.width ++ bytesLE 4 u.lines ++ bytesLE 8 u.payload.length ++ bytesLE 4 (slotsOf s r u.payload.length) ++
    bytesLE 4 u.aux ++ bytesLE 8 0 ++ nonce ++ List.replicate 20 0

/-- A PAD envelope over so many slots (R295, R298). -/
def padEnv (s : State) (r n : Nat) : List (BitVec 8) :=
  bytesLE 2 0 ++ bytesLE 1 1 ++ bytesLE 1 (s.f (F.DLV_R_POLICY_MODE r)) ++ bytesLE 1 r ++ bytesLE 1 0 ++ bytesLE 1 0xFF ++
    bytesLE 1 0xFF ++ bytesLE 8 0 ++ List.replicate 16 0 ++ bytesLE 8 (2 ^ 63) ++ List.replicate 24 0 ++ bytesLE 4 n ++
    List.replicate 60 0

/-- Frank a unit (R374): the next ENV_NO of the chain, the envelope with its tag, the payload as delivered. -/
def frankUnit (s : State) (r : Nat) (u : UnitIn) (held : Bool) : FUnit × State :=
  let x := s.ring r
  let mode := s.f (F.DLV_R_POLICY_MODE r)
  let nonce := if mode = 0 then List.replicate 12 0 else nonceOf r x.envNo
  let e := envHead s r u x.envNo held nonce
  let k := x.key.getD 0
  let tag :=
    if mode = 0 then (sha384B (x.prev ++ e ++ u.payload)).take 16
    else if mode = 1 then gcmTagB k nonce (x.prev ++ e ++ u.payload) []
    else gcmTagB k nonce (x.prev ++ e) u.payload
  let body := if mode = 2 then gcmCipher k nonce u.payload else u.payload
  let x := { x with envNo := x.envNo + 1, prev := tag, since := if u.kind = 8 then x.since else x.since + 1 }
  let s := s.setRing r x
  let s := s.setPair (R.DLV_R_ENV_LO r) (R.DLV_R_ENV_HI r) x.envNo
  (⟨x.envNo - 1, u.kind, u.recs, e ++ tag, body, u.payload.length, u.src, false, u.poison⟩, s)

/-- The franking-instant postmark of a ring's own unit (R298). -/
def ownUnit (s : State) (r kind : Nat) (payload : List (BitVec 8)) : UnitIn :=
  let a := s.f (F.DLV_R_POLICY_AXIS r)
  { kind := kind, head := 6, stamp := s.tim.short.toNat, pos := wrapN 32 (axisPos s a), axis := a, epoch := s.epoch, payload := payload }

/-! ### Poste restante (R292) -/

/-- Chunks of POSTE. -/
def posteChunks (s : State) : Nat := s.f (F.MEM_PART_SIZE_SIZE 5) * 16
def chunksUsed (s : State) : Nat := (s.rings.map (fun e => e.2.chunks.length)).sum
def chunksFree (s : State) : Nat := posteChunks s - chunksUsed s

/-- Chunks a ring needs beyond those it has to store so many more bytes. -/
def chunksNeeded (x : RingSt) (n : Nat) : Nat := ceilDiv (x.prWr + n) 65536 - x.chunks.length

/-- Poste restante cannot take so many bytes for a ring (R26, R292). -/
def posteFull (s : State) (r n : Nat) : Bool :=
  let x := s.ring r
  let quota := s.f (F.MEM_PR_QUOTA_QUOTA r)
  let k := chunksNeeded x n
  chunksFree s == 0 || decide (chunksFree s < k) || (quota != 0xFFFFFF && (decide (quota ≤ x.chunks.length) ||
    decide (quota < x.chunks.length + k)))

/-- The lowest free chunks. -/
def takeChunks (s : State) (k : Nat) : List Nat :=
  let used := s.rings.flatMap (fun e => e.2.chunks)
  ((List.range (used.length + k)).filter (fun c => !used.contains c)).take k

/-- Where a byte of a ring's held output stands in device memory. -/
def posteAddr (s : State) (x : RingSt) (o : Nat) : Nat :=
  s.f (F.MEM_PART_BASE_BASE 5) * 2 ^ 20 + (x.chunks.getD (o / 65536) 0) * 65536 + o % 65536

/-- Write bytes from an offset of the ring's chunks, chunk by chunk. -/
def posteWrite (s : State) (x : RingSt) : Nat → Nat → List (BitVec 8) → State
  | 0, _, _ => s
  | k + 1, o, l =>
    if l.isEmpty then s
    else
      let n := 65536 - o % 65536
      posteWrite (s.dwrite (posteAddr s x o) (l.take n)) x k (o + n) (l.drop n)

/-- Read bytes from an offset of the ring's chunks. -/
def posteRead (s : State) (x : RingSt) : Nat → Nat → Nat → List (BitVec 8)
  | 0, _, _ => []
  | k + 1, o, n =>
    if n = 0 then []
    else
      let m := min n (65536 - o % 65536)
      s.dread (posteAddr s x o) m ++ posteRead s x k (o + m) (n - m)

/-- Store a franked unit behind a ring's held output. -/
def storeHeld (s : State) (r : Nat) (u : FUnit) : State :=
  let x := s.ring r
  let l := u.env ++ u.payload
  let x := { x with chunks := x.chunks ++ takeChunks s (chunksNeeded x l.length) }
  let s := posteWrite s x (x.chunks.length + 1) x.prWr l
  s.setRing r { x with prWr := x.prWr + l.length, held := x.held ++ [{ u with payload := [], src := .own, poste := true }] }

/-- Some unit of a ring still stands in poste restante. -/
def anyPoste (x : RingSt) : Bool :=
  x.held.any (·.poste) || x.waiting.any (·.poste) || x.placed.any (fun p => match p.u with | some u => u.poste | none => false)

/-- The oldest stored unit of a ring leaves poste restante: its chunks are freed as they empty. -/
def popPoste (s : State) (r : Nat) (u : FUnit) : State :=
  if u.poste then
    let x := s.ring r
    if !anyPoste x then s.setRing r { x with chunks := [], prRd := 0, prWr := 0 }
    else
      let rd := x.prRd + 128 + u.len
      let k := rd / 65536
      s.setRing r { x with chunks := x.chunks.drop k, prRd := rd - k * 65536, prWr := x.prWr - k * 65536 }
  else s

/-- The bytes of a unit as delivered: envelope and payload. A stored unit is the oldest in poste restante. -/
def unitBytes (s : State) (r : Nat) (u : FUnit) : List (BitVec 8) :=
  if u.poste then let x := s.ring r; posteRead s x (x.chunks.length + 1) x.prRd (128 + u.len) else u.env ++ u.payload

/-! ### Slots (R295, R296) -/

def ringSlots (s : State) (r : Nat) : Nat := 2 ^ s.f (F.DLV_H_CFG_SLOTS_LOG2 r)
/-- Slots a ring may have in use. -/
def slotLimit (s : State) (r : Nat) : Nat := min (ringSlots s r) (s.f (F.DLV_R_QSLOTS_SLOTS r))
def consOf (s : State) (r : Nat) : Nat := s.f (F.DLV_H_CONS_CONS r)
/-- Slots of padding before a unit of `n` slots placed at a count of slots. -/
def padFor (s : State) (r alloc n : Nat) : Nat :=
  let k := ringSlots s r
  if alloc % k + n > k then k - alloc % k else 0
/-- Slots in use. -/
def slotsUsed (s : State) (r : Nat) : Nat := ((s.ring r).alloc + 2 ^ 32 - consOf s r) % 2 ^ 32
/-- A unit of so many slots can be placed now (R296). -/
def slotsFree (s : State) (r n : Nat) : Bool :=
  decide (slotsUsed s r + padFor s r (s.ring r).alloc n + n ≤ slotLimit s r)
/-- It could not be placed even in an empty ring (R304). -/
def tooBig (s : State) (r n : Nat) : Bool := decide (slotLimit s r < n + padFor s r (s.ring r).alloc n)

/-- Place a unit, behind a pad when it does not fit before the ring's end. -/
def placeUnit (s : State) (r : Nat) (u : FUnit) : State :=
  let x := s.ring r
  let n := slotsOf s r u.len
  let p := padFor s r x.alloc n
  let k := ringSlots s r
  let pads : List Placed := if p = 0 then [] else [⟨none, x.alloc % k, p⟩]
  s.setRing r { x with placed := x.placed ++ pads ++ [⟨some u, (x.alloc + p) % k, n⟩], alloc := (x.alloc + p + n) % 2 ^ 32 }

/-- Count a discarded unit for the held-loss report, and log it (R26, R308, R426 code 0x13). -/
def noteLoss (s : State) (r kind len recs : Nat) : State :=
  let x := s.ring r
  let l := x.loss.getD { first := s.tim.total }
  let l := { l with units := l.units + 1, bytes := l.bytes + 128 + len, last := s.tim.total, recs := l.recs + recs
                    kinds := l.kinds ||| 2 ^ kind }
  let s := s.setRing r { x with loss := some l, lost := x.lost + 1 }
  let s := ((s.bump (F.DLV_R_HELDLOSS_UNITS r)).set1 (F.DLV_R_STAT_LOSS r)).set1 F.DLV_STAT_HELDLOSS
  s.logFault 0x13 1 r 0 0

/-- Place what waits, oldest first, while slots are free; on a DRAINING ring the held output behind it, of which a unit too big for
the geometry is discarded (R296, R302, R304, R305). -/
def pump : Nat → State → Nat → State
  | 0, s, _ => s
  | k + 1, s, r =>
    let x := s.ring r
    let st := ringState s r
    if st = rActive || st = rDraining then
      match x.waiting with
      | u :: rest =>
        if slotsFree s r (slotsOf s r u.len) then pump k (placeUnit (s.setRing r { x with waiting := rest }) r u) r else s
      | [] =>
        if st = rDraining then
          match x.held with
          | u :: rest =>
            if tooBig s r (slotsOf s r u.len) then
              let s := popPoste (s.setRing r { x with held := rest }) r u
              pump k (releaseSource (noteLoss s r u.kind u.len u.recs) u.src false) r
            else if slotsFree s r (slotsOf s r u.len) then pump k (placeUnit (s.setRing r { x with held := rest }) r u) r
            else s
          | [] => s
        else s
    else s

/-- Place all that can be placed. -/
def pumpRing (s : State) (r : Nat) : State := pump ((s.ring r).waiting.length + (s.ring r).held.length + 1) s r

/-! ### The end of a chain, and DISABLED (R305, R306, R372) -/

/-- Show whether a ring has a key (SEC_KEYED). -/
def showKey (s : State) (r : Nat) : State :=
  let w := s.rd (R.SEC_KEYED (r / 32))
  let b : Word := 1 <<< (r % 32)
  s.wr (R.SEC_KEYED (r / 32)) (if (s.ring r).key.isSome then w ||| b else w &&& ~~~b)

/-- The ring becomes DISABLED: key and CHAIN_ID are erased (R372). -/
def disableRing (s : State) (r : Nat) : State :=
  showKey ((setRingState s r rDisabled).setRing r {}) r

/-- EN is clear and nothing of the ring remains: it becomes DISABLED (R305). -/
def settleRing (s : State) (r : Nat) : State :=
  let x := s.ring r
  if !s.on (F.DLV_R_POLICY_EN r) && ringState s r != rDisabled && x.placed.isEmpty && x.waiting.isEmpty && x.held.isEmpty &&
      x.signing.isNone && x.loss.isNone then disableRing s r
  else s

/-- Bytes 0x00 to 0x5F of a cancellation record (R376). -/
def cancelBytes (s : State) (r reason : Nat) : List (BitVec 8) :=
  let x := s.ring r
  bytesLE 4 0x4C434E43 ++ bytesLE 1 1 ++ bytesLE 1 r ++ bytesLE 1 (s.f (F.DLV_R_POLICY_MODE r)) ++ bytesLE 1 reason ++
    bytesLE 8 (dsn s) ++ bytesLE 8 x.chainId ++ bytesLE 8 x.cancelNo ++ bytesLE 8 x.firstEnv ++ bytesLE 8 (x.envNo - 1) ++ x.prev ++
    bytesLE 8 (wrapN 64 s.tim.total) ++ bytesLE 1 s.epoch ++ bytesLE 1 s.lifecycle ++ List.replicate 6 0 ++ bytesLE 8 x.lost ++
    List.replicate 8 0

/-- A cancellation record falls due (R375, R377): it waits for its signature. None is made when nothing has been franked since the
last. -/
def cancelDue (s : State) (r reason : Nat) : State :=
  let x := s.ring r
  if x.signing.isSome || x.since = 0 then s
  else
    let s := s.setRing r { x with signing := some (cancelBytes s r reason, reason == 2) }
    { s with signQ := s.signQ ++ [r] }

/-- Admit a franked unit of the ring's own: to slots as they free, or behind the held output (R302). -/
def putOwn (s : State) (r : Nat) (u : FUnit) : State :=
  if ringState s r = rActive then pumpRing (s.setRing r { s.ring r with waiting := (s.ring r).waiting ++ [u] }) r
  else storeHeld s r u

/-- Frank one of the franking stage's own records (R302): no byte check, no credit; poste restante may refuse it (R304). -/
def frankOwn (s : State) (r kind : Nat) (payload : List (BitVec 8)) : State :=
  let st := ringState s r
  let x := s.ring r
  if st = rDisabled then s
  else if st != rActive && (posteFull s r (128 + payload.length) || x.loss.isSome) then noteLoss s r kind payload.length 0
  else
    let (u, s) := frankUnit s r (ownUnit s r kind payload) (st != rActive)
    let s := putOwn s r u
    if kind != 8 && decide (4096 ≤ (s.ring r).since) then cancelDue s r 0 else s

/-! ### Full postmark records (R301, R302) -/

/-- Why a full postmark record is due: 3 activation, 2 epoch, 0 time, 1 distance. -/
def pmReason (s : State) (r : Nat) : Option Nat :=
  let x := s.ring r
  if ringState s r = rDisabled || !x.on || x.signing.isSome then none
  else
    match x.lastPm with
    | none => some 3
    | some (ep, t, p) =>
      if ep != s.epoch then some 2
      else if decide (t + 1000000000 ≤ s.now) then some 0
      else if (wrapI 64 (axisPos s (s.f (F.DLV_R_POLICY_AXIS r)) - p)).natAbs ≥ 262144 * 4096 then some 1
      else none

/-- STATE of a full postmark record, a beacon or an axis sample for axis `a` (R301, R387, R402). -/
def pmState (s : State) (a : Nat) : Nat :=
  let bit (b : Bool) (k : Nat) : Nat := if b then 2 ^ k else 0
  bit (s.on F.TIM_STAT_LOCKED) 0 + bit (s.on F.TIM_STAT_HOLDOVER) 1 + bit (s.on F.TIM_STAT_SLEWING) 2 +
    bit (s.on F.TIM_STAT_NEG_SLEW) 3 + bit (s.on (F.AXS_STAT_STALLED a)) 4 + bit (s.stale a) 5

/-- Frank a full postmark record. -/
def frankPm (s : State) (r reason : Nat) : State :=
  let a := s.f (F.DLV_R_POLICY_AXIS r)
  let p := axisPos s a
  let st := pmState s a
  let b := bytesLE 8 (wrapN 64 s.tim.total) ++ bytesLE 2 s.tim.sub ++ bytesLE 1 s.epoch ++ bytesLE 1 a ++ bytesLE 1 reason ++
    List.replicate 3 0 ++ bytesLE 8 (wrapN 64 p) ++ bytesLE 4 st ++ List.replicate 36 0
  let s := frankOwn s r 4 b
  s.setRing r { s.ring r with lastPm := some (s.epoch, s.now, p) }

/-- FULL_POSTMARK_DUE (R302). -/
def execFullPostmarkDue (ring : Fin 256) (s : State) : Host.Outcome State Fault Refusal :=
  if !s.up then done s
  else
    match pmReason s ring with
    | some k => done (frankPm s ring k)
    | none => done s

/-! ### Held-loss reports (R308) -/

/-- The 64 bytes of a report. -/
def lossBytes (l : Loss) : List (BitVec 8) :=
  bytesLE 8 l.units ++ bytesLE 8 l.bytes ++ bytesLE 8 (wrapN 64 l.first) ++ bytesLE 8 (wrapN 64 l.last) ++ bytesLE 4 l.recs ++
    bytesLE 2 l.kinds ++ List.replicate 26 0

/-- Frank a ring's held-loss report. It stands in the franking stage's own store, behind the held output. -/
def frankReport (s : State) (r : Nat) : State :=
  match (s.ring r).loss with
  | some l =>
    let (u, s) := frankUnit s r (ownUnit s r 7 (lossBytes l)) (ringState s r != rActive)
    let x := s.ring r
    s.setRing r { x with loss := none, held := x.held ++ [u] }
  | none => s

/-- HELD_LOSS_REPORT (R308): everything held before the first loss has been delivered. -/
def execHeldLossReport (r : Fin 256) (s : State) : Host.Outcome State Fault Refusal :=
  let x := s.ring r
  if s.up && ringState s r = rDraining && x.loss.isSome && x.held.isEmpty && x.placed.isEmpty && x.signing.isNone then
    done (pumpRing (frankReport s r) r)
  else done s

/-- The chain ends (R306, R308, R375): a report that is due, then the final cancellation record. -/
def endChain (s : State) (r : Nat) : State :=
  if (s.ring r).signing.isSome then s
  else
    let s := if (s.ring r).loss.isSome then frankReport s r else s
    let s := pumpRing s r
    settleRing (cancelDue s r 2) r

/-- The cap of a ring's byte credit, in 1/1000 byte (R303). -/
def creditCap (s : State) (r : Nat) : Int := (s.rd (R.DLV_R_QBPS r)).toNat * 100000 * 1000

/-- Bring a ring's byte credit up to now (R303). -/
def creditNow (s : State) (r : Nat) : Int :=
  let x := s.ring r
  min (creditCap s r) (x.credit + (s.rd (R.DLV_R_QBPS r)).toNat * (s.now - x.creditAt : Nat))

/-- A chain begins (R306, R372, R374): CHAIN_ID is drawn for a CLEAR ring. -/
def startChain (s : State) (r : Nat) : State :=
  let mode := s.f (F.DLV_R_POLICY_MODE r)
  let (cid, s) := if mode = 0 then let (v, t) := s.free; (v % 2 ^ 64, t) else ((s.ring r).chainId, s)
  let s := s.setRing r { s.ring r with
    on := true, wanted := false, envNo := 0, prev := chainSeed s r cid mode, chainId := cid, credit := creditCap s r
    creditAt := s.now, lost := 0, cancelNo := 0, firstEnv := 0, cancelAt := s.now, since := 0, lastPm := none }
  let s := s.setPair (R.DLV_R_ENV_LO r) (R.DLV_R_ENV_HI r) 0
  if ringState s r = rDisabled then setRingState s r rHeld else s

/-- Begin a chain that is wanted, once its key is bound and no record of the former chain awaits its signature (R372). -/
def tryStart (s : State) (r : Nat) : State :=
  let x := s.ring r
  if x.wanted && (s.f (F.DLV_R_POLICY_MODE r) == 0 || x.key.isSome) && x.signing.isNone then startChain s r else s

/-- A write of DLV_R_POLICY (R306, R12). -/
def doPolicy (s : State) (r : Nat) (v : Word) : State :=
  let old := s.rd (R.DLV_R_POLICY r)
  let bad := fieldOf v 30 29 == 3
  let v := if bad then setField v 30 29 (fieldOf old 30 29) else v
  let b := fieldOf v 6 0
  let v := (if b > 64 then setField v 6 0 64 else v) &&& 0xFFF8007F
  if ringState s r != rDisabled && fieldOf v 30 19 != fieldOf old 30 19 then ringRange s r
  else
    let s := if bad || decide (b > 64) then ringRange s r else s
    let s := s.wr (R.DLV_R_POLICY r) v
    let was := old.getLsbD 31
    if v.getLsbD 31 && !was then tryStart (s.setRing r { s.ring r with wanted := true }) r
    else if !v.getLsbD 31 && was then
      let on := (s.ring r).on
      let s := s.setRing r { s.ring r with on := false, wanted := false }
      if on then endChain s r else settleRing s r
    else s

/-- DLV_R_POLICY_WRITE (R306): no effect while the host side is in reset (R25). -/
def execDlvRPolicyWrite (r : Fin 256) (v : Word) (s : State) : Host.Outcome State Fault Refusal :=
  if s.up && s.pci.rst.isNone then done (doPolicy s r v) else done s

/-- A write of DLV_R_QBPS (R303): a lower value takes effect at once and credit above the new cap is cut. -/
def doQbps (s : State) (r : Nat) (v : Word) : State :=
  let c := creditNow s r
  let s := s.wr (R.DLV_R_QBPS r) v
  s.setRing r { s.ring r with credit := min c (creditCap s r), creditAt := s.now }

/-! ### Cancellation records (R375 to R377) -/

/-- CANCELLATION_DUE (R375): 4,096 units, or 10 s, since the chain began or since its last record. -/
def execCancellationDue (r : Fin 256) (s : State) : Host.Outcome State Fault Refusal :=
  let x := s.ring r
  if s.up && x.on then
    if decide (4096 ≤ x.since) then done (cancelDue s r 0)
    else if decide (x.cancelAt + 10000000000 ≤ s.now) then done (cancelDue s r 1)
    else done s
  else done s

/-- The order of the P-384 group. -/
def p384n : Nat := 0xFFFFFFFFFFFFFFFFFFFFFFFFFFFFFFFFFFFFFFFFFFFFFFFFC7634D81F4372DDF581A0DB248B0A77AECEC196ACCC52973

/-- The identity key (R365). -/
def identityKey (s : State) : BitVec 384 :=
  let secret := (List.range 8).flatMap (fun k => bytesLE 4 (mget (fun _ => 0) s.fuses (77 + k)).toNat)
  let h := (Config.hmac secret (ascii "Odnel L9 identity" ++ bytesLE 8 (dsn s))).toNat
  BitVec.ofNat 384 (1 + h % (p384n - 1))

/-- A signature over the SHA-384 digest of bytes by the identity key: r, then s, 96 bytes (R365, R475). -/
def identitySign (s : State) (l : List (BitVec 8)) : List (BitVec 8) :=
  bytesBE 96 (Config.ecdsaSign (identityKey s) (Config.sha384 l)).toNat

/-- CANCEL_SIGNED (R377): the signer finishes the record that fell due first; it is franked ahead of any later unit. -/
def execCancelSigned (s : State) : Host.Outcome State Fault Refusal :=
  match s.signQ with
  | [] => done s
  | r :: rest =>
    if !s.up then done s
    else
      let s := { s with signQ := rest }
      let x := s.ring r
      match x.signing with
      | none => done s
      | some (b, final) =>
        let s := s.setRing r { x with signing := none }
        let s := s.incrPair R.SEC_CANCEL_LO R.SEC_CANCEL_HI 1
        let s := frankOwn s r 8 (b ++ identitySign s b)
        let x := s.ring r
        let s := s.setRing r { x with cancelNo := x.cancelNo + 1, firstEnv := x.envNo, cancelAt := s.now, since := 0 }
        if final then done (tryStart (settleRing s r) r)
        else if !x.on && !s.on (F.DLV_R_POLICY_EN r) then done (endChain s r)
        else done (tryStart s r)

/-! ### Admission (R303, R304) -/

/-- What becomes of a unit offered to a ring. -/
inductive Verdict where
  | refuse (quota full : Bool)
  | drop (denied : Bool)
  | lost
  | take
deriving DecidableEq, Repr

/-- The fuses keep a head's output off CLEAR rings (R373). -/
def clearDenied (s : State) (r : Nat) (u : UnitIn) : Bool :=
  s.lifecycle == 2 && s.f (F.DLV_R_POLICY_MODE r) == 0 && (u.kind == 1 || u.kind == 2 || u.kind == 3 || u.kind == 5) &&
    decide (1 ≤ u.head) && decide (u.head ≤ 5) && !(s.rd (R.FUS_WORD 0)).getLsbD (10 + u.head)

/-- The first case of R304 that applies. -/
def judge (s : State) (r : Nat) (u : UnitIn) : Verdict :=
  let x := s.ring r
  let st := ringState s r
  let n := slotsOf s r u.payload.length
  if st = rDisabled || !x.on then .refuse false false
  else if clearDenied s r u then .drop true
  else if st = rActive && tooBig s r n then .drop false
  else if decide (creditNow s r < 0) || (s.rd (R.DLV_R_QBPS r)) == 0 then
    (if s.rd (R.DLV_R_QBPS r) = 0xFFFFFFFF then judgeRest s r u x st n else .refuse true false)
  else judgeRest s r u x st n
where
  /-- The cases after the byte check. -/
  judgeRest (s : State) (r : Nat) (u : UnitIn) (x : RingSt) (st n : Nat) : Verdict :=
    if x.signing.isSome then .refuse false true
    else if st != rActive then
      (if x.loss.isSome || posteFull s r (128 + u.payload.length) then .lost else .take)
    else if !x.waiting.isEmpty || !slotsFree s r n then .refuse false true
    else .take

/-- A unit is offered (R304): its verdict, and the state after it. A full postmark record that the ring lacks goes ahead of it
(R50, R302). A unit that is discarded, or stored in poste restante, leaves its source at once. -/
def offer (s : State) (r : Nat) (u : UnitIn) : Verdict × State :=
  let s := match pmReason s r with
    | some k => if 2 ≤ k then frankPm s r k else s
    | none => s
  let v := judge s r u
  match v with
  | .refuse q f =>
    let s := if q then s.set1 (F.DLV_R_STAT_QUOTA r) else s
    (v, if f then s.set1 (F.DLV_R_STAT_FULL r) else s)
  | .drop denied =>
    let s := s.bump (F.DLV_R_DROP_UNITS r)
    let s := if denied then (s.set1 (F.DLV_R_STAT_DENIED r)).set1 F.DLV_STAT_DENIED else s.set1 (F.DLV_R_STAT_TOO_BIG r)
    (v, releaseSource s u.src false)
  | .lost => (v, releaseSource (noteLoss s r u.kind u.payload.length u.recs) u.src false)
  | .take =>
    let c := creditNow s r
    let cost : Int := if s.rd (R.DLV_R_QBPS r) = 0xFFFFFFFF then 0 else (128 + u.payload.length) * 1000
    let s := s.setRing r { s.ring r with credit := c - cost, creditAt := s.now }
    let active := ringState s r == rActive
    let (fu, s) := frankUnit s r u (!active)
    let s := if active then placeUnit s r fu else releaseSource (storeHeld s r fu) u.src true
    (v, if decide (4096 ≤ (s.ring r).since) then cancelDue s r 0 else s)

/-! ### Ring states (R305, R307) -/

/-- The channel of a ring. -/
def ringChan (s : State) (r : Nat) : Nat := s.f (F.DLV_R_POLICY_CHANNEL r)
def State.dma (s : State) (n : Nat) : DmaSt := mget (fun _ => {}) s.dmas n
def State.setDma (s : State) (n : Nat) (a : DmaSt) : State := { s with dmas := mset (fun _ => {}) s.dmas n a }

/-- A unit or pad of the ring is in transfer. -/
def inTransfer (s : State) (r : Nat) : Bool := (s.dma (ringChan s r)).ring == some r

/-- A ring goes back to HELD (R305, R307): what stands in slots and is not complete goes to the head of its held output. -/
def holdRing (s : State) (r : Nat) : State :=
  let st := ringState s r
  if st = rActive || st = rDraining then
    let x := s.ring r
    let s := s.setRing r { x with
      held := x.placed.filterMap (·.u) ++ x.waiting ++ x.held, placed := [], waiting := [], deact := false }
    let n := ringChan s r
    let s := if inTransfer s r then
        let s := s.setDma n { s.dma n with ring := none, off := 0 }
        if s.f (F.DMA_C_STAT_STATE n) = 1 then (s.sf (F.DMA_C_STAT_STATE n) 0).raise (0x1A0 + n) else s
      else s
    settleRing (setRingState s r rHeld) r
  else s

/-- The conditions of ACTIVATE (R305). -/
def canActivate (s : State) (r : Nat) : Bool :=
  ringState s r == rHeld && s.on (F.DLV_R_POLICY_EN r) && (s.pair (R.DLV_H_BASE_LO r) (R.DLV_H_BASE_HI r) != 0) &&
    decide (s.f (F.DLV_H_CFG_SLOTS_LOG2 r) + s.f (F.DLV_H_CFG_SLOT_LOG2 r) ≤ 36) &&
    s.on (F.DLV_CQ_STAT_ENABLED (s.f (F.DLV_H_CFG_CQ r))) &&
    (s.f (F.DLV_R_POLICY_MODE r) == 0 || (s.ring r).key.isSome)

/-- A write of DLV_H_CTRL.ACTIVATE (R305): a ring channel that Bus Master Enable or containment stopped returns to IDLE (R345). -/
def doActivate (s : State) (r : Nat) : State :=
  if canActivate s r then
    let x := s.ring r
    let s := s.setRing r { x with alloc := 0, deact := false }
    let s := (s.wr (R.DLV_H_PROD r) 0).wr (R.DLV_H_CONS r) 0
    let s := setRingState s r (if x.held.isEmpty && x.loss.isNone then rActive else rDraining)
    let n := ringChan s r
    let st := s.f (F.DMA_C_STAT_STATE n)
    let s := if (s.dma n).ring.isNone && !(s.dma n).active && (st == 3 || st == 5) then (s.sf (F.DMA_C_STAT_STATE n) 0).raise (0x1A0 + n) else s
    pumpRing s r
  else ringRange s r

/-- A write of DLV_H_CTRL.DEACTIVATE (R305): after the unit in transfer. -/
def doDeactivate (s : State) (r : Nat) : State :=
  let st := ringState s r
  if st = rActive || st = rDraining then
    if inTransfer s r then s.setRing r { s.ring r with deact := true } else holdRing s r
  else s

/-- The host side answers memory requests. -/
def hostUp (s : State) : Bool := s.up && s.pci.rst.isNone

/-- ACTIVATE (R305). -/
def execActivate (r : Fin 256) (s : State) : Host.Outcome State Fault Refusal :=
  if hostUp s then done (doActivate s r) else done s
/-- DEACTIVATE (R305). -/
def execDeactivate (r : Fin 256) (s : State) : Host.Outcome State Fault Refusal :=
  if hostUp s then done (doDeactivate s r) else done s

/-- DRAIN_END (R305): a DRAINING ring with nothing left becomes ACTIVE. -/
def execDrainEnd (r : Fin 256) (s : State) : Host.Outcome State Fault Refusal :=
  let x := s.ring r
  if s.up && ringState s r = rDraining && x.held.isEmpty && x.waiting.isEmpty && x.placed.isEmpty && x.loss.isNone then
    done (pumpRing (setRingState s r rActive) r)
  else done s

/-- Discard everything of a ring that has not completed but the unit in transfer (R306). -/
def discardRing (s : State) (r : Nat) : State :=
  let x := s.ring r
  let busy := inTransfer s r
  let keep := if busy then x.placed.take 1 else []
  let gone := (if busy then x.placed.drop 1 else x.placed).filterMap (·.u) ++ x.waiting ++ x.held
  let s := s.setRing r { x with placed := keep, waiting := [], held := [], loss := none, signing := none, discard := busy }
  let s := { s with signQ := s.signQ.filter (· != r) }
  let s := if anyPoste (s.ring r) then s else s.setRing r { s.ring r with chunks := [], prRd := 0, prWr := 0 }
  let s := gone.foldl (fun t u => releaseSource t u.src false) s
  let s := s.bumpBy (F.DLV_R_HELDLOSS_UNITS r) gone.length
  if busy then s else disableRing s r

/-- A write of DLV_R_CMD.DISCARD (R306). -/
def doDiscard (s : State) (r : Nat) : State :=
  if s.on (F.DLV_R_POLICY_EN r) || ringState s r = rDisabled then ringRange s r else discardRing s r

/-- DISCARD (R306): no effect while the host side is in reset (R25). -/
def execDiscard (r : Fin 256) (s : State) : Host.Outcome State Fault Refusal :=
  if s.up && s.pci.rst.isNone then done (doDiscard s r) else done s

/-- A write of DLV_H_CONS (R296): the doorbell. -/
def doCons (s : State) (r : Nat) (v : Word) : State :=
  let old := s.rd (R.DLV_H_CONS r)
  if (v - old).toNat ≤ (s.rd (R.DLV_H_PROD r) - old).toNat then pumpRing (s.wr (R.DLV_H_CONS r) v) r else ringRange s r

/-- DLV_H_CONS (R296). -/
def execDlvHCons (r : Fin 256) (v : Word) (s : State) : Host.Outcome State Fault Refusal :=
  if hostUp s then done (doCons s r v) else done s

end Sys2Proof.Machine
end

