-- ==== Sys2Proof/Machine/Heads.lean ====
section
/-! DEFINITION. Machine/Heads.lean: the output heads (R248 to R262): units, the vision, display and coding formats, overlays, display
streams over Ethernet, offers to the franking stage. -/

namespace Sys2Proof.Machine
open Sys2Proof

/-! ### Sources and windows (R249, R250) -/

/-- Channels of a stream's lines after stage 9. -/
def streamChans (s : State) (n : Nat) : Nat :=
  let code := match (List.range 4).find? (fun p => parActive s p && s.lf (F.PAR_CFG_STREAM p) == n) with
    | some p => (s.lrd (R.PAR_FMT p)).toNat
    | none => (s.lrd (R.GVS_S_FMT n)).toNat
  match pixFmt code with
  | some f => if f.chans = 3 || (f.bayer != 0 && s.lon (F.MIL_CFG_DEMO n)) then 3 else 1
  | none => 1

/-- Columns, channels and lines of an output's source under the settings in force. -/
def sourceShape (s : State) (o : Nat) : Nat × Nat × Nat :=
  let src := s.lf (F.HED_O_CFG_SRC o)
  if s.lon (F.HED_O_CFG_SRC_KIND o) then ((shapeNow s src).sx, streamChans s src, unitLines s o src)
  else
    let c := colCfg s
    (sqWidth c (src % 8), sqChans c (src % 8), sqLines c (src % 8))

/-- Bytes of one staged unit (R249). -/
def stageUnit (s : State) (o : Nat) : Nat :=
  let (cols, ch, lines) := sourceShape s o
  4 * ch * ((windowOf (hedCfg s o) o cols).map (·.2)).getD 0 * lines

/-- The staging area of a stream output holds two units (R249). -/
def stageOk (s : State) (o : Nat) : Bool :=
  !s.lon (F.HED_O_CFG_SRC_KIND o) || (s.lon (F.HED_O_STAGE_BASE o) && decide (stageUnit s o ≤ stageHalf s o))

/-! ### The apply point (R249, R250, R253 to R256, R258, R260, R262) -/

/-- Bytes of a display packet of PKT payload bytes on the wire, address to FCS (R258). -/
def txFrameBytes (s : State) (o : Nat) : Nat :=
  14 + (if s.on (F.ETH_VLAN_TAGGED (s.lf (F.HED_O_TX_CFG_PORT o))) then 4 else 0) + 28 +
    (if s.lon (F.HED_O_TX_CFG_EXT_ID o) then 20 else 8) + s.lf (F.HED_O_TX_CFG_PKT o) + 4

/-- A scale num / den lies between 1/4 and 64 (R255). -/
def scaleOk (num den : Nat) : Bool := decide (den ≤ 4 * num) && decide (num ≤ 64 * den)

/-- A source of so many columns and lines can be scaled to a display output's size, or decimated to a coding output's (R255, R256, R260). -/
def sizeOk (cfg : List (Nat × Word)) (o w lines : Nat) : Bool :=
  if o < 16 then true
  else if o < 24 then
    scaleOk w (cfgF cfg (F.HED_O_SIZE_OUT_W o)) &&
      (if scrolls cfg o then scaleOk (cfgF cfg (F.HED_O_YSTEP_YSTEP o)) 65536 else scaleOk lines (cfgF cfg (F.HED_O_SIZE_OUT_H o)))
  else
    let d := 2 ^ cfgF cfg (F.HED_O_MODE_DEC o)
    decide (ceilDiv w d ≤ 16384) && decide (ceilDiv lines d ≤ 16384)

/-- The settings in force let an output run, staging apart. -/
def outUsable (s : State) (o : Nat) : Bool :=
  let fmt := s.lf (F.HED_O_CFG_FMT o)
  let (cols, _, lines) := sourceShape s o
  let w := ((windowOf (hedCfg s o) o cols).map (·.2)).getD 0
  let level := decide (s.lf (F.HED_O_LEVEL_LO o) < s.lf (F.HED_O_LEVEL_HI o))
  sizeOk (hedCfg s o) o w lines &&
  if o < 16 then decide (fmt ≤ 6)
  else if o < 24 then
    let ow := s.lf (F.HED_O_SIZE_OUT_W o)
    let oh := s.lf (F.HED_O_SIZE_OUT_H o)
    decide (fmt ≤ 1) && level && ow % 2 == 0 && decide (16 ≤ ow) && decide (ow ≤ 3840) && decide (16 ≤ oh) && decide (oh ≤ 2160) &&
      s.lon (F.HED_O_YSTEP_YSTEP o) && (!s.lon (F.HED_O_CFG_TO_ETH o) || decide (txFrameBytes s o ≤ s.f (F.ETH_CFG_MAX_FRAME (s.lf (F.HED_O_TX_CFG_PORT o)))))
  else decide (fmt ≤ 2) && level

/-- Settings whose change clears a SCROLL image (R256). -/
def scrollKey (cfg : List (Nat × Word)) (o : Nat) : List Nat :=
  [cfgF cfg (F.HED_O_SIZE_OUT_W o), cfgF cfg (F.HED_O_SIZE_OUT_H o), cfgF cfg (F.HED_O_CFG_SRC_KIND o), cfgF cfg (F.HED_O_CFG_SRC o),
    cfgF cfg (F.HED_O_WIN_COL_FIRST o), cfgF cfg (F.HED_O_WIN_COL_COUNT o), cfgF cfg (F.HED_O_MODE_DMODE o),
    cfgF cfg (F.HED_O_YSTEP_YSTEP o)]

/-- Clear a SCROLL image. -/
def clearScroll (x : OutSt) : OutSt :=
  { x with src := [], srcAt := 0, made := 0, img := [], sheaves := [], boxes := [], newest := none, bad := [] }

/-- What has arrived for an output that no longer runs is let go (R252). -/
def dropArrivals (s : State) (o : Nat) : State :=
  let mine (a : Arrive) : Bool := match a with | .sheaf p _ _ _ _ => p == o | .lines h => h.out == o
  let gone := s.hedQ.filter mine
  let s := { s with hedQ := s.hedQ.filter (fun a => !mine a) }
  gone.foldl (fun t a => match a with | .sheaf _ q b true _ => sheafDone t o q b | _ => t) s

/-- One output after an apply. -/
def outApply (old : State) (s : State) (o : Nat) : State :=
  let x := s.hout o
  let was := hedCfg old o
  let now := hedCfg s o
  let x := if 16 ≤ o && o < 24 && scrollKey was o != scrollKey now o then clearScroll x else x
  let moved := [cfgF was (F.HED_O_CFG_EN o), cfgF was (F.HED_O_CFG_SRC_KIND o), cfgF was (F.HED_O_CFG_SRC o)] !=
    [cfgF now (F.HED_O_CFG_EN o), cfgF now (F.HED_O_CFG_SRC_KIND o), cfgF now (F.HED_O_CFG_SRC o)]
  let x := if moved then { x with gather := none, idx := 0 } else x
  if !s.lon (F.HED_O_CFG_EN o) then dropArrivals (s.setHout o { x with ok := false }) o
  else
    let use := outUsable s o
    let st := stageOk s o
    let s := if use && st then s else hedRange s o
    let s := if st then s else s.set1 (F.HED_O_FLAGS_STAGE_SMALL o)
    let s := if 16 ≤ o && o < 24 && decide (2 ≤ s.lf (F.HED_O_MODE_DMODE o)) then hedRange s o else s
    let s := s.setHout o { x with ok := use && st }
    let s := if moved then dropArrivals s o else s
    if use && st then s else dropArrivals s o

/-- The heads' apply point (R262). -/
def hedApply (s : State) : State :=
  let t := s.applyRange (R.HED_PAL 0) (R.HED_O_CFG 31 + 0x80)
  (List.range 32).foldl (outApply s) t

/-- HED_APPLY (R262). -/
def execHedApply (s : State) : Host.Outcome State Fault Refusal :=
  if s.up then done (hedApply s) else done s

/-! ### Beginning a unit (R249, R250) -/

/-- What the envelope of a sheaf unit says (R298, R299). -/
def sheafUnit (o q cols : Nat) (h : SheafSt) : UnitIn :=
  { kind := 2, head := headOf o + 1, seq := q, stamp := wrapN 32 h.cutTime, pos := wrapN 32 (sheafStart h.cfg q h.no)
    axis := cfgF h.cfg (F.COL_SQ_CFG_AXIS q), epoch := h.epoch, sheaf := wrapN 64 h.no, flags := h.flags % 2 ^ 16
    width := cols, lines := sqLines h.cfg q }

/-- The first byte of a line of a unit's source that lies in a poisoned unit of device memory (R280). -/
def rowPoison (s : State) (h : HUnit) (y : Nat) : Option Nat := poisonIn s (h.addr + y * h.step) (4 * h.chans * h.cols)

/-- The first byte of a unit's source that lies in a poisoned unit of device memory (R280, R299). -/
def rowsPoison (s : State) (h : HUnit) : Option Nat :=
  if s.poison.isEmpty then none else (List.range h.rows).findSome? (rowPoison s h)

/-- One pixel word of a unit's source; a word from a poisoned unit is fill, of a value the spec leaves open (R281). -/
def readPx (s : State) (h : HUnit) (x y k : Nat) : Px :=
  let a := h.addr + y * h.step + 4 * (x * h.chans + k)
  if s.poison.contains (a / 64) then ⟨(Config.freeValue (s.freeCtr + (y * h.cols + x) * h.chans + k)).toNat % 2 ^ 24, fFill⟩
  else
    let w := s.dreadN a 4
    ⟨w % 2 ^ 24, w / 2 ^ 24⟩

/-- The channels of a position. -/
def readPos (s : State) (h : HUnit) (x y : Nat) : List Px := (List.range h.chans).map (readPx s h x y)

/-! ### The vision head (R253) -/

/-- PFNC code, bits and components of a vision format. -/
def visionFmt (f : Nat) : Nat × Nat × Nat :=
  match f with
  | 0 => (0x01080001, 8, 1) | 1 => (0x010A0046, 10, 1) | 2 => (0x010C0047, 12, 1) | 3 => (0x01100007, 16, 1)
  | 4 => (0x02180014, 8, 3) | 5 => (0x021E005C, 10, 3) | _ => (0x02300033, 16, 3)

/-- Values of so many bits packed least significant bit first, the row ended with zero bits. -/
def packBits (b : Nat) (l : List Nat) : List (BitVec 8) :=
  bytesLE (ceilDiv (b * l.length) 8) (l.foldr (fun v a => v + 2 ^ b * a) 0)

/-- Pad with zeros to a multiple of 64 bytes. -/
def pad64 (l : List (BitVec 8)) : List (BitVec 8) := l ++ List.replicate (ceilDiv l.length 64 * 64 - l.length) 0

/-- The statistic value of a position (R217). -/
def statOf (l : List Px) : Nat :=
  match l with
  | [p] => p.v
  | [r, g, b] => (r.v + 2 * g.v + b.v) / 4
  | _ => 0

/-- A value in a vision format (R253). -/
def visionVal (b sh v : Nat) : Nat := min (2 ^ b - 1) ((v + 2 ^ (3 + sh)) / 2 ^ (4 + sh))

/-- The payload of a vision unit. -/
def visionPayload (s : State) (h : HUnit) : List (BitVec 8) :=
  let (_, b, comps) := visionFmt (cfgF h.cfg (F.HED_O_CFG_FMT h.out))
  let sh := cfgF h.cfg (F.HED_O_MODE_RSHIFT h.out)
  let row (y : Nat) : List (BitVec 8) :=
    packBits b ((List.range h.cols).flatMap (fun x =>
      let p := readPos s h x y
      if comps = 1 then [visionVal b sh (statOf p)]
      else match p with
        | [m] => List.replicate 3 (visionVal b sh m.v)
        | _ => p.map (fun c => visionVal b sh c.v)))
  let img := (List.range h.rows).flatMap row
  if cfgOn h.cfg (F.HED_O_MODE_FLAG_PLANE h.out) then
    pad64 img ++ (List.range h.rows).flatMap (fun y => (List.range h.cols).map (fun x =>
      BitVec.ofNat 8 ((readPos s h x y).foldl (fun a p => a ||| p.f) 0)))
  else img

/-! ### Display pixels (R250, R254, R255) -/

/-- A position normalised (R250): numerators over 16 (HI - LO); fill when a channel carries FILL. -/
def normPx (cfg : List (Nat × Word)) (o : Nat) (l : List Px) : DPx :=
  let lo := 16 * cfgF cfg (F.HED_O_LEVEL_LO o)
  let d := 16 * cfgF cfg (F.HED_O_LEVEL_HI o) - lo
  let n (p : Px) : Nat := min d (p.v - lo)
  if l.any Px.fill then ⟨0, 0, 0, 0⟩
  else match l with
    | [p] => ⟨n p, n p, n p, d⟩
    | [r, g, b] => ⟨n r, n g, n b, d⟩
    | _ => ⟨0, 0, 0, 0⟩

/-- The source indexes of an output pixel and their weights along one axis of scale num / den over `n` source pixels (R255). -/
def taps (num den n o : Nat) : List (Nat × Nat) :=
  if num ≥ den then
    let a := o * num / den
    let b := max a ((o + 1) * num / den - 1)
    ((List.range (b + 1 - a)).map (fun k => (a + k, 1))).filter (fun e => decide (e.1 < n))
  else
    let c := (2 * o + 1) * num - den
    let a := c / (2 * den)
    let f := c % (2 * den)
    if n = 0 then []
    else if n - 1 ≤ a then [(n - 1, 1)]
    else if f = 0 then [(a, 1)] else [(a, 2 * den - f), (a + 1, f)]

/-- The mean of weighted pixels of one denominator, fill left out (R255). -/
def meanPx (l : List (DPx × Nat)) : DPx :=
  let l := l.filter (fun e => e.1.d != 0)
  let w := (l.map (·.2)).sum
  ⟨(l.map (fun e => e.1.r * e.2)).sum, (l.map (fun e => e.1.g * e.2)).sum, (l.map (fun e => e.1.b * e.2)).sum,
    w * ((l.head?.map (·.1.d)).getD 0)⟩

/-- An output pixel from its taps on both axes. -/
def scalePx (src : Nat → Nat → DPx) (tx ty : List (Nat × Nat)) : DPx :=
  meanPx (ty.flatMap (fun b => tx.map (fun a => (src a.1 b.1, a.2 * b.2))))

/-- A palette colour. -/
def palPx (cfg : List (Nat × Word)) (k : Nat) : DPx :=
  let w := cfgF cfg (F.HED_PAL_RGB k)
  ⟨w / 65536 % 256, w / 256 % 256, w % 256, 255⟩

/-- A fill pixel as drawn (R257): palette colour 15 when FILL_TINT is 1; otherwise a colour the spec leaves open. -/
def tintPx (cfg : List (Nat × Word)) (o base k : Nat) (p : DPx) : DPx :=
  if p.d != 0 then p
  else if cfgOn cfg (F.HED_O_OVL_FILL_TINT o) then palPx cfg 15
  else
    let v := (Config.freeValue (base + k)).toNat
    ⟨v % 256, v / 256 % 256, v / 65536 % 256, 255⟩

/-- Y' over 10000 d (R254). -/
def lumaNum (p : DPx) : Nat := 2126 * p.r + 7152 * p.g + 722 * p.b

/-- A luma code: off + amp Y', rounded. -/
def lumaCode (off amp : Nat) (p : DPx) : Nat := (roundDiv ((off * 10000 * p.d + amp * lumaNum p : Nat) : Int) (10000 * max 1 p.d)).toNat

/-- Cb (k 18556) or Cr (k 15748) of a pixel as a fraction (R254). -/
def chromaFrac (blue : Bool) (p : DPx) : Int × Nat :=
  ((10000 * (if blue then p.b else p.r) : Nat) - (lumaNum p : Int), (if blue then 18556 else 15748) * max 1 p.d)

/-- A chroma code: off + amp times the mean over pixels, rounded. -/
def chromaCode (off amp : Nat) (blue : Bool) (l : List DPx) : Nat :=
  let (n, d) := l.foldl (fun (a : Int × Nat) p => let f := chromaFrac blue p; (a.1 * f.2 + f.1 * a.2, a.2 * f.2)) (0, 1)
  let d := d * max 1 l.length
  (roundDiv (off * d + amp * n) d).toNat

/-- A display frame as bytes (R254). -/
def displayBytes (fmt w : Nat) (img : List (List DPx)) : List (BitVec 8) :=
  if fmt = 0 then
    img.flatMap (fun row => (List.range (w / 2)).flatMap (fun k =>
      let a := row.getD (2 * k) ⟨0, 0, 0, 1⟩
      let b := row.getD (2 * k + 1) ⟨0, 0, 0, 1⟩
      [BitVec.ofNat 8 (lumaCode 16 219 a), BitVec.ofNat 8 (chromaCode 128 224 true [a, b]),
        BitVec.ofNat 8 (lumaCode 16 219 b), BitVec.ofNat 8 (chromaCode 128 224 false [a, b])]))
  else
    let c (n d : Nat) : BitVec 8 := BitVec.ofNat 8 ((2 * 255 * n + d) / (2 * max 1 d))
    img.flatMap (fun row => row.flatMap (fun p => [c p.r p.d, c p.g p.d, c p.b p.d, 255]))

/-! ### Overlay boxes (R257) -/

/-- The first and last of `n` output pixels whose source pixels meet a range. -/
def rangeOf (n : Nat) (foot : Nat → List (Nat × Nat)) (a b : Int) : Option (Nat × Nat) :=
  let l := (List.range n).filter (fun o => (foot o).any (fun e => decide (a ≤ (e.1 : Int)) && decide ((e.1 : Int) ≤ b)))
  match l.head?, l.getLast? with
  | some x, some y => some (x, y)
  | _, _ => none

/-- A box on the display: its edges and its palette entry. -/
abbrev Drawn := (Nat × Nat) × (Nat × Nat) × Nat

/-- A pixel lies on the outline of a box of so many pixels' thickness. -/
def onOutline (t x y : Nat) (d : Drawn) : Bool :=
  let ((xa, xb), (ya, yb), _) := d
  decide (xa ≤ x) && decide (x ≤ xb) && decide (ya ≤ y) && decide (y ≤ yb) &&
    (decide (x < xa + t) || decide (xb < x + t) || decide (y < ya + t) || decide (yb < y + t))

/-- Draw boxes over an image; the later box lies on top. -/
def drawBoxes (cfg : List (Nat × Word)) (o : Nat) (ds : List Drawn) (img : List (List DPx)) : List (List DPx) :=
  let t := cfgF cfg (F.HED_O_OVL_THICK o) + 1
  img.mapIdx (fun y row => row.mapIdx (fun x p =>
    match (ds.reverse).find? (onOutline t x y) with
    | some d => palPx cfg d.2.2
    | none => p))

/-- Boxes of a unit's sheaf. -/
def boxesFor (s : State) (q : Nat) (no : Int) : List Box := s.boxes.filter (fun b => b.seq == q && b.sheaf == no)

/-! ### Display frames (R256 to R259) -/

/-- The least period of an output in µs (R256). -/
def pMin (w h : Nat) : Nat := ceilDiv (w * h * 1000000) 497664000
def periodOf (cfg : List (Nat × Word)) (o : Nat) : Nat :=
  max (cfgF cfg (F.HED_O_PERIOD_PERIOD o)) (pMin (cfgF cfg (F.HED_O_SIZE_OUT_W o)) (cfgF cfg (F.HED_O_SIZE_OUT_H o)))

def dispCode (cfg : List (Nat × Word)) (o : Nat) : Nat := if cfgF cfg (F.HED_O_CFG_FMT o) = 0 then 0x02100041 else 0x02200016

/-- Put at most 1,024 boxes on a frame (R257). -/
def limitBoxes (s : State) (o : Nat) (ds : List Drawn) : List Drawn × State :=
  if ds.length > 1024 then (ds.take 1024, s.set1 (F.HED_O_FLAGS_OVL_DROP o)) else (ds, s)

/-- A PER_SOURCE frame of a unit (R255, R257). -/
def framePayload (s : State) (h : HUnit) : List (BitVec 8) × State :=
  let o := h.out
  let w := cfgF h.cfg (F.HED_O_SIZE_OUT_W o)
  let ht := cfgF h.cfg (F.HED_O_SIZE_OUT_H o)
  let src (x y : Nat) : DPx := normPx h.cfg o (readPos s h x y)
  let img := (List.range ht).map (fun y => (List.range w).map (fun x =>
    tintPx h.cfg o s.freeCtr (h.rows * h.cols * h.chans + y * w + x) (scalePx src (taps h.cols w h.cols x) (taps h.rows ht h.rows y))))
  let bs : List Box := match h.sheaf with | some (q, _, no) => (boxesFor s q no).filter (·.draw) | none => []
  let ds : List Drawn := bs.filterMap (fun b =>
    match rangeOf w (taps h.cols w h.cols) (b.u0 - h.u0) (b.u1 - h.u0), rangeOf ht (taps h.rows ht h.rows) b.line0 b.line1 with
    | some xr, some yr => some (xr, yr, b.pal)
    | _, _ => none)
  let (ds, s) := limitBoxes s o ds
  (displayBytes (cfgF h.cfg (F.HED_O_CFG_FMT o)) w (drawBoxes h.cfg o ds img),
    { s with freeCtr := s.freeCtr + h.rows * h.cols * h.chans + ht * w })

/-- The source lines a SCROLL display line is made from (R255, R256). -/
def scrollTaps (ystep k : Nat) : List (Nat × Nat) := taps ystep 65536 (2 ^ 60) k

/-- Make the SCROLL display lines whose source lines are all there, dropping source lines no longer needed. -/
def scrollMake (w cols ystep keep : Nat) : Nat → OutSt → OutSt
  | 0, x => x
  | f + 1, x =>
    let t := scrollTaps ystep x.made
    let lastSrc := (t.map (·.1)).foldl max 0
    if lastSrc < x.srcAt + x.src.length then
      let row := (List.range w).map (fun c =>
        scalePx (fun a b => (x.src.getD (b - x.srcAt) []).getD a ⟨0, 0, 0, 0⟩) (taps cols w cols c) t)
      let firstSrc := (t.map (·.1)).foldl min lastSrc
      let nextFirst := ((scrollTaps ystep (x.made + 1)).map (·.1)).foldl min lastSrc
      let cut := nextFirst - x.srcAt
      scrollMake w cols ystep keep f { x with
        img := ((row, firstSrc, lastSrc) :: x.img).take keep, made := x.made + 1, src := x.src.drop cut, srcAt := x.srcAt + min cut x.src.length }
    else x

/-- Take a unit's lines into a SCROLL image. -/
def scrollTake (s : State) (h : HUnit) : State :=
  let o := h.out
  let x := s.hout o
  let w := cfgF h.cfg (F.HED_O_SIZE_OUT_W o)
  let rows := (List.range h.rows).map (fun y => (List.range h.cols).map (fun c => normPx h.cfg o (readPos s h c y)))
  let at_ := x.srcAt + x.src.length
  let x := { x with
    src := x.src ++ rows, newest := some h.u
    bad := x.bad ++ (if h.u.poison.isSome then (List.range h.rows).filterMap (fun y => (rowPoison s h y).map (fun a => (at_ + y, a))) else [])
    sheaves := (match h.sheaf with | some (_, _, no) => x.sheaves ++ [(no, at_)] | none => x.sheaves) }
  let x := scrollMake w h.cols (cfgF h.cfg (F.HED_O_YSTEP_YSTEP o)) (cfgF h.cfg (F.HED_O_SIZE_OUT_H o)) (4 * (rows.length + 64) + 4) x
  let low := ((x.img.getLast?).map (·.2.1)).getD 0
  let x := { x with
    bad := x.bad.filter (fun e => decide (low ≤ e.1))
    sheaves := x.sheaves.filter (fun e => decide (low ≤ e.2) ||
      ((x.sheaves.filter (fun f => decide (f.2 ≤ low))).map (·.2)).foldl max 0 == e.2) }
  s.setHout o x

/-- A SCROLL frame (R256, R257). -/
def scrollPayload (s : State) (o : Nat) (cfg : List (Nat × Word)) (cols : Nat) (u0 : Int) : List (BitVec 8) × State :=
  let x := s.hout o
  let w := cfgF cfg (F.HED_O_SIZE_OUT_W o)
  let ht := cfgF cfg (F.HED_O_SIZE_OUT_H o)
  let blank : List DPx × Nat × Nat := (List.replicate w ⟨0, 0, 0, 0⟩, 2 ^ 60, 0)
  let rowsNew := x.img.take ht ++ List.replicate (ht - x.img.length) blank
  let rows := if cfgOn cfg (F.HED_O_MODE_TOP_NEW o) then rowsNew else rowsNew.reverse
  let img := rows.mapIdx (fun y r => r.1.mapIdx (fun c p => tintPx cfg o s.freeCtr (y * w + c) p))
  let ds : List Drawn := x.boxes.filterMap (fun b =>
    match x.sheaves.find? (fun e => e.1 == b.sheaf) with
    | none => none
    | some (_, base) =>
      let ys := (List.range ht).filter (fun y =>
        let r := rows.getD y blank
        decide (r.2.1 ≤ base + b.line1) && decide (base + b.line0 ≤ r.2.2))
      match rangeOf w (taps cols w cols) (b.u0 - u0) (b.u1 - u0), ys.head?, ys.getLast? with
      | some xr, some ya, some yb => some (xr, (ya, yb), b.pal)
      | _, _, _ => none)
  let (ds, s) := limitBoxes s o ds
  (displayBytes (cfgF cfg (F.HED_O_CFG_FMT o)) w (drawBoxes cfg o ds img), { s with freeCtr := s.freeCtr + ht * w })

/-- The GVSP header of a packet (R258): format 1 leader, 2 trailer, 3 payload. -/
def gvspHead (ext : Bool) (block fmt pid : Nat) : List (BitVec 8) :=
  if ext then bytesBE 4 0 ++ bytesBE 4 ((0x80 + fmt) * 2 ^ 24) ++ bytesBE 8 block ++ bytesBE 4 pid
  else bytesBE 2 0 ++ bytesBE 2 block ++ bytesBE 4 (fmt * 2 ^ 24 + pid % 2 ^ 24)

/-- Send a display frame over Ethernet (R258, R259); the flag says that it was sent at once. A frame that waits for its panel's address is
counted when its leader leaves, or dropped with it (R142). -/
def sendDisplay (s : State) (o : Nat) (cfg : List (Nat × Word)) (img : List (BitVec 8)) : Bool × State :=
  if s.lifecycle = 2 && !(s.rd (R.FUS_WORD 0)).getLsbD 12 then (false, hedDenied s o)
  else
    let m := cfgF cfg (F.HED_O_TX_CFG_PORT o)
    let ext := cfgOn cfg (F.HED_O_TX_CFG_EXT_ID o)
    let x := s.hout o
    let nb := (x.block + 1) % (if ext then 2 ^ 64 else 2 ^ 16)
    let id := if nb = 0 then 1 else nb
    let w := cfgF cfg (F.HED_O_SIZE_OUT_W o)
    let ht := cfgF cfg (F.HED_O_SIZE_OUT_H o)
    let pkt := max 1 (cfgF cfg (F.HED_O_TX_CFG_PKT o))
    let send (s : State) (b : List (BitVec 8)) : Sent × State :=
      sendUdp s m (cfgF cfg (F.HED_O_TX_IP_IP o)) (cfgF cfg (F.HED_O_TX_UDP_SRC o)) (cfgF cfg (F.HED_O_TX_UDP_DST o)) b .none
    let leader := gvspHead ext id 1 0 ++ bytesBE 2 0 ++ bytesBE 2 1 ++ bytesBE 8 (wrapN 64 s.tim.total) ++ bytesBE 4 (dispCode cfg o) ++
      bytesBE 4 w ++ bytesBE 4 ht ++ bytesBE 4 0 ++ bytesBE 4 0 ++ bytesBE 2 0 ++ bytesBE 2 0
    match sendUdp s m (cfgF cfg (F.HED_O_TX_IP_IP o)) (cfgF cfg (F.HED_O_TX_UDP_SRC o)) (cfgF cfg (F.HED_O_TX_UDP_DST o)) leader (.display o) with
    | (.refused, s) => (false, (hedDrop s o).set1 (F.HED_O_FLAGS_TX_REFUSED o))
    | (how, s) =>
      let n := ceilDiv img.length pkt
      let s := (List.range n).foldl (fun t k => (send t (gvspHead ext id 3 (k + 1) ++ (img.drop (k * pkt)).take pkt)).2) s
      let s := (send s (gvspHead ext id 2 (n + 1) ++ bytesBE 2 0 ++ bytesBE 2 1 ++ bytesBE 4 ht)).2
      let rate := let r := cfgF cfg (F.HED_O_TX_RATE_RATE o)
        if r = 0 then ethRate (s.f (F.ETH_CFG_TYPE m)) * 1000 else r
      let wire := (img.length + (n + 2) * (if ext then 86 else 74)) * 8 * 1000
      (how == .sent, s.setHout o { s.hout o with block := id, txUntil := s.now + ceilDiv wire (max 1 rate) })

/-! ### The coding head (R260, R261) -/

/-- The payload of a coding unit. -/
def codingPayload (s : State) (h : HUnit) : List (BitVec 8) × State :=
  let o := h.out
  let d := 2 ^ cfgF h.cfg (F.HED_O_MODE_DEC o)
  let fmt := cfgF h.cfg (F.HED_O_CFG_FMT o)
  let w := ceilDiv h.cols d
  let ht := ceilDiv h.rows d
  let pw := 64 * ceilDiv w 64
  let ph := 64 * ceilDiv ht 64
  let block (n o : Nat) : List (Nat × Nat) := ((List.range d).map (fun k => (o * d + k, 1))).filter (fun e => decide (e.1 < n))
  let src (x y : Nat) : DPx := normPx h.cfg o (readPos s h x y)
  let img : List (List DPx) := (List.range ht).map (fun y => (List.range w).map (fun x =>
    tintPx h.cfg o s.freeCtr (h.rows * h.cols * h.chans + y * w + x) (scalePx src (block h.cols x) (block h.rows y))))
  let row (y : Nat) : List DPx := img.getD (min y (ht - 1)) []
  let at_ (x y : Nat) : DPx := (row y).getD (min x (w - 1)) ⟨0, 0, 0, 1⟩
  let ten := fmt == 2
  let luma (x y : Nat) : Nat := if ten then lumaCode 64 876 (at_ x y) else lumaCode 16 219 (at_ x y)
  let quad (x y : Nat) : List DPx := [at_ (2 * x) (2 * y), at_ (2 * x + 1) (2 * y), at_ (2 * x) (2 * y + 1), at_ (2 * x + 1) (2 * y + 1)]
  let chroma (blue : Bool) (x y : Nat) : Nat := if ten then chromaCode 512 896 blue (quad x y) else chromaCode 128 224 blue (quad x y)
  let samp (v : Nat) : List (BitVec 8) := if ten then bytesLE 2 (v * 64) else bytesLE 1 v
  let grid (a b : Nat) (f : Nat → Nat → List (BitVec 8)) : List (BitVec 8) :=
    pad64 ((List.range b).flatMap (fun y => (List.range a).flatMap (fun x => f x y)))
  let planes := grid pw ph (fun x y => samp (luma x y)) ++
    (if fmt = 0 then grid (pw / 2) (ph / 2) (fun x y => samp (chroma true x y)) ++ grid (pw / 2) (ph / 2) (fun x y => samp (chroma false x y))
     else grid (pw / 2) (ph / 2) (fun x y => samp (chroma true x y) ++ samp (chroma false x y)))
  let l8 (x y : Nat) : Int := if ten then (luma x y / 4 : Nat) else (luma x y : Nat)
  let bs : List Box := match h.sheaf with | some (q, _, no) => boxesFor s q no | none => []
  let hot (tx ty : Nat) : Bool := bs.any (fun b =>
    bitOf (cfgF h.cfg (F.HED_O_HINT_CLASSMASK o)) (b.cls % 16) &&
    (match rangeOf w (block h.cols) (b.u0 - h.u0) (b.u1 - h.u0), rangeOf ht (block h.rows) b.line0 b.line1 with
     | some xr, some yr => decide (xr.1 < 64 * tx + 64) && decide (64 * tx ≤ xr.2) && decide (yr.1 < 64 * ty + 64) && decide (64 * ty ≤ yr.2)
     | _, _ => false))
  let hint (tx ty : Nat) : Nat :=
    let xs := (List.range 64).filterMap (fun k => if 64 * tx + k < w then some (64 * tx + k) else none)
    let ys := (List.range 64).filterMap (fun k => if 64 * ty + k < ht then some (64 * ty + k) else none)
    let n := xs.length * ys.length
    if n = 0 then 0
    else if hot tx ty then 255
    else
      let g := (ys.flatMap (fun y => xs.map (fun x => (l8 (x + 1) y - l8 x y).natAbs + (l8 x (y + 1) - l8 x y).natAbs))).sum
      min 255 (cfgF h.cfg (F.HED_O_HINT_BASE o) + g * cfgF h.cfg (F.HED_O_HINT_GAIN o) / (16 * n))
  (planes ++ grid (pw / 64) (ph / 64) (fun x y => bytesLE 1 (hint x y)),
    { s with freeCtr := s.freeCtr + h.rows * h.cols * h.chans + ht * w })

/-! ### Units from arrival to franking -/

/-- Store a unit in progress. -/
def putHunit (s : State) (h : HUnit) : State := { s with hunits := s.hunits.map (fun x => if x.id == h.id then h else x) }

/-- Less than the period has passed since an output's last frame (R256). -/
def withinPeriod (s : State) (o : Nat) (cfg : List (Nat × Word)) : Bool :=
  match (s.hout o).lastFrame with
  | some t => decide (s.now < t + periodOf cfg o * 1000)
  | none => false

/-- A frame is skipped (R256). -/
def skipFrame (s : State) (o : Nat) : State := (s.bump (F.HED_O_DROP_SKIPPED o)).set1 (F.HED_O_FLAGS_SKIP o)

/-- A head lets a unit go that it does not take up: a sheaf is released (R252). -/
def freeUnit (s : State) (h : HUnit) : State :=
  match h.sheaf with
  | some (q, b, _) => sheafDone s h.out q b
  | none => s

/-- A new unit joins its head: one whose size the output cannot bring to its own delivers nothing, with RANGE (R255, R260); a vision unit is
made at once; a SCROLL display takes the lines into its image; a PER_SOURCE frame that is complete too early is skipped (R256). -/
def addHunit (s : State) (h : HUnit) : State :=
  if !sizeOk h.cfg h.out h.cols h.rows then freeUnit (hedRange s h.out) h
  else
  let h := { h with id := s.hunitNo, u := { h.u with poison := rowsPoison s h, src := .head s.hunitNo } }
  let s := { s with hunitNo := s.hunitNo + 1 }
  let s := if h.u.poison.isSome then (List.range h.rows).foldl (fun t y => t.meets (h.addr + y * h.step) (4 * h.chans * h.cols)) s else s
  if h.out < 16 then
    let p := visionPayload s h
    let s := if h.u.poison.isSome then { s with freeCtr := s.freeCtr + h.rows * h.cols * h.chans } else s
    { s with hunits := s.hunits ++ [{ h with
        formed := true, u := { h.u with payload := p, format := (visionFmt (cfgF h.cfg (F.HED_O_CFG_FMT h.out))).1 } }] }
  else if scrolls h.cfg h.out then freeUnit (scrollTake s h) h
  else if h.out < 24 && withinPeriod s h.out h.cfg then freeUnit (skipFrame s h.out) h
  else { s with hunits := s.hunits ++ [h] }

/-- A unit begins from a closed sheaf (R249). -/
def beginSheaf (s : State) (o q buf : Nat) (held : Bool) (at_ : Nat) : State :=
  let free (s : State) : State := if held then sheafDone s o q buf else s
  if s.f F.DEV_MODE_MODE = 7 || !held then hedDrop (free s) o
  else
    match (s.seq q).sheaves.find? (fun h => h.buf == buf && h.stage == .closed) with
    | none => free s
    | some h =>
      let cfg := hedCfg s o
      match windowOf cfg o (sqWidth h.cfg q) with
      | none => free (hedRange s o)
      | some (a, n) =>
        let ch := sqChans h.cfg q
        addHunit s { id := 0, out := o, sheaf := some (q, buf, h.no), cfg := cfg, u := sheafUnit o q n h
                     addr := sqBufAddr h.cfg q buf + 4 * ch * a, cols := n, chans := ch, step := 4 * ch * sqWidth h.cfg q
                     rows := sqLines h.cfg q, u0 := sqU0 h.cfg q + a, from_ := at_ }

/-- A unit begins from staged lines (R249). -/
def beginLines (s : State) (h : HUnit) : State := if s.f F.DEV_MODE_MODE = 7 then hedDrop s h.out else addHunit s h

/-- The head an arrival is for. -/
def Arrive.head : Arrive → Nat
  | .sheaf o _ _ _ _ => headOf o
  | .lines h => headOf h.out

/-- HEAD_UNIT (R249, R251): a head begins the unit that reached it first. -/
def execHeadUnit (h : Fin 3) (s : State) : Host.Outcome State Fault Refusal :=
  match s.hedQ.find? (fun a => a.head == h.val) with
  | some a =>
    if !s.up then done s
    else
      let s := { s with hedQ := s.hedQ.erase a }
      match a with
      | .sheaf o q b held t => done (beginSheaf s o q b held t)
      | .lines h => done (beginLines s h)
  | none => done s

/-- The boxes of a unit are there (R257, R261): its source is a stream, or the thresher does not hold the sheaf, or OVL_WAIT has
passed or is zero. -/
def boxesReady (s : State) (h : HUnit) : Bool :=
  match h.sheaf with
  | none => true
  | some (q, buf, _) =>
    h.waited || !cfgOn h.cfg (F.HED_O_OVL_OVL_WAIT h.out) ||
    !(s.seq q).sheaves.any (fun g => g.buf == buf && g.stage == .closed && g.holders.testBit 3)

/-- OVL_WAIT (R257): OVL_WAIT ms have passed since the sheaf closed. -/
def execOvlWait (o : Fin 32) (s : State) : Host.Outcome State Fault Refusal :=
  if s.up then
    done { s with hunits := s.hunits.map (fun h =>
      let t := cfgF h.cfg (F.HED_O_OVL_OVL_WAIT h.out)
      if h.out == o.val && t != 0 && decide (h.from_ + t * 1000000 ≤ s.now) then { h with waited := true } else h) }
  else done s

/-- Drop a unit before franking (R251). -/
def dropUnit (s : State) (h : HUnit) : State := headDone (hedDrop s h.out) h.id false

/-- The first unit of an output that is not franked yet. -/
def firstUnit (s : State) (o : Nat) : Option HUnit := s.hunits.find? (fun h => h.out == o && !h.franked)

/-- The last frame of an output is still being sent over Ethernet (R258). -/
def stillSending (s : State) (o : Nat) : Bool := decide (s.now < (s.hout o).txUntil)

/-- What the envelope of a SCROLL frame says (R298, R299): the newest source unit it shows, and the first source line of the image that
met uncorrectable data; the postmark of an image that shows none yet is open. -/
def scrollUnit (s : State) (o : Nat) : UnitIn × State :=
  let x := s.hout o
  match x.newest with
  | some u =>
    let shown (y : Nat) : Bool := x.img.any (fun r => decide (r.2.1 ≤ y) && decide (y ≤ r.2.2))
    ({ u with poison := (x.bad.find? (fun e => shown e.1)).map (·.2) }, s)
  | none =>
    let (a, s) := s.free
    let (b, s) := s.free
    let (c, s) := s.free
    let src := s.lf (F.HED_O_CFG_SRC o)
    let u : UnitIn := { kind := 2, head := headOf o + 1, seq := src % 8, stamp := a % 2 ^ 32, pos := b % 2 ^ 32, axis := c % 16, epoch := c / 16 % 256 }
    (if s.lon (F.HED_O_CFG_SRC_KIND o) then { u with kind := 1, stream := src, seq := 0xFF } else u, s)

/-- A frame has been made: sent over Ethernet, or left to be offered (R258). -/
def emitFrame (s : State) (h : HUnit) (img : List (BitVec 8)) : State :=
  let o := h.out
  let s := s.setHout o { s.hout o with lastFrame := some s.now }
  if cfgOn h.cfg (F.HED_O_CFG_TO_ETH o) then
    let (ok, s) := sendDisplay s o h.cfg img
    headDone s h.id ok
  else
    putHunit s { h with formed := true, u := { h.u with
      payload := img, format := dispCode h.cfg o, width := cfgF h.cfg (F.HED_O_SIZE_OUT_W o), lines := cfgF h.cfg (F.HED_O_SIZE_OUT_H o) } }

/-- DISPLAY_FRAME (R256, R257, R410): a PER_SOURCE output emits its next unit, or skips it; a SCROLL output emits its image once its period has
passed. -/
def execDisplayFrame (d : Fin 8) (s : State) : Host.Outcome State Fault Refusal :=
  let o := 16 + d.val
  if !s.up then done s
  else
    match s.hunits.find? (fun h => h.out == o && !h.formed) with
    | some h =>
      if s.f F.DEV_MODE_MODE = 7 then done (dropUnit s h)
      else if boxesReady s h then
        if stillSending s o then done (headDone (skipFrame s o) h.id false)
        else
          let (img, s) := framePayload s h
          done (emitFrame s h img)
      else done s
    | none =>
      let x := s.hout o
      let cfg := hedCfg s o
      if !x.ok || !s.lon (F.HED_O_CFG_EN o) || !scrolls cfg o || withinPeriod s o cfg then done s
      else if s.f F.DEV_MODE_MODE = 7 then done ((hedDrop s o).setHout o { x with lastFrame := some s.now })
      else if stillSending s o then done ((skipFrame s o).setHout o { x with lastFrame := some s.now })
      else
        let (u, s) := scrollUnit s o
        let (total, ch, _) := sourceShape s o
        let (a, n) := (windowOf cfg o total).getD (0, 0)
        let base : Int := if s.lon (F.HED_O_CFG_SRC_KIND o) then 0 else sqU0 (colCfg s) (s.lf (F.HED_O_CFG_SRC o) % 8)
        let (img, s) := scrollPayload s o cfg n (base + a)
        let h : HUnit := { id := s.hunitNo, out := o, cfg := cfg, u := { u with src := .head s.hunitNo }, addr := 0, cols := n
                           chans := ch, step := 0, rows := 0, from_ := s.now }
        done (emitFrame { s with hunitNo := s.hunitNo + 1, hunits := s.hunits ++ [h] } h img)

/-- A unit is offered now: WAIT runs from its first offer, the next offer from this one (R251). -/
def firstOffer (s : State) (h : HUnit) : HUnit := { h with offered := true, first := some (h.first.getD s.now), last := s.now }

/-- HEAD_OFFER (R251, R410): the output's next finished unit is offered, and offered again 1 µs after a refusal. A coding unit is finished
once its records are there (R261). -/
def execHeadOffer (o : Fin 32) (s : State) : Host.Outcome State Fault Refusal :=
  match firstUnit s o with
  | none => done s
  | some h =>
    if !s.up || h.offered || (h.first.isSome && decide (s.now < h.last + 1000)) then done s
    else if s.f F.DEV_MODE_MODE = 7 then done (dropUnit s h)
    else
      let coding := decide (24 ≤ o.val) && !h.formed
      if coding && boxesReady s h then
        let (p, s) := codingPayload s h
        let dec := 2 ^ cfgF h.cfg (F.HED_O_MODE_DEC o)
        let h := { firstOffer s h with formed := true, u := { h.u with
          payload := p, format := 0x10000 * dec + cfgF h.cfg (F.HED_O_CFG_FMT o), width := ceilDiv h.cols dec, lines := ceilDiv h.rows dec } }
        let s := putHunit s h
        done { s with offers := s.offers ++ [⟨cfgF h.cfg (F.HED_O_CFG_RING o), h.u⟩] }
      else if h.formed then
        let s := putHunit s (firstOffer s h)
        done { s with offers := s.offers ++ [⟨cfgF h.cfg (F.HED_O_CFG_RING o), h.u⟩] }
      else done s

/-- HEAD_WAIT_EXPIRY (R251): HED_O_WAIT µs have passed since the first offer. -/
def execHeadWaitExpiry (o : Fin 32) (s : State) : Host.Outcome State Fault Refusal :=
  match firstUnit s o with
  | some h =>
    match h.first with
    | some t =>
      if s.up && !h.offered && decide (t + cfgF h.cfg (F.HED_O_WAIT_WAIT o) * 1000 ≤ s.now) then done (dropUnit s h) else done s
    | none => done s
  | none => done s

/-- The franking stage has judged a head's unit (R251). -/
def headJudged (s : State) (id : Nat) (v : Verdict) : State :=
  match s.hunits.find? (fun h => h.id == id) with
  | none => s
  | some h =>
    match v with
    | .refuse _ _ =>
      if cfgF h.cfg (F.HED_O_WAIT_WAIT h.out) = 0 then dropUnit s h
      else putHunit s { h with offered := false }
    | _ => putHunit s { h with offered := false, franked := true }

end Sys2Proof.Machine
end

