-- ==== Sys2Proof/Machine/Operands.lean ====
section
/-! DEFINITION. Machine/Operands.lean: what an instruction of a core reads and writes: scalar, vector and predicate registers
(R61 to R64), data addresses and the windows of the grant (R66, R67, R98), exceptions (R86 to R90), issue and retirement. -/

namespace Sys2Proof.Machine
open Sys2Proof

/-! ### Register files -/

/-- Read a scalar register; s0 reads zero (R61). -/
def CoreSt.rs (k : CoreSt) (n : Nat) : Word := if n = 0 then 0 else mget (fun _ => 0) k.s n
/-- Write a scalar register; a write of s0 is discarded (R61). -/
def CoreSt.ws (k : CoreSt) (n : Nat) (w : Word) : CoreSt :=
  if n = 0 then k else { k with s := mset (fun _ => 0) k.s n w }
/-- Read a vector register. -/
def CoreSt.rv (k : CoreSt) (n : Nat) : BitVec 512 := mget (fun _ => 0) k.v n
/-- Write a vector register. -/
def CoreSt.wv (k : CoreSt) (n : Nat) (w : BitVec 512) : CoreSt := { k with v := mset (fun _ => 0) k.v n w }
/-- Read a predicate; p0 reads all ones (R61). -/
def CoreSt.rp (k : CoreSt) (n : Nat) : Dword := if n = 0 then BitVec.allOnes 64 else mget (fun _ => 0) k.p n
/-- Write a predicate; a write of p0 is discarded (R61). -/
def CoreSt.wp (k : CoreSt) (n : Nat) (w : Dword) : CoreSt :=
  if n = 0 then k else { k with p := mset (fun _ => 0) k.p n w }

/-! ### Cores by number -/

/-- A thresher core (R60). -/
def isTc (c : Nat) : Bool := decide (4 ≤ c)
/-- The cluster of a thresher core: eight cores each. -/
def clusterOf (c : Nat) : Nat := (c - 4) / 8
/-- The code of a core as TARGET (R94). -/
def targetOf (c : Nat) : Nat := if c < 4 then c else 0x80 + (c - 4)
/-- The core of a TARGET code, when it names one (R94). -/
def coreOfTarget (t : Nat) : Option Nat :=
  if t < 4 then some t else if 0x80 ≤ t && t < 0x100 then some (t - 0x80 + 4) else none
/-- The core fault producer (R125). -/
def prodCoreFault (c : Nat) : Nat := if c < 4 then 0x220 + c else 0x280 + (c - 4)

/-! ### Address map (R66, R67, R98) -/

/-- Where a data address leads. -/
inductive Place where
  | loc (key : Nat)
  /-- a byte of cluster memory, as a core sees it -/
  | clu (core key : Nat)
  | dev (addr : Nat)
  | reg (addr : Nat)
deriving DecidableEq, Repr

/-- Key of a core's local data memory; a control core's code region shows the bank in use. -/
def localKey (c bank off : Nat) : Nat :=
  c * 2 ^ 24 + (if c < 4 && off < 0x20000 then bank * 0x20000 + off else off)
/-- Key of a core's instruction store: a control core's code bank, or a thresher core's instruction bank. -/
def codeKey (c bank off : Nat) : Nat :=
  if c < 4 then c * 2 ^ 24 + bank * 0x20000 + off else c * 2 ^ 24 + 0x800000 + bank * 0x10000 + off
/-- Key of cluster memory. -/
def clusterKey (cluster off : Nat) : Nat := cluster * 2 ^ 24 + off

/-- The device-memory address of a data address (R67). -/
def devAddr (dmbase a : Nat) : Nat := dmbase * 0x80000000 + (a - 0x80000000)

/-- A window of the grant covers an access. -/
def winCovers (w : Win) (a n : Nat) (write : Bool) : Bool :=
  decide (w.base * 4096 ≤ a) && decide (a + n ≤ (w.base + w.size) * 4096) && !(write && w.ro)

/-- The place of a data access of `n` bytes, or the cause and detail of its access-window violation (R66, R98). A register
address is passed on: its block is checked by the register access. -/
def dataPlace (k : CoreSt) (c a n : Nat) (write : Bool) : Except (Nat × Nat) Place :=
  if 0x20000000 ≤ a && a < 0x30000000 then .ok (.reg a)
  else if a < 0x10000000 then
    if isTc c then (if a + n ≤ 0x40000 then .ok (.loc (localKey c k.bank a)) else .error (3, 0))
    else if a + n ≤ k.grant.codeKib * 1024 then
      (if write then .error (3, 7) else .ok (.loc (localKey c k.bank a)))
    else if 0x40000 ≤ a && a + n ≤ 0x80000 then .ok (.loc (localKey c k.bank a))
    else .error (3, 0)
  else if 0x10000000 ≤ a && a + n ≤ 0x10200000 then
    if isTc c then .ok (.clu c (clusterKey (clusterOf c) (a - 0x10000000))) else .error (3, 0)
  else if 0x80000000 ≤ a then
    let d := devAddr k.dmbase a
    if k.grant.wins.any (fun w => winCovers w d n write) && d + n ≤ dmemBytes then .ok (.dev d) else .error (3, 0)
  else .error (3, 0)

/-- A 64-byte unit of device memory is poisoned (R280). -/
def State.poisoned (s : State) (a : Nat) : Bool := s.poison.contains (a / 64)

/-- A word of memory overlaps an access. -/
def inWords (k n u : Nat) : Bool := decide (u * 4 < k + n) && decide (k < u * 4 + 4)
/-- A write covers a word whole: the word is rewritten (R426 code 0x05). -/
def covers (k n u : Nat) : Bool := decide (k ≤ u * 4) && decide (u * 4 + 4 ≤ k + n)

/-- A byte of cluster memory as a core sees it: bytes of a tile it has fed are its own before its fence.c (R80). -/
def cluByte (s : State) (c k : Nat) : BitVec 8 := mget (mget zeroByte s.cmem) (s.core c).fed k

/-- Bytes of cluster memory as a core sees them. -/
def cluBytes (s : State) (c k n : Nat) : List (BitVec 8) := (List.range n).map (fun i => cluByte s c (k + i))

/-- A write to cluster memory replaces the bytes of a tile that stood there (R80). -/
def dropFed (s : State) (k n : Nat) : State :=
  if s.cores.all (fun e => e.2.fed.isEmpty) then s
  else { s with cores := s.cores.map (fun e => (e.1, { e.2 with fed := mdropRange e.2.fed k (k + n) })) }

/-- Bytes of a tile are copied to cluster memory for one core (R80). -/
def feedBytes (s : State) (c k : Nat) (l : List (BitVec 8)) : State :=
  let t := dropFed { s with cpoison := s.cpoison.filter (fun u => !covers k l.length u) } k l.length
  t.setCore c { t.core c with fed := l.zipIdx.foldl (fun (m : SMap (BitVec 8)) (e : BitVec 8 × Nat) => minsert m (k + e.2) e.1) (t.core c).fed }

/-- A core's fence.c: every core of the cluster sees the tiles it has fed (R80, R83). -/
def shareFed (s : State) (c : Nat) : State :=
  let k := s.core c
  if k.fed.isEmpty then s
  else { s with cmem := k.fed.foldl (fun (m : SMap (BitVec 8)) (e : Nat × BitVec 8) => mset zeroByte m e.1 e.2) s.cmem }.setCore c { k with fed := [] }

/-- Read bytes at a place; a poisoned device-memory unit gives none (R89, R280). -/
def placeRead (s : State) (p : Place) (n : Nat) : Option (List (BitVec 8)) :=
  match p with
  | .loc k => if s.lpoison.any (inWords k n) then none else some (mreadBytes s.lmem k n)
  | .clu c k => if s.cpoison.any (inWords k n) then none else some (cluBytes s c k n)
  | .dev a => if s.poisoned a then none else some (s.dread a n)
  | .reg _ => none

/-- A failed read of a place: a device-memory unit reads as uncorrectable (R280). -/
def placeMissed (s : State) (p : Place) (n : Nat) : State :=
  match p with
  | .dev a => s.meets a n
  | _ => s

/-- Write bytes at a place; a register place is not written here. -/
def placeWrite (s : State) (p : Place) (l : List (BitVec 8)) : State :=
  match p with
  | .loc k => { s with lmem := mwriteBytes s.lmem k l, lpoison := s.lpoison.filter (fun u => !covers k l.length u) }
  | .clu _ k => dropFed { s with cmem := mwriteBytes s.cmem k l, cpoison := s.cpoison.filter (fun u => !covers k l.length u) } k l.length
  | .dev a => s.dwrite a l
  | .reg _ => s

/-- A core changes and the rest of the machine stays. -/
def State.mapCore (s : State) (c : Nat) (f : CoreSt → CoreSt) : State := s.setCore c (f (s.core c))

/-! ### Exceptions (R86 to R90) -/

/-- A core stops by fault (R90): it halts, raises its core fault event, and the second exception is logged (code 0x08). -/
def coreFault (s : State) (c cause detail eaddr : Nat) : State :=
  let k := s.core c
  let s := s.setCore c { k with run := .fault, wait := .none, lastCause := cause, haltPc := k.pc }
  let s := s.raise (prodCoreFault c)
  s.logFault 0x08 2 (targetOf c) eaddr (detail * 256 + cause)

/-- Take an exception on a core with the return address given (R87): EPC, ECAUSE and EADDR are set, STATUS.EXC is set, and the
core goes on at the vector; while STATUS.EXC is set the core halts instead (R90). -/
def takeExcAt (s : State) (c cause detail eaddr : Nat) (epc : Word) : State :=
  let k := s.core c
  if k.exc then coreFault s c cause detail eaddr
  else
    s.setCore c { k with
      epc := epc, cause := cause, detail := detail, eaddr := BitVec.ofNat 32 eaddr, exc := true,
      wait := .none, pc := BitVec.ofNat 32 (cause * 16) }

/-- A precise exception: EPC is the instruction (R86, R87). -/
def takeExc (s : State) (c cause detail eaddr : Nat) : State := takeExcAt s c cause detail eaddr (s.core c).pc

/-- A core may reach a register address: an address outside every span, or in a block its grant does not give, is an access-window
violation (R98). -/
def coreReaches (s : State) (c a : Nat) (write : Bool) : Bool :=
  let b := blockBit a
  let g := (s.core c).grant
  b != 28 && (if write then g.blkWrite.getLsbD b else g.blkRead.getLsbD b)

/-- What a register write of a core does, once the core runs and its grant gives the block (R98). -/
def byCore (s : State) (c a : Nat) (f : State → State) : State :=
  if (s.core c).run != .running then s else if coreReaches s c a true then f s else takeExc s c 3 1 a

/-- Return from exception (R71): pc takes EPC and STATUS.EXC clears; an EPC that is not a multiple of 4 is a misaligned jump
target (DETAIL 3). -/
def retExc (s : State) (c : Nat) : State :=
  let k := s.core c
  if k.epc.toNat % 4 != 0 then takeExc s c 2 3 k.epc.toNat
  else s.setCore c { k with pc := k.epc, exc := false, instret := k.instret + 1 }

/-! ### Issue and retirement -/

/-- The fetch address lies in the code the core may fetch (R66). -/
def fetchOk (k : CoreSt) (c : Nat) : Bool :=
  if isTc c then decide (k.pc.toNat < 0x10000) else decide (k.pc.toNat < k.grant.codeKib * 1024)

/-- The fetched word's local memory holds an uncorrectable error (R86: bus error, DETAIL 0). -/
def fetchPoisoned (s : State) (k : CoreSt) (c : Nat) : Bool := s.lpoison.contains (codeKey c k.bank k.pc.toNat / 4)

/-- A core takes its next instruction: it runs and does not wait. -/
def canIssue (s : State) (c : Nat) : Bool :=
  let k := s.core c
  s.up && k.run == .running && k.wait == .none

/-- Issue an instruction (R60, R70, R88): nothing when the core does not take one; access-window violation on the fetch, then
illegal instruction, then the body. `v`: the instruction belongs to profile V; `legal`: its reserved fields are zero. A posted store that
has failed is taken instead, at this boundary (R89). -/
def issue (s : State) (c : Nat) (v legal : Bool) (body : CoreSt → State) : State :=
  if canIssue s c then
    let k := s.core c
    match k.busErrs with
    | a :: rest => takeExc (s.setCore c { k with busErrs := rest }) c 4 1 a.toNat
    | [] =>
      if !fetchOk k c then takeExc s c 3 6 k.pc.toNat
      else if fetchPoisoned s k c then takeExc s c 4 0 k.pc.toNat
      else if (v && !isTc c) || !legal then takeExc s c 1 0 0
      else body k
  else s

/-- Retire to a pc: the instruction counts and the core goes on there. -/
def CoreSt.retireTo (k : CoreSt) (pc : Word) : CoreSt := { k with pc := pc, instret := k.instret + 1 }
/-- Retire to the next instruction. -/
def CoreSt.retire (k : CoreSt) : CoreSt := k.retireTo (k.pc + 4)

/-- An instruction whose whole effect is one scalar result. -/
def issueS (s : State) (c : Nat) (legal : Bool) (rd : Nat) (f : CoreSt → Word) : State :=
  issue s c false legal (fun k => s.setCore c ((k.ws rd (f k)).retire))

/-- A sign-extended immediate. -/
def sx32 {n : Nat} (x : BitVec n) : Word := x.signExtend 32
/-- A zero-extended immediate. -/
def zx32 {n : Nat} (x : BitVec n) : Word := x.zeroExtend 32

/-- The address of a load or store (R71): base plus the sign-extended offset. -/
def memAddr (k : CoreSt) (base : Nat) (off : BitVec 12) : Nat := (k.rs base + sx32 off).toNat

/-- What stops a scalar data access: misalignment first, then the window (R68, R88). `n` bytes; registers take only words, and
`regs` says whether this access may reach them. -/
def scalarPlace (k : CoreSt) (c a n : Nat) (write regs : Bool) : Except (Nat × Nat) Place :=
  if 0x20000000 ≤ a && a < 0x30000000 && !regs then .error (2, 2)
  else if a % n != 0 then .error (2, if 0x20000000 ≤ a && a < 0x30000000 then 2 else 0)
  else dataPlace k c a n write

end Sys2Proof.Machine
end

