-- ==== Sys2Proof/Machine/Thresh.lean ====
section
/-! DEFINITION. Machine/Thresh.lean: the thresher (R263 to R275): tiles, holds, reference compare, the flail, defect records and their
crops. -/

namespace Sys2Proof.Machine
open Sys2Proof

/-- The THR settings in force of a sequence (R274). -/
def thrCfg (s : State) (q : Nat) : List (Nat × Word) := regsIn s.live (R.THR_SQ_CFG q) (R.THR_SQ_CFG q + 0x80)

def thrRange (s : State) (q : Nat) : State := s.set1 (F.THR_SQ_FLAGS_RANGE q)

/-- The cores of a sequence: first and count, when they are legal (R264). -/
def thrCores (cfg : List (Nat × Word)) (q : Nat) : Option (Nat × Nat) :=
  let a := cfgF cfg (F.THR_SQ_CFG_CORE_FIRST q)
  let n := cfgF cfg (F.THR_SQ_CFG_CORE_COUNT q)
  if n = 0 || 128 < a + n then none else some (a, n)

/-- The thresher apply point (R274): an enabled sequence without legal cores shows RANGE (R264). -/
def thrApply (s : State) : State :=
  let s := s.applyRange (R.THR_SQ_CFG 0) (R.THR_SQ_CFG 8)
  (List.range 8).foldl (fun t q =>
    if t.lon (F.THR_SQ_CFG_EN q) && (thrCores (thrCfg t q) q).isNone then thrRange t q else t) s

/-- THR_APPLY (R274). -/
def execThrApply (s : State) : Host.Outcome State Fault Refusal := if s.up then done (thrApply s) else done s

/-! ### Dealing (R263, R264) -/

/-- The closed sheaf in a buffer that the thresher holds. -/
def thrSheaf (s : State) (q buf : Nat) : Option SheafSt :=
  (s.seq q).sheaves.find? (fun h => h.buf == buf && h.stage == .closed && h.holders.testBit 3)

/-- The tile queue of a thresher core. -/
def tileQ (s : State) (tc : Nat) : List Tile := mget (fun _ => []) s.thr.queues tc
def setTileQ (s : State) (tc : Nat) (l : List Tile) : State :=
  { s with thr := { s.thr with queues := mset (fun _ => []) s.thr.queues tc l } }

/-- Core areas in a row and in a column of a sheaf. -/
def thrGrid (cfg : List (Nat × Word)) (q width lines : Nat) : Nat × Nat :=
  (ceilDiv width (max 1 (cfgF cfg (F.THR_SQ_TILE_CORE_W q))), ceilDiv lines (max 1 (cfgF cfg (F.THR_SQ_TILE_CORE_H q))))

/-- Tile number `i` of a sheaf (R263). -/
def tileAt (cfg : List (Nat × Word)) (j : ThrJob) (width lines i : Nat) : Tile :=
  let (nx, ny) := thrGrid cfg j.q width lines
  let cw := max 1 (cfgF cfg (F.THR_SQ_TILE_CORE_W j.q))
  let ch := max 1 (cfgF cfg (F.THR_SQ_TILE_CORE_H j.q))
  let ovl := cfgF cfg (F.THR_SQ_TILE_OVL j.q)
  let x0 := i % max 1 nx * cw
  let y0 := i / max 1 nx * ch
  let w := min cw (width - x0)
  let h := min ch (lines - y0)
  let x := x0 - ovl
  let y := y0 - ovl
  ⟨j.q, j.buf, j.no, x, y, min width (x0 + w + ovl) - x, min lines (y0 + h + ovl) - y, x0 - x, y0 - y, w, h, i == 0,
    i + 1 == nx * ny, cfg⟩

/-- The next core with room after the last one dealt, in a range of cores (R264). -/
def nextCore (s : State) (q first n : Nat) : Option Nat :=
  let from_ := match s.thr.lastCore.find? (fun e => e.1 == q) with
    | some (_, c) => if first ≤ c && c < first + n then c + 1 - first else 0
    | none => 0
  ((List.range n).map (fun k => first + (from_ + k) % n)).find? (fun c => decide ((tileQ s c).length < 4))

/-- The settings a job is dealt under. -/
def jobCfg (s : State) (j : ThrJob) : List (Nat × Word) := j.cfg.getD (thrCfg s j.q)

/-- The job of a sequence that can be dealt a tile now, and the core that takes it. -/
def dealable (s : State) (q : Nat) : Option (ThrJob × Nat) :=
  match s.thr.jobs.find? (fun j => j.q == q) with
  | some j =>
    match thrCores (jobCfg s j) q with
    | some (a, n) => (nextCore s q a n).map (fun c => (j, c))
    | none => none
  | none => none

/-- Release a sheaf once every tile is fed, every hold has ended and every crop asked of it is cut (R239, R270). -/
def thrRelease (s : State) (q buf : Nat) : State :=
  match s.thr.dealt.find? (fun e => e.1 == q && e.2.1 == buf) with
  | some e =>
    let order := ((thrSheaf s q buf).map (·.order)).getD 0
    if s.thr.queues.any (fun x => x.2.any (fun t => t.q == q && t.buf == buf)) ||
        s.thr.holds.any (fun x => x.2.2.1 == q && x.2.2.2 == buf) ||
        s.thr.recs.any (fun r => r.crop.isSome && (match r.h with | some h => h.q == q && h.buf == buf && h.order == order | none => false))
    then s
    else
      let s := { s with thr := { s.thr with dealt := s.thr.dealt.erase e } }
      let s := s.setPair (R.THR_SQ_LAST_LO q) (R.THR_SQ_LAST_HI q) (wrapN 64 e.2.2)
      releaseBuf s q buf 3
  | none => s

/-- Deal one tile. -/
def dealTile (s : State) (j : ThrJob) (tc : Nat) : State :=
  match thrSheaf s j.q j.buf with
  | none => { s with thr := { s.thr with jobs := s.thr.jobs.erase j } }
  | some h =>
    let cfg := jobCfg s j
    let s := if j.next = 0 && h.flags != 0 then s.set1 (F.THR_SQ_FLAGS_FLAWED j.q) else s
    let t := tileAt cfg j (sqWidth h.cfg j.q) (sqLines h.cfg j.q) j.next
    let s := noteTile (setTileQ s tc (tileQ s tc ++ [t])) j.q j.no (tc + 4)
    let x := s.thr
    let x := { x with lastCore := (j.q, tc) :: x.lastCore.filter (fun e => e.1 != j.q), lastSeq := j.q }
    if t.last then { s with thr := { x with jobs := x.jobs.erase j, dealt := x.dealt ++ [(j.q, j.buf, j.no)] } }
    else { s with thr := { x with jobs := x.jobs.map (fun k => if k = j then { j with cfg := some cfg, next := j.next + 1 } else k) } }

/-- TILE_DEAL (R264): one tile of the next sequence in turn that has one to deal and a core with room. -/
def execTileDeal (s : State) : Host.Outcome State Fault Refusal :=
  if !s.up || s.f F.DEV_MODE_MODE = 7 then done s
  else
    match ((List.range 8).map (fun k => (s.thr.lastSeq + 1 + k) % 8)).findSome? (dealable s) with
    | some (j, tc) => done (dealTile s j tc)
    | none => done s

/-! ### Holds (R270) -/

/-- The holds of a core end: its next tfeed, a halt, a switch. -/
def endHold (s : State) (c : Nat) : State :=
  let mine := s.thr.holds.filter (fun e => e.2.1 == c)
  let s := { s with thr := { s.thr with holds := s.thr.holds.filter (fun e => e.2.1 != c) } }
  mine.foldl (fun t e => thrRelease t e.2.2.1 e.2.2.2) s

/-- A write of THR_TILE_DONE (R270). -/
def doTileDone (s : State) (h : Word) : State :=
  match s.thr.holds.find? (fun e => e.1 == h.toNat) with
  | some e => thrRelease { s with thr := { s.thr with holds := s.thr.holds.erase e } } e.2.2.1 e.2.2.2
  | none => s.set1 F.THR_STAT_RANGE

/-- THR_TILE_DONE (R270). -/
def execThrTileDone (h : Word) (s : State) : Host.Outcome State Fault Refusal :=
  if s.up then done (doTileDone s h) else done s

/-! ### The tile copy (R265, R266) -/

/-- One pixel word of a sheaf at an address; a word of a poisoned unit is fill of a value the spec leaves open (R281): the free
value numbered `k` from the next. -/
def thrWord (s : State) (a k : Nat) : Nat :=
  if s.poison.contains (a / 64) then (Config.freeValue (s.freeCtr + k)).toNat % 2 ^ 24 + fFill * 2 ^ 24 else s.dreadN a 4

/-- The reference compare settings of R266 hold: a base, a width, and a repeat of whole lines. -/
def refOk (cfg : List (Nat × Word)) (q lpitch : Nat) : Bool :=
  let r := cfgF cfg (F.THR_REF_REPEAT_REPEAT q)
  cfgF cfg (F.THR_REF_BASE_BASE q) != 0 && cfgF cfg (F.THR_REF_W_W q) != 0 && r != 0 && lpitch != 0 && r % lpitch == 0

/-- The difference of a pixel at a global column on a sheaf line from the reference (R266). -/
def refDiff (s : State) (cfg : List (Nat × Word)) (q lpitch : Nat) (start u : Int) (line k : Nat) (v : Nat) (fill : Bool) : Int :=
  let w := cfgF cfg (F.THR_REF_W_W q)
  let col := u - (cfgF cfg (F.THR_REF_U0_U0 q) : Nat) - signed 32 (cfgF cfg (F.THR_REF_DX_DX q))
  let origin := signed 64 (cfgF cfg (F.THR_REF_ORIGIN_LO_ORIGIN q) + 2 ^ 32 * cfgF cfg (F.THR_REF_ORIGIN_HI_ORIGIN q))
  let p := start + (line * lpitch : Nat) - origin - signed 32 (cfgF cfg (F.THR_REF_DY_DY q))
  let row := (p % (cfgF cfg (F.THR_REF_REPEAT_REPEAT q) : Nat)).toNat / max 1 lpitch
  if fill || decide (col < 0) || decide ((w : Int) ≤ col) then -32768
  else
    let a := cfgF cfg (F.THR_REF_BASE_BASE q) * 64 + row * (ceilDiv (2 * w) 64 * 64) + 2 * col.toNat
    let ref := if s.poison.contains (a / 64) then (Config.freeValue (s.freeCtr + k)).toNat % 2 ^ 16 else s.dreadN a 2
    clampI (-32767) 32767 ((v : Int) - 16 * (ref : Nat))

/-- Offsets of a tile: difference plane (zero when none), component area, its whole size (R265). -/
def tileOfs (t : Tile) (chans : Nat) (diff : Bool) : Nat × Nat × Nat :=
  let up (n : Nat) : Nat := ceilDiv n 64 * 64
  let e := up (64 + 4 * chans * t.w * t.h)
  let c := if diff then up (e + 2 * t.w * t.h) else e
  (if diff then e else 0, c, c + 32 * cfgF t.cfg (F.THR_SQ_COMP_COMP_MAX t.q))

/-- The bytes of a tile from its header to the end of its difference plane. -/
def tileBytes (s : State) (t : Tile) (h : SheafSt) (handle : Nat) (diff : Bool) : List (BitVec 8) :=
  let q := t.q
  let ch := sqChans h.cfg q
  let base := sqBufAddr h.cfg q t.buf
  let step := 4 * ch * sqWidth h.cfg q
  let (dofs, cofs, _) := tileOfs t ch diff
  let tf := (if t.first then 1 else 0) + (if t.last then 2 else 0) + (if diff then 4 else 0)
  let word (i j k : Nat) : Nat := thrWord s (base + (t.y + j) * step + 4 * ((t.x + i) * ch + k)) ((j * t.w + i) * ch + k)
  let px : List (BitVec 8) := (List.range t.h).flatMap (fun j => (List.range t.w).flatMap (fun i => (List.range ch).flatMap (fun k =>
    bytesLE 4 (word i j k))))
  let head := bytesLE 4 handle ++ bytesLE 1 q ++ bytesLE 1 ch ++ bytesLE 1 t.buf ++ bytesLE 1 tf ++ bytesLE 8 (wrapN 64 t.no) ++
    bytesLE 4 (wrapN 32 (sqU0 h.cfg q + t.x)) ++ bytesLE 4 t.y ++ bytesLE 2 t.w ++ bytesLE 2 t.h ++ bytesLE 2 t.cx ++
    bytesLE 2 t.cy ++ bytesLE 2 t.cw ++ bytesLE 2 t.ch ++ bytesLE 4 64 ++ bytesLE 4 dofs ++ bytesLE 4 cofs ++
    bytesLE 2 (cfgF t.cfg (F.THR_SQ_COMP_COMP_MAX q)) ++ bytesLE 2 0 ++ bytesLE 4 0 ++ bytesLE 4 h.flags ++ bytesLE 4 0
  if diff then
    let d : List (BitVec 8) := (List.range t.h).flatMap (fun j => (List.range t.w).flatMap (fun i =>
      let ws := (List.range ch).map (word i j)
      let v := statOf (ws.map (fun w => ⟨w % 2 ^ 24, w / 2 ^ 24⟩))
      let fill := ws.any (fun w => w.testBit 25)
      bytesLE 2 (wrapN 16 (refDiff s t.cfg q (sqLpitch h.cfg q) (sheafStart h.cfg q h.no) (sqU0 h.cfg q + (t.x + i : Nat)) (t.y + j)
        (t.w * t.h * ch + j * t.w + i) v fill))))
    head ++ px ++ List.replicate (dofs - 64 - px.length) 0 ++ d
  else head ++ px

/-- The next handle: handles count from 1 and skip zero (R270). -/
def handleAfter (h : Nat) : Nat := if (h + 1) % 2 ^ 32 = 0 then 1 else (h + 1) % 2 ^ 32

/-- What the tile at the head of a core's queue is made from: the tile, the queue after it, its sheaf, and whether it takes a
difference plane (R265, R266). -/
def headTile (s : State) (c : Nat) : Option (Tile × List Tile × SheafSt × Bool) :=
  match tileQ s (c - 4) with
  | [] => none
  | t :: rest =>
    (thrSheaf s t.q t.buf).map (fun h =>
      (t, rest, h, cfgOn t.cfg (F.THR_SQ_CFG_REF_EN t.q) && refOk t.cfg t.q (sqLpitch h.cfg t.q)))

/-- The tile area must lie in cluster memory (R98, R265): where the copy of the tile at the head of the queue would leave it. -/
def feedFault (s : State) (c addr : Nat) : Option Nat :=
  match headTile s c with
  | none => none
  | some (t, _, h, diff) =>
    if addr < 0x10000000 || 0x10200000 ≤ addr then some addr
    else if 0x10200000 < addr + (tileOfs t (sqChans h.cfg t.q) diff).2.2 then some 0x10200000
    else none

/-- Feed a core the tile at the head of its queue (R80, R265): none when the queue is empty. A core whose tile area leaves cluster memory
takes an access-window violation, and the tile stays. -/
def feedTile (s : State) (c addr rd : Nat) : Option State :=
  match headTile s c with
  | none => none
  | some (t, rest, h, diff) =>
    match feedFault s c addr with
    | some a => some (takeExc s c 3 0 a)
    | none =>
      let ch := sqChans h.cfg t.q
      let s := if cfgOn t.cfg (F.THR_SQ_CFG_REF_EN t.q) && !diff then s.set1 (F.THR_SQ_FLAGS_REF_BAD t.q) else s
      let hn := s.thr.nextHandle
      let l := tileBytes s t h hn diff
      let s := { s with freeCtr := s.freeCtr + t.w * t.h * (ch + 1) }
      let wd := sqWidth h.cfg t.q
      let s := (List.range t.h).foldl (fun u j => u.meets (sqBufAddr h.cfg t.q t.buf + 4 * ch * ((t.y + j) * wd + t.x)) (4 * ch * t.w)) s
      let s := feedBytes s c (clusterKey (clusterOf c) (addr - 0x10000000)) l
      let q := t.q
      let rec' : Handle := ⟨hn, c, q, t.buf, h.no, h.epoch, h.flags, wrapN 32 h.cutTime, cfgF h.cfg (F.COL_SQ_CFG_AXIS q),
        sheafStart h.cfg q h.no, sqLpitch h.cfg q, sqU0 h.cfg q, sqWidth h.cfg q, sqLines h.cfg q, ch, h.order,
        sqBufAddr h.cfg q t.buf, t.cfg⟩
      let s := setTileQ s (c - 4) rest
      let s := { s with thr := { s.thr with
        nextHandle := handleAfter hn, handles := (rec' :: s.thr.handles).take 4096, holds := s.thr.holds ++ [(hn, c, q, t.buf)] } }
      let s := s.incrPair R.THR_TILES_LO R.THR_TILES_HI 1
      let k := s.core c
      some (s.setCore c { (k.ws rd (BitVec.ofNat 32 hn)).retire with wait := .none, tmo := false })

/-! ### The flail (R267 to R269) -/

/-- A pixel as the flail sees it: its statistic value, the flag byte over its channels, its difference (none without a reference),
and its word (its G word). -/
structure FlPx where
  v : Nat
  f : Nat
  d : Option Int
  w : Nat
deriving DecidableEq, Repr

/-- What the flail compares with. -/
structure FlCfg where
  lo : Nat
  hi : Nat
  mask : Nat
  excl : Nat
  dtol : Nat
  conn8 : Bool
  minArea : Nat
deriving DecidableEq, Repr

def flCfg (cfg : List (Nat × Word)) (q : Nat) : FlCfg :=
  ⟨cfgF cfg (F.THR_FL_LO_LO q), cfgF cfg (F.THR_FL_HI_HI q), cfgF cfg (F.THR_FL_MASK_FLAGMASK q), cfgF cfg (F.THR_FL_MASK_EXCL q),
    cfgF cfg (F.THR_FL_MASK_DTOL q), cfgOn cfg (F.THR_SQ_CFG_CONN8 q), cfgF cfg (F.THR_SQ_COMP_MIN_AREA q)⟩

def FlPx.dark (p : FlPx) (k : FlCfg) : Bool := decide (p.v < k.lo)
def FlPx.bright (p : FlPx) (k : FlCfg) : Bool := decide (k.hi < p.v)
def FlPx.differs (p : FlPx) (k : FlCfg) : Bool :=
  match p.d with
  | some d => k.dtol != 0 && decide (k.dtol < d.natAbs)
  | none => false
def FlPx.flagged (p : FlPx) (k : FlCfg) : Bool := p.f &&& k.mask != 0
/-- A candidate (R267). -/
def FlPx.candidate (p : FlPx) (k : FlCfg) : Bool :=
  p.f &&& k.excl == 0 && (p.flagged k || p.dark k || p.bright k || p.differs k)
/-- What the peak is the largest of (R268). -/
def FlPx.peak (p : FlPx) (k : FlCfg) : Int :=
  let a := max ((k.lo : Int) - p.v) ((p.v : Int) - k.hi)
  match p.d with
  | some d => if k.dtol = 0 then a else max a ((d.natAbs : Int) - k.dtol)
  | none => a

/-- Two pixels touch under 4- or 8-connection. -/
def touches (conn8 : Bool) (a b : Nat × Nat) : Bool :=
  let dx := max a.1 b.1 - min a.1 b.1
  let dy := max a.2 b.2 - min a.2 b.2
  if conn8 then decide (dx ≤ 1) && decide (dy ≤ 1) else decide (dx + dy ≤ 1)

/-- Grow a component over the candidates left, ring by ring. -/
def growComp (conn8 : Bool) : Nat → List (Nat × Nat) → List (Nat × Nat) → List (Nat × Nat) → List (Nat × Nat)
  | 0, _, _, comp => comp
  | n + 1, left, front, comp =>
    let next := left.filter (fun p => front.any (touches conn8 p))
    if next.isEmpty then comp else growComp conn8 n (left.filter (fun p => !next.contains p)) next (comp ++ next)

/-- The components of candidates given in raster order, in order of their first pixels, each in raster order (R267). -/
def compsOf (conn8 : Bool) : Nat → List (Nat × Nat) → List (List (Nat × Nat))
  | 0, _ => []
  | n + 1, l =>
    match l with
    | [] => []
    | p :: rest =>
      let comp := growComp conn8 (rest.length + 1) rest [p] [p]
      l.filter (fun x => comp.contains x) :: compsOf conn8 n (l.filter (fun x => !comp.contains x))

/-- A component record (R268): `at_` gives a pixel, the core area and the tile size follow. -/
def compRecord (k : FlCfg) (at_ : Nat × Nat → FlPx) (area : Nat × Nat × Nat × Nat) (w h label : Nat) (l : List (Nat × Nat)) :
    List (BitVec 8) :=
  let (cx, cy, cw, ch) := area
  let xs := l.map (·.1)
  let ys := l.map (·.2)
  let x0 := xs.foldl min w
  let y0 := ys.foldl min h
  let x1 := xs.foldl max 0
  let y1 := ys.foldl max 0
  let sumv := min (2 ^ 32 - 1) ((l.map (fun p => (at_ p).v / 16)).sum)
  let sumd := clampI (-(2 ^ 31)) (2 ^ 31 - 1) ((l.map (fun p => Int.tdiv ((at_ p).d.getD 0) 16)).sum)
  let first := l.headD (0, 0)
  let best := l.foldl (fun b p => if (at_ b).peak k < (at_ p).peak k then p else b) first
  let bit (b : Bool) (n : Nat) : Nat := if b then 2 ^ n else 0
  let owned := decide (cx ≤ first.1) && decide (first.1 < cx + cw) && decide (cy ≤ first.2) && decide (first.2 < cy + ch)
  let fl := bit owned 0 + bit (x0 == 0) 1 + bit (x1 + 1 == w) 2 + bit (y0 == 0) 3 + bit (y1 + 1 == h) 4 +
    bit (l.any (fun p => (at_ p).dark k)) 5 + bit (l.any (fun p => (at_ p).bright k)) 6 + bit (l.any (fun p => (at_ p).differs k)) 7 +
    bit (l.any (fun p => (at_ p).flagged k)) 8
  bytesLE 2 x0 ++ bytesLE 2 y0 ++ bytesLE 2 x1 ++ bytesLE 2 y1 ++ bytesLE 4 l.length ++ bytesLE 4 sumv ++ bytesLE 4 (wrapN 32 sumd) ++
    bytesLE 2 best.1 ++ bytesLE 2 best.2 ++ bytesLE 4 (at_ best).w ++ bytesLE 2 fl ++ bytesLE 2 label

/-- The key of an offset of a cluster's memory, which wraps at its end. -/
def cluKey (k off : Nat) : Nat := clusterKey k (off % 0x200000)
/-- A number in a cluster's memory, as the flail reads it for core `c` of the cluster. -/
def cluN (s : State) (c off n : Nat) : Nat := ofLE ((List.range n).map (fun i => cluByte s c (cluKey (clusterOf c) (off + i))))
/-- Write bytes into a cluster's memory from an offset that wraps at its end. -/
def cluPut (s : State) (k off : Nat) (l : List (BitVec 8)) : State :=
  l.zipIdx.foldl (fun t e => placeWrite t (.clu 0 (cluKey k (off + e.2))) [e.1]) s

/-- Label one tile: its components are written, then COMP_CNT, then DONE; the cluster's producer is raised. -/
def flailTile (s : State) (c addr handle : Nat) : State :=
  let k := clusterOf c
  let o := addr - 0x10000000
  let q := cluN s c (o + 4) 1 % 8
  if cluN s c o 4 != handle then
    let s := cluPut s k (o + 0x32) (bytesLE 2 0)
    ((cluPut s k (o + 0x34) (bytesLE 4 handle)).set1 F.THR_STAT_RANGE).raise (0x230 + k)
  else
    let cfg := match s.thr.handles.find? (fun h => h.h == handle) with
      | some h => h.cfg
      | none => thrCfg s q
    let fc := flCfg cfg q
    let ch := cluN s c (o + 5) 1
    let w := cluN s c (o + 0x18) 2
    let h := cluN s c (o + 0x1A) 2
    let area := (cluN s c (o + 0x1C) 2, cluN s c (o + 0x1E) 2, cluN s c (o + 0x20) 2, cluN s c (o + 0x22) 2)
    let pofs := cluN s c (o + 0x24) 4
    let dofs := cluN s c (o + 0x28) 4
    let cofs := cluN s c (o + 0x2C) 4
    let cmax := cluN s c (o + 0x30) 2
    let at_ (p : Nat × Nat) : FlPx :=
      let ws := (List.range ch).map (fun i => cluN s c (o + pofs + 4 * ((p.2 * w + p.1) * ch + i)) 4)
      let d := signed 16 (cluN s c (o + dofs + 2 * (p.2 * w + p.1)) 2)
      ⟨statOf (ws.map (fun x => ⟨x % 2 ^ 24, x / 2 ^ 24⟩)), ws.foldl (fun f x => f ||| (x / 2 ^ 24)) 0,
        if dofs = 0 || d = -32768 then none else some d, ws.getD (if ch = 3 then 1 else 0) 0⟩
    let cand := ((List.range h).flatMap (fun y => (List.range w).map (fun x => (x, y)))).filter (fun p => (at_ p).candidate fc)
    let comps := (compsOf fc.conn8 cand.length cand).filter (fun l => decide (fc.minArea ≤ l.length))
    let recs := (comps.take cmax).zipIdx.flatMap (fun e => compRecord fc at_ area w h (e.2 + 1) e.1)
    let tflags := cluN s c (o + 7) 1
    let s := cluPut s k (o + cofs) recs
    let s := if cmax < comps.length then
        ((cluPut s k (o + 7) (bytesLE 1 (tflags ||| 8))).set1 (F.THR_SQ_FLAGS_COMP_OVF q)).set1 F.THR_STAT_COMP_OVF
      else s
    let s := cluPut s k (o + 0x32) (bytesLE 2 (min cmax comps.length))
    (cluPut s k (o + 0x34) (bytesLE 4 handle)).raise (0x230 + k)

/-- FLAIL_TILE (R269): the flail takes the tile at the head of its queue. -/
def execFlailTile (s : State) : Host.Outcome State Fault Refusal :=
  match s.thr.flq with
  | (c, a, h) :: rest => if s.up then done (flailTile { s with thr := { s.thr with flq := rest } } c a h) else done s
  | [] => done s

/-! ### Defect records (R271 to R273) -/

/-- The sheaf of a handle is still held by the thresher. -/
def heldSheaf (s : State) (h : Handle) : Bool :=
  match thrSheaf s h.q h.buf with
  | some x => x.no == h.no && x.order == h.order
  | none => false

/-- The crop a record asks for (R272): first column and line, columns and lines, and whether it was clipped. -/
def cropRect (h : Handle) (b : List (BitVec 8)) : (Int × Int × Nat × Nat) × Bool :=
  let w0 := leAt b 0x24 2
  let h0 := leAt b 0x26 2
  let w := min 256 w0
  let ht := min 256 h0
  let x : Int := (((leAt b 0x10 4 + leAt b 0x14 4) / 2 : Nat) : Int) - (w / 2 : Nat)
  let y : Int := (((leAt b 0x18 2 + leAt b 0x1A 2) / 2 : Nat) : Int) - (ht / 2 : Nat)
  let xa := max x h.u0
  let xb := min (x + w) (h.u0 + h.width)
  let ya := max y 0
  let yb := min (y + ht) h.lines
  ((xa, ya, (xb - xa).toNat, (yb - ya).toNat),
    decide (w < w0) || decide (ht < h0) || xa != x || ya != y || xb != x + w || yb != y + ht)

/-- Put bytes at an offset of a list. -/
def putAt (l : List (BitVec 8)) (o : Nat) (b : List (BitVec 8)) : List (BitVec 8) := l.take o ++ b ++ l.drop (o + b.length)

/-- A record becomes an overlay box (R257, R261). -/
def addBox (s : State) (h : Handle) (b : List (BitVec 8)) : State :=
  let ov := leAt b 0x23 1
  let box : Box := ⟨h.q, h.no, leAt b 0x10 4, leAt b 0x14 4, leAt b 0x18 2, leAt b 0x1A 2, ov.testBit 7, ov % 16, leAt b 0x20 2⟩
  let live (x : Box) : Bool := (s.seq x.seq).sheaves.any (fun g => g.no == x.sheaf)
  let s := { s with boxes := s.boxes.filter live ++ (if live box then [box] else []) }
  if box.draw then
    ((List.range 8).map (· + 16)).foldl (fun t o =>
      if (t.hout o).ok && t.lf (F.HED_O_MODE_DMODE o) == 1 && !t.lon (F.HED_O_CFG_SRC_KIND o) && t.lf (F.HED_O_CFG_SRC o) == h.q then
        let x := t.hout o
        let l := x.boxes ++ [box]
        t.setHout o { x with boxes := l.drop (l.length - 4096) }
      else t) s
  else s

/-- Post a record to a ring (R79, R271, R273): 0 taken, 1 busy, 2 the ring is not active. -/
def postRecord (s : State) (c ring : Nat) (b : List (BitVec 8)) : Nat × State :=
  let asks := leAt b 0x24 2 != 0 && leAt b 0x26 2 != 0
  if ringState s ring = rDisabled || !(s.ring ring).on then (2, s)
  else if 256 ≤ s.thr.intake || (asks && decide (16 ≤ (s.thr.recs.filter (fun r => r.crop.isSome)).length)) then
    (1, s.bump F.THR_REC_BUSY_BUSY)
  else
    let s := { s with thr := { s.thr with intake := s.thr.intake + 1 } }
    let s := s.incrPair R.THR_REC_LO R.THR_REC_HI 1
    let b := putAt b 0x0D (bytesLE 1 (c - 4))
    let pf := leAt b 0x0E 1
    match s.thr.handles.find? (fun h => h.h == leAt b 8 4) with
    | none =>
      let b := putAt (putAt b 0 (bytesLE 8 (2 ^ 63))) 0x0C (bytesLE 1 0xFF)
      let b := putAt (putAt b 0x0E [BitVec.ofNat 8 pf, 4]) 0x1C (bytesLE 4 0)
      let b := putAt b 0x28 (bytesLE 4 0)
      (0, { s with thr := { s.thr with recs := s.thr.recs ++ [{ ring := ring, bytes := b, h := none, at_ := s.now }] } })
    | some h =>
      let (r, clip) := cropRect h b
      let there := heldSheaf s h
      let gone := asks && !there
      let cut := asks && there && r.2.2.1 != 0 && r.2.2.2 != 0
      let fl := (if gone then 1 else 0) + (if asks && clip then 2 else 0) + (if h.flags != 0 then 8 else 0)
      let s := if gone then s.set1 F.THR_STAT_CROP_GONE else s
      let pos := wrapN 32 (h.start + (leAt b 0x18 2 * h.lpitch : Nat))
      let b := putAt (putAt b 0 (bytesLE 8 (wrapN 64 h.no))) 0x0C (bytesLE 1 h.q)
      let b := putAt (putAt b 0x0E [BitVec.ofNat 8 pf, BitVec.ofNat 8 fl]) 0x1C (bytesLE 4 pos)
      let b := putAt b 0x28 (bytesLE 4 (if cut then 4 * h.chans * r.2.2.1 * r.2.2.2 else 0))
      let s := addBox s h b
      (0, { s with thr := { s.thr with recs := s.thr.recs ++
        [{ ring := ring, bytes := b, h := some h, at_ := s.now, crop := if cut then some r else none }] } })

/-- Cut the crop of a record: its pixel words row after row, padded to whole 64-byte units; fill where a unit is poisoned (R272,
R281). -/
def cutCrop (s : State) (r : DefRec) (h : Handle) (box : Int × Int × Nat × Nat) : DefRec :=
  let (x, y, w, ht) := box
  let addr (i j : Nat) : Nat := h.addr + 4 * (((y.toNat + j) * h.width + (x - h.u0).toNat) * h.chans + i)
  let l := (List.range ht).flatMap (fun j => (List.range (w * h.chans)).flatMap (fun i =>
    bytesLE 4 (thrWord s (addr i j) (j * w * h.chans + i))))
  let bad := (List.range ht).findSome? (fun j => poisonIn s (addr 0 j) (4 * w * h.chans))
  { r with cut := pad64 l, crop := none, poison := bad }

/-- CROP_CUT (R272): the oldest crop asked for is cut. -/
def execCropCut (s : State) : Host.Outcome State Fault Refusal :=
  if !s.up then done s
  else
    match s.thr.recs.zipIdx.find? (fun e => e.1.crop.isSome) with
    | some (r, i) =>
      match r.h, r.crop with
      | some h, some box =>
        let r' := cutCrop s r h box
        let s := { s with freeCtr := s.freeCtr + box.2.2.1 * box.2.2.2 * h.chans, thr := { s.thr with recs := s.thr.recs.set i r' } }
        let (x, y, w, ht) := box
        let s := (List.range ht).foldl (fun t j =>
          t.meets (h.addr + 4 * (((y.toNat + j) * h.width + (x - h.u0).toNat) * h.chans)) (4 * w * h.chans)) s
        done (thrRelease s h.q h.buf)
      | _, _ => done s
    | none => done s

/-! ### Record units (R298) -/

/-- The sheaf a record names. -/
def recSheaf (r : DefRec) : Option (Nat × Int) := r.h.map (fun h => (h.q, h.no))

/-- The envelope of a record unit (R298): what it takes from the sheaf is open when the first record's handle is stale. -/
def recordUnit (s : State) (l : List DefRec) : UnitIn × State :=
  let body := l.flatMap (fun r => r.bytes ++ r.cut)
  let u : UnitIn := { kind := 3, head := 4, lines := 0, aux := l.length, payload := body, poison := l.findSome? (·.poison)
                      recs := l.length, src := .recs l.length }
  match l with
  | [] => (u, s)
  | r :: _ =>
    let pos := leAt r.bytes 0x1C 4
    match r.h with
    | some h =>
      ({ u with seq := h.q, stamp := h.stamp, pos := pos, axis := h.axis, epoch := h.epoch, sheaf := wrapN 64 h.no
                flags := h.flags % 2 ^ 16 }, s)
    | none =>
      let (a, s) := s.free
      let (b, s) := s.free
      let (c, s) := s.free
      ({ u with stamp := a % 2 ^ 32, pos := pos, axis := b % 16, epoch := c % 256 }, s)

/-- RECORD_UNIT_CLOSE (R298): the ring's open record unit closes when it is full, when the next record names another sheaf, or 100 µs
after its first record, once the crops of its records are cut. -/
def execRecordUnitClose (r : Fin 256) (s : State) : Host.Outcome State Fault Refusal :=
  let mine := s.thr.recs.filter (fun x => x.ring == r.val)
  match mine with
  | [] => done s
  | f :: _ =>
    let same := mine.takeWhile (fun x => recSheaf x == recSheaf f)
    let batch := max 1 (s.f (F.DLV_R_POLICY_BATCH r))
    let unit := same.take batch
    let due := decide (batch ≤ same.length) || decide (same.length < mine.length) || decide (f.at_ + 100000 ≤ s.now)
    if s.up && due && unit.all (fun x => x.crop.isNone) then
      let (u, s) := recordUnit s unit
      let left := (s.thr.recs.foldl (fun (a : List DefRec × Nat) x =>
        if x.ring == r.val && a.2 < unit.length then (a.1, a.2 + 1) else (a.1 ++ [x], a.2)) ([], 0)).1
      done { s with thr := { s.thr with recs := left, units := s.thr.units ++ [⟨r, u⟩] } }
    else done s

end Sys2Proof.Machine
end

