-- ==== Sys2Proof/Machine/Granary.lean ====
section
/-! DEFINITION. Machine/Granary.lean: device memory and the granary (R276 to R293): partitions, errors and scrub, segments, extracts;
and the admission of offered units (R304). -/

namespace Sys2Proof.Machine
open Sys2Proof

/-! ### Partitions (R277, R278) -/

/-- MEM_PART_USE of a partition, in MiB (R277). -/
def partUse (s : State) (k : Nat) : Nat :=
  match k with
  | 0 => ceilDiv ((s.loader.parcels.map (·.stagedBytes)).sum) (2 ^ 20)
  | 4 => if s.gran.segs.isEmpty && !s.on (F.MEM_PART_SIZE_SIZE 4) then 0 else s.gran.segs.length + 4
  | 5 => ceilDiv (chunksUsed s) 16
  | _ => 0

/-- The six extents, in MiB, after a write: a partition in use keeps the whole of its present extent (R278). -/
def extents (s : State) (k base size : Nat) : List (Nat × Nat) :=
  (List.range 6).map (fun j =>
    let b := s.f (F.MEM_PART_BASE_BASE j)
    let n := s.f (F.MEM_PART_SIZE_SIZE j)
    if j = k then (if partUse s k = 0 then (base, size) else (min b base, max (b + n) (base + size) - min b base)) else (b, n))

/-- Two extents share a MiB. -/
def extentsMeet (a b : Nat × Nat) : Bool :=
  a.2 != 0 && b.2 != 0 && decide (a.1 < b.1 + b.2) && decide (b.1 < a.1 + a.2)

/-- Extents lie within 72 GiB and meet nowhere. -/
def extentsOk : List (Nat × Nat) → Bool
  | [] => true
  | e :: r => (e.2 == 0 || decide (e.1 + e.2 ≤ 73728)) && r.all (fun x => !extentsMeet e x) && extentsOk r

/-- A GRAN too small to hold anything shows RANGE while the granary is enabled (R284). -/
def granSmall (s : State) : State :=
  if s.on F.GRN_CFG_EN && decide (s.f (F.MEM_PART_SIZE_SIZE 4) < 5) then s.set1 F.GRN_STAT_RANGE else s

/-- A write of a partition's base or size (R278, R279). -/
def doPart (s : State) (k : Nat) (size : Bool) (v : Word) : State :=
  let v := v.toNat % 2 ^ 17
  if size then
    let w := if k = 0 then max 64 v else if k = 4 then min 65536 v else v
    if extentsOk (extents s k (s.f (F.MEM_PART_BASE_BASE k)) w) then
      let s := if w = v then s else s.set1 F.MEM_STAT_RANGE
      let s := s.wr (R.MEM_PART_SIZE k) (BitVec.ofNat 32 w)
      let s := if k = 4 || k = 5 then s.put (F.MEM_PART_STAT_OVER k) (decide (w < partUse s k)) else s
      if k = 4 then
        let s := if s.gran.segs.length + 4 > w && !s.gran.segs.isEmpty then s.set1 F.GRN_STAT_OVER else s
        granSmall s
      else s
    else s.set1 F.MEM_STAT_OVERLAP
  else if (k == 0 || k == 4 || k == 5) && partUse s k != 0 then s.set1 F.MEM_STAT_PART_BUSY
  else if extentsOk (extents s k v (s.f (F.MEM_PART_SIZE_SIZE k))) then s.wr (R.MEM_PART_BASE k) (BitVec.ofNat 32 v)
  else s.set1 F.MEM_STAT_OVERLAP

/-- MEM_PART_WRITE (R278). -/
def execMemPartWrite (k : Fin 6) (size : Bool) (v : Word) (s : State) : Host.Outcome State Fault Refusal :=
  if s.up then done (doPart s k size v) else done s

/-! ### Errors and scrub (R280, R282) -/

/-- A corrected read, on one of the two stacks (R280): CE_STORM once the stack's corrected errors of the last hour exceed the threshold
(R282). -/
def corrected (s : State) (stack : Bool) : State :=
  let s := s.bump F.MEM_CE_CNT_CE
  let ce := (s.now, stack) :: s.gran.ce.filter (fun e => decide (s.now < e.1 + 3600000000000))
  let s := { s with gran := { s.gran with ce := ce } }
  let t := s.f F.MEM_CE_THRESH_THRESH
  if t != 0 && decide (t < (ce.filter (fun e => e.2 == stack)).length) && !s.on F.MEM_STAT_CE_STORM then
    (s.set1 F.MEM_STAT_CE_STORM).logFault 0x03 0 (if stack then 1 else 0) 0 0
  else s

/-- SCRUB (R282): the next unit is read: 0 without error, 1 corrected, 2 uncorrectable; a poisoned unit reads as uncorrectable
(R280). -/
def execScrub (outcome : Fin 3) (stack : Bool) (s : State) : Host.Outcome State Fault Refusal :=
  if s.up && s.on F.MEM_SCRUB_PERIOD then
    let u := s.gran.scrub
    let s := if outcome = 2 || s.poison.contains u then s.uncorrectable u else if outcome = 1 then corrected s stack else s
    let next := (u + 1) % (dmemBytes / 64)
    done ({ s with gran := { s.gran with scrub := next } }.sf F.MEM_SCRUB_POS_POS (next / 1024))
  else done s

/-! ### Segments (R284 to R287) -/

/-- Where GRAN begins, and its segments. -/
def granBase (s : State) : Nat := s.f (F.MEM_PART_BASE_BASE 4) * 2 ^ 20
def granCap (s : State) : Nat := s.f (F.MEM_PART_SIZE_SIZE 4) - 4
def segAddr (s : State) (i : Nat) : Nat := granBase s + (4 + i) * 2 ^ 20

/-- Positions and times are compared as 64-bit signed differences (R35, R287). -/
def vBefore (a b : Int) : Bool := decide (wrapI 64 (a - b) < 0)
def vMin (a b : Int) : Int := if vBefore b a then b else a
def vMax (a b : Int) : Int := if vBefore a b then b else a

/-- The index entry of a segment (R287). -/
def segEntry (g : Seg) : List (BitVec 8) :=
  bytesLE 8 (wrapN 64 g.minPos) ++ bytesLE 8 (wrapN 64 g.maxPos) ++ bytesLE 8 (wrapN 64 g.minTime) ++ bytesLE 8 (wrapN 64 g.maxTime) ++
    bytesLE 8 g.alloc ++ bytesLE 4 g.lines ++ bytesLE 4 g.bytes ++ bytesLE 1 g.stream ++ bytesLE 1 g.epoch ++
    bytesLE 1 (if g.full then 2 else 1) ++ bytesLE 1 g.pins ++ List.replicate 12 0

/-- Store a segment and its index entry. -/
def putSeg (s : State) (g : Seg) : State :=
  let l := if s.gran.segs.any (fun x => x.i == g.i) then s.gran.segs.map (fun x => if x.i == g.i then g else x) else s.gran.segs ++ [g]
  { s with gran := { s.gran with segs := l } }.dwrite (granBase s + 64 * g.i) (segEntry g)

/-- A segment retires: it becomes FREE. -/
def retireSeg (s : State) (g : Seg) : State :=
  { s with gran := { s.gran with segs := s.gran.segs.filter (fun x => x.i != g.i) } }.dwrite (granBase s + 64 * g.i) (List.replicate 64 0)

/-- The unpinned FULL segment with the lowest ALLOC_NO among some. -/
def oldestFull (s : State) (p : Seg → Bool) : Option Seg :=
  (s.gran.segs.filter (fun g => g.full && g.pins == 0 && p g)).foldl (fun b g =>
    match b with
    | some x => if g.alloc < x.alloc then some g else b
    | none => some g) none

/-- The lowest FREE segment below CAP. -/
def freeSeg (s : State) : Option Nat := (List.range (granCap s)).find? (fun i => !s.gran.segs.any (fun g => g.i == i))

/-- Segments of a stream. -/
def segsOf (s : State) (n : Nat) : List Seg := s.gran.segs.filter (fun g => g.stream == n)

/-- Find a segment for a stream (R286): a retired segment at or above CAP is not taken, and the choice is made again. -/
def findSeg (n : Nat) : Nat → State → Option Nat × State
  | 0, s => (none, s)
  | k + 1, s =>
    let reuse (g : Option Seg) : Option Nat × State :=
      match g with
      | none => (none, s)
      | some g => if g.i < granCap s then (some g.i, retireSeg s g) else findSeg n k (retireSeg s g)
    if s.on F.GRN_CFG_FREEZE then (freeSeg s, s)
    else if decide (s.f (F.GRN_S_QUOTA_QUOTA n) ≤ (segsOf s n).length) then reuse (oldestFull s (fun g => g.stream == n))
    else
      match freeSeg s with
      | some i => (some i, s)
      | none => reuse (oldestFull s (fun _ => true))

/-- The bytes of a tapped line: header and data, padded (R285). -/
def tapBytes (t : TapLine) : List (BitVec 8) :=
  let m := t.line.md
  let data := if t.words then t.line.px.flatMap (fun p => bytesLE 4 p.word.toNat)
    else
      let sh := 4 + (if t.norm then 16 - t.bits else 0)
      packBits t.bits (t.line.px.map (fun p => min (2 ^ t.bits - 1) ((p.v + 2 ^ (sh - 1)) / 2 ^ sh)))
  let fl := m.flags % 2 ^ 9 + (if t.tap then 2 ^ 10 else 0) + (if t.words then 2 ^ 11 else 0)
  pad64 (bytesLE 8 (wrapN 64 m.pos) ++ bytesLE 8 (wrapN 64 m.pm.time) ++ bytesLE 1 t.line.stream ++ bytesLE 1 m.pm.epoch ++
    bytesLE 2 fl ++ bytesLE 2 m.pm.gen ++ bytesLE 2 m.row ++ bytesLE 4 m.pm.seq.toNat ++ bytesLE 4 data.length ++ data)

/-- Put a line into a segment. -/
def putLine (s : State) (g : Seg) (t : TapLine) (l : List (BitVec 8)) : State :=
  let m := t.line.md
  let first := g.lines == 0
  let g' := { g with
    minPos := if first then m.pos else vMin g.minPos m.pos, maxPos := if first then m.pos else vMax g.maxPos m.pos
    minTime := if first then m.pm.time else vMin g.minTime m.pm.time, maxTime := if first then m.pm.time else vMax g.maxTime m.pm.time
    lines := g.lines + 1, bytes := g.bytes + l.length }
  let s := putSeg (s.dwrite (segAddr s g.i + g.bytes) l) g'
  let n := t.line.stream
  let s := { s with gran := { s.gran with newest := (n, m.pos, m.pm.time) :: s.gran.newest.filter (fun e => e.1 != n) } }
  s.setPair (R.GRN_S_NEWEST_LO n) (R.GRN_S_NEWEST_HI n) (wrapN 64 m.pos)

/-! ### Extracts (R288 to R291) -/

/-- v of a line or of a bound. -/
def xv (r : XReq) (pos time : Int) : Int := if r.byTime then time else pos

/-- The extract still waits for lines of a stream (R290): WAIT with a TMO that has not passed, and no line of it beyond TO. -/
def xWaits (s : State) (x : XRun) (n : Nat) : Bool :=
  x.r.wait && x.r.tmo != 0 && !x.flags.testBit 4 && !x.stop &&
    (match s.gran.newest.find? (fun e => e.1 == n) with
     | some (_, p, t) => !vBefore x.r.to_ (xv x.r p t)
     | none => true)

/-- A stream is named and not skipped. -/
def xNamed (x : XRun) (n : Nat) : Bool := x.r.mask.testBit n && !x.skipped.testBit n

/-- Segments pinned. -/
def pinnedCount (s : State) : Nat := (s.gran.segs.filter (fun g => g.pins != 0)).length

/-- Pin a segment for the extract in progress, within GRN_PIN_MAX (R289): whether it was pinned. A PIN_MAX of zero pins nothing. -/
def pinSeg (s : State) (g : Seg) : Bool × State :=
  let lim := s.f F.GRN_PIN_MAX_MAX
  if lim = 0 then (false, s)
  else if lim ≤ pinnedCount s then (false, s.set1 F.GRN_STAT_PIN_FULL)
  else (true, putSeg s { g with pins := 1 })

/-- Let go of a segment that an extract has read. -/
def unpinSeg (s : State) (alloc : Nat) : State :=
  match s.gran.segs.find? (fun g => g.alloc == alloc && g.pins != 0) with
  | some g => putSeg s { g with pins := 0 }
  | none => s

/-- A new segment of a stream that an extract waits for joins what it has to read (R290). -/
def joinExtract (s : State) (g : Seg) : State :=
  match s.gran.run with
  | some x =>
    if x.forced.isNone && xNamed x g.stream && xWaits s x g.stream && g.epoch == x.r.epoch then
      let (p, t) := pinSeg s g
      let x := { x with todo := x.todo ++ [(g.stream, g.i, g.alloc, p)], flags := if p || s.f F.GRN_PIN_MAX_MAX = 0 then x.flags else x.flags ||| 32 }
      { t with gran := { t.gran with run := some x } }
    else s
  | none => s

/-- Store a tapped line (R285, R286); in REPLAY and CALIBRATE the granary stores nothing (R407). -/
def storeLine (s : State) (t : TapLine) : State :=
  let n := t.line.stream
  let s := granSmall s
  if s.modeOf == 6 || s.modeOf == 7 then s
  else if !s.on F.GRN_CFG_EN || granCap s = 0 || !s.on (F.GRN_S_QUOTA_QUOTA n) then s
  else
    let l := tapBytes t
    let cur := s.gran.segs.find? (fun g => g.stream == n && !g.full)
    match cur with
    | some g =>
      if g.epoch = t.line.md.pm.epoch && g.bytes + l.length ≤ 2 ^ 20 then putLine s g t l
      else next (putSeg s { g with full := true }) n t l
    | none => next s n t l
where
  /-- A line that needs a segment. -/
  next (s : State) (n : Nat) (t : TapLine) (l : List (BitVec 8)) : State :=
    match findSeg n (s.gran.segs.length + 1) s with
    | (none, s) => (s.bump (F.GRN_S_DROP_LINES n)).set1 F.GRN_STAT_BLOCKED
    | (some i, s) =>
      let g : Seg := { i := i, stream := n, epoch := t.line.md.pm.epoch, alloc := s.gran.alloc }
      let s := { s with gran := { s.gran with alloc := s.gran.alloc + 1 } }
      let s := joinExtract (putSeg s g) g
      putLine s ((s.gran.segs.find? (fun x => x.i == i)).getD g) t l

/-- GRANARY_LINE (R285). -/
def execGranaryLine (s : State) : Host.Outcome State Fault Refusal :=
  match s.toTap with
  | t :: rest => if s.up then done (storeLine { s with toTap := rest } t) else done s
  | [] => done s

/-- A write of GRN_X_GO with GO set (R288). -/
def doXGo (s : State) : State :=
  if 8 ≤ s.gran.reqs.length then s.set1 F.GRN_STAT_QFULL
  else
    let r : XReq := ⟨s.on F.GRN_X_CFG_BY_TIME, s.on F.GRN_X_CFG_WAIT, s.f F.GRN_X_CFG_AXIS, s.f F.GRN_X_CFG_RING, s.f F.GRN_X_CFG_ID,
      s.pair R.GRN_X_MASK_LO R.GRN_X_MASK_HI, signed 64 (s.pair R.GRN_X_FROM_LO R.GRN_X_FROM_HI),
      signed 64 (s.pair R.GRN_X_TO_LO R.GRN_X_TO_HI), s.f F.GRN_X_EPOCH_EPOCH, s.f F.GRN_X_TMO_TMO⟩
    { s with gran := { s.gran with reqs := s.gran.reqs ++ [r] } }

/-- A write of GRN_X_GO with ABORT set (R290). -/
def doXAbort (s : State) : State :=
  match s.gran.run with
  | some x => { s with gran := { s.gran with run := some { x with stop := true } } }
  | none => s

/-- GRN_X_GO (R288). -/
def execGrnXGo (s : State) : Host.Outcome State Fault Refusal := if s.up then done (doXGo s) else done s
/-- GRN_X_ABORT (R290). -/
def execGrnXAbort (s : State) : Host.Outcome State Fault Refusal := if s.up then done (doXAbort s) else done s

/-- A ring takes units: not DISABLED, EN set. -/
def ringActive (s : State) (r : Nat) : Bool := ringState s r != rDisabled && (s.ring r).on

/-- Insert a segment by stream, then ALLOC_NO. -/
def segInsert (g : Seg) : List Seg → List Seg
  | [] => [g]
  | h :: r => if g.stream < h.stream || (g.stream == h.stream && decide (g.alloc < h.alloc)) then g :: h :: r else h :: segInsert g r

/-- Insert a segment by ALLOC_NO. -/
def allocInsert (g : Seg) : List Seg → List Seg
  | [] => [g]
  | h :: r => if g.alloc < h.alloc then g :: h :: r else h :: allocInsert g r

/-- Segments whose index entry is poisoned retire at once (R281). -/
def dropBadIndex (s : State) (mask : Nat) : Bool × State :=
  let bad := s.gran.segs.filter (fun g => mask.testBit g.stream && s.poison.contains ((granBase s + 64 * g.i) / 64))
  (!bad.isEmpty, bad.foldl (fun t g => retireSeg (t.meets (granBase s + 64 * g.i) 64) g) s)

/-- Begin an extract (R288, R289). -/
def startExtract (s : State) (r : XReq) : State :=
  let put (s : State) (x : XRun) : State := { s with gran := { s.gran with run := some x } }
  let (av, s) := s.free
  let base : XRun := { r := r, todo := [], started := s.now, avail := signed 64 av }
  if vBefore r.to_ r.from_ || !ringActive s r.ring then put s { base with forced := some 5 }
  else if r.mask = 0 then put s { base with forced := some 3 }
  else
    let skipped := if r.byTime then 0 else
      ((List.range 64).filter (fun n => r.mask.testBit n && s.lf (F.MIL_CFG_AXIS n) != r.axis)).foldl (fun a n => a + 2 ^ n) 0
    let x := { base with skipped := skipped }
    let (gap, s) := dropBadIndex s r.mask
    let mine := s.gran.segs.filter (fun g => xNamed x g.stream && g.epoch == r.epoch && g.lines != 0)
    let lo (g : Seg) : Int := xv r g.minPos g.minTime
    let hi (g : Seg) : Int := xv r g.maxPos g.maxTime
    let meet := mine.filter (fun g => !vBefore r.to_ (lo g) && !vBefore (hi g) r.from_)
    let waits := mine.filter (fun g => !g.full && xWaits s x g.stream && !meet.contains g)
    let cand := (meet ++ waits).foldl (fun l g => segInsert g l) []
    let pinOrder := cand.foldl (fun l g => allocInsert g l) []
    let (pinned, s) := pinOrder.foldl (fun (acc : List Nat × State) g =>
      let (p, t) := pinSeg acc.2 g
      (if p then g.alloc :: acc.1 else acc.1, t)) ([], s)
    let pinFull := s.f F.GRN_PIN_MAX_MAX != 0 && decide (pinned.length < cand.length)
    let oldest := (List.range 64).filterMap (fun n =>
      if xNamed x n then (((mine.filter (fun g => g.stream == n)).foldl (fun l g => allocInsert g l) []).head?).map lo else none)
    let avail := match oldest with
      | [] => x.avail
      | a :: l => l.foldl vMax a
    let newest := ((List.range 64).filter (xNamed x)).map (fun n =>
      (n, (s.gran.newest.find? (fun e => e.1 == n)).map (fun e => xv r e.2.1 e.2.2)))
    put s { x with
      todo := cand.map (fun g => (g.stream, g.i, g.alloc, pinned.contains g.alloc)), avail := avail, newest := newest
      flags := (if vBefore r.from_ avail then 1 else 0) ||| (if gap then 4 else 0) ||| (if pinFull then 32 else 0) }

/-- EXTRACT_START (R289): the oldest request starts once no extract is in progress. -/
def execExtractStart (s : State) : Host.Outcome State Fault Refusal :=
  match s.gran.run, s.gran.reqs with
  | none, r :: rest => if s.up then done (startExtract { s with gran := { s.gran with reqs := rest } } r) else done s
  | _, _ => done s

/-- What an extract does next. -/
inductive XNext where
  | read (n i alloc : Nat)
  | wait
  | finish
deriving DecidableEq, Repr

/-- Streams in ascending order, segments in ALLOC_NO order, each read once; a stream that still waits, and whose segment is still
filling, keeps the later ones waiting. -/
def xNext (s : State) (x : XRun) : XNext :=
  if x.forced.isSome || x.stop || !ringActive s x.r.ring then .finish
  else
    let step (n : Nat) : Option XNext :=
      if !xNamed x n then none
      else
        match x.todo.find? (fun e => e.1 == n) with
        | some (_, i, a, _) =>
          match s.gran.segs.find? (fun g => g.alloc == a) with
          | some g =>
            if !g.full && xWaits s x n then some .wait else some (.read n i a)
          | none => some (.read n i a)
        | none => if xWaits s x n then some .wait else none
    ((List.range 64).findSome? step).getD .finish

/-- The lines stored in a segment from an offset on, each with its offset from the segment's start, its header fields and bytes. -/
def segLines (s : State) (a : Nat) : Nat → Nat → Nat → List (Nat × List (BitVec 8))
  | 0, _, _ => []
  | k + 1, off, lim =>
    if lim ≤ off then []
    else
      let n := ceilDiv (32 + s.dreadN (a + off + 0x1C) 4) 64 * 64
      (off, s.dread (a + off) n) :: segLines s a k (off + n) lim

/-- Bytes [a, a + n) meet a poisoned unit. -/
def anyPoison (s : State) (a n : Nat) : Bool := s.poison.any (unitMeets a n)

/-- Drop the first segment of a stream from what is to be read. -/
def popTodo (s : State) (x : XRun) (alloc : Nat) : State :=
  let s := unpinSeg s alloc
  { s with gran := { s.gran with run := some { x with todo := x.todo.filter (fun e => e.2.2.1 != alloc) } } }

/-- Read the next segment: its matching lines make a unit (R290). -/
def readSeg (s : State) (x : XRun) (n i alloc : Nat) : State :=
  let put (t : State) (x : XRun) : State := { t with gran := { t.gran with run := some x } }
  let nw := (s.gran.newest.find? (fun e => e.1 == n)).map (fun e => xv x.r e.2.1 e.2.2)
  let x := { x with newest := x.newest.map (fun e => if e.1 = n then (n, nw) else e) }
  match s.gran.segs.find? (fun g => g.alloc == alloc) with
  | none => popTodo s { x with flags := x.flags ||| 4 } alloc
  | some g =>
    if anyPoison s (granBase s + 64 * i) 64 then
      popTodo (retireSeg (s.meets (granBase s + 64 * i) 64) g) { x with flags := x.flags ||| 4 } alloc
    else
      let base := segAddr s i
      let all := segLines s base g.lines 0 g.bytes
      let vOf (l : List (BitVec 8)) : Int := xv x.r (signed 64 (leAt l 0 8)) (signed 64 (leAt l 8 8))
      let fits (l : List (BitVec 8)) : Bool :=
        leAt l 0x11 1 == x.r.epoch && !vBefore (vOf l) x.r.from_ && !vBefore x.r.to_ (vOf l)
      let sel := all.filter (fun e => fits e.2)
      match sel with
      | [] => popTodo s x alloc
      | f :: _ =>
        let bad := sel.findSome? (fun e => poisonIn s (base + e.1) e.2.length)
        let mark (e : Nat × List (BitVec 8)) : List (BitVec 8) :=
          if anyPoison s (base + e.1) e.2.length then putAt e.2 0x12 (bytesLE 2 (leAt e.2 0x12 2 ||| 2 ^ 9)) else e.2
        let h := f.2
        let u : UnitIn := { kind := 5, head := 5, stream := n, stamp := leAt h 8 4, pos := leAt h 0 4, axis := s.lf (F.MIL_CFG_AXIS n)
                            epoch := leAt h 0x11 1, gen := leAt h 0x14 2, trig := leAt h 0x18 4, aux := x.r.id * 2 ^ 16 + x.units % 2 ^ 16
                            payload := sel.flatMap mark, poison := bad, src := .extract }
        let vs := sel.map (fun e => vOf e.2)
        let t := sel.foldl (fun t e => t.meets (base + e.1) e.2.length) s
        put t { x with
          flags := if bad.isSome then x.flags ||| 8 else x.flags, offered := false
          cur := some ⟨u, n, alloc, sel.length, vs.foldl vMin (vOf h), vs.foldl vMax (vOf h)⟩ }

/-- EXTRACT_UNIT (R290): the extract reads its next segment, and offers the unit made from it, again and again while it is refused. -/
def execExtractUnit (s : State) : Host.Outcome State Fault Refusal :=
  match s.gran.run with
  | some x =>
    if !s.up || x.offered then done s
    else
      let s := match x.cur, xNext s x with
        | none, .read n i a => readSeg s x n i a
        | _, _ => s
      match s.gran.run with
      | some y =>
        match y.cur with
        | some c =>
          if ringActive s y.r.ring then
            done { s with gran := { s.gran with run := some { y with offered := true } }, offers := s.offers ++ [⟨y.r.ring, c.u⟩] }
          else done s
        | none => done s
      | none => done s
  | none => done s

/-- The franking stage has judged the extract's unit. -/
def extractJudged (s : State) (v : Verdict) : State :=
  match s.gran.run with
  | some x =>
    match x.cur, v with
    | none, _ => s
    | some _, .refuse _ _ => { s with gran := { s.gran with run := some { x with offered := false } } }
    | some c, v =>
      let x := { x with cur := none, offered := false }
      let x := if v = .take then { x with
          delivered := x.delivered ||| 2 ^ c.stream, lines := x.lines + c.lines, units := x.units + 1
          first := some (match x.first with | some a => vMin a c.lo | none => c.lo)
          last := some (match x.last with | some a => vMax a c.hi | none => c.hi) } else x
      popTodo s x c.alloc
  | none => s

/-- EXTRACT_TMO (R290): TMO ms have passed while the extract waits for later lines. -/
def execExtractTmo (s : State) : Host.Outcome State Fault Refusal :=
  match s.gran.run with
  | some x =>
    if s.up && x.r.wait && x.r.tmo != 0 && xNext s x == .wait && decide (x.started + x.r.tmo * 1000000 ≤ s.now) then
      done { s with gran := { s.gran with run := some { x with flags := x.flags ||| 16 } } }
    else done s
  | none => done s

/-- RESULT and FLAGS of an extract's report (R291). -/
def xResult (s : State) (x : XRun) : Nat × Nat :=
  match x.forced with
  | some r => (r, 0)
  | none =>
    let waited := x.r.wait && x.r.tmo != 0
    let notYet := !waited && x.newest.any (fun e => match e.2 with | some v => vBefore v x.r.to_ | none => true)
    let fl := x.flags ||| (if notYet then 2 else 0)
    if x.stop || !ringActive s x.r.ring then (4, fl)
    else if x.lines = 0 then (if vBefore x.r.to_ x.avail then 2 else 3, fl)
    else (if fl % 8 = 0 then 0 else 1, fl)

/-- The report of an extract (R291): FIRST and LAST are open when no line was delivered, AVAIL when no named stream retains a line. -/
def reportExtract (s : State) (x : XRun) : State :=
  let s := x.todo.foldl (fun t e => unpinSeg t e.2.2.1) s
  let (res, fl) := xResult s x
  let (a, s) := s.free
  let (b, s) := s.free
  let bytes := bytesLE 2 x.r.id ++ bytesLE 2 res ++ bytesLE 2 fl ++ bytesLE 2 0 ++ bytesLE 8 x.delivered ++ bytesLE 8 x.skipped ++
    bytesLE 4 x.lines ++ bytesLE 4 x.units ++ bytesLE 8 (match x.first with | some v => wrapN 64 v | none => a) ++
    bytesLE 8 (match x.last with | some v => wrapN 64 v | none => b) ++ bytesLE 8 (wrapN 64 x.avail) ++ List.replicate 8 0
  let s := (s.sf F.GRN_X_LAST_ID x.r.id).sf F.GRN_X_LAST_RESULT res
  let u := { ownUnit s x.r.ring 6 bytes with head := 5, aux := x.r.id, src := .report }
  { s with gran := { s.gran with run := none, reports := s.gran.reports ++ [⟨x.r.ring, u⟩] } }

/-- EXTRACT_REPORT (R291): an extract that has nothing more to read ends. -/
def execExtractReport (s : State) : Host.Outcome State Fault Refusal :=
  match s.gran.run with
  | some x =>
    if s.up && xNext s x == .finish && (x.cur.isNone || !ringActive s x.r.ring) then
      let s := { s with offers := s.offers.filter (fun o => o.u.src != .extract) }
      done (reportExtract s { x with cur := none })
    else done s
  | none => done s

/-! ### Admission of what is offered (R304) -/

/-- The franking-instant postmark of a report is that of its franking (R298). -/
def restamp (s : State) (o : Offer) : UnitIn :=
  if o.u.src = .report then { ownUnit s o.ring 6 o.u.payload with head := 5, aux := o.u.aux, src := .report } else o.u

/-- Tell a producer what became of its unit. -/
def judged (s : State) (u : UnitIn) (v : Verdict) : State :=
  match u.src with
  | .head id => headJudged s id v
  | .extract => extractJudged s v
  | _ => s

/-- Judge a unit that a head or an extract offers. -/
def frankOffer (s : State) (o : Offer) : State :=
  let (v, s) := offer s o.ring o.u
  judged s o.u v

/-- The first record unit or report that its ring does not refuse now; later ones of the same ring wait behind it. -/
def nextOffer (s : State) : List Offer → List Nat → Option Offer
  | [], _ => none
  | o :: r, seen =>
    if seen.contains o.ring then nextOffer s r seen
    else
      match judge s o.ring o.u with
      | .refuse _ _ => nextOffer s r (o.ring :: seen)
      | _ => some o

/-- FRANK (R304): the oldest unit that a head or an extract offers; otherwise the next record unit or report that a ring takes. A report
for a ring that is not active is let go. -/
def execFrank (s : State) : Host.Outcome State Fault Refusal :=
  if !s.up then done s
  else
    match s.offers with
    | o :: rest => done (frankOffer { s with offers := rest } o)
    | [] =>
      let gone := s.gran.reports.filter (fun o => !ringActive s o.ring)
      let s := { s with gran := { s.gran with reports := s.gran.reports.filter (fun o => !gone.contains o) } }
      match nextOffer s (s.thr.units ++ s.gran.reports) [] with
      | some o =>
        let s := { s with thr := { s.thr with units := s.thr.units.erase o }, gran := { s.gran with reports := s.gran.reports.erase o } }
        done (offer s o.ring (restamp s o)).2
      | none => done s

end Sys2Proof.Machine
end

