-- ==== Sys2Proof/Machine/Pcie.lean ====
section
/-! DEFINITION. Machine/Pcie.lean: the PCI Express endpoint's configuration space, tags, error reporting, interrupts, power messages
(R331 to R350). The places of fields inside capabilities are those of the PCI Express standard. -/

namespace Sys2Proof.Machine
open Sys2Proof

/-! ### Configuration space (R334): offsets from the standard, PRESUMED where the table names only the capability -/

/-- Reset value of a configuration dword. -/
def cfgConst (o : Nat) : Word :=
  match o with
  | 0x00 => 0x00091F4B
  | 0x04 => 0x00100000
  | 0x08 => 0x11800010
  | 0x10 => 0x4
  | 0x18 => 0xC
  | 0x20 => 0x4
  | 0x2C => 0x00001F4B
  | 0x34 => 0x40
  | 0x3C => 0x0100
  | 0x40 => 0xC8035001
  | 0x44 => 0x8
  | 0x50 => 0x00FF6011
  | 0x54 => 0x4
  | 0x58 => 0x2004
  | 0x60 => 0x80020010
  | 0x64 => 0x10008FE2
  | 0x68 => 0x2810
  | 0x6C => 0x00410906
  | 0x84 => 0x3081F
  | 0x8C => 0x7E
  | 0x90 => 0x6
  | 0x100 => 0x14820001
  | 0x108 => 0x00400000
  | 0x10C => 0x00462030
  | 0x114 => 0xE000
  | 0x118 => 0x2A0
  | 0x148 => 0x15810003
  | 0x158 => 0x18810019
  | 0x188 => 0x19810025
  | 0x18C => 0x80000001
  | 0x198 => 0x1D010026
  | 0x1D0 => 0x2001002A
  | 0x200 => 0x22010031
  | 0x220 => 0x27010027
  | 0x270 => 0x2801002F
  | 0x274 => 0x6
  | 0x280 => 0x29010018
  | 0x290 => 0x2A01001E
  | 0x294 => 0x0039281F
  | 0x2A0 => 0x2C01002E
  | 0x2A4 => 0x1
  | 0x2C0 => 0x00010030
  | 0x2C4 => 0x1
  | _ => 0

/-- Bits of a configuration dword that a write replaces. -/
def cfgMask (o : Nat) : Word :=
  match o with
  | 0x04 => 0x00000546
  | 0x0C => 0xFF
  | 0x10 => 0xFE000000
  | 0x14 => 0xFFFFFFFF
  | 0x1C => 0xFFFFFFFE
  | 0x20 => 0xFFFFC000
  | 0x24 => 0xFFFFFFFF
  | 0x30 => 0xFFF00001
  | 0x3C => 0xFF
  | 0x44 => 0x103
  | 0x50 => 0xC0000000
  | 0x68 => 0x79FF
  | 0x70 => 0x3CB
  | 0x88 => 0x141F
  | 0x90 => 0xF
  | 0x108 => 0x1FFFFFFF
  | 0x10C => 0x1FFFFFFF
  | 0x114 => 0xF1C1
  | 0x118 => 0x540
  | 0x278 => 0x4
  | 0x284 => 0x1FFF1FFF
  | 0x298 => 0xE3FF000F
  | 0x29C => 0xFB
  | 0x2A8 => 0x2
  | 0x2CC => 0xFF01FFFF
  | _ => 0

/-- Bits of a configuration dword that a write of 1 clears. -/
def cfgW1c (o : Nat) : Word :=
  match o with
  | 0x04 => 0xF9000000
  | 0x44 => 0x8000
  | 0x68 => 0x000F0000
  | 0x104 => 0x1FFFFFFF
  | 0x110 => 0xF1C1
  | _ => 0

/-- A configuration dword that keeps its value over every host-side reset but PERST# (sticky), or over FLR (a link field). -/
def cfgSticky (o : Nat) : Bool := decide (0x104 ≤ o) && decide (o < 0x148)
def cfgLinkField (o : Nat) : Bool := o == 0x70 || o == 0x90 || o == 0x298 || o == 0x29C || o == 0x284

def State.cfg (s : State) (o : Nat) : Word := mget cfgConst s.pci.cfg o
def State.setCfg (s : State) (o : Nat) (w : Word) : State := { s with pci := { s.pci with cfg := mset cfgConst s.pci.cfg o w } }
def State.cfgBits (s : State) (o hi lo : Nat) : Nat := fieldOf (s.cfg o) hi lo
def State.orCfg (s : State) (o : Nat) (w : Word) : State := s.setCfg o (s.cfg o ||| w)

/-- Bus Master Enable, Memory Space Enable, INTX_DIS, MSI-X Enable, Function Mask, PME_En, LTR Mechanism Enable. -/
def bme (s : State) : Bool := (s.cfg 0x04).getLsbD 2
def memEn (s : State) : Bool := (s.cfg 0x04).getLsbD 1
def intxDis (s : State) : Bool := (s.cfg 0x04).getLsbD 10
def msixOn (s : State) : Bool := (s.cfg 0x50).getLsbD 31
def fnMask (s : State) : Bool := (s.cfg 0x50).getLsbD 30
def pmeEn (s : State) : Bool := (s.cfg 0x44).getLsbD 8
def ltrEn (s : State) : Bool := (s.cfg 0x88).getLsbD 10
/-- The function stands in D3hot (R348). -/
def inD3 (s : State) : Bool := s.cfgBits 0x44 1 0 == 3
/-- Max_Payload_Size and Max_Read_Request_Size in force, in bytes (R335). -/
def mps (s : State) : Nat := min 512 (128 * 2 ^ s.cfgBits 0x68 7 5)
def mrrs (s : State) : Nat := min 4096 (128 * 2 ^ s.cfgBits 0x68 14 12)
/-- The completion timeout in ns; none while Completion Timeout Disable is set (R343). -/
def ctoNs (s : State) : Option Nat :=
  if (s.cfg 0x88).getLsbD 4 then none
  else some (match s.cfgBits 0x88 3 0 with
    | 1 => 90000 | 2 => 9000000 | 5 => 50000000 | 6 => 200000000 | 9 => 800000000 | 10 => 3000000000 | 13 => 12000000000
    | 14 => 60000000000 | _ => 40000000)
/-- An encoding of R343. -/
def ctoLegal (v : Nat) : Bool := v == 0 || v == 1 || v == 2 || v == 5 || v == 6 || v == 9 || v == 10 || v == 13 || v == 14
/-- The timeout that quarantines count by: the encoding's, even while Completion Timeout Disable is set. -/
def ctoForce (s : State) : Nat := (ctoNs (s.setCfg 0x88 (s.cfg 0x88 &&& ~~~ 0x10))).getD 40000000

/-- Containment is in force (R351). -/
def contained (s : State) : Bool := s.on F.PCI_CONTAIN_CONTAINED
/-- Requests may leave: the link is up, no host-side reset, no containment, Bus Master Enable set, the function in D0. -/
def canRequest (s : State) : Bool :=
  s.up && s.on F.PCI_LINK_UP && s.pci.rst.isNone && !contained s && bme s && !inD3 s

/-! ### Tags (R333, R344) -/

/-- Tags of the pool, and the most reads outstanding. -/
def tagPool (s : State) : Nat × Nat :=
  if s.on F.PCI_LINK_FLIT && (s.cfg 0x278).getLsbD 2 then (4096, 1024)
  else if !s.on F.PCI_LINK_FLIT && (s.cfg 0x88).getLsbD 12 then (768, 768)
  else if (s.cfg 0x68).getLsbD 8 then (256, 256)
  else (32, 32)

/-- The lowest free tag, when a read may be issued. -/
def freeTag (s : State) : Option Nat :=
  let (n, most) := tagPool s
  let used := s.reads.map (·.tag) ++ s.pci.quar.map (·.1)
  if most ≤ s.reads.length then none else (List.range (min n (used.length + 1))).find? (fun t => !used.contains t)

/-- Note an outbound request (R349): the link is back in L0. -/
def noteReq (s : State) : State := { s with pci := { s.pci with lastReq := s.now } }.sf F.PCI_LINK_PM 0

/-- Write host memory in requests of at most MPS bytes, none across a 4 KiB boundary (R323). -/
def hostWriteGo (s : State) : Nat → Nat → List (BitVec 8) → State
  | 0, _, _ => s
  | k + 1, a, l =>
    if l.isEmpty then s
    else
      let n := min (mps s) (4096 - a % 4096)
      hostWriteGo (s.emit (.hostWrite a (l.take n))) k (a + n) (l.drop n)
def hostWrite (s : State) (a : Nat) (l : List (BitVec 8)) : State := noteReq (hostWriteGo s (l.length + 1) a l)

/-- Issue one read request; the state is unchanged when no tag is free. -/
def hostRead (s : State) (use chan a n off boff : Nat) : Option State :=
  match freeTag s with
  | some t =>
    let s := noteReq (s.emit (.hostRead t a n))
    some { s with reads := s.reads ++ [{ tag := t, use := use, chan := chan, addr := a, len := n, off := off, boff := boff, at_ := s.now }] }
  | none => none

/-- Put a tag in quarantine for twice a timeout (R344); `late`: its timeout was reported, so that a completion counts as late. -/
def quarantine (s : State) (t tmo : Nat) (late : Bool) : State :=
  { s with pci := { s.pci with quar := s.pci.quar ++ [(t, s.now + 2 * tmo, late)] } }

/-- A completion of a quarantined tag is discarded: a late one is counted (R344), one of a read that a host-side reset or Bus Master
Enable cut off is not (R345, R346). -/
def lateCpl (s : State) (t : Nat) : State :=
  if s.pci.quar.any (fun e => e.1 == t && e.2.2) then s.bump F.PCI_LATE_CPL_COUNT else s

/-! ### Error reporting (R350) -/

/-- Log a correctable error: AER Correctable Error Status, Device Status, ERR_COR when enabled and not masked. -/
def logCE (s : State) (bit : Nat) : State :=
  let b : Word := 1 <<< bit
  let s := s.orCfg 0x110 b
  if s.cfg 0x114 &&& b != 0 then s
  else
    let s := s.orCfg 0x68 0x00010000
    if (s.cfg 0x68).getLsbD 0 then s.emit (.pciMsg .errCor) else s

/-- Log an uncorrectable error: AER Uncorrectable Error Status, the header of the first, Device Status, and its message when enabled
and not masked. `adv`: reported as advisory non-fatal. -/
def logUE (s : State) (bit : Nat) (adv : Bool) (hdr : List Word) : State :=
  let b : Word := 1 <<< bit
  let first := s.cfg 0x104 == 0
  let s := s.orCfg 0x104 b
  let s := if bit = 20 then s.orCfg 0x68 0x00080000 else s
  if s.cfg 0x108 &&& b != 0 then s
  else
    let s := if first then
        let s := s.setCfg 0x118 (setField (s.cfg 0x118) 4 0 bit)
        (hdr.take 4).zipIdx.foldl (fun t e => t.setCfg (0x11C + 4 * e.2) e.1) s
      else s
    let fatal := s.cfg 0x10C &&& b != 0
    if adv && !fatal then logCE s 13
    else
      let s := s.orCfg 0x68 (if fatal then 0x00040000 else 0x00020000)
      if fatal then (if (s.cfg 0x68).getLsbD 2 || (s.cfg 0x04).getLsbD 8 then s.emit (.pciMsg .errFatal) else s)
      else if (s.cfg 0x68).getLsbD 1 || (s.cfg 0x04).getLsbD 8 then s.emit (.pciMsg .errNonfatal) else s

/-- CORRECTABLE_ERROR (R350): bad TLP, bad DLLP, replay timeout or rollover, receiver error: replayed, and reported. -/
def execCorrectableError (bit : Fin 16) (s : State) : Host.Outcome State Fault Refusal :=
  if !s.held && s.on F.PCI_LINK_UP then done (logCE s bit) else done s

/-! ### Interrupts (R340, R341) -/

/-- The MSI-X table's dwords: every vector is masked at reset. -/
def tableConst (o : Nat) : Word := if o % 16 = 12 then 1 else 0
def State.tbl (s : State) (o : Nat) : Word := mget tableConst s.pci.table o

/-- Every condition holds for sending a vector's message. -/
def canSend (s : State) (v : Nat) : Bool :=
  msixOn s && canRequest s && !fnMask s && !(s.tbl (16 * v + 12)).getLsbD 0 &&
    (s.tbl (16 * v) != 0 || s.tbl (16 * v + 4) != 0)

/-- Send a vector's message: a posted write. -/
def sendMsix (s : State) (v : Nat) : State :=
  noteReq (s.emit (.msix v ((s.tbl (16 * v)).toNat + 2 ^ 32 * (s.tbl (16 * v + 4)).toNat) (s.tbl (16 * v + 8)).toNat))

/-- Act on a signal of a vector. -/
def deliverSignal (s : State) (v : Nat) : State :=
  if msixOn s then
    if canSend s v && !s.pci.pba.contains v then sendMsix s v
    else if s.pci.pba.contains v then s
    else { s with pci := { s.pci with pba := s.pci.pba ++ [v] } }
  else s.wr (R.EVT_PEND (v / 32)) (s.rd (R.EVT_PEND (v / 32)) ||| (1 <<< (v % 32)))

/-- Send the messages held in the PBA whose conditions hold. -/
def sendPending (s : State) : State :=
  let go := s.pci.pba.filter (canSend s)
  let s := { s with pci := { s.pci with pba := s.pci.pba.filter (fun v => !go.contains v) } }
  go.foldl sendMsix s

/-- MSI_X_MESSAGE (R340, R341): the oldest signal is acted on; with none waiting, what the PBA holds and may now be sent is sent. -/
def execMsiXMessage (s : State) : Host.Outcome State Fault Refusal :=
  match s.sigs with
  | v :: rest => if s.up then done (deliverSignal { s with sigs := rest } (v % 256)) else done s
  | [] => if s.up then done (sendPending s) else done s

/-- The INTA level (R341): some vector pending and not masked, while MSI-X Enable is clear. -/
def intaLevel (s : State) : Bool :=
  !msixOn s && (List.range 8).any (fun k => s.rd (R.EVT_PEND k) &&& ~~~ (s.rd (R.EVT_MASK k)) != 0)

/-- Send what the INTA level asks for: nothing while INTX_DIS is set but the Deassert of an asserted level. -/
def updateInta (s : State) : State :=
  let want := intaLevel s && !intxDis s
  if want = s.pci.inta || !s.on F.PCI_LINK_UP || s.pci.rst.isSome then s
  else { s with pci := { s.pci with inta := want } }.emit (.pciMsg (if want then .assertInta else .deassertInta))

/-- INTA_CHANGE (R341). -/
def execIntaChange (s : State) : Host.Outcome State Fault Refusal := if s.up then done (updateInta s) else done s

/-! ### Power management (R348, R349) -/

/-- The LTR value to report: ACTIVE while a ring is ACTIVE or DRAINING, limited to what the host has written. -/
def ltrValue (s : State) : Nat :=
  let act := s.rings.any (fun e => ringState s e.1 == rActive || ringState s e.1 == rDraining)
  let v := if act then s.f F.PCI_LTR_ACTIVE else s.f F.PCI_LTR_IDLE
  let ns (x : Nat) : Nat := x % 1024 * 32 ^ (x / 1024 % 8)
  let lim := s.cfgBits 0x284 15 0
  if v / 2 ^ 15 = 1 && decide (ns lim < ns v) then 2 ^ 15 + lim % 2 ^ 15 else v

/-- LTR_MESSAGE (R349): the value has changed since the last message. -/
def execLtrMessage (s : State) : Host.Outcome State Fault Refusal :=
  if s.up && ltrEn s && s.on F.PCI_LINK_UP && s.pci.rst.isNone && s.pci.ltr != some (ltrValue s) then
    done ({ s with pci := { s.pci with ltr := some (ltrValue s) } }.emit (.pciMsg (.ltr (ltrValue s))))
  else done s

/-- ASPM_L1_REQUEST (R349): 10 µs without an outbound request outstanding. -/
def execAspmL1Request (s : State) : Host.Outcome State Fault Refusal :=
  if s.up && s.on F.PCI_LINK_UP && s.pci.rst.isNone && s.reads.isEmpty && (s.cfg 0x70).getLsbD 1 && s.f F.PCI_LINK_PM == 0 &&
      decide (s.pci.lastReq + 10000 ≤ s.now) then
    done ((s.sf F.PCI_LINK_PM 1).emit (.pciMsg .l1Request))
  else done s

/-- Signal PME (R348): PM_PME in D3hot, WAKE# in D3cold. -/
def signalPme (s : State) : State :=
  if !pmeEn s then s
  else
    let s := s.orCfg 0x44 0x8000
    if s.pci.perst then { s with pci := { s.pci with wake := true } }.emit (.pin .wakeN false)
    else if inD3 s then s.emit (.pciMsg .pmePm)
    else s

/-- PCI_PME_SEND (R348): a write of PCI_PME.SEND, or poste restante falling to the threshold. -/
def execPciPmeSend (write : Bool) (s : State) : Host.Outcome State Fault Refusal :=
  if !s.up then done s
  else if write then done (if s.pci.rst.isSome then s else signalPme s)
  else
    let t := s.f F.PCI_PME_FREE_THRESH
    let low := t != 0 && decide (chunksFree s ≤ t)
    let rise := low && !s.pci.low
    let s := { s with pci := { s.pci with low := low } }
    done (if rise then signalPme s else s)

end Sys2Proof.Machine
end

