-- ==== Sys2Proof/Machine/Dma.lean ====
section
/-! DEFINITION. Machine/Dma.lean: completion queues, ring channels and DMA channels (R309 to R328), and what stops them: Bus Master
Enable cleared and containment (R345, R351). -/

namespace Sys2Proof.Machine
open Sys2Proof

/-! ### Completion queues (R309 to R312) -/

def State.cq (s : State) (c : Nat) : CqSt := mget (fun _ => {}) s.cqs c
def State.setCq (s : State) (c : Nat) (a : CqSt) : State := { s with cqs := mset (fun _ => {}) s.cqs c a }
def cqOn (s : State) (c : Nat) : Bool := s.on (F.DLV_CQ_STAT_ENABLED c)
def cqFull (s : State) (c : Nat) : Bool := (s.rd (R.DLV_CQ_TAIL c) - s.rd (R.DLV_CQ_HEAD c)).toNat == 2 ^ s.f (F.DLV_CQ_CFG_LOG2 c)
def cqRange (s : State) (c : Nat) : State := (s.set1 (F.DLV_CQ_STAT_RANGE c)).set1 F.DLV_STAT_RANGE

/-- Count a record towards a vector (R312): the queue's own, or that of a ring whose VEC_EN is set. -/
def countRecord (s : State) (c : Nat) (ring : Option Nat) : State :=
  let mc := s.f (F.DLV_CQ_CFG_MOD_COUNT c)
  let mt := s.f (F.DLV_CQ_MOD_MOD_TIME c)
  let fire (n : Nat) : Bool := (mc != 0 && decide (mc ≤ n)) || (mc == 0 && mt == 0)
  match ring with
  | some r =>
    let x := s.ring r
    let n := x.unsig + 1
    if fire n then (s.setRing r { x with unsig := 0 }).signal (s.f (F.DLV_H_CFG_VECTOR r))
    else s.setRing r { x with unsig := n, unsigAt := if x.unsig = 0 then s.now else x.unsigAt }
  | none =>
    let x := s.cq c
    let n := x.unsig + 1
    if fire n then (s.setCq c { x with unsig := 0 }).signal (s.f (F.DLV_CQ_CFG_VECTOR c))
    else s.setCq c { x with unsig := n, unsigAt := if x.unsig = 0 then s.now else x.unsigAt }

/-- Write a completion record into an enabled queue that is not full (R309, R310). -/
def writeRecord (s : State) (c kind status source flags count addr info : Nat) (ring : Option Nat) : State :=
  let t := (s.rd (R.DLV_CQ_TAIL c)).toNat
  let n := 2 ^ s.f (F.DLV_CQ_CFG_LOG2 c)
  let phase := if t / n % 2 = 0 then 128 else 0
  let b := bytesLE 1 kind ++ bytesLE 1 status ++ bytesLE 1 source ++ bytesLE 1 (flags + phase) ++ bytesLE 4 count ++
    bytesLE 8 addr ++ bytesLE 8 info ++ bytesLE 4 s.tim.short.toNat ++ bytesLE 4 t
  let s := hostWrite s (s.pair (R.DLV_CQ_BASE_LO c) (R.DLV_CQ_BASE_HI c) + 32 * (t % n)) b
  let s := s.wr (R.DLV_CQ_TAIL c) (BitVec.ofNat 32 (t + 1))
  countRecord (s.raise (0x1E0 + c)) c ring

/-- A write of DLV_CQ_HEAD (R309). -/
def doCqHead (s : State) (c : Nat) (v : Word) : State :=
  let old := s.rd (R.DLV_CQ_HEAD c)
  if (v - old).toNat ≤ (s.rd (R.DLV_CQ_TAIL c) - old).toNat then s.wr (R.DLV_CQ_HEAD c) v else cqRange s c

/-- DLV_CQ_HEAD (R309). -/
def execDlvCqHead (c : Fin 32) (v : Word) (s : State) : Host.Outcome State Fault Refusal :=
  if hostUp s then done (doCqHead s c v) else done s

/-- A write of DLV_CQ_CTRL.ENABLE (R311). -/
def doCqEnable (s : State) (c : Nat) : State :=
  if s.pair (R.DLV_CQ_BASE_LO c) (R.DLV_CQ_BASE_HI c) = 0 then cqRange s c
  else
    let s := ((s.wr (R.DLV_CQ_TAIL c) 0).wr (R.DLV_CQ_HEAD c) 0).set1 (F.DLV_CQ_STAT_ENABLED c)
    s.setCq c { s.cq c with off := false }

/-- Some ring whose queue this is has a unit in transfer. -/
def cqBusy (s : State) (c : Nat) : Bool :=
  s.dmas.any (fun e => match e.2.ring with | some r => s.f (F.DLV_H_CFG_CQ r) == c | none => false)

/-- A write of DLV_CQ_CTRL.DISABLE (R311): after the unit in transfer and its record. -/
def doCqDisable (s : State) (c : Nat) : State :=
  if cqBusy s c && cqOn s c then s.setCq c { s.cq c with off := true } else s.clr (F.DLV_CQ_STAT_ENABLED c)

/-- CQ_ENABLE (R311). -/
def execCqEnable (c : Fin 32) (s : State) : Host.Outcome State Fault Refusal := if hostUp s then done (doCqEnable s c) else done s
/-- CQ_DISABLE (R311). -/
def execCqDisable (c : Fin 32) (s : State) : Host.Outcome State Fault Refusal := if hostUp s then done (doCqDisable s c) else done s

/-- A DISABLE that waited takes effect once no unit is in transfer. -/
def settleCq (s : State) (c : Nat) : State :=
  if (s.cq c).off && !cqBusy s c then (s.clr (F.DLV_CQ_STAT_ENABLED c)).setCq c { s.cq c with off := false } else s

/-- MOD_TIME (R312): MOD_TIME µs have passed since the oldest unsignalled record of a ring's or a queue's vector. -/
def execModTime (ring : Bool) (n : Fin 256) (s : State) : Host.Outcome State Fault Refusal :=
  if !s.up then done s
  else if ring then
    let x := s.ring n
    let mt := s.f (F.DLV_CQ_MOD_MOD_TIME (s.f (F.DLV_H_CFG_CQ n)))
    if x.unsig != 0 && mt != 0 && decide (x.unsigAt + mt * 1000 ≤ s.now) then
      done ((s.setRing n { x with unsig := 0 }).signal (s.f (F.DLV_H_CFG_VECTOR n)))
    else done s
  else
    let c := n.val % 32
    let x := s.cq c
    let mt := s.f (F.DLV_CQ_MOD_MOD_TIME c)
    if x.unsig != 0 && mt != 0 && decide (x.unsigAt + mt * 1000 ≤ s.now) then
      done ((s.setCq c { x with unsig := 0 }).signal (s.f (F.DLV_CQ_CFG_VECTOR c)))
    else done s

/-! ### Channels (R313 to R322) -/

def dIdle : Nat := 0
def dRunning : Nat := 1
def dParked : Nat := 2
def dPaused : Nat := 3
def dFailed : Nat := 4
def dBmeLost : Nat := 5
def chState (s : State) (n : Nat) : Nat := s.f (F.DMA_C_STAT_STATE n)
/-- Change a channel's state; becoming IDLE, PARKED, FAILED or BME_LOST raises its done producer (R315); after a
start by an event, the first time with that event's hop and one more, and its origin (R131, R132). -/
def setCh (s : State) (n v : Nat) : State :=
  let s := s.sf (F.DMA_C_STAT_STATE n) v
  if v = dRunning || v = dPaused then s
  else
    match (s.dma n).relay with
    | some (h, o) => (s.setDma n { s.dma n with relay := none }).raiseEv (0x1A0 + n) (h + 1) o
    | none => s.raise (0x1A0 + n)

/-- A ring channel: some ring's policy with EN set names it (R313). -/
def isRingChan (s : State) (n : Nat) : Bool :=
  (List.range 256).any (fun r => s.on (F.DLV_R_POLICY_EN r) && ringChan s r == n)

/-- Fields of a CTRL word (R316). -/
def cSrcHost (w : Word) : Bool := w.getLsbD 22
def cDstHost (w : Word) : Bool := w.getLsbD 21
def cSrcFix (w : Word) : Bool := w.getLsbD 20
def cDstFix (w : Word) : Bool := w.getLsbD 19
def cFw (w : Word) : Nat := match fieldOf w 18 17 with | 0 => 4 | 1 => 8 | 2 => 16 | _ => 64
def cSwap (w : Word) : Nat := match fieldOf w 16 15 with | 0 => 1 | 1 => 2 | 2 => 4 | _ => 8

/-- Bytes issued. -/
def DmaSt.issued (d : DmaSt) : Nat := d.len - d.remain
/-- The working source and destination (R322, R323). -/
def DmaSt.curSrc (d : DmaSt) : Nat := if cSrcFix d.ctrl then d.src else (d.src + d.issued) % 2 ^ 64
def DmaSt.curDst (d : DmaSt) : Nat := if cDstFix d.ctrl then d.dst else (d.dst + d.issued) % 2 ^ 64

/-- The aperture (R337): its first byte and its bytes. -/
def bar2Win (s : State) : Nat × Nat := (s.f F.PCI_BAR2_WIN_BASE * 2 ^ 26, s.f F.PCI_BAR2_WIN_SIZE * 2 ^ 26)

/-- A byte of device memory lies within the host's reach under the lifecycle (R337). -/
def hostReach (s : State) (a : Nat) : Bool :=
  let (b, n) := bar2Win s
  let inPart (k : Nat) : Bool := decide (s.f (F.MEM_PART_BASE_BASE k) * 2 ^ 20 ≤ a) &&
    decide (a < (s.f (F.MEM_PART_BASE_BASE k) + s.f (F.MEM_PART_SIZE_SIZE k)) * 2 ^ 20)
  let win := decide (b ≤ a) && decide (a < b + n) && decide (a < dmemBytes)
  let lc := s.lifecycle
  if lc = 3 then false else if lc = 2 then win && !inPart 4 && !inPart 5 else win

/-- The first byte of a range that the host cannot reach in SEALED (R313, R337): reach changes only at a few bounds. -/
def hostDenied (s : State) (a n : Nat) : Option Nat :=
  if n = 0 then none
  else
    let (b, sz) := bar2Win s
    let bounds := [a, b, b + sz] ++ [4, 5].flatMap (fun k => [s.f (F.MEM_PART_BASE_BASE k) * 2 ^ 20,
      (s.f (F.MEM_PART_BASE_BASE k) + s.f (F.MEM_PART_SIZE_SIZE k)) * 2 ^ 20])
    let bad := bounds.filter (fun x => decide (a ≤ x) && decide (x < a + n) && !hostReach s x)
    bad.foldl (fun m x => match m with | some y => some (min x y) | none => some x) none

/-- The first byte from `a` on that no window of a grant covers, as far as so many windows reach. -/
def windowsEnd (g : Grant) (write : Bool) : Nat → Nat → Nat
  | 0, a => a
  | k + 1, a =>
    match g.wins.find? (fun w => winCovers w a 1 write) with
    | some w => windowsEnd g write k ((w.base + w.size) * 4096)
    | none => a

/-- The first byte of a range that a core's windows do not cover (R95, R313). -/
def coreDenied (g : Grant) (a n : Nat) (write : Bool) : Option Nat :=
  let e := windowsEnd g write g.wins.length a
  if a + n ≤ e then none else some e

/-- What is wrong with a device-memory range of a channel (R313, R317): STATUS and faulting address. -/
def devRange (s : State) (n a len : Nat) (write : Bool) : Option (Nat × Nat) :=
  if len = 0 then none
  else if dmemBytes < a + len then some (5, max a dmemBytes)
  else
    let bad := if s.f (F.DMA_C_OWNER_KIND n) = 1 then
        match coreOfTarget (s.f (F.DMA_C_OWNER_CORE n)) with
        | some c => coreDenied (s.core c).grant a len write
        | none => some a
      else if 2 ≤ s.lifecycle then hostDenied s a len else none
    bad.map (fun x => (6, x))

/-- What keeps a transfer from starting (R313, R317): STATUS and faulting address. -/
def badStart (s : State) (n : Nat) (d : DmaSt) : Option (Nat × Nat) :=
  let w := d.ctrl
  let fw := cFw w
  let sw := cSwap w
  if d.remain = 0 then none
  else if (cSrcFix w && (d.src % fw != 0 || d.remain % fw != 0)) || d.src % sw != 0 || d.remain % sw != 0 then some (1, d.src)
  else if (cDstFix w && (d.dst % fw != 0 || d.remain % fw != 0)) || d.dst % sw != 0 then some (1, d.dst)
  else
    let a := if cSrcHost w then none else devRange s n d.src (if cSrcFix w then fw else d.remain) false
    let b := if cDstHost w then none else devRange s n d.dst (if cDstFix w then fw else d.remain) true
    match a with
    | some x => some x
    | none => b

/-- Reads of a channel that are outstanding and still count. -/
def liveReads (s : State) (n : Nat) : List HRead := s.reads.filter (fun r => r.chan == n && r.use == 0 && !r.dead)

/-- Outstanding reads of a channel are to be discarded when they come. -/
def killReads (s : State) (n : Nat) : State :=
  { s with reads := s.reads.map (fun r => if r.chan == n then { r with dead := true } else r) }

/-- Roll the working registers back to the first burst whose data is not known to have been written (R322). -/
def rollBack (s : State) (n : Nat) (at_ : List Nat) : State :=
  let d := s.dma n
  let o := ((liveReads s n).map (·.boff) ++ at_).foldl min d.issued
  let s := s.setDma n { d with
    src := if cSrcFix d.ctrl then d.src else d.src + o, dst := if cDstFix d.ctrl then d.dst else d.dst + o
    len := d.len - o, remain := d.len - o }
  killReads s n

/-- The end of a transfer waits for its record: the queue is full, or requests may not leave. -/
def endWaits (s : State) (c : Nat) : Bool := cqOn s c && (cqFull s c || !canRequest s)
def noteFull (s : State) (n c : Nat) : State :=
  if cqFull s c then (s.set1 (F.DLV_CQ_STAT_CQ_FULL c)).set1 (F.DMA_C_STAT_CQ_FULL n) else s

/-- Write the record that ends a register or descriptor transfer, when there is one to write and the queue is enabled (R310, R311). -/
def endRecord (s : State) (n status flags count addr : Nat) : State :=
  let d := s.dma n
  let c := fieldOf d.ctrl 27 23
  let s := s.sf (F.DMA_C_STAT_LAST_STATUS n) status
  if cqOn s c then writeRecord s c (if d.chain then 1 else 0) status n flags count addr d.user.toNat none else s

/-- Issue the read of a descriptor that lies in host memory (R319, R320). -/
def issueDesc (s : State) (n : Nat) : State :=
  let d := s.dma n
  if d.fetch && d.descHost && d.data.isNone && canRequest s && !s.reads.any (fun r => r.chan == n && r.use == 1 && !r.dead) then
    (hostRead s 1 n d.desc 64 0 0).getD s
  else s

/-- A PARKED channel with a doorbell pending and no tail read outstanding reads its tail again (R320). -/
def tailRead (s : State) (n : Nat) : State :=
  let d := s.dma n
  if chState s n = dParked && s.on (F.DMA_C_STAT_DB_PENDING n) && !d.fetch then
    issueDesc ((s.setDma n { d with fetch := true, tail := true, data := none }).clr (F.DMA_C_STAT_DB_PENDING n)) n
  else s

/-- End a transfer when its outcome is known and its record may be written now; otherwise it waits (R311). -/
def tryEnd (s : State) (n : Nat) : State :=
  let d := s.dma n
  let c := fieldOf d.ctrl 27 23
  match d.stop with
  | some e =>
    if e.status = 8 then
      -- an abort: the record of a ring unit carries the ring (R310)
      let c := match d.ring with | some r => s.f (F.DLV_H_CFG_CQ r) | none => c
      if endWaits s c then noteFull s n c
      else
        let (v, s) := s.free
        let s := match d.ring with
          | some r =>
            let slots := match (s.ring r).placed with | p :: _ => (p.n, p.u) | [] => (0, none)
            let s := s.sf (F.DMA_C_STAT_LAST_STATUS n) 8
            if cqOn s c then writeRecord s c (if slots.2.isSome then 2 else 3) 8 r 0 slots.1 v
              (match slots.2 with | some u => u.envNo | none => 0) (if s.on (F.DLV_H_CFG_VEC_EN r) then some r else none) else s
          | none => endRecord s n 8 0 d.remain v
        let d := { s.dma n with stop := none, active := false, fetch := false, data := none, ring := none, off := 0, pausing := false
                                parked := false }
        setCh (s.setDma n d) n dIdle
    else if endWaits s c then noteFull s n c
    else
      let fl := (if e.host then 2 else 0) + (if e.poison then 1 else 0)
      let s := endRecord s n e.status fl e.count e.addr
      let s := s.setDma n { s.dma n with stop := none, pausing := false }
      setCh s n dFailed
  | none =>
    if chState s n = dRunning && d.active && d.remain = 0 && (liveReads s n).isEmpty then
      let want := d.ctrl.getLsbD 30
      if want && endWaits s c then noteFull s n c
      else
        let park := d.chain && d.next.isNone
        let s := if want then endRecord s n 0 (if park then 4 else 0) 0 (if d.chain then d.desc else 0)
          else s.sf (F.DMA_C_STAT_LAST_STATUS n) 0
        if !d.chain then
          setCh (s.setDma n { s.dma n with active := false, pausing := false }) n dIdle
        else
          match d.next with
          | some a => issueDesc (s.setDma n { s.dma n with active := false, desc := a, fetch := true, tail := false, data := none }) n
          | none => tailRead (setCh (s.setDma n { s.dma n with active := false }) n dParked) n
    else s

/-- A transfer fails (R324): what is outstanding is discarded, the working registers are rolled back after the record. -/
def failDma (s : State) (n : Nat) (e : DmaEnd) (at_ : List Nat) : State :=
  let d := s.dma n
  if d.stop.isSome then s
  else
    let s := s.setDma n { d with stop := some { e with count := d.remain } }
    let s := tryEnd s n
    rollBack s n at_

/-- A loaded transfer starts, or fails at its start (R317, R318). -/
def startTransfer (s : State) (n : Nat) : State :=
  let d := { s.dma n with active := true, stop := none }
  let s := s.setDma n d
  match badStart s n d with
  | some (st, a) => failDma s n { status := st, addr := a } []
  | none => if d.remain = 0 then tryEnd s n else s

/-- A write of DMA_C_CMD.START, or an event at the start input, by its hop and origin (R315). -/
def startChannel (s : State) (n : Nat) (relay : Option (Nat × Nat)) : State :=
  if isRingChan s n then s.lockedWrite (R.DMA_C_CMD n)
  else if chState s n != dIdle then s.set1 (F.DMA_C_STAT_START_BUSY n)
  else
    let s := s.applyRange (R.DMA_C_SRC_LO n) (R.DMA_C_USER n + 4)
    let w := s.lrd (R.DMA_C_CTRL n)
    let lp (lo hi : Nat) : Nat := (s.lrd lo).toNat + 2 ^ 32 * (s.lrd hi).toNat
    let len := (s.lrd (R.DMA_C_LEN n)).toNat
    let d : DmaSt := { s.dma n with
      src := lp (R.DMA_C_SRC_LO n) (R.DMA_C_SRC_HI n), dst := lp (R.DMA_C_DST_LO n) (R.DMA_C_DST_HI n), len := len, remain := len
      ctrl := w, user := s.lrd (R.DMA_C_USER n), chain := false, active := false, stop := none, parked := false, pausing := false
      fetch := false, tail := false, data := none, next := none, relay := relay }
    let s := s.sf (F.DMA_C_STAT_STATE n) dRunning
    if w.getLsbD 31 then
      issueDesc (s.setDma n { d with
        chain := true, desc := lp (R.DMA_C_CHAIN_LO n) (R.DMA_C_CHAIN_HI n) / 64 * 64, descHost := w.getLsbD 13, fetch := true
        len := 0, remain := 0 }) n
    else startTransfer (s.setDma n d) n

/-- A write of DMA_C_CMD.START (R315). -/
def doStart (s : State) (n : Nat) : State := startChannel s n none

/-- START (R315). -/
def execStart (n : Fin 64) (s : State) : Host.Outcome State Fault Refusal :=
  if s.up && s.pci.rst.isNone then done (doStart s n) else done s

/-- DMA_START_EVENT (R132, R315): an event is taken when the channel is IDLE. -/
def execDmaStartEvent (n : Fin 64) (s : State) : Host.Outcome State Fault Refusal :=
  if s.up && s.pci.rst.isNone && chState s n = dIdle && !isRingChan s n then
    match takeEvent s (inDma n) with
    | (some e, t) => done (startChannel t n (some e))
    | (none, t) => done t
  else done s

/-- A write of DMA_C_CMD.PAUSE (R322). -/
def doPause (s : State) (n : Nat) : State :=
  let d := s.dma n
  let st := chState s n
  if st = dParked then setCh (s.setDma n { d with parked := true }) n dPaused
  else if st = dRunning then
    if (liveReads s n).isEmpty then setCh (s.setDma n { d with parked := false }) n dPaused
    else s.setDma n { d with pausing := true, parked := false }
  else s

/-- A write of DMA_C_CMD.RESUME (R322). -/
def doResume (s : State) (n : Nat) : State :=
  let d := s.dma n
  let st := chState s n
  if isRingChan s n then s.lockedWrite (R.DMA_C_CMD n)
  else if st = dPaused then
    if d.parked then tailRead (setCh (s.setDma n { d with parked := false }) n dParked) n
    else tryEnd (issueDesc (setCh s n dRunning) n) n
  else if st = dFailed || st = dBmeLost then
    let s := setCh s n dRunning
    if d.fetch then issueDesc (s.setDma n { d with data := none }) n
    else if d.stop.isSome then tryEnd s n
    else if d.active then startTransfer s n
    else if d.chain then setCh s n dParked
    else setCh s n dIdle
  else s

/-- A write of DMA_C_CMD.ABORT (R322). -/
def doAbort (s : State) (n : Nat) : State :=
  if chState s n = dIdle then s
  else tryEnd (killReads (s.setDma n { s.dma n with stop := some { status := 8 } }) n) n

/-- A write of DMA_C_CMD.DOORBELL (R320). -/
def doDoorbell (s : State) (n : Nat) : State :=
  if isRingChan s n then s.lockedWrite (R.DMA_C_CMD n) else tailRead (s.set1 (F.DMA_C_STAT_DB_PENDING n)) n

/-- PAUSE (R322). -/
def execPause (n : Fin 64) (s : State) : Host.Outcome State Fault Refusal :=
  if s.up && s.pci.rst.isNone then done (doPause s n) else done s
/-- RESUME (R322). -/
def execResume (n : Fin 64) (s : State) : Host.Outcome State Fault Refusal :=
  if s.up && s.pci.rst.isNone then done (doResume s n) else done s
/-- ABORT (R322). -/
def execAbort (n : Fin 64) (s : State) : Host.Outcome State Fault Refusal :=
  if s.up && s.pci.rst.isNone then done (doAbort s n) else done s
/-- DOORBELL (R320). -/
def execDoorbell (n : Fin 64) (s : State) : Host.Outcome State Fault Refusal :=
  if s.up && s.pci.rst.isNone then done (doDoorbell s n) else done s

/-- DMA_TRANSFER_DONE (R310): everything of a transfer has been written, or it has failed: its record, then what follows. -/
def execDmaTransferDone (n : Fin 64) (s : State) : Host.Outcome State Fault Refusal :=
  if s.up && s.pci.rst.isNone then done (tryEnd s n) else done s

/-! ### Descriptors (R319, R320) -/

/-- A descriptor's reserved fields are zero. -/
def descOk (l : List (BitVec 8)) : Bool :=
  (sliceB l 0x1C 20).all (· == 0) && (sliceB l 0x38 8).all (· == 0) && leAt l 0x30 4 / 2 % 32 == 0 && leAt l 0x14 4 % 2 ^ 13 == 0

/-- A descriptor's NEXT, when valid. -/
def descNext (l : List (BitVec 8)) : Option Nat :=
  if leAt l 0x30 4 % 2 = 1 then some (leAt l 0x30 4 / 64 * 64 + 2 ^ 32 * leAt l 0x34 4) else none

/-- Act on a descriptor that has been read. -/
def takeDesc (s : State) (n : Nat) (l : Option (List (BitVec 8))) : State :=
  let d := s.dma n
  let d := { d with data := none }
  let bad (s : State) : State := failDma (s.setDma n { d with active := false }) n { status := 7, addr := d.desc } []
  match l with
  | none => bad s
  | some b =>
    if !descOk b then bad s
    else if d.tail then
      match descNext b with
      | some a =>
        let s := s.setDma n { d with desc := a, fetch := true, tail := false, next := none }
        let s := if chState s n = dParked then s.sf (F.DMA_C_STAT_STATE n) dRunning else s.setDma n { s.dma n with parked := false }
        issueDesc s n
      | none => tailRead (s.setDma n { d with fetch := false, tail := false }) n
    else
      let len := leAt b 0x10 4
      startTransfer (s.setDma n { d with
        fetch := false, src := leAt b 0 8, dst := leAt b 8 8, len := len, remain := len, ctrl := BitVec.ofNat 32 (leAt b 0x14 4)
        user := BitVec.ofNat 32 (leAt b 0x18 4), next := descNext b }) n

/-- DESCRIPTOR_READ (R319): a descriptor read completes. -/
def execDescriptorRead (n : Fin 64) (s : State) : Host.Outcome State Fault Refusal :=
  let d := s.dma n
  let st := chState s n
  if !s.up || s.pci.rst.isSome || !d.fetch || !(st == dRunning || st == dParked) then done s
  else
    match d.data with
    | some l => done (takeDesc s n l)
    | none =>
      if d.descHost then done (issueDesc s n)
      else
        match devRange s n d.desc 64 false with
        | some (status, a) => done (failDma (s.setDma n { d with active := false }) n { status := status, addr := a } [])
        | none =>
          if s.poison.contains (d.desc / 64) then done (takeDesc (s.meets d.desc 64) n none) else done (takeDesc s n (some (s.dread d.desc 64)))

/-! ### Bursts (R316, R317, R323, R324) -/

/-- Reverse the bytes within units of `k` bytes (SWAP). -/
def swapUnits (k : Nat) : Nat → List (BitVec 8) → List (BitVec 8)
  | 0, l => l
  | f + 1, l => if k ≤ 1 || l.isEmpty then l else (l.take k).reverse ++ swapUnits k f (l.drop k)

/-- Write data of a transfer at an offset of it: a fixed side takes the same bytes again and again. -/
def putDst (s : State) (d : DmaSt) (off : Nat) (l : List (BitVec 8)) : State :=
  let l := swapUnits (cSwap d.ctrl) (l.length + 1) l
  let w (s : State) (a : Nat) (l : List (BitVec 8)) : State := if cDstHost d.ctrl then hostWrite s a l else s.dwrite a l
  if cDstFix d.ctrl then
    let fw := cFw d.ctrl
    (List.range (ceilDiv l.length fw)).foldl (fun t k => w t d.dst ((l.drop (k * fw)).take fw)) s
  else w s (d.dst + off) l

/-- Device-memory source bytes of a transfer at an offset of it. -/
def getSrc (s : State) (d : DmaSt) (off n : Nat) : List (BitVec 8) :=
  if cSrcFix d.ctrl then
    let fw := cFw d.ctrl
    ((List.range (ceilDiv n fw)).flatMap (fun _ => s.dread d.src fw)).take n
  else s.dread (d.src + off) n

/-- The reads of a burst from host memory, split at MRRS and at 4 KiB, as far as tags are free: the bytes asked for. -/
def issueReads (n : Nat) (d : DmaSt) (boff : Nat) : Nat → State → Nat → Nat → Nat × State
  | 0, s, got, _ => (got, s)
  | k + 1, s, got, left =>
    if left = 0 then (got, s)
    else
      let off := boff + got
      let a := if cSrcFix d.ctrl then d.src else d.src + off
      let m := if cSrcFix d.ctrl then min left (cFw d.ctrl) else min left (min (mrrs s) (4096 - a % 4096))
      match hostRead s 0 n a m off boff with
      | some t => issueReads n d boff k t (got + m) (left - m)
      | none => (got, s)

/-- What a transfer's read failure is reported as (R324): before REMAIN is zero, or after. -/
def readError (d : DmaSt) (addr : Nat) (host : Bool) : DmaEnd :=
  if d.remain = 0 then { status := 4, addr := addr, host := host, poison := !host }
  else { status := if host then 2 else 3, addr := addr, host := host, poison := !host }

/-- One burst of a register or descriptor transfer. -/
def burst (s : State) (n : Nat) : State :=
  let d := s.dma n
  let size := min d.remain (s.f F.DMA_CFG_BURST)
  let off := d.issued
  if cSrcHost d.ctrl then
    let (got, s) := issueReads n d off (size + 1) s 0 size
    s.setDma n { s.dma n with remain := d.remain - got }
  else
    let d' := { d with remain := d.remain - size }
    let s := s.setDma n d'
    let a := if cSrcFix d.ctrl then d.src else d.src + off
    let m := if cSrcFix d.ctrl then cFw d.ctrl else size
    match poisonIn s a m with
    | some x => failDma (s.meets a m) n (readError d' x false) [off]
    | none => tryEnd (putDst s d off (getSrc s d off size)) n

/-- Where a unit or pad in a slot goes in host memory. -/
def slotAddr (s : State) (r first : Nat) : Nat :=
  s.pair (R.DLV_H_BASE_LO r) (R.DLV_H_BASE_HI r) + first * 2 ^ s.f (F.DLV_H_CFG_SLOT_LOG2 r)

/-- One burst of a ring unit: its payload first, then its envelope (R327). -/
def ringBurst (s : State) (n r : Nat) : State :=
  let d := s.dma n
  match (s.ring r).placed with
  | p :: _ =>
    let (env, body) := match p.u with
      | some u => let l := unitBytes s r u; (l.take 128, l.drop 128)
      | none => (padEnv s r p.n, [])
    let a := slotAddr s r p.first
    if d.off < body.length then
      let l := (body.drop d.off).take (s.f F.DMA_CFG_BURST)
      (hostWrite s (a + 128 + d.off) l).setDma n { d with off := d.off + l.length }
    else (hostWrite s a env).setDma n { d with off := d.off + 128 }
  | [] => s

/-- Bytes a ring channel has to move for the unit in transfer. -/
def ringTotal (s : State) (r : Nat) : Nat :=
  match (s.ring r).placed with
  | p :: _ => 128 + (match p.u with | some u => u.len | none => 0)
  | [] => 0

/-- A channel is ready for a burst in a direction. -/
def chReady (s : State) (fromHost : Bool) (n : Nat) : Bool :=
  let d := s.dma n
  chState s n == dRunning && !d.pausing && d.stop.isNone &&
    (match d.ring with
     | some r => !fromHost && canRequest s && decide (d.off < ringTotal s r)
     | none => d.active && d.remain != 0 && cSrcHost d.ctrl == fromHost &&
       (if fromHost then canRequest s && (freeTag s).isSome else !cDstHost d.ctrl || canRequest s) &&
       (!cDstHost d.ctrl || canRequest s))

/-- The scheduler's next channel (R323): the highest ready level, or one passed over STARVE times in a row; round-robin within it. -/
def pickBurst (s : State) (fromHost : Bool) : Option (Nat × State) :=
  let ready := (s.dmas.map (·.1)).filter (chReady s fromHost)
  let prio (n : Nat) : Nat := fieldOf (s.dma n).ctrl 29 28
  let key (l : Nat) : Nat := (if fromHost then 4 else 0) + l
  let levels := [0, 1, 2, 3].filter (fun l => ready.any (fun n => prio n == l))
  let count (l : Nat) : Nat := mget (fun _ => 0) s.sched.starve (key l)
  let lim := max 1 (s.f F.DMA_CFG_STARVE)
  let pick := match levels.find? (fun l => decide (lim ≤ count l)) with
    | some l => some l
    | none => levels.head?
  match pick with
  | none => none
  | some l =>
    let here := ready.filter (fun n => prio n == l)
    let last := mget (fun _ => 63) s.sched.last (key l)
    let order := (List.range 64).map (fun k => (last + 1 + k) % 64)
    match order.find? (fun n => here.contains n) with
    | none => none
    | some n =>
      let st := [0, 1, 2, 3].foldl (fun m k =>
        mset (fun _ => 0) m (key k) (if k = l || !levels.contains k then 0 else count k + 1)) s.sched.starve
      some (n, { s with sched := { starve := st, last := mset (fun _ => 63) s.sched.last (key l) n } })

/-- DMA_BURST (R323). -/
def execDmaBurst (fromHost : Bool) (s : State) : Host.Outcome State Fault Refusal :=
  if !s.up || s.pci.rst.isSome then done s
  else
    match pickBurst s fromHost with
    | some (n, s) =>
      match (s.dma n).ring with
      | some r => done (ringBurst s n r)
      | none => done (burst s n)
    | none => done s

/-! ### Ring channels (R311, R314, R327) -/

/-- A ring has a unit or pad ready for its channel. -/
def ringReady (s : State) (n r : Nat) : Bool :=
  let st := ringState s r
  ringChan s r == n && (st == rActive || st == rDraining) && !(s.ring r).placed.isEmpty && !(s.ring r).deact &&
    cqOn s (s.f (F.DLV_H_CFG_CQ r)) && !(s.cq (s.f (F.DLV_H_CFG_CQ r))).off

/-- The next ring after the one served last. -/
def nextRing (s : State) (n : Nat) : Option Nat :=
  ((List.range 256).map (fun k => ((s.dma n).lastRing + 1 + k) % 256)).find? (ringReady s n)

/-- RING_UNIT_START (R314). -/
def execRingUnitStart (n : Fin 64) (s : State) : Host.Outcome State Fault Refusal :=
  let d := s.dma n
  let st := chState s n
  let free := st == dIdle || (st == dRunning && d.ring.isNone && !d.active && !d.fetch && d.stop.isNone && !d.chain)
  if !s.up || s.pci.rst.isSome || !free || !canRequest s then done s
  else
    match nextRing s n with
    | some r =>
      let s := s.sf (F.DMA_C_STAT_STATE n) dRunning
      done (s.setDma n { d with ring := some r, off := 0, lastRing := r, chain := false })
    | none => if st = dRunning then done (setCh s n dIdle) else done s

/-- Where a stored unit, the oldest of its ring, meets poisoned units of device memory: the first byte read from each, in the unit's
order. -/
def postePoison (s : State) (r : Nat) (u : FUnit) : List Nat :=
  let x := s.ring r
  if s.poison.isEmpty then []
  else
    (((List.range (ceilDiv (128 + u.len) 64 + 1)).map (fun j =>
      let a := posteAddr s x (x.prRd + min (64 * j) (127 + u.len))
      if j = 0 then a else a / 64 * 64)).filter (fun a => s.poison.contains (a / 64))).dedup

/-- A unit or pad is delivered: its record carries ERR_POISON and the first faulting address when a read of its source met uncorrectable
data, PROD advances over its slots, its source is released (R296, R307, R310, R311, R324). -/
def unitDone (s : State) (n r : Nat) (p : Placed) : State :=
  let c := s.f (F.DLV_H_CFG_CQ r)
  let stored := match p.u with
    | some u => if u.poste then postePoison s r u else []
    | none => []
  let at_ := stored.head?.orElse (fun _ => p.u.bind (·.poison))
  let bad := at_.isSome
  let s := stored.foldl (fun t a => t.uncorrectable (a / 64)) s
  let s := writeRecord s c (if p.u.isSome then 2 else 3) (if bad then 3 else 0) r (if bad then 1 else 0) p.n (at_.getD p.first)
    (match p.u with | some u => u.envNo | none => 0) (if s.on (F.DLV_H_CFG_VEC_EN r) then some r else none)
  let s := s.sf (F.DMA_C_STAT_LAST_STATUS n) (if bad then 3 else 0)
  let s := s.wr (R.DLV_H_PROD r) (s.rd (R.DLV_H_PROD r) + BitVec.ofNat 32 p.n)
  let x := s.ring r
  let s := s.setRing r { x with placed := x.placed.drop 1 }
  let s := match p.u with
    | some u => releaseSource (popPoste s r u) u.src true
    | none => s
  let s := settleCq (s.setDma n { s.dma n with ring := none, off := 0 }) c
  let x := s.ring r
  let s := if x.discard then disableRing s r
    else if x.deact then holdRing s r
    else pumpRing s r
  let s := settleRing s r
  if (nextRing s n).isSome || chState s n != dRunning then s else setCh s n dIdle

/-- RING_UNIT_DONE (R311): the writes of a unit in transfer are issued; its record is written once the queue has room. -/
def execRingUnitDone (n : Fin 64) (s : State) : Host.Outcome State Fault Refusal :=
  let d := s.dma n
  match d.ring with
  | some r =>
    let c := s.f (F.DLV_H_CFG_CQ r)
    match (s.ring r).placed with
    | p :: _ =>
      if !s.up || s.pci.rst.isSome || chState s n != dRunning || d.off < ringTotal s r || !canRequest s then done s
      else if cqFull s c then done (noteFull s n c)
      else done (unitDone s n r p)
    | [] => done s
  | none => done s

/-! ### Completions of the L9's reads (R342 to R344) -/

/-- A pause that waited for the bursts issued takes effect (R322). -/
def settlePause (s : State) (n : Nat) : State :=
  let d := s.dma n
  if d.pausing && (liveReads s n).isEmpty && chState s n = dRunning then setCh (s.setDma n { d with pausing := false }) n dPaused else s

/-- A read has ended without its data. -/
def readFailed (s : State) (r : HRead) (addr : Nat) : State :=
  if r.dead then s
  else if r.use = 1 then s.setDma r.chan { s.dma r.chan with data := some none }
  else failDma s r.chan (readError (s.dma r.chan) addr true) [r.boff]

/-- Data of a read arrives; while writes to the host are frozen its burst is not known to have been written. -/
def readData (s : State) (r : HRead) (l : List (BitVec 8)) (last : Bool) : State :=
  if r.dead then s
  else if r.use = 1 then
    let d := s.dma r.chan
    let old := match d.data with | some (some b) => b | _ => []
    s.setDma r.chan { d with data := if last then some (some (old ++ l)) else d.data }
  else
    let d := s.dma r.chan
    if cDstHost d.ctrl && !canRequest s then rollBack s r.chan [r.boff]
    else
    let s := putDst s d (r.off + r.got) l
    if last then settlePause (tryEnd s r.chan) r.chan else s

/-! ### What stops the host side's traffic (R325, R345, R351) -/

/-- Channels that are RUNNING or PARKED, in ascending order. -/
def busyChans (s : State) : List Nat := (List.range 64).filter (fun n => chState s n == dRunning || chState s n == dParked)

/-- Rings that are ACTIVE or DRAINING go back to HELD (R305). -/
def holdRings (s : State) : State := (List.range 256).foldl holdRing s

/-- Bus Master Enable is cleared (R325, R345). -/
def bmeLost (s : State) : State :=
  let stop (s : State) (n : Nat) : State :=
    let parked := chState s n = dParked
    let s := if (s.dma n).active then rollBack s n [] else s
    setCh (s.setDma n { s.dma n with pausing := false, ring := none, off := 0, parked := parked }) n dBmeLost
  let s := (busyChans s).foldl stop s
  let s := { s with reads := s.reads.map (fun r => { r with dead := true }) }
  holdRings s

/-- BME_CLEAR (R345): the host clears Bus Master Enable. -/
def doBmeClear (s : State) : State :=
  if bme s then bmeLost (s.setCfg 0x04 (s.cfg 0x04 &&& ~~~ 0x4)) else s

/-- BME_CLEAR (R345). -/
def execBmeClear (s : State) : Host.Outcome State Fault Refusal :=
  if s.up && s.pci.rst.isNone then done (doBmeClear s) else done s

/-- D3HOT_ENTRY (R348): acts as clearing Bus Master Enable and Memory Space Enable. -/
def doD3 (s : State) : State :=
  let s := doBmeClear s
  (s.setCfg 0x04 (s.cfg 0x04 &&& ~~~ 0x2)).setCfg 0x44 (s.cfg 0x44 ||| 3)

/-- D3HOT_ENTRY (R348). -/
def execD3hotEntry (s : State) : Host.Outcome State Fault Refusal :=
  if s.up && s.pci.rst.isNone && s.on F.PCI_LINK_UP then done (doD3 s) else done s

/-- Containment begins (R351): requests stop, channels that ran or were parked are paused, rings are held. -/
def contain (s : State) (cause first : Nat) : State :=
  if contained s then s
  else
    let chans := busyChans s
    let pauseOne (s : State) (n : Nat) : State :=
      let d := s.dma n
      let parked := chState s n = dParked
      setCh (s.setDma n { d with parked := parked, ring := none, off := 0 }) n dPaused
    let s := chans.foldl pauseOne s
    let s := ((s.set1 F.PCI_CONTAIN_CONTAINED).sf F.PCI_CONTAIN_CAUSE cause).sf F.PCI_CONTAIN_FIRST_ERR first
    let s := { s with pci := { s.pci with paused := chans } }
    holdRings (s.set1 F.DEV_RSTSTAT_HOST_IN_RESET)

/-- An uncorrectable error is logged, and contained when PCI_CONTAIN_MASK says so (R350, R351): an error during containment changes
nothing else. -/
def pciError (s : State) (bit : Nat) (adv : Bool) (hdr : List Word) : State :=
  let s := logUE s bit adv hdr
  if (s.rd R.PCI_CONTAIN_MASK).getLsbD bit && !contained s then (contain s 1 bit).logFault 0x11 2 0xFFFF 0 bit else s

/-- UNCORRECTABLE_ERROR (R350): a poisoned TLP, an unexpected completion and an unsupported request are advisory non-fatal. -/
def execUncorrectableError (bit : Fin 32) (hdr : List Word) (s : State) : Host.Outcome State Fault Refusal :=
  if s.up && s.on F.PCI_LINK_UP && s.pci.rst.isNone then
    done (pciError s bit (bit == 12 || bit == 16 || bit == 20) hdr)
  else done s

/-- CONTAIN_RELEASE (R352): `resume` is RESUME_DMA. A paused ring channel without a unit returns to IDLE. -/
def doContainRelease (s : State) (resume : Bool) : State :=
  if !contained s || s.f F.PCI_CONTAIN_CAUSE = 2 then s.set1 F.PCI_STAT_RANGE
  else
    let chans := s.pci.paused
    let s := ((s.clr F.PCI_CONTAIN_CONTAINED).sf F.PCI_CONTAIN_CAUSE 0).sf F.PCI_CONTAIN_FIRST_ERR 0
    let s := { s with pci := { s.pci with paused := [] } }
    let s := s.put F.DEV_RSTSTAT_HOST_IN_RESET s.pci.rst.isSome
    let s := sendPending s
    if resume then chans.foldl (fun t n =>
      if chState t n != dPaused then t
      else if (t.dma n).parked then tailRead (setCh (t.setDma n { t.dma n with parked := false }) n dParked) n
      else if isRingChan t n && !(t.dma n).active then setCh t n dIdle
      else tryEnd (issueDesc (setCh t n dRunning) n) n) s
    else s

/-- CONTAIN_RELEASE (R352). -/
def execContainRelease (resume : Bool) (s : State) : Host.Outcome State Fault Refusal :=
  if s.up && s.pci.rst.isNone then done (doContainRelease s resume) else done s

/-- A completion for one of the L9's reads (R342 to R344): 0 successful, 1 UR, 2 CA, 3 with EP set. A piece that ends off a 64-byte
boundary before the last, or carries too many bytes, is a Malformed TLP; a tag in quarantine means a late completion; any other tag
is unexpected. -/
def completion (s : State) (tag : Nat) (status : Nat) (l : List (BitVec 8)) : State :=
  match s.reads.find? (fun r => r.tag == tag) with
  | none =>
    if s.pci.quar.any (fun e => e.1 == tag) then lateCpl s tag
    else pciError s 16 true []
  | some r =>
    let rest := s.reads.filter (fun x => x.tag != tag)
    if status != 0 then readFailed { s with reads := rest } r (r.addr + r.got)
    else
      let upto := r.got + l.length
      let last := upto == r.len
      if r.len < upto || l.isEmpty || (!last && (r.addr + upto) % 64 != 0) then pciError s 18 false []
      else if last then readData { s with reads := rest } r l true
      else
        let s := readData s r l false
        { s with reads := s.reads.map (fun x => if x.tag = tag then { x with got := upto } else x) }

/-- READ_COMPLETION (R342). -/
def execReadCompletion (tag : BitVec 14) (status : Fin 4) (data : List Byte) (s : State) : Host.Outcome State Fault Refusal :=
  if s.up && s.on F.PCI_LINK_UP && s.pci.rst.isNone then done (completion s tag.toNat status data) else done s

/-- LATE_COMPLETION (R344): a completion of a quarantined tag is discarded and counted. -/
def execLateCompletion (tag : BitVec 14) (s : State) : Host.Outcome State Fault Refusal :=
  if s.up && s.on F.PCI_LINK_UP && s.pci.rst.isNone && s.pci.quar.any (fun e => e.1 == tag.toNat) then
    done (lateCpl s tag.toNat)
  else done s

/-- COMPLETION_TIMEOUT (R343): reported, and its tag quarantined; the timeout of a read that Bus Master Enable cut off is not reported,
but its tag is quarantined (R345). -/
def execCompletionTimeout (tag : BitVec 14) (s : State) : Host.Outcome State Fault Refusal :=
  match s.reads.find? (fun r => r.tag == tag.toNat), ctoNs s with
  | some r, some tmo =>
    if s.up && s.pci.rst.isNone && decide (r.at_ + tmo ≤ s.now) then
      let s := { s with reads := s.reads.filter (fun x => x.tag != r.tag) }
      let s := quarantine s r.tag tmo (!r.dead)
      if r.dead then done s
      else
        let s := (s.bump F.PCI_CTO_CNT_COUNT).set1 F.PCI_STAT_CTO
        done (readFailed (pciError s 14 false []) r (r.addr + r.got))
    else done s
  | _, _ => done s

/-- TAG_QUARANTINE_END (R344). -/
def execTagQuarantineEnd (tag : BitVec 14) (s : State) : Host.Outcome State Fault Refusal :=
  if s.held then done s
  else done { s with pci := { s.pci with quar := s.pci.quar.filter (fun e => !(e.1 == tag.toNat && decide (e.2.1 ≤ s.now))) } }

end Sys2Proof.Machine
end

