-- ==== Sys2Proof/Machine/Ebkel.lean ====
section
/-! DEFINITION. Machine/Ebkel.lean: lanes and the Ebkel links (R384 to R405): bring-up, ranging, beacons, remote events, frames and
their retry, transfers, axis samples over Ethernet, equalisation and margin. -/

namespace Sys2Proof.Machine
open Sys2Proof

def State.link (s : State) (k : Nat) : LinkSt := mget (fun _ => {}) s.ebk.links k
def State.setLink (s : State) (k : Nat) (a : LinkSt) : State := { s with ebk := { s.ebk with links := mset (fun _ => {}) s.ebk.links k a } }

/-- Codes of EBK_STATE.PHASE (R388). -/
def lkOff : Nat := 0
def lkSend : Nat := 1
def lkHunt : Nat := 2
def lkAdapt : Nat := 3
def lkGreet : Nat := 4
def lkRange : Nat := 5
def lkRun : Nat := 6
def lkTest : Nat := 7

def phase (s : State) (k : Nat) : Nat := s.f (F.EBK_STATE_PHASE k)
/-- The event of a link (R125, R388). -/
def prodEbk (k : Nat) : Nat := 0x208 + k

/-- DIAGNOSE is in force: loopbacks and PRBS act (R403, R411). -/
def diagnosing (s : State) : Bool := s.f F.DEV_MODE_REQ == 8
/-- The loopback and the PRBS that act on a link (R403). -/
def loopOf (s : State) (k : Nat) : Nat := if diagnosing s then s.f (F.EBK_CFG_LOOP k) else 0
def prbsOf (s : State) (k : Nat) : Nat :=
  let p := s.f (F.EBK_CFG_PRBS k)
  if diagnosing s && p ≤ 4 then p else 0

/-! ### Phases (R384, R388, R389, R403, R404) -/

/-- The lane of an enabled link is its own, in EBKEL mode, at rate 1 or 2 (R384). -/
def linkValid (s : State) (k : Nat) : Bool :=
  let n := s.f (F.EBK_CFG_LANE k)
  let rate := s.f (F.LNK_LANE_CFG_RATE n)
  decide (n < 24) && s.f (F.LNK_LANE_CFG_MODE n) == 2 && (rate == 1 || rate == 2) &&
    (List.range 8).all (fun j => j == k || !s.on (F.EBK_CFG_EN j) || s.f (F.EBK_CFG_LANE j) != n) &&
    (List.range 16).all (fun m => !s.on (F.ETH_CFG_ENABLE m) || !(portLanes s m).contains n)

/-- A link leaves RUN: its event, and its unacknowledged frames wait for the next entry (R388, R389, R394, R398). -/
def leaveRun (s : State) (k : Nat) : State :=
  if phase s k = lkRun then
    let x := s.link k
    let s := s.setLink k { x with queue := x.unacked ++ x.queue, unacked := [], base := 0, absentAt := some s.now }
    (laneLeft s (s.f (F.EBK_CFG_LANE k))).raise (prodEbk k)
  else s

/-- A link enters a phase: what waits for a slot stays where the new phase sends it (R388). -/
def toPhase (s : State) (k p : Nat) : State :=
  let s := (leaveRun s k).sf (F.EBK_STATE_PHASE k) p
  let x := s.link k
  let ready := if lkGreet ≤ p && p ≤ lkRun then x.ready.filter (fun r => r.rank == 1) else []
  s.setLink k { x with
    phaseAt := s.now, ident := none, probes := 0, stamps := [], echoes := [], ready := ready, value := none, wire := [], txq := [] }

/-- The receiver and transmitter of a lane start afresh. -/
def laneFresh (s : State) (n : Nat) : State :=
  ((s.clr (F.LNK_LANE_STAT_SIGNAL n)).clr (F.LNK_LANE_STAT_CDR_LOCK n)).clr (F.LNK_LANE_STAT_TX_READY n)

/-- A link starts at SEND, or in TEST when a far-end loopback or a PRBS acts on it (R388, R403). -/
def linkStart (s : State) (k : Nat) : State :=
  let s := laneFresh (toPhase s k (if loopOf s k = 3 || prbsOf s k != 0 then lkTest else lkSend)) (s.f (F.EBK_CFG_LANE k))
  s.setLink k { s.link k with absentAt := some s.now }

/-- An enabled link breaks a condition of R384. -/
def linkBroken (s : State) (k : Nat) : State := ((toPhase s k lkOff).set1 (F.EBK_FLAGS_RANGE k)).set1 F.LNK_STAT_CONFLICT

/-- A link restarts under its present settings (R388). -/
def linkSettle (s : State) (k : Nat) : State :=
  if !s.on (F.EBK_CFG_EN k) then toPhase s k lkOff else if linkValid s k then linkStart s k else linkBroken s k

/-- Links whose lane has become free, or has been taken from them, by a change elsewhere (R384). -/
def checkLinks (s : State) : State :=
  (List.range 8).foldl (fun t k =>
    if !t.on (F.EBK_CFG_EN k) then t
    else if linkValid t k then (if phase t k = lkOff then linkStart t k else t)
    else if phase t k = lkOff then t else linkBroken t k) s

/-- Every enabled link restarts: a change of EBK_NODE, a wake (R388, R404). -/
def restartLinks (s : State) : State := (List.range 8).foldl (fun t k => if phase t k = lkOff then t else linkSettle t k) s

/-- Links under test settings restart as DIAGNOSE begins or ends (R403). -/
def retestLinks (s : State) : State :=
  (List.range 8).foldl (fun t k =>
    if phase t k != lkOff && (t.on (F.EBK_CFG_LOOP k) || t.on (F.EBK_CFG_PRBS k)) then linkSettle t k else t) s

/-- Every link is OFF (R380, R404). -/
def allLinksOff (s : State) : State := (List.range 8).foldl (fun t k => if phase t k = lkOff then t else toPhase t k lkOff) s

/-- A write of EBK_CFG (R12, R384, R388, R403). -/
def doEbkCfg (s : State) (k : Nat) (v : Word) : State :=
  let old := s.rd (R.EBK_CFG k)
  let w := fieldOf v 5 0
  let w' := max 1 (min 32 w)
  let new := setField (setField (v &&& 0x9F370000) 5 0 w') 28 24 (min 23 (fieldOf v 28 24))
  let s := s.wr (R.EBK_CFG k) new
  let test := fieldOf new 21 20 != 0 || fieldOf new 18 16 != 0
  let s := if w' != w || 23 < fieldOf v 28 24 || 5 ≤ fieldOf new 18 16 || (test && !diagnosing s) then s.set1 (F.EBK_FLAGS_RANGE k) else s
  if old &&& 0x9F370000 != new &&& 0x9F370000 then checkLinks (linkSettle s k) else s

/-- EBK_CFG_WRITE (R388). -/
def execEbkCfgWrite (k : Fin 8) (v : Word) (s : State) : Host.Outcome State Fault Refusal :=
  if s.up then done (doEbkCfg s k v) else done s

/-- A write of EBK_NODE (R388, EBK_NODE): a change restarts every link. -/
def doEbkNode (s : State) (v : Word) : State :=
  let new := v &&& 0xFFFF01FF
  if s.rd R.EBK_NODE = new then s else restartLinks (s.wr R.EBK_NODE new)

/-- A write of EBK_CMD.RESTART (R388). -/
def doEbkRestart (s : State) (k : Nat) : State := if phase s k = lkOff then s else linkStart s k

/-- EBK_RESTART (R388). -/
def execEbkRestart (k : Fin 8) (s : State) : Host.Outcome State Fault Refusal := if s.up then done (doEbkRestart s k) else done s

/-- A write of LNK_LANE_CFG (R139, R384, R388): ports and links on the lane restart when it changes. -/
def doLaneCfg (s : State) (n : Nat) (v : Word) : State :=
  let old := s.rd (R.LNK_LANE_CFG n)
  let new := v &&& 0xFC000000
  let bad := fieldOf new 31 30 == 3 || fieldOf new 29 28 == 3 || (fieldOf new 31 30 == 1 && fieldOf new 29 28 == 2)
  let s := if bad then s.set1 F.LNK_STAT_RANGE else s
  if old = new then s
  else
    let s := (List.range 16).foldl (fun t m => if t.on (F.ETH_CFG_ENABLE m) && (portLanes t m).contains n then portDown t m else t) s
    let s := laneFresh (s.wr (R.LNK_LANE_CFG n) new) n
    let s := (List.range 16).foldl checkPlacement s
    let s := (List.range 8).foldl (fun t k => if t.on (F.EBK_CFG_EN k) && t.f (F.EBK_CFG_LANE k) == n then linkSettle t k else t) s
    checkLinks s

/-- LNK_LANE_CFG_WRITE (R139, R384). -/
def execLnkLaneCfgWrite (n : Fin 24) (v : Word) (s : State) : Host.Outcome State Fault Refusal :=
  if s.up then done (doLaneCfg s n v) else done s

/-- TX_READY (R388). -/
def execTxReady (k : Fin 8) (s : State) : Host.Outcome State Fault Refusal :=
  if s.up && phase s k == lkSend then done ((toPhase s k lkHunt).set1 (F.LNK_LANE_STAT_TX_READY (s.f (F.EBK_CFG_LANE k)))) else done s

/-- BLOCK_LOCK (R388): the lane has signal, its clock and 64 valid headers. -/
def execBlockLock (k : Fin 8) (s : State) : Host.Outcome State Fault Refusal :=
  if s.up && phase s k == lkHunt then
    let n := s.f (F.EBK_CFG_LANE k)
    done (((toPhase s k lkAdapt).set1 (F.LNK_LANE_STAT_SIGNAL n)).set1 (F.LNK_LANE_STAT_CDR_LOCK n))
  else done s

/-- ADAPT_END (R385, R388, R393): 2 ms have passed; the offset in 1/16 ppm and the coefficients reached. -/
def execAdaptEnd (k : Fin 8) (ppm : BitVec 16) (eq : Word) (s : State) : Host.Outcome State Fault Refusal :=
  if s.up && phase s k == lkAdapt && decide ((s.link k).phaseAt + 2000000 ≤ s.now) then
    let s := (s.sf (F.EBK_FREQ_PPM k) ppm.toNat).wr (R.LNK_RXEQ (s.f (F.EBK_CFG_LANE k))) eq
    if 800 < ppm.toInt.natAbs then done ((toPhase s k lkHunt).set1 (F.EBK_FLAGS_FREQ_ERR k))
    else
      let s := toPhase s k lkGreet
      done (s.setLink k { s.link k with identAt := s.now - 1000 })
  else done s

/-- LOST (R385, R389): loss of signal, or 16 invalid headers in 64, with the invalid headers counted meanwhile; a slip of the buffer
counts as one. -/
def execLost (k : Fin 8) (invalid : BitVec 16) (slip : Bool) (s : State) : Host.Outcome State Fault Refusal :=
  let p := phase s k
  if s.up && 3 ≤ p && p ≤ 6 then
    let s := (s.bump (F.EBK_HDR_CNT_LOSSES k)).bumpBy (F.EBK_HDR_CNT_INVALID k) invalid.toNat
    let s := s.set1 (F.EBK_FLAGS_LOST k)
    let s := if slip then s.set1 (F.EBK_FLAGS_SLIP k) else s
    let n := s.f (F.EBK_CFG_LANE k)
    done (((toPhase s k lkHunt).clr (F.LNK_LANE_STAT_SIGNAL n)).clr (F.LNK_LANE_STAT_CDR_LOCK n))
  else done s

/-- LINK_ABSENT (R389): 100 ms without reaching RANGE. -/
def execLinkAbsent (k : Fin 8) (s : State) : Host.Outcome State Fault Refusal :=
  match (s.link k).absentAt with
  | some t =>
    let p := phase s k
    if s.up && 1 ≤ p && p ≤ 4 && !s.on (F.EBK_STATE_LINK_ABSENT k) && t + 100000000 ≤ s.now then
      done ((s.set1 (F.EBK_STATE_LINK_ABSENT k)).raise (prodEbk k))
    else done s
  | none => done s

/-! ### Blocks (R386, R387) -/

/-- The place of a control block in the order of R401: a probe echo, ACK or NAK, then an IDENT or probe, then an EVENT; beacons go before
all of them. -/
def blockRank (type p : Nat) : Nat := if type = 0x66 || (type = 0x33 && p.testBit 63) then 1 else if type = 0x55 then 3 else 2

/-- A control block waits for a slot of its link (R401). -/
def addReady (s : State) (k : Nat) (r : ReadyBlock) : State := s.setLink k { s.link k with ready := (s.link k).ready ++ [r] }

/-- Send a control block in the first slot that R401 gives it. -/
def sendBlock (s : State) (k type p : Nat) : State :=
  addReady s k { rank := blockRank type p, due := s.now, type := type, content := bytesLE 8 (p / 256 * 256 + type) }

/-- A control block that is not one of its kind is discarded and counted (R387). -/
def badType (s : State) (k : Nat) : State := s.bump (F.EBK_FRM_CNT_BAD k)

/-- The type of a control block. -/
def blockType (p : Dword) : Nat := p.toNat % 256
/-- Bits [hi:lo] of a block's payload. -/
def pf (p : Dword) (hi lo : Nat) : Nat := (p.toNat >>> lo) % 2 ^ (hi + 1 - lo)

/-- IDENT_SEND (R387): every 1 µs in GREET and RANGE. -/
def execIdentSend (k : Fin 8) (s : State) : Host.Outcome State Fault Refusal :=
  let x := s.link k
  let p := phase s k
  if s.up && (p == lkGreet || p == lkRange) && decide (x.identAt + 1000 ≤ s.now) then
    let w := s.f F.EBK_NODE_SYS_ID * 2 ^ 48 + s.f F.EBK_NODE_NODE * 2 ^ 39 + k.val * 2 ^ 36 +
      s.f (F.LNK_LANE_CFG_RATE (s.f (F.EBK_CFG_LANE k))) * 2 ^ 34
    done (sendBlock (s.setLink k { x with identAt := s.now }) k 0x99 w)
  else done s

/-- IDENT (R390): the third identical one in GREET, of the lane's own rate, is accepted or refused. -/
def execIdent (k : Fin 8) (p : Dword) (s : State) : Host.Outcome State Fault Refusal :=
  if !s.up || phase s k != lkGreet then done s
  else if blockType p != 0x99 then done (badType s k)
  else
    let x := s.link k
    let c := match x.ident with
      | some (w, c) => if w = p.toNat then c + 1 else 1
      | none => 1
    let s := s.setLink k { x with ident := some (p.toNat, c) }
    if c < 3 || pf p 35 34 != s.f (F.LNK_LANE_CFG_RATE (s.f (F.EBK_CFG_LANE k))) then done s
    else
      let refused := pf p 63 48 != s.f F.EBK_NODE_SYS_ID
      let dup := pf p 47 39 == s.f F.EBK_NODE_NODE && !(loopOf s k == 1 || loopOf s k == 2)
      if refused || dup then
        let s := if refused then s.set1 (F.EBK_FLAGS_REFUSED k) else s
        done (toPhase (if dup then s.set1 (F.EBK_FLAGS_NODE_DUP k) else s) k lkHunt)
      else
        let s := ((s.sf (F.EBK_PARTNER_SYS_ID k) (pf p 63 48)).sf (F.EBK_PARTNER_NODE k) (pf p 47 39)).sf (F.EBK_PARTNER_LINK k) (pf p 38 36)
        let s := toPhase s k lkRange
        done (s.setLink k { s.link k with probeAt := s.now - 1000, absentAt := none })

/-- GREET_TMO (R388). -/
def execGreetTmo (k : Fin 8) (s : State) : Host.Outcome State Fault Refusal :=
  if s.up && phase s k == lkGreet && decide ((s.link k).phaseAt + 10000000 ≤ s.now) then
    done ((toPhase s k lkHunt).set1 (F.EBK_FLAGS_GREET_TMO k))
  else done s

/-- RANGE_FAIL (R388). -/
def execRangeFail (k : Fin 8) (s : State) : Host.Outcome State Fault Refusal :=
  if s.up && phase s k == lkRange && decide ((s.link k).phaseAt + 10000000 ≤ s.now) then
    done ((toPhase s k lkHunt).set1 (F.EBK_FLAGS_RANGE_FAIL k))
  else done s

/-- The clock in 1/16 ns, low 32 bits (R391), `sub` sixteenths into the present nanosecond. -/
def stamp16 (s : State) (sub : Nat) : Nat := wrapN 32 (floorDiv s.tim.clk (2 ^ 28) + sub)

/-- A new round of sixteen probes (R391). -/
def newRound (x : LinkSt) : LinkSt :=
  { x with probes := 0, stamps := [], echoes := [], ready := x.ready.filter (fun r => r.type != 0x33 || r.rank != 2) }

/-- PROBE_SEND (R391): the next of sixteen, one every 1 µs; after sixteen without an accepted ranging a new round begins. -/
def execProbeSend (k : Fin 8) (s : State) : Host.Outcome State Fault Refusal :=
  let x := s.link k
  if s.up && phase s k == lkRange && decide (x.probeAt + 1000 ≤ s.now) then
    let x := if 16 ≤ x.probes then newRound x else x
    done (addReady (s.setLink k { x with probeAt := s.now, probes := x.probes + 1 }) k { rank := 2, due := s.now, order := x.probes, type := 0x33 })
  else done s

/-! ### Frames (R397, R398) -/

/-- One byte of a CRC-32 with the IEEE 802.3 polynomial, bit by bit. -/
def crcBits : Nat → Nat → Nat
  | 0, c => c
  | k + 1, c => crcBits k (if c % 2 = 1 then (c / 2) ^^^ 0xEDB88320 else c / 2)
/-- CRC-32 with the IEEE 802.3 polynomial. -/
def crc32 (l : List (BitVec 8)) : Nat := l.foldl (fun c b => crcBits 8 (c ^^^ b.toNat)) 0xFFFFFFFF ^^^ 0xFFFFFFFF

/-- The blocks of a frame with their types: START, the data padded with zeros, END (R397). -/
def frameBlocks (f : EbkFrame) (seq : Nat) : List (Option Nat × List (BitVec 8)) :=
  let n := f.bytes.length
  let m := ceilDiv n 8
  let start := bytesLE 8 (f.cls * 2 ^ 60 + seq * 2 ^ 48 + f.dest * 2 ^ 39 + f.src * 2 ^ 30 + n * 2 ^ 16 + f.ttl * 2 ^ 10 + 0x78)
  let data := f.bytes ++ List.replicate (m * 8 - n) 0
  (some 0x78, start) :: (List.range m).map (fun i => (none, (data.drop (8 * i)).take 8)) ++
    [(some 0x87, bytesLE 8 (crc32 (start.drop 1 ++ f.bytes) * 2 ^ 32 + 0x87))]

/-- Frames with their SEQ, the first with `seq`. -/
def numbered (seq : Nat) (l : List EbkFrame) : List (Nat × EbkFrame) := l.zipIdx.map (fun e => ((seq + e.2) % 4096, e.1))

/-- Send what waits, as far as the window lets (R398). -/
def pumpLink (s : State) (k : Nat) : State :=
  if phase s k != lkRun then s
  else
    let x := s.link k
    let n := s.f (F.EBK_CFG_WINDOW k) - x.unacked.length
    let l := x.queue.take n
    s.setLink k { x with
      queue := x.queue.drop n, unacked := x.unacked ++ l, ackAt := if x.unacked.isEmpty then s.now else x.ackAt
      txq := x.txq ++ numbered (x.base + x.unacked.length) l }

/-- EBK_X_STAT follows the copies (R399). -/
def showCopies (s : State) : State := (s.put F.EBK_X_STAT_BUSY (s.ebk.sending.isSome && !s.ebk.stripLast)).sf F.EBK_X_STAT_QUEUED s.ebk.copies.length

/-- A copy is finished. -/
def copyDone (s : State) : State := (showCopies { s with ebk := { s.ebk with sending := none } }).incr F.EBK_X_DONE_COUNT 1

/-- Frames have been acknowledged: those of the transfer being sent count (R399). -/
def noteSent (s : State) (l : List EbkFrame) : State :=
  match s.ebk.sending with
  | some (id, left) =>
    let n := (l.filter (fun f => f.copy == some id)).length
    if left ≤ n then (if s.ebk.stripLast then { s with ebk := { s.ebk with sending := none } } else copyDone s)
    else { s with ebk := { s.ebk with sending := some (id, left - n) } }
  | none => s

/-- A link enters RUN (R388, R389, R391, R394, R398): `lat` in 1/16 ns. -/
def enterRun (s : State) (k lat : Nat) : State :=
  let s := ((toPhase s k lkRun).sf (F.EBK_LAT_LAT k) (min 65535 lat)).clr (F.EBK_STATE_LINK_ABSENT k)
  let s := (s.incr (F.EBK_RUN_CNT_COUNT k) 1).raise (prodEbk k)
  let s := s.setLink k { s.link k with absentAt := none, base := 0, expect := 0, nakAt := none, resends := 0, ackAt := s.now }
  pumpLink (laneRun s (s.f (F.EBK_CFG_LANE k))) k

/-- An echo in RANGE (R391): sixteen whose values lie within 2 ns give the latency. L is kept in 1/32 ns. -/
def takeEcho (s : State) (k idx stamp turn arr : Nat) : State :=
  let x := s.link k
  if !x.stamps.contains (idx, stamp) || x.echoes.any (fun e => e.1 == idx) then s
  else
    let l : Int := wrapN 32 ((arr : Int) - stamp - turn)
    let es := x.echoes ++ [(idx, l)]
    let s := s.setLink k { x with echoes := es }
    if es.length < 16 then s
    else
      let v := es.map (·.2)
      let hi := v.foldl max l
      let lo := v.foldl min l
      if hi - lo ≤ 64 then enterRun s k (roundDiv v.sum 32).toNat
      else s.setLink k (newRound (s.link k))

/-- PROBE (R391): a probe is echoed from GREET onwards; the time from its arrival to the echo is open. -/
def execProbe (k : Fin 8) (p : Dword) (sub : Fin 16) (s : State) : Host.Outcome State Fault Refusal :=
  let ph := phase s k
  if !s.up || ph < lkGreet || lkRun < ph then done s
  else if blockType p != 0x33 then done (badType s k)
  else if pf p 63 63 = 1 then
    done (if ph = lkRange then takeEcho s k (pf p 62 56) (pf p 55 24) (pf p 23 8) (stamp16 s sub) else s)
  else
    let (t, s) := s.free
    done (sendBlock s k 0x33 (2 ^ 63 + pf p 62 24 * 2 ^ 24 + t % 65536 * 256))

/-- Acknowledge with the SEQ expected (R398). -/
def sendAck (s : State) (k : Nat) (nak wait : Bool) (seq : Nat) : State :=
  sendBlock s k 0x66 ((if nak then 2 ^ 63 else 0) + (if wait then 2 ^ 62 else 0) + seq * 2 ^ 50)

/-- A NAK is due: one, until the expected frame arrives or RETRY_TMO has passed (R398). -/
def sendNak (s : State) (k : Nat) : State :=
  let x := s.link k
  let t := s.f (F.EBK_RETRY_RETRY_TMO k)
  let tmo := (if t = 0 then 20 else t) * 1000
  match x.nakAt with
  | some a => if s.now < a + tmo then s else sendAck (s.setLink k { x with nakAt := some s.now }) k true false x.expect
  | none => sendAck (s.setLink k { x with nakAt := some s.now }) k true false x.expect

/-- The sender resends every unacknowledged frame, or gives up after RETRY_MAX in a row (R398). -/
def rewind (s : State) (k : Nat) (counts : Bool) : State :=
  let x := s.link k
  if x.unacked.isEmpty then s
  else if counts && decide (s.f (F.EBK_RETRY_RETRY_MAX k) ≤ x.resends) then (toPhase s k lkHunt).set1 (F.EBK_FLAGS_RETRY_FAIL k)
  else
    let s := s.bump (F.EBK_FRM_CNT_REWINDS k)
    s.setLink k { x with ackAt := s.now, resends := x.resends + (if counts then 1 else 0), txq := numbered x.base x.unacked }

/-- ACK (R398): frames before SEQ are acknowledged; a NAK has the rest sent again. -/
def execAck (k : Fin 8) (p : Dword) (s : State) : Host.Outcome State Fault Refusal :=
  if !s.up || phase s k != lkRun then done s
  else if blockType p != 0x66 then done (badType s k)
  else
    let x := s.link k
    let n := (pf p 61 50 + 4096 - x.base) % 4096
    if x.unacked.length < n then done s
    else
      let gone := x.unacked.take n
      let s := if n = 0 then s
        else s.setLink k { x with unacked := x.unacked.drop n, base := (x.base + n) % 4096, ackAt := s.now, resends := 0 }
      let s := noteSent s gone
      let s := if pf p 63 63 = 1 then rewind s k (pf p 62 62 == 0) else s
      done (pumpLink s k)

/-- RETRY_TMO (R398). -/
def execRetryTmo (k : Fin 8) (s : State) : Host.Outcome State Fault Refusal :=
  let x := s.link k
  let t := s.f (F.EBK_RETRY_RETRY_TMO k)
  if s.up && phase s k == lkRun && !x.unacked.isEmpty && decide (x.ackAt + (if t = 0 then 20 else t) * 1000 ≤ s.now) then
    done (rewind s k true)
  else done s

/-! ### Routes and transfers (R399, R400) -/

/-- The link of a destination: its entry is VALID and names a link in RUN; the own node has none (R400). -/
def routeOf (s : State) (dest : Nat) : Option Nat :=
  let k := s.f (F.EBK_ROUTE_LINK dest)
  if dest != s.f F.EBK_NODE_NODE && s.on (F.EBK_ROUTE_VALID dest) && phase s k == lkRun then some k else none

/-- `n` frames have no way out (R400). -/
def noRoute (s : State) (n : Nat) : State := (s.bumpBy F.EBK_DROP_NOROUTE n).set1 F.EBK_STAT_NOROUTE

/-- A transfer is discarded (R399). -/
def xferBad (s : State) : State := (s.bump F.EBK_DROP_XFER).set1 F.EBK_STAT_XFER_BAD

/-- Put frames on a link's queue and send what the window lets. -/
def enqueue (s : State) (k : Nat) (l : List EbkFrame) : State :=
  let x := s.link k
  pumpLink (s.setLink k { x with queue := x.queue ++ l }) k

/-- Frames that a link's retry buffer of 256 KiB holds (R398): those sent and not acknowledged, and forwarded ones that wait to be sent. -/
def keptFrames (x : LinkSt) : List EbkFrame := x.unacked ++ x.queue.filter (·.copy.isNone)

/-- A frame of `n` bytes that is to be forwarded finds room in the retry buffer of its way out; any other frame needs none (R398, R400). -/
def frameRoom (s : State) (dest ttl n : Nat) : Bool :=
  dest == s.f F.EBK_NODE_NODE || ttl == 0 ||
    (match routeOf s dest with
     | some j => decide (((keptFrames (s.link j)).map (·.bytes.length)).sum + n ≤ 262144)
     | none => true)

/-- Keep a transfer being received, or forget it. -/
def setRx (s : State) (src xfer : Nat) (r : Option RxXfer) : State :=
  let l := s.ebk.rx.filter (fun e => !(e.src == src && e.xfer == xfer))
  { s with ebk := { s.ebk with rx := l ++ r.toList } }

/-- A transfer has arrived whole (R399): a strip goes to the collator, a copy to device memory. -/
def takeXfer (s : State) (r : RxXfer) : State :=
  if r.cls = 0 then { s with strips := s.strips ++ [(r.link, r.bytes)] }
  else (s.dwrite (r.daddr * 64) r.bytes).incr F.EBK_IN_DONE_COUNT 1

/-- A copy lies within the inbound window (R399). -/
def inWindow (s : State) (daddr n : Nat) : Bool :=
  let b := (s.rd R.EBK_IN_BASE).toNat
  decide (b ≤ daddr) && decide (daddr * 64 + n ≤ (b + (s.rd R.EBK_IN_SIZE).toNat) * 64)

/-- A frame for this node joins its transfer (R399). -/
def takeSegment16 (s : State) (k cls src : Nat) (d : List (BitVec 8)) : State :=
  let (total, ofs, daddr, xfer) := (leAt d 0 4, leAt d 4 4, leAt d 8 4, leAt d 12 2)
  let first := (leAt d 14 1).testBit 0
  let last := (leAt d 14 1).testBit 1
  let old := s.ebk.rx.find? (fun e => e.src == src && e.xfer == xfer)
  let s := match old with
    | some e => if first && !e.bad then xferBad s else s
    | none => s
  let r : RxXfer := match old with
    | some e => if first then ⟨src, xfer, cls, k, daddr, [], false⟩ else e
    | none => ⟨src, xfer, cls, k, daddr, [], false⟩
  if r.bad then setRx s src xfer (if last then none else some r)
  else
    let bytes := r.bytes ++ d.drop 16
    let wrong := ofs != r.bytes.length || decide (2 ≤ cls) || (cls == 1 && !inWindow s daddr total) || decide (total < bytes.length) ||
      (last && total != bytes.length)
    if wrong then setRx (xferBad s) src xfer (if last then none else some { r with bad := true, bytes := [] })
    else if last then takeXfer (setRx s src xfer none) { r with bytes := bytes }
    else setRx s src xfer (some { r with bytes := bytes })

/-- A good frame in its turn: for this node, or forwarded (R399, R400). -/
def acceptFrame (s : State) (k : Nat) (p : Dword) (d : List (BitVec 8)) : State :=
  let (cls, dest, src, ttl) := (pf p 63 60, pf p 47 39, pf p 38 30, pf p 15 10)
  if dest = s.f F.EBK_NODE_NODE then takeSegment16 s k cls src d
  else if ttl = 0 then (s.bump F.EBK_DROP_LOOP).set1 F.EBK_STAT_ROUTE_LOOP
  else
    match routeOf s dest with
    | some j => enqueue s j [⟨cls, dest, src, ttl - 1, d, none⟩]
    | none => noRoute s 1

/-- FRAME (R391, R397, R398): a frame as received, from START to END. In GREET and RANGE, and for a good frame that finds no room, the answer is
NAK with WAIT. -/
def execFrame (k : Fin 8) (start : Dword) (data : List Byte) (crcOk : Bool) (s : State) : Host.Outcome State Fault Refusal :=
  let ph := phase s k
  if !s.up then done s
  else if ph = lkGreet || ph = lkRange then done (sendAck s k true true 0)
  else if ph != lkRun then done s
  else
    let n := pf start 29 16
    let x := s.link k
    if blockType start != 0x78 || !crcOk || n < 16 || 8192 < n || data.length != ceilDiv n 8 * 8 then
      done (sendNak (s.bump (F.EBK_FRM_CNT_BAD k)) k)
    else
      let seq := pf start 59 48
      if seq != x.expect then
        if (x.expect + 4095 - seq) % 4096 < 2048 then done (sendAck s k false false x.expect) else done (sendNak s k)
      else if !frameRoom s (pf start 47 39) (pf start 15 10) n then done (sendAck s k true true x.expect)
      else
        let e := (x.expect + 1) % 4096
        let s := s.setLink k { x with expect := e, nakAt := none }
        done (acceptFrame (sendAck s k false false e) k start (data.take n))

/-- The bytes of a copy's source: those of a poisoned unit are open (R280, R399). -/
def copyBytes : Nat → State → Nat → Nat → List (BitVec 8) × State
  | 0, s, _, _ => ([], s)
  | fuel + 1, s, a, n =>
    if n = 0 then ([], s)
    else
      let k := min n (64 - a % 64)
      let (l, s) := if s.poisoned a then let (v, s) := (s.meets a k).free; ((List.range k).map (fun i => BitVec.ofNat 8 (v >>> (8 * (i % 8)))), s) else (s.dread a k, s)
      let (r, s) := copyBytes fuel s (a + k) (n - k)
      (l ++ r, s)

/-- The frames of a transfer (R397, R399): full ones of 8,176 data bytes and a last. -/
def xferFrames (node cls dest daddr xfer : Nat) (copy : Option Nat) (l : List (BitVec 8)) : List EbkFrame :=
  let n := max 1 (ceilDiv l.length 8176)
  (List.range n).map (fun i =>
    ⟨cls, dest, node, 63,
      bytesLE 4 l.length ++ bytesLE 4 (8176 * i) ++ bytesLE 4 daddr ++ bytesLE 2 xfer ++
        bytesLE 1 ((if i = 0 then 1 else 0) + (if i + 1 = n then 2 else 0)) ++ bytesLE 1 0 ++ (l.drop (8176 * i)).take 8176, copy⟩)

/-- A core or the host reaches the source of a copy (R95, R399). -/
def copyAllowed (s : State) (r : Requester) (a n : Nat) : Bool :=
  decide (a + n ≤ dmemBytes) && (match r with
    | .core c => (s.core c).grant.wins.any (fun w => winCovers w a n false)
    | _ => true)

/-- A write of EBK_X_GO (R399). -/
def doXferGo (s : State) (r : Requester) (v : Word) : State :=
  if !v.getLsbD 31 then s
  else if 8 ≤ s.ebk.copies.length then s.set1 F.EBK_STAT_RANGE
  else
    let len := s.f F.EBK_X_LEN_LEN
    let src := s.f F.EBK_X_SRC_SRC
    if len = 0 then s.incr F.EBK_X_DONE_COUNT 1
    else if !copyAllowed s r (src * 64) len then xferBad s
    else showCopies { s with ebk := { s.ebk with copies := s.ebk.copies ++ [⟨src, s.f F.EBK_X_DST_DST, len, fieldOf v 8 0⟩] } }

/-- EBK_X_GO (R399). -/
def execEbkXGo (r : Requester) (v : Word) (s : State) : Host.Outcome State Fault Refusal :=
  if !s.up then done s
  else match r with
    | .core c => done (byCore s c R.EBK_X_GO (fun s => doXferGo s r v))
    | _ => done (doXferGo s r v)

/-- Send the next strip on its own link; a link that is not in RUN has it discarded (R241, R399, R400). -/
def sendStrip (s : State) : State :=
  match s.toLink with
  | [] => s
  | b :: rest =>
    let (x, id) := (s.ebk.xfer, s.ebk.copyNo)
    let s := { s with toLink := rest, ebk := { s.ebk with stripLast := true, xfer := (x + 1) % 65536, copyNo := id + 1 } }
    let fs := xferFrames (s.f F.EBK_NODE_NODE) 0 (s.f (F.EBK_PARTNER_NODE b.link)) 0 x (some id) b.bytes
    if phase s b.link = lkRun then enqueue { s with ebk := { s.ebk with sending := some (id, fs.length) } } b.link fs
    else noRoute s fs.length

/-- Send the next copy (R399, R400). -/
def sendCopy (s : State) : State :=
  match s.ebk.copies with
  | [] => s
  | c :: rest =>
    let (x, id) := (s.ebk.xfer, s.ebk.copyNo)
    let s := { s with ebk := { s.ebk with copies := rest, stripLast := false, xfer := (x + 1) % 65536, copyNo := id + 1 } }
    let (l, s) := copyBytes (c.len / 64 + 2) s (c.src * 64) c.len
    let fs := xferFrames (s.f F.EBK_NODE_NODE) 1 c.node c.dst x (some id) l
    match routeOf s c.node with
    | some k => enqueue (showCopies { s with ebk := { s.ebk with sending := some (id, fs.length) } }) k fs
    | none => copyDone (noRoute s fs.length)

/-- TRANSFER_SEND (R399): strips and copies alternately, one transfer at a time. -/
def execTransferSend (s : State) : Host.Outcome State Fault Refusal :=
  if !s.up then done s
  else
    let strip := !s.toLink.isEmpty
    let copy := !s.ebk.copies.isEmpty
    if s.ebk.sending.isSome then done s
    else if strip && (!copy || !s.ebk.stripLast) then done (sendStrip s) else if copy then done (sendCopy s) else done s

/-! ### Beacons and axis samples (R395, R402) -/

/-- When a beacon entry last fell due, and how many it has sent. -/
def beaconMark (x : LinkSt) (b : Nat) : Option (Nat × Nat) := (x.bcn.find? (fun e => e.1 == b)).map (·.2)
def setBeacon (x : LinkSt) (b at_ n : Nat) : LinkSt := { x with bcn := (b, at_, n) :: x.bcn.filter (fun e => e.1 != b) }

/-- BEACON_SEND (R395): the period of an entry has passed, and its beacon waits for a slot. -/
def execBeaconSend (k : Fin 8) (b : Fin 8) (s : State) : Host.Outcome State Fault Refusal :=
  let x := s.link k
  let per := s.f (F.EBK_BCN_PERIOD k b) * 1000
  let mark := beaconMark x b
  let due := match mark with
    | some e => decide (e.1 + per ≤ s.now)
    | none => true
  if s.up && phase s k == lkRun && s.on (F.EBK_BCN_EN k b) && per != 0 && due then
    done (addReady (s.setLink k (setBeacon x b s.now ((mark.map (·.2)).getD 0))) k
      { rank := 0, due := match mark with | some e => e.1 + per | none => s.now, order := b, type := 0x2D })
  else done s

/-- The payloads of a beacon's BEACON and VALUE blocks, sampled now (R395). -/
def beaconBlocks (s : State) (k b seq : Nat) : List (BitVec 8) × List (BitVec 8) :=
  let kind := s.f (F.EBK_BCN_KIND k b)
  let ax := if kind = 1 then 15 else s.f (F.EBK_BCN_AXIS k b)
  let v := if kind = 1 then wrapN 64 s.tim.total else (axisWord s ax).toNat
  let sub := if kind = 1 then s.tim.sub else 0
  (bytesLE 8 (kind * 2 ^ 63 + ax * 2 ^ 59 + s.f F.EBK_NODE_NODE * 2 ^ 50 + s.epoch * 2 ^ 42 + sub * 2 ^ 26 + pmState s ax * 2 ^ 20 +
    seq % 4096 * 2 ^ 8 + 0x2D), bytesLE 8 v)

/-! ### Block slots (R401) -/

/-- One ready block goes before another (R401): the kind, then the earlier due, then the lower entry. -/
def ReadyBlock.before (a b : ReadyBlock) : Bool :=
  decide (a.rank < b.rank) || (a.rank == b.rank && (decide (a.due < b.due) || (a.due == b.due && decide (a.order < b.order))))

/-- The ready block that a slot takes. -/
def firstReady : List ReadyBlock → Option ReadyBlock
  | [] => none
  | r :: l => match firstReady l with | some q => if q.before r then some q else some r | none => some r

/-- Put a block on a link; under near-end parallel loopback the balls send IDLE (R403). -/
def showBlock (s : State) (k : Nat) (b : Option Nat × List (BitVec 8)) : State :=
  if loopOf s k = 2 then s else s.emit (.block k b.1 b.2)

/-- Send a control block that a slot has taken: a beacon and a probe are made now (R391, R395). -/
def sendReady (s : State) (k : Nat) (r : ReadyBlock) : State :=
  let x := { s.link k with ready := (s.link k).ready.erase r }
  if r.rank = 0 then
    let n := ((beaconMark x r.order).map (·.2)).getD 0
    let (p, v) := beaconBlocks s k r.order n
    showBlock (s.setLink k { setBeacon x r.order (((beaconMark x r.order).map (·.1)).getD s.now) (n + 1) with value := some v }) k (some 0x2D, p)
  else if r.rank = 2 && r.type = 0x33 then
    let t := stamp16 s 0
    showBlock (s.setLink k { x with stamps := x.stamps ++ [(r.order, t)] }) k (some 0x33, bytesLE 8 (r.order * 2 ^ 56 + t * 2 ^ 24 + 0x33))
  else showBlock (s.setLink k x) k (some r.type, r.content)

/-- One block slot of a link (R401): the VALUE block of a beacon just begun, then the first ready control block, then the next block of the
frame in progress, which may be the START of the next; with nothing ready, IDLE. -/
def linkSlot (s : State) (k : Nat) : State :=
  let x := s.link k
  match x.value, firstReady x.ready, x.wire, x.txq with
  | some v, _, _, _ => showBlock (s.setLink k { x with value := none }) k (none, v)
  | none, some r, _, _ => sendReady s k r
  | none, none, b :: w, _ => showBlock (s.setLink k { x with wire := w }) k b
  | none, none, [], (seq, f) :: q =>
    match frameBlocks f seq with
    | b :: w => showBlock (s.setLink k { x with wire := w, txq := q }) k b
    | [] => s
  | none, none, [], [] => s

/-- Length of a block slot in 1/75 ns: 66 bits at 28.125 or 25.78125 Gbaud (R384, R386). -/
def slotLen (s : State) (k : Nat) : Nat := if s.f (F.LNK_LANE_CFG_RATE (s.f (F.EBK_CFG_LANE k))) = 2 then 176 else 192

/-- A block slot begins in the present TIME cycle (DESIGN CHOICE: the slots of every link fall on one grid from power-on). -/
def slotBegins (s : State) (k : Nat) : Bool := decide (ceilDiv (75 * s.now) (slotLen s k) * slotLen s k < 75 * s.now + 75)

/-- The block slots of a TIME cycle, on every link from GREET to RUN. -/
def linkTick (s : State) : State :=
  (List.range 8).foldl (fun t k => if lkGreet ≤ phase t k && phase t k ≤ lkRun && slotBegins t k then linkSlot t k else t) s

/-- A sample is offered to the three remote axes (R39). -/
def offerAll (s : State) (x : AxisSample) (sub : Nat) : State := [12, 13, 14].foldl (fun t n => offerSample t n x sub) s

/-- BEACON (R395): arrived `sub` sixteenths into the present nanosecond. A KIND 1 beacon gives the offset of the partner's clock. -/
def execBeacon (k : Fin 8) (p : Dword) (value : Dword) (sub : Fin 16) (s : State) : Host.Outcome State Fault Refusal :=
  if !s.up || phase s k != lkRun then done s
  else if blockType p != 0x2D then done (badType s k)
  else if pf p 63 63 = 0 then
    let x : AxisSample := ⟨1, ⟨k.val, by omega⟩, BitVec.toFin (BitVec.ofNat 9 (pf p 58 50)), BitVec.toFin (BitVec.ofNat 4 (pf p 62 59)),
      BitVec.ofNat 32 (pf p 19 8), value, 0⟩
    done (offerAll s x sub)
  else
    let arr : Int := floorDiv s.tim.clk 65536 + (sub.val : Nat) * 4096
    let ofs := (value.toNat : Int) * 65536 + (pf p 41 26 : Nat) + linkLat s k * 4096 - arr
    done ((s.setPair (R.EBK_TB_OFS_LO k) (R.EBK_TB_OFS_HI k) (wrapN 64 ofs)).set1 (F.EBK_FLAGS_TB_NEW k))

/-- AXIS_SAMPLE_SEND (R402). -/
def execAxisSampleSend (t : Fin 16) (s : State) : Host.Outcome State Fault Refusal :=
  let per := s.f (F.EBK_XS_CFG_PERIOD t) * 1000
  let udp := s.f F.EBK_AXS_UDP_PORT
  let last := s.ebk.xs.find? (fun e => e.1 == t.val)
  let due := match last with
    | some e => decide (e.2.1 + per ≤ s.now)
    | none => true
  if s.up && s.on (F.EBK_XS_CFG_EN t) && per != 0 && udp != 0 && due then
    let seq := match last with
      | some e => e.2.2
      | none => 0
    let s := { s with ebk := { s.ebk with xs := (t.val, s.now, (seq + 1) % 2 ^ 32) :: s.ebk.xs.filter (fun e => e.1 != t.val) } }
    let ax := s.f (F.EBK_XS_CFG_AXIS t)
    let body := bytesLE 4 0x5841394C ++ bytesLE 1 1 ++ bytesLE 1 (s.f (F.EBK_XS_CFG_KIND t)) ++ bytesLE 1 ax ++ bytesLE 1 s.epoch ++
      bytesLE 2 (s.f F.EBK_NODE_NODE) ++ bytesLE 1 (pmState s ax) ++ bytesLE 1 0 ++ bytesLE 4 seq ++ bytesLE 8 (axisWord s ax).toNat ++
      bytesLE 8 (wrapN 64 s.tim.total) ++ bytesLE 2 s.tim.sub ++ bytesLE 6 0
    done (sendUdp s (s.f (F.EBK_XS_CFG_PORT t)) (s.rd (R.EBK_XS_DST t)).toNat udp udp body .none).2
  else done s

/-- AXIS_SAMPLE (R402, R405): the next datagram received; a wrong MAGIC, VER or length discards it. -/
def execAxisSample (s : State) : Host.Outcome State Fault Refusal :=
  let isAxis : Rx → Bool := fun r => match r with
    | .axis _ _ => true
    | _ => false
  match takeRx s isAxis with
  | some (.axis m b, t) =>
    if !s.up then done s
    else if b.length != 40 || leAt b 0 4 != 0x5841394C || leAt b 4 1 != 1 then done t
    else
      let x : AxisSample := ⟨2, BitVec.toFin (BitVec.ofNat 4 m), BitVec.toFin (BitVec.ofNat 9 (leAt b 8 2)), BitVec.toFin (BitVec.ofNat 4 (leAt b 6 1)),
        BitVec.ofNat 32 (leAt b 12 4), BitVec.ofNat 64 (leAt b 16 8), BitVec.ofNat 64 (leAt b 24 8)⟩
      done (offerAll t x 0)
  | _ => done s

/-! ### Remote events (R132, R396) -/

/-- The links that a remote output sends on (R396): its route's, or with NBR every link in RUN. -/
def remoteLinks (s : State) (r : Nat) : List Nat :=
  if s.on (F.EBK_REV_NBR r) then (List.range 8).filter (fun k => phase s k == lkRun) else (routeOf s (s.f (F.EBK_REV_DEST r))).toList

/-- A link's event queue of 16 has room (R396). -/
def eventRoom (s : State) (k : Nat) : Bool := decide (((s.link k).ready.filter (fun r => r.rank == 3)).length < 16)

/-- A remote output can send (R130, R396): every link it needs has room. -/
def remoteReady (s : State) (r : Nat) : Bool :=
  s.on (F.EBK_REV_VALID r) && !(remoteLinks s r).isEmpty && (remoteLinks s r).all (eventRoom s)

/-- REMOTE_OUT (R396): an event goes out when its link, or with NBR some link, is in RUN, and they have room. -/
def execRemoteOut (r : Fin 128) (s : State) : Host.Outcome State Fault Refusal :=
  let nbr := s.on (F.EBK_REV_NBR r)
  let dest := s.f (F.EBK_REV_DEST r)
  let ks := remoteLinks s r
  if !s.up || !remoteReady s r then done s
  else
    match takeEvent s (inRemote r) with
    | (some (hop, _), s) =>
      let p := r.val * 2 ^ 57 + hop * 2 ^ 54 + s.f F.EBK_NODE_NODE * 2 ^ 45 + dest * 2 ^ 36 + (if nbr then 2 ^ 35 else 0)
      done (ks.foldl (fun t k => sendBlock t k 0x55 p) s)
    | (none, s) => done s

/-- EVENT (R132, R396, R400, R405): it raises the remote producer here, or is forwarded with its hop unchanged; out of RUN, or with no hop
left, no way out or no room, it is discarded. -/
def execEvent (k : Fin 8) (p : Dword) (s : State) : Host.Outcome State Fault Refusal :=
  if !s.up then done s
  else if phase s k != lkRun then
    done (if 1 ≤ phase s k then s.bump F.EBK_DROP_EVENT else s)
  else if blockType p != 0x55 then done (badType s k)
  else
    let dest := pf p 44 36
    if pf p 35 35 = 1 || dest = s.f F.EBK_NODE_NODE then
      let prod := 0x300 + pf p 63 57
      if pf p 56 54 = 7 then done (s.bump F.EBK_DROP_EVENT) else done (s.raiseEv prod (pf p 56 54 + 1) prod)
    else
      match routeOf s dest with
      | some j => done (if eventRoom s j then sendBlock s j 0x55 p.toNat else s.bump F.EBK_DROP_EVENT)
      | none => done ((noRoute s 1).bump F.EBK_DROP_EVENT)

/-! ### Equalisation and margin (R392 to R394) -/

/-- A write of LNK_TXEQ (R392). -/
def doTxeq (s : State) (n : Nat) (v : Word) : State :=
  let (pre, main, post) := (fieldOf v 21 16, fieldOf v 13 8, fieldOf v 5 0)
  let (a, b, c) := (min 15 pre, max 24 main, min 31 post)
  let b := if 63 < a + b + c then max 24 (63 - a - c) else b
  let c := if 63 < a + b + c then 63 - a - b else c
  let s := s.wr (R.LNK_TXEQ n) (BitVec.ofNat 32 (a * 2 ^ 16 + b * 2 ^ 8 + c))
  if (a, b, c) != (pre, main, post) then s.set1 (F.LNK_L_FLAGS_RANGE n) else s

/-- LNK_TXEQ_WRITE (R392). -/
def execLnkTxeqWrite (n : Fin 24) (v : Word) (s : State) : Host.Outcome State Fault Refusal :=
  if s.up then done (doTxeq s n v) else done s

/-- A lane is in RUN: its link is, or its port is up (R392). -/
def laneUp (s : State) (n : Nat) : Bool :=
  (List.range 8).any (fun k => phase s k == lkRun && s.f (F.EBK_CFG_LANE k) == n) ||
    (List.range 16).any (fun m => s.on (F.ETH_STAT_LINK_UP m) && (portLanes s m).contains n)

/-- MARGIN_CHECK (R394): the eye height measured, every 10 ms. -/
def execMarginCheck (n : Fin 24) (eye : BitVec 16) (s : State) : Host.Outcome State Fault Refusal :=
  let x := s.lane n
  if s.up && laneUp s n && decide (x.marginAt + 10000000 ≤ s.now) then
    let s := (s.sf (F.LNK_MARGIN_CURRENT n) eye.toNat).setLane n { x with marginAt := s.now }
    let th := s.f (F.LNK_ADAPT_CFG_MRG_THRESH n)
    if th != 0 && eye.toNat * 100 < s.f (F.LNK_MARGIN_SNAPSHOT n) * th then
      let s := s.set1 (F.LNK_L_FLAGS_MARGIN_LOW n)
      done (if (s.rd R.LNK_FREEZE_ON_LOW).getLsbD n then (s.wr (R.LNK_RXEQ n) x.snap).set1 (F.LNK_L_FLAGS_FROZEN n) else s)
    else done s
  else done s

/-- A coefficient moves at most one step towards what the receiver aims at (R393). -/
def eqStep (old aim : Int) : Int := if old < aim then old + 1 else if aim < old then old - 1 else old

/-- ADAPT_STEP (R393, R394): `eq` holds the coefficients the receiver aims at. -/
def execAdaptStep (n : Fin 24) (eq : Word) (s : State) : Host.Outcome State Fault Refusal :=
  let x := s.lane n
  let step := s.f (F.LNK_ADAPT_CFG_STEP_INT n) * 1000
  if s.up && laneUp s n && step != 0 && !s.on (F.LNK_L_FLAGS_FROZEN n) && decide (x.stepAt + step ≤ s.now) then
    let dfe (r : RF) (hi lo : Nat) (t : State) : State := t.sf r (wrapN 8 (eqStep (signed 8 (t.f r)) (signed 8 (fieldOf eq hi lo))))
    let s := s.sf (F.LNK_RXEQ_CTLE n) (eqStep (s.f (F.LNK_RXEQ_CTLE n)) (fieldOf eq 31 24)).toNat
    let s := dfe (F.LNK_RXEQ_DFE3 n) 7 0 (dfe (F.LNK_RXEQ_DFE2 n) 15 8 (dfe (F.LNK_RXEQ_DFE1 n) 23 16 s))
    done (s.setLane n { x with stepAt := s.now })
  else done s

/-- A write of LNK_L_CMD.SNAPSHOT (R394): the present eye is the latest measured. -/
def doSnapshot (s : State) (n : Nat) : State :=
  (s.sf (F.LNK_MARGIN_SNAPSHOT n) (s.f (F.LNK_MARGIN_CURRENT n))).setLane n { s.lane n with snap := s.rd (R.LNK_RXEQ n) }

/-- SNAPSHOT (R394). -/
def execSnapshot (n : Fin 24) (s : State) : Host.Outcome State Fault Refusal := if s.up then done (doSnapshot s n) else done s

/-- UNFREEZE (R394). -/
def execUnfreeze (n : Fin 24) (s : State) : Host.Outcome State Fault Refusal := if s.up then done (laneLeft s n) else done s

/-- PRBS_CHECKER_LOCK (R403): bits checked and errors found. -/
def execPrbsCheckerLock (k : Fin 8) (errs : Word) (bits : Dword) (s : State) : Host.Outcome State Fault Refusal :=
  if s.up && phase s k == lkTest && prbsOf s k != 0 then
    done ((s.bumpBy (F.EBK_PRBS_ERR_ERRORS k) errs.toNat).incrPair (R.EBK_PRBS_BITS_LO k) (R.EBK_PRBS_BITS_HI k) bits.toNat)
  else done s

end Sys2Proof.Machine
end

