-- ==== Sys2Proof/Machine/Sched.lean ====
section
/-! DEFINITION. Machine/Sched.lean: the schedule slots (R115 to R124): arming, disarming, firing, the next target of a repeat. -/

namespace Sys2Proof.Machine
open Sys2Proof

/-- An image that arm accepts (R116): ACTION and PARAM in range, no reserved bit, WUNIT valid, WIDTH at most 0x7FFF_FFFF. -/
def imageOk (x : SlotSt) : Bool :=
  let p := x.param
  let param := match x.action with
    | 0 => p == 0
    | 1 => decide (p < 32)
    | 2 => decide (p < 115)
    | 3 => decide (p < 64)
    | 4 => decide (p < 8)
    | _ => false
  param && fieldOf x.ctrl 31 21 == 0 && x.wunit != 3 && decide (x.width ≤ 0x7FFFFFFF) &&
    x.img.getD 6 0 == 0 && x.img.getD 7 0 == 0

/-- The PULSE of a slot that fires, with its rising edge (R116, R119, R120): none for a WIDTH of zero; the output's exposure width with
WUNIT 2. -/
def slotPulse (s : State) (n : Nat) (x : SlotSt) (edge : Nat) : State :=
  let from_ := some (n, x.seq)
  if x.wunit = 2 then pulse s x.param edge .expo from_
  else if x.width = 0 then s
  else if x.wunit = 1 then pulse s x.param edge (.width x.width) from_
  else pulse s x.param edge (.reach x.axis x.endPos x.dir x.stop) from_

/-- The apply point that PARAM names (R116, R123). -/
def applyParam (s : State) (p : Nat) : State :=
  if p < 16 then doAxsApply s p
  else if p < 80 then streamApply s (p - 16)
  else if p < 112 then applyTrig s (p - 80)
  else if p = 112 then colApply s
  else if p = 113 then hedApply s
  else thrApply s

/-- What a firing does beside its record (R116, R123). -/
def slotAct (s : State) (n : Nat) (x : SlotSt) (edge : Nat) : State :=
  match x.action with
  | 1 => slotPulse s n x edge
  | 2 => applyParam s x.param
  | 3 => addPending s (inDma x.param) 0 n
  | 4 => addPending s (inCut x.param) 0 n
  | _ => s

/-- A slot fires at the time its target or its lateness gave it (R119, R122, R123, R124): record, action, producer, and its next
target. -/
def fireSlot (s : State) (n : Nat) : State :=
  let x := s.slot n
  let x := { x with seq := x.seq + 1 }
  let edge := x.due.getD (half s)
  let s := (s.wr (R.SCH_REC_POS n) (shortPos s x.axis)).wr (R.SCH_REC_TIME n) (BitVec.ofInt 32 (stampAt s edge))
  let s := (s.wr (R.SCH_REC_SEQ n) x.seq).wr (R.SCH_REC_FLAGS n) (if x.late then 3 else 1)
  let s := if x.late then (s.set1 F.SCH_STAT_LATE).bump F.SCH_LATE_CNT_LATE else s
  let s := s.setSlot n (slotAdvance x s.now)
  let s := slotAct s n x edge
  if x.action = 0 || x.raise then s.raise n else s

/-- A slot's firing falls in the present TIME cycle or before it, and it has neither fired nor discarded in this cycle (R119, R122). -/
def fireDue (s : State) (x : SlotSt) (by_ : Nat) : Bool :=
  x.armed && !x.test && (match x.due with | some d => decide (d ≤ by_) | none => false) && x.acted != some s.now

/-- SLOT_FIRE (R119, R122): a slot that is armed and whose firing instant plus L has come, or that was found late. -/
def execSlotFire (n : Fin 256) (s : State) : Host.Outcome State Fault Refusal :=
  if s.up && fireDue s (s.slot n) (half s + 1) then done (fireSlot s n) else done s

/-- The next target of a repeat is tested (R122): one already reached is late and fires at once, or is discarded; one that lies 2^31
grains behind disarms the slot; one ahead is watched. -/
def testTarget (s : State) (n : Nat) : State :=
  let x := { s.slot n with test := false }
  let d := slotDiff x (axisPos s x.axis)
  if d < 0 then s.setSlot n (x.look (lookCycle s))
  else if d ≥ 2 ^ 31 then slotRange (s.setSlot n x) n 3
  else if x.dropLate then slotDiscard (s.setSlot n x) n
  else fireSlot (s.setSlot n { x with late := true, due := some (half s) }) n

/-- SLOT_NEXT_TARGET (R122): in a TIME cycle after the firing or discard. -/
def execSlotNextTarget (n : Fin 256) (s : State) : Host.Outcome State Fault Refusal :=
  let x := s.slot n
  if s.up && x.armed && x.test && x.acted != some s.now then done (testTarget s n) else done s

/-- Arm slot `n` for core `c` with an image (R75, R115 to R117): the status of arm, and the state. A firing of the old settings that is
due, or owed as late, happens first. -/
def armSlot (s : State) (c n : Nat) (img : List Word) : Nat × State :=
  let s := if fireDue s (s.slot n) (half s + 2) then fireSlot s n else s
  let x : SlotSt :=
    { img := img, armed := true, target := BitVec.ofNat 64 ((img.getD 0 0).toNat + 2 ^ 32 * (img.getD 1 0).toNat)
      remain := img.getD 4 0, core := c, acted := (s.slot n).acted }
  if !imageOk x then (3, slotRange s n 2)
  else
    let d := slotDiff x (axisPos s x.axis)
    if d ≥ 2 ^ 31 then (3, slotRange s n 1)
    else
      let s := (s.wr (R.SCH_REC_SEQ n) 0).wr (R.SCH_REC_FLAGS n) 0
      if d < 0 then (0, s.setSlot n (x.look (lookCycle s)))
      else if x.dropLate then (2, slotDiscard (s.setSlot n x) n)
      else (1, s.setSlot n (x.findLate s.now))

/-- The state as the next TIME cycle finds the clock, for a look one cycle ahead. -/
def nextCycle (s : State) : State := { s with now := s.now + 1, tim := s.tim.tick (rateNow s) }

/-- A firing of a slot that falls before the end of the next TIME cycle happens (R76): one due or late, or a next target that is found
reached. -/
def fireFirst (s : State) (n : Nat) : State :=
  let x := s.slot n
  if x.armed && x.test then testTarget s n
  else
    let x := x.look (lookCycle (nextCycle s))
    if fireDue s x (half s + 3) then fireSlot (s.setSlot n x) n else s

/-- Disarm a slot (R76): a firing due in the cycle in which it takes effect, the next, happens first; whether the slot was still armed
after it. -/
def disarmSlot (s : State) (n : Nat) : Bool × State :=
  let s := fireFirst s n
  let x := s.slot n
  (x.armed, if x.armed then s.setSlot n x.off else s)

/-- A write of SCH_CMD.DISARM_ALL (R76). -/
def doDisarmAll (s : State) : State := (s.slots.map (·.1)).foldl (fun t n => (disarmSlot t n).2) s

/-- DISARM_ALL (R76). -/
def execDisarmAll (s : State) : Host.Outcome State Fault Refusal := if s.up then done (doDisarmAll s) else done s

/-- Take a slot out of service without a firing: a reset of the schedule, LOCKDOWN, a switch that grants it to no core. -/
def dropSlot (s : State) (n : Nat) : State :=
  let x := s.slot n
  if x.armed then s.setSlot n x.off else s

end Sys2Proof.Machine
end

