-- ==== Sys2Proof/Machine/Mailbox.lean ====
section
/-! DEFINITION. Machine/Mailbox.lean: the four mailboxes (R107 to R113): sending and aborting letters, their dispatch to the root core
or to a server core, replies, and what a host-side reset leaves of them (R24). -/

namespace Sys2Proof.Machine
open Sys2Proof

/-! ### Reply statuses (R111) -/

def stOk : Nat := 0
def stBadLetter : Nat := 1
def stBadParcel : Nat := 2
def stTooBig : Nat := 3
def stRevision : Nat := 4
def stVerify : Nat := 5
def stRollback : Nat := 6
def stConflict : Nat := 7
def stCycle : Nat := 8
def stBusy : Nat := 9
def stNoServer : Nat := 10
def stFetch : Nat := 11
def stAborted : Nat := 12
def stDenied : Nat := 13
def stUnknown : Nat := 14

/-! ### Buffers (R107, R108) -/

/-- The request and the reply buffer of mailbox `m`, as the host sees them. -/
def mbxReq (m : Nat) : Nat := 2 ^ 32 + 0x10000 + 0x4000 * m
def mbxRep (m : Nat) : Nat := mbxReq m + 0x1000
/-- The letter and the reply buffer of mailbox `m`, as its server sees them. -/
def ccxLetter (m : Nat) : Nat := 0x20D08000 + 0x2000 * m
def ccxReply (m : Nat) : Nat := ccxLetter m + 0x1000

/-- The host reaches the mailboxes: not held in reset, not asleep, no host-side reset in progress; LOCKDOWN leaves them (R380). -/
def mbxUp (s : State) : Bool := !s.held && !s.boot.asleep && s.pci.rst.isNone

/-! ### Letters (R109) -/

def Letter.code (l : Letter) : Nat := leAt l.bytes 0 2
def Letter.len (l : Letter) : Nat := leAt l.bytes 8 4
/-- Word `i` of ARG. -/
def Letter.arg (l : Letter) (i : Nat) : Nat := leAt l.bytes (16 + 4 * i) 4
def Letter.argBytes (l : Letter) : List (BitVec 8) := sliceB l.bytes 16 16
def Letter.body (l : Letter) : List (BitVec 8) := sliceB l.bytes 32 (min 4064 l.len)

/-- The field of the header that is wrong (R109, R114). -/
def Letter.badField (l : Letter) : Option Nat :=
  if leAt l.bytes 2 2 != 0 then some 2
  else if decide (4064 < l.len) then some 8
  else if leAt l.bytes 12 4 != 0 then some 12
  else none

/-- The letter of mailbox `m` that the root core has to serve, when its code is `code`. -/
def rootLetter (s : State) (m code : Nat) : Option Letter :=
  let x := s.mbox m
  match x.letter with
  | some l => if x.root && l.code == code then some l else none
  | none => none

/-! ### Replies (R108, R109) -/

/-- Give the host a reply: REPLY_READY and BUSY in the same cycle, and the vector when IRQ_EN is set (R107, R108). -/
def giveReply (s : State) (m : Nat) (bytes : List (BitVec 8)) : State :=
  let s := (s.bwrite (mbxRep m) bytes).set1 (F.MBX_STAT_REPLY_READY m)
  let s := s.clr (F.MBX_STAT_BUSY m)
  if s.on (F.MBX_CFG_IRQ_EN m) then s.signal (s.f (F.MBX_CFG_VECTOR m)) else s

/-- The reply to a letter (R109): CODE and SEQ echoed, STATUS, LENGTH, DETAIL, RESULT and the body. -/
def replyBytes (l : Letter) (status detail : Nat) (result body : List (BitVec 8)) : List (BitVec 8) :=
  sliceB l.bytes 0 2 ++ bytesLE 2 status ++ sliceB l.bytes 4 4 ++ bytesLE 4 body.length ++ bytesLE 4 detail ++ sliceB result 0 16 ++ body

/-- The root core answers the letter of mailbox `m` (R109). -/
def reply (s : State) (m status detail : Nat) (result body : List (BitVec 8)) : State :=
  match (s.mbox m).letter with
  | none => s
  | some l =>
    let s := s.setMbox m { s.mbox m with letter := none, root := false }
    let s := { s with loader := { s.loader with queue := s.loader.queue.filter (fun k => k != m) } }
    giveReply s m (replyBytes l status detail result body)

/-- Answer with a status and a DETAIL alone. -/
def replySt (s : State) (m status detail : Nat) : State := reply s m status detail [] []

/-! ### Dispatch (R110, R114, R380, R413) -/

/-- The control core that serves mailbox `m` (R100, R110): the one whose grant in use holds its bit. -/
def serverOf (s : State) (m : Nat) : Option Nat := (List.range 4).find? (fun c => (s.core c).grant.mbx.testBit m)

/-- The codes the root core serves (R110, R363). -/
def rootCode (c : Nat) : Bool := (decide (1 ≤ c) && decide (c ≤ 6)) || (decide (0x10 ≤ c) && decide (c ≤ 0x18))

/-- A letter reaches its server core (R107, R108). -/
def deliverLetter (s : State) (m : Nat) (l : Letter) : State :=
  let s := (s.bwrite (ccxLetter m) l.bytes).set1 (F.CCX_MBX_STAT_LETTER m)
  s.raise (0x200 + m)

/-- Serve the letter of mailbox `m`: the root core's codes wait for their own command (R110, R363); every other letter is answered
or handed to its server. In LOCKDOWN only IDENTITY is answered; the DETAIL of the other replies is open (R380). -/
def dispatch (s : State) (m : Nat) : State :=
  match (s.mbox m).letter with
  | none => s
  | some l =>
    let toRoot := s.setMbox m { s.mbox m with root := true }
    if s.lockdown then
      if l.code = 0x10 then toRoot else let (v, t) := s.free; replySt t m stDenied v
    else
      match l.badField with
      | some f => replySt s m stBadLetter f
      | none =>
        if 0x100 ≤ l.code then
          match serverOf s m with
          | none => replySt s m stNoServer 0
          | some _ => deliverLetter s m l
        else if rootCode l.code then
          if l.code = 2 || l.code = 3 then
            { toRoot with loader := { toRoot.loader with queue := toRoot.loader.queue ++ [m] } }
          else toRoot
        else replySt s m stBadLetter 0

/-- Letters are served once boot is over, or in LOCKDOWN (R380, R413). -/
def servesLetters (s : State) : Bool := s.boot.done || s.lockdown

/-- A write of MBX_SEND.SEND (R107, R112). -/
def doSend (s : State) (m : Nat) : State :=
  if s.on (F.MBX_STAT_BUSY m) then s.set1 (F.MBX_STAT_OVERRUN m)
  else
    let l : Letter := ⟨s.bread (mbxReq m) 0x1000⟩
    let s := s.set1 (F.MBX_STAT_BUSY m)
    let n := s.loader.sends
    let s := { s with loader := { s.loader with sends := n + 1 } }
    let x := s.mbox m
    if x.letter.isSome then s.setMbox m { x with next := some (l, n) }
    else
      let s := s.setMbox m { x with letter := some l, root := false, order := n }
      if servesLetters s then dispatch s m else s

/-- MBX_SEND (R107, R112). -/
def execMbxSend (m : Fin 4) (s : State) : Host.Outcome State Fault Refusal := if mbxUp s then done (doSend s m) else done s

/-- The letters sent before boot ended are served in the order they arrived (R413). -/
def serveQueued (s : State) : State :=
  let ms := (List.range 4).filter (fun m => (s.mbox m).letter.isSome && !(s.mbox m).root && !s.on (F.CCX_MBX_STAT_LETTER m))
  let ins (l : List Nat) (m : Nat) : List Nat :=
    l.filter (fun k => decide ((s.mbox k).order < (s.mbox m).order)) ++ [m] ++
      l.filter (fun k => decide ((s.mbox m).order < (s.mbox k).order))
  (ms.foldl ins []).foldl dispatch s

/-! ### Abort (R112) -/

/-- A switch in progress ends without a reply of its own. -/
def dropSwitch (s : State) : State := { s with loader := { s.loader with sw := none } }

/-- A LOAD or SWITCH that waits behind a letter whose reply will be discarded is aborted (R24, R112). -/
def abortNext (s : State) (m : Nat) (l : Letter) : State :=
  if l.code = 2 || l.code = 3 then giveReply (s.setMbox m { s.mbox m with next := none }) m (replyBytes l stAborted 0 [] []) else s

/-- A write of MBX_SEND.ABORT (R112): a LOAD until its first bank write, a SWITCH while no core has switched; a server decides for
itself. -/
def doAbortLetter (s : State) (m : Nat) : State :=
  let x := s.mbox m
  match x.letter with
  | none => s
  | some l =>
    if !s.on (F.MBX_STAT_BUSY m) then s
    else match x.next with
    | some (w, _) => abortNext s m w
    | none =>
    if s.on (F.CCX_MBX_STAT_LETTER m) then s.set1 (F.CCX_MBX_STAT_ABORT_REQ m)
    else if l.code = 2 then
      let s := if s.loader.loading = some m then { s with loader := { s.loader with loading := none } } else s
      replySt s m stAborted 0
    else if l.code = 3 then
      match s.loader.sw with
      | some w =>
        if w.mbox ≠ m then replySt s m stAborted 0
        else if w.switched = 0 then replySt (dropSwitch s) m stAborted 0
        else s
      | none => replySt s m stAborted 0
    else s

/-- MBX_ABORT (R112). -/
def execMbxAbort (m : Fin 4) (s : State) : Host.Outcome State Fault Refusal := if mbxUp s then done (doAbortLetter s m) else done s

/-! ### Replies of a server core (R108) -/

/-- The mailbox is free for the letter that waited behind one whose reply is discarded. -/
def nextLetter (s : State) (m : Nat) : State :=
  let x := s.mbox m
  match x.next with
  | some (l, n) =>
    let s := s.setMbox m { x with letter := some l, order := n, next := none, orphan := false, root := false }
    if servesLetters s then dispatch s m else s
  | none => s.setMbox m { x with letter := none, orphan := false, root := false }

/-- A core writes CCX_MBX_POST (R108): only the server; with no letter awaiting its reply, RANGE; a reply too long is cut. -/
def doPost (s : State) (c m : Nat) : State :=
  if !(s.core c).grant.mbx.testBit m then s.lockedWrite (R.CCX_MBX_POST m)
  else if !s.on (F.CCX_MBX_STAT_LETTER m) then s.set1 F.CCX_STAT_RANGE
  else
    let hdr := s.bread (ccxReply m) 32
    let n := leAt hdr 8 4
    let s := if 4064 < n then s.set1 F.CCX_STAT_RANGE else s
    let n := min 4064 n
    let bytes := sliceB hdr 0 8 ++ bytesLE 4 n ++ sliceB hdr 12 20 ++ s.bread (ccxReply m + 32) n
    let s := (s.clr (F.CCX_MBX_STAT_LETTER m)).clr (F.CCX_MBX_STAT_ABORT_REQ m)
    if (s.mbox m).orphan then nextLetter s m else giveReply (nextLetter s m) m bytes

/-- CCX_MBX_POST (R98, R108). -/
def execCcxMbxPost (c : Fin 4) (m : Fin 4) (s : State) : Host.Outcome State Fault Refusal :=
  if s.up then done (byCore s c (R.CCX_MBX_POST m) (fun s => doPost s c m)) else done s

/-! ### Host-side reset (R24) -/

/-- A host-side reset takes the requester of mailbox `m` away: a letter with its server is completed and its reply discarded; a switch
in progress goes on without a reply; every other letter is lost. Buffers and registers go back to reset. -/
def mailboxReset (s : State) (m : Nat) : State :=
  let x := s.mbox m
  let served := s.on (F.CCX_MBX_STAT_LETTER m)
  let sw := s.loader.sw.map (fun w => if w.mbox = m then { w with mbox := 4 } else w)
  let l := s.loader
  let s := { s with loader := { l with sw := sw, queue := l.queue.filter (fun k => k != m)
                                       loading := if l.loading = some m then none else l.loading } }
  let s := s.setMbox m (if served then { letter := x.letter, orphan := true, order := x.order, nonce := x.nonce } else { nonce := x.nonce })
  let s := { s with bufs := mdropRange s.bufs (mbxReq m) (mbxReq m + 0x2000) }
  s.resetRange (R.MBX_SEND m) (R.MBX_CFG m + 4)

end Sys2Proof.Machine
end

