-- ==== Sys2Proof/Machine/Loader.lean ====
section
/-! DEFINITION. Machine/Loader.lean: the loader (R93 to R106): checking a parcel, loading it, switching cores to it, halting and
starting them, and the flash directory. -/

namespace Sys2Proof.Machine
open Sys2Proof

/-! ### Owner slots (R357, R358, R366) -/

/-- The OWNER_HASH of slot `k`, as sensed. -/
def slotHash (s : State) (k : Nat) : List (BitVec 8) :=
  (List.range 12).flatMap (fun i => bytesLE 4 (s.rd (R.FUS_WORD (5 + 12 * k + i))).toNat)
/-- A slot can sign: it is non-empty and unrevoked. -/
def slotUsable (s : State) (k : Nat) : Bool :=
  decide (k < 4) && (slotHash s k).any (fun b => b != 0) && !(s.f F.FUS_LC_REVOKED).testBit k
/-- A 384-bit number of big-endian bytes. -/
def be384 (l : List (BitVec 8)) : BitVec 384 := BitVec.ofNat 384 (ofBE l)
/-- A P-384 signature verifies: public key X then Y, message, r then s (R93, R364). -/
def p384Verify (key msg sig : List (BitVec 8)) : Bool :=
  Config.ecdsaVerify (be384 (key.take 48)) (be384 (key.drop 48)) (Config.sha384 msg) (be384 (sig.take 48)) (be384 (sig.drop 48))

/-! ### Cores that start and stop (R62, R88, R103, R104, R110) -/

/-- A core stops at its instruction boundary: a wait is abandoned, a thresher core's hold ends (R88, R270). -/
def stopCore (s : State) (c : Nat) : State :=
  let k := s.core c
  let s := s.setCore c { k with run := .halted, wait := .none, waited := 0, haltPc := if k.run = .running then k.pc else k.haltPc }
  if isTc c then endHold s c else s

/-- A core starts at pc 0 of the bank in use (R62): every register zero, the special registers at reset; its cluster's clock runs
again (R420). -/
def startCore (s : State) (c : Nat) : State :=
  let k := s.core c
  let s := s.setCore c
    { bank := k.bank, other := k.other, forcedSw := k.forcedSw, activeId := k.activeId, otherId := k.otherId, grant := k.grant
      otherGrant := k.otherGrant, staged := k.staged, haltPc := k.haltPc, fed := k.fed, run := .running }
  if isTc c then s.wr R.PWR_CFG (s.rd R.PWR_CFG &&& ~~~(1#32 <<< clusterOf c)) else s

def allCores : List Nat := List.range 132

/-- Parcels that no bank holds are forgotten, and their staging with them (R101). -/
def pruneParcels (s : State) : State :=
  let held (id : Word) : Bool :=
    allCores.any (fun c => let k := s.core c; k.activeId == id || (k.other != .empty && k.otherId == id))
  { s with loader := { s.loader with parcels := s.loader.parcels.filter (fun p => held p.id) } }

/-! ### The container (R93, R94) -/

/-- The kind of a TARGET: 0 control core, 1 cluster memory, 2 device memory, 3 thresher core; and the last of its kind. -/
def targetKind (t : Nat) : Option (Nat × Nat) :=
  if t < 4 then some (0, 3) else if 0x10 ≤ t && t < 0x20 then some (1, 0x1F) else if t = 0x20 then some (2, 0x20)
  else if 0x80 ≤ t && t < 0x100 then some (3, 0xFF) else none

/-- A parcel as check 7 reads it: grants by core, routes, and what each target takes: target, code or data, address, bytes. -/
abbrev Image := List (Nat × Grant) × List Route × List (Nat × Bool × Nat × List (BitVec 8))

/-- Checks 1 to 3 of R99: status and DETAIL of the first that fails. -/
def headCheck (d : List (BitVec 8)) (offered : Nat) : Option (Nat × Nat) :=
  let n := leAt d 8 4
  let mo := leAt d 0xC 4
  let ml := leAt d 0x10 4
  if 0x4000000 < offered || 0x4000000 < n then some (stTooBig, 8)
  else if offered < 512 || n != offered || d.length != offered then some (stBadParcel, 8)
  else if leAt d 0 4 != 0x4C435250 then some (stBadParcel, 0)
  else if leAt d 4 2 != 1 then some (stBadParcel, 4)
  else if leAt d 6 2 != 0 then some (stBadParcel, 6)
  else if n % 64 != 0 then some (stBadParcel, 8)
  else if mo % 64 != 0 || mo < 512 || n < mo + ml then some (stBadParcel, 0xC)
  else if ml < 16 then some (stBadParcel, 0x10)
  else if 64 < leAt d 0x18 4 then some (stBadParcel, 0x18)
  else if leAt d 0x20 4 = 0 then some (stBadParcel, 0x20)
  else if leAt d 0x28 8 != 0 then some (stBadParcel, 0x28)
  else if leAt d 0x1C 2 != 0x100 then some (stRevision, 0x1C)
  else if leAt d 0x1E 2 != 0x100 then some (stRevision, 0x1E)
  else none

/-- Checks 4 to 6 of R99 (R360, R366). -/
def trustCheck (s : State) (hdr : List (BitVec 8)) : Option (Nat × Nat) :=
  let key := sliceB hdr 0x140 96
  let k := leAt hdr 0x16 2
  if s.lifecycle != 0 && !(slotUsable s k && sha384B key == slotHash s k) then some (stVerify, 0x16)
  else if !p384Verify key (sliceB hdr 0 0x1A0) (sliceB hdr 0x1A0 96) then some (stVerify, 0x1A0)
  else none

/-- Check 6 of R99 alone: SEC_VER against the thermometer; it passes in BLANK (R360, R366). -/
def rollbackFails (s : State) (hdr : List (BitVec 8)) : Bool :=
  s.lifecycle != 0 && decide (leAt hdr 0x18 4 < s.f F.FUS_LC_ROLLBACK)

/-- A range of a grant: first and count, within a limit. -/
def grantRange (d : List (BitVec 8)) (o lim : Nat) : Option (Nat × Nat) :=
  let f := leAt d o 2
  let c := leAt d (o + 2) 2
  if c = 0 || f + c ≤ lim then some (f, c) else none

/-- A grant record at an offset (R95, R96): the core and its grant, when it conforms. -/
def readGrant (d : List (BitVec 8)) (o : Nat) : Option (Nat × Grant) :=
  let t := leAt d o 1
  let rights := leAt d (o + 1) 1
  let kib := leAt d (o + 2) 2
  let br := BitVec.ofNat 32 (leAt d (o + 4) 4)
  let bw := BitVec.ofNat 32 (leAt d (o + 8) 4)
  let mbx := leAt d (o + 0x3C) 1
  let wins := (List.range 4).filterMap (fun j =>
    let sz := leAt d (o + 0x10 + 8 * j) 4
    if sz % 2 ^ 31 = 0 then none else some (⟨leAt d (o + 0xC + 8 * j) 4, sz % 2 ^ 31, sz.testBit 31⟩ : Win))
  match coreOfTarget t, grantRange d (o + 0x2C) 256, grantRange d (o + 0x30) 1024, grantRange d (o + 0x34) 512,
      grantRange d (o + 0x38) 256 with
  | some c, some sl, some pr, some inp, some rg =>
    if 4 ≤ rights || (if isTc c then kib != 0 || mbx != 0 else kib = 0 || 128 < kib || 15 < mbx) ||
        (br ||| bw) >>> 28 != 0 || bw &&& ~~~br != 0 || bw.getLsbD 1 || br.getLsbD 2 || leAt d (o + 0x3D) 3 != 0 then none
    else some (c, ⟨rights.testBit 0, rights.testBit 1, kib, br, bw, wins, sl, pr, inp, rg, mbx⟩)
  | _, _, _, _, _ => none

/-- A route entry at an offset (R97, R126). -/
def readRoute (d : List (BitVec 8)) (o : Nat) : Option Route :=
  let i := leAt d o 2
  let p := leAt d (o + 2) 2
  let g := leAt d (o + 4) 1
  let fl := leAt d (o + 5) 1
  if 0x1F0 ≤ i || (0x169 ≤ i && i ≤ 0x16F) || 1024 ≤ p || 32 ≤ g || 2 ≤ fl || leAt d (o + 6) 2 != 0 then none
  else some ⟨i, p, g, fl.testBit 0⟩

/-- One segment entry (R94): what each target takes, when it conforms. -/
def readSegEntry (d : List (BitVec 8)) (grants : List (Nat × Grant)) (manEnd o : Nat) : Option (List (Nat × Bool × Nat × List (BitVec 8))) :=
  let t := leAt d o 1
  let kind := leAt d (o + 1) 1
  let span := max 1 (leAt d (o + 2) 1)
  let sh := leAt d (o + 3) 1
  let ofs := leAt d (o + 4) 4
  let len := leAt d (o + 8) 4
  let addr := leAt d (o + 12) 4
  match targetKind t with
  | none => none
  | some (k, last) =>
    let size := if sh = 1 then len else span * len
    if 2 ≤ kind || (kind = 0 && (k = 1 || k = 2)) || last < t + span - 1 || 2 ≤ sh || ofs % 64 != 0 || ofs < manEnd ||
        d.length < ofs + size then none
    else
      let code := kind == 0
      let fits (u : Nat) : Bool :=
        if len = 0 then true
        else if k = 2 then grants.any (fun g => g.2.wins.any (fun w =>
          decide (w.base * 4096 ≤ addr * 64) && decide (addr * 64 + len ≤ (w.base + w.size) * 4096)))
        else if k = 1 then decide (0x10000000 ≤ addr) && decide (addr + len ≤ 0x10200000) &&
          (List.range 8).all (fun j => grants.any (fun g => g.1 == 4 + 8 * (u - 0x10) + j))
        else
          match coreOfTarget u with
          | none => false
          | some c =>
            match grants.find? (fun g => g.1 == c) with
            | none => false
            | some (_, g) =>
              if isTc c then decide (addr + len ≤ if code then 0x10000 else 0x40000)
              else if code then decide (addr + len ≤ g.codeKib * 1024)
              else decide (0x40000 ≤ addr) && decide (addr + len ≤ 0x80000)
      let us := (List.range span).map (fun j => t + j)
      if us.all fits then
        some (us.map (fun u => (u, code, addr, sliceB d (if sh = 1 then ofs else ofs + (u - t) * len) len)))
      else none

/-- Read `n` records of a size, or the offset of the first that does not conform. -/
def readAll {α : Type} (f : Nat → Option α) (size : Nat) : Nat → Nat → Except Nat (List α)
  | 0, _ => .ok []
  | n + 1, o =>
    match f o with
    | none => .error o
    | some a => match readAll f size n (o + size) with
      | .error e => .error e
      | .ok l => .ok (a :: l)

/-- The code that a core takes covers the vectors (R86, R94); a parcel with grants only brings no code (R93). -/
def coversVectors (segs : List (Nat × Bool × Nat × List (BitVec 8))) (c : Nat) : Bool :=
  let mine := segs.filter (fun e => e.1 == targetOf c && e.2.1)
  (List.range 0x60).all (fun a => mine.any (fun e => decide (e.2.2.1 ≤ a) && decide (a < e.2.2.1 + e.2.2.2.length)))

/-- Check 7 of R99: the parcel as read, or the DETAIL of the failure. -/
def readParcel (d : List (BitVec 8)) : Except Nat Image :=
  let mo := leAt d 0xC 4
  let ml := leAt d 0x10 4
  let ng := leAt d mo 2
  let nr := leAt d (mo + 2) 2
  let ns := leAt d 0x14 2
  if ng = 0 || 132 < ng || 512 < nr || (sliceB d (mo + 4) 12).any (fun b => b != 0) || ml != 16 + 64 * ng + 8 * nr then .error mo
  else if 14 < ns then .error 0x14
  else
    match readAll (readGrant d) 64 ng (mo + 16) with
    | .error e => .error e
    | .ok gs =>
      if !(gs.map (·.1)).Nodup then .error mo
      else
        match readAll (readRoute d) 8 nr (mo + 16 + 64 * ng) with
        | .error e => .error e
        | .ok rs =>
          match readAll (readSegEntry d gs (mo + ml)) 16 ns 0x30 with
          | .error e => .error e
          | .ok ss =>
            let segs := ss.flatten
            if (sliceB d (0x30 + 16 * ns) (16 * (14 - ns))).any (fun b => b != 0) then .error (0x30 + 16 * ns)
            else if ns = 0 || gs.all (fun g => coversVectors segs g.1) then .ok (gs, rs, segs)
            else .error mo

/-! ### Checks 8 to 10 (R100, R102, R135) -/

/-- The core has never run a program, or the self-test has emptied its banks (R102). -/
def neverRan (s : State) (c : Nat) : Bool := (s.core c).run == .never

/-- A cluster segment is written at load when none of the cluster's cores has run; otherwise it is held. -/
def clusterNow (s : State) (k : Nat) : Bool := (List.range 8).all (fun j => neverRan s (4 + 8 * k + j))

/-- Bytes of a parcel that have to be held in the staging area (R102). -/
def stageNeed (s : State) (segs : List (Nat × Bool × Nat × List (BitVec 8))) : Nat :=
  (segs.map (fun e =>
    if e.2.1 then 0
    else match coreOfTarget e.1 with
      | some c => if neverRan s c then 0 else e.2.2.2.length
      | none => if e.1 < 0x20 && !clusterNow s (e.1 - 0x10) then e.2.2.2.length else 0)).sum

/-- Bytes held in the staging area (R102, R277). -/
def stagingUse (s : State) : Nat := (s.loader.parcels.map (·.stagedBytes)).sum

/-- Check 8 (R102): the DETAIL of the core that cannot take a load. -/
def busyCore (s : State) (gs : List (Nat × Grant)) (segs : List (Nat × Bool × Nat × List (BitVec 8))) : Option Nat :=
  let switching (c : Nat) : Bool := match s.loader.sw with | some w => w.left.contains c | none => false
  match allCores.find? (fun c => gs.any (fun g => g.1 == c) && ((s.core c).other == .ready || switching c)) with
  | some c => some (targetOf c)
  | none => if stageNeed s segs != 0 && 2 ^ 26 < stagingUse s + stageNeed s segs then some 0 else none

/-- The grants that bind another parcel: in use, or waiting to be switched in (R100). -/
def grantsHeld (s : State) (named : List Nat) : List Grant :=
  (allCores.filter (fun c => !named.contains c)).flatMap (fun c =>
    let k := s.core c
    (if k.activeId = 0 then [] else [k.grant]) ++ (if k.other = .ready then [k.otherGrant] else []))

/-- The first resource of a range that a list of ranges holds. -/
def firstMet (r : Nat × Nat) (l : List (Nat × Nat)) : Option Nat :=
  ((List.range r.2).map (fun i => r.1 + i)).find? (fun i => l.any (fun t => decide (t.1 ≤ i) && decide (i < t.1 + t.2)))

/-- The first exclusive resource of a grant that others hold: a slot, a ring, a mailbox. -/
def grantMeets (g : Grant) (l : List Grant) : Option Nat :=
  match firstMet g.slots (l.map (·.slots)) with
  | some i => some i
  | none =>
    match firstMet g.rings (l.map (·.rings)) with
    | some i => some i
    | none => (List.range 4).find? (fun m => g.mbx.testBit m && l.any (fun h => h.mbx.testBit m))

/-- Check 9 (R100), in the order of the cores. -/
def conflictGo : List Grant → List Grant → Option Nat
  | [], _ => none
  | g :: r, l => match grantMeets g l with
    | some i => some i
    | none => conflictGo r (g :: l)

def conflictOf (s : State) (gs : List (Nat × Grant)) : Option Nat :=
  conflictGo (allCores.filterMap (fun c => (gs.find? (fun g => g.1 == c)).map (·.2))) (grantsHeld s (gs.map (·.1)))

/-- The producers that an event taken at an input can raise, as a set of bits (R126, R135). -/
def relayed (grants : List Grant) (i : Nat) : Nat :=
  if i < 0xC0 then
    (grants.filter (fun g => decide (g.inputs.1 ≤ i) && decide (i < g.inputs.1 + g.inputs.2))).foldl
      (fun m g => m ||| (2 ^ g.producers.2 - 1) * 2 ^ g.producers.1) 0
  else if i < 0x100 then 2 ^ (0x1A0 + (i - 0xC0))
  else if 0x160 ≤ i && i < 0x168 then 2 ^ (0x190 + (i - 0x160))
  else if 0x170 ≤ i && i < 0x1F0 then 2 ^ (0x300 + (i - 0x170))
  else 0

/-- Everything that a set of producers can reach, over arcs given by producer and set. -/
def reachSet (arcs : List (Nat × Nat)) : Nat → Nat → Nat
  | 0, m => m
  | k + 1, m =>
    let m' := arcs.foldl (fun x e => if x.testBit e.1 then x ||| e.2 else x) m
    if m' = m then m else reachSet arcs k m'

/-- Check 10 (R135): the INPUT of the first unmarked route on a closed path. -/
def cycleOf (s : State) (gs : List (Nat × Grant)) (rs : List Route) : Option Nat :=
  let named := gs.map (·.1)
  let others := allCores.filter (fun c => !named.contains c && (s.core c).activeId != 0)
  let grants := gs.map (·.2) ++ others.map (fun c => (s.core c).grant)
  let old := (s.loader.parcels.filter (fun p => others.any (fun c => (s.core c).activeId == p.id))).flatMap (·.routes)
  let all := rs ++ old
  let arcs := all.map (fun r => (r.prod, relayed grants r.input))
  (all.find? (fun r => !r.cycleOk && (reachSet arcs (all.length + 1) (relayed grants r.input)).testBit r.prod)).map (·.input)

/-! ### Loading (R99, R102) -/

/-- Where the bytes of a core's segment go: its code bank, or its data memory. -/
def coreWrite (s : State) (c bank : Nat) (code : Bool) (addr : Nat) (l : List (BitVec 8)) : State :=
  placeWrite s (.loc (if code then codeKey c bank addr else localKey c bank addr)) l

/-- One core takes its part of a parcel (R102). -/
def loadCore (s : State) (id : Word) (c : Nat) (g : Grant) (segs : List (Nat × Bool × Nat × List (BitVec 8))) : State :=
  let mine := segs.filter (fun e => e.1 == targetOf c)
  let k := s.core c
  if k.run = .never then
    let s := mine.foldl (fun t e => coreWrite t c 0 e.2.1 e.2.2.1 e.2.2.2) s
    s.setCore c { s.core c with bank := 0, activeId := id, grant := g }
  else
    let b := 1 - k.bank
    let s := (mine.filter (fun e => e.2.1)).foldl (fun t e => coreWrite t c b true e.2.2.1 e.2.2.2) s
    s.setCore c { s.core c with
      other := .ready, otherId := id, otherGrant := g, staged := (mine.filter (fun e => !e.2.1)).map (fun e => (e.2.2.1, e.2.2.2)) }

/-- Place a parcel that has passed every check (R102, R104): banks, segments, and the start of cores that had never run, but for those
of a cluster whose segments are held. -/
def placeParcel (s : State) (hdr : List (BitVec 8)) (im : Image) : State :=
  let (gs, rs, segs) := im
  let id : Word := BitVec.ofNat 32 (leAt hdr 0x20 4)
  let need := stageNeed s segs
  let dev := segs.filter (fun e => e.1 == 0x20)
  let clu := segs.filter (fun e => decide (0x10 ≤ e.1) && decide (e.1 < 0x20))
  let now := clu.filter (fun e => clusterNow s (e.1 - 0x10))
  let later := clu.filter (fun e => !clusterNow s (e.1 - 0x10))
  let s := dev.foldl (fun t e => t.dwrite (e.2.2.1 * 64) e.2.2.2) s
  let s := now.foldl (fun t e => placeWrite t (.clu 0 (clusterKey (e.1 - 0x10) (e.2.2.1 - 0x10000000))) e.2.2.2) s
  let held (c : Nat) : Bool := isTc c && later.any (fun e => e.1 - 0x10 == clusterOf c)
  let fresh := gs.filter (fun g => neverRan s g.1 && g.2.start && !held g.1)
  let s := gs.foldl (fun t g => loadCore t id g.1 g.2 segs) s
  let p : ParcelSt := ⟨id, gs.map (·.1), rs, later.map (fun e => (e.1 - 0x10, e.2.2.1, e.2.2.2)), need, hdr⟩
  let s := { s with loader := { s.loader with parcels := p :: s.loader.parcels.filter (fun q => q.id != id) } }
  pruneParcels (fresh.foldl (fun t g => startCore t g.1) s)

/-- The ten checks of R99, in order, and the load: the reply's STATUS and DETAIL. -/
def loadParcel (s : State) (d : List (BitVec 8)) (offered : Nat) : (Nat × Nat) × State :=
  if s.lifecycle = 3 then ((stDenied, 3), s)
  else
    match headCheck d offered with
    | some e => (e, s)
    | none =>
      let hdr := sliceB d 0 512
      match trustCheck s hdr with
      | some e => (e, s)
      | none =>
        if sha384B (d.drop 512) != sliceB hdr 0x110 48 then ((stVerify, 0x110), s)
        else if rollbackFails s hdr then ((stRollback, 0x18), s)
        else
          match readParcel d with
          | .error o => ((stBadParcel, o), s)
          | .ok (gs, rs, segs) =>
            match busyCore s gs segs with
            | some c => ((stBusy, c), s)
            | none =>
              match conflictOf s gs with
              | some i => ((stConflict, i), s)
              | none =>
                match cycleOf s gs rs with
                | some i => ((stCycle, i), s)
                | none => ((stOk, 0), placeParcel s hdr (gs, rs, segs))

/-- It is the turn of the SWITCH of mailbox `m` (R112): no other load or switch goes on. -/
def loaderTurn (s : State) (m : Nat) : Bool :=
  s.loader.queue.head? == some m && s.loader.loading.isNone && s.loader.sw.isNone

/-- It is the turn of the LOAD of mailbox `m` (R102, R112): a switch that is pending, of which no core has switched, is not waited
for. -/
def loadTurn (s : State) (m : Nat) : Bool :=
  s.loader.loading.isNone &&
    (match s.loader.sw with
    | some w => w.switched == 0 && (s.loader.queue.filter (fun k => k != w.mbox)).head? == some m
    | none => s.loader.queue.head? == some m)

/-- LOAD (R110): the loader begins to fetch the parcel (R111, R114, R362). -/
def execLoad (m : Fin 4) (s : State) : Host.Outcome State Fault Refusal :=
  match rootLetter s m 2 with
  | none => done s
  | some l =>
    if !s.up || !loadTurn s m then done s
    else if s.lifecycle = 3 then done (replySt s m stDenied 3)
    else if 0x4000000 < l.arg 2 then done (replySt s m stTooBig 0x18)
    else if l.arg 0 % 64 != 0 || !canRequest s then done (replySt s m stFetch 0)
    else done { s with loader := { s.loader with loading := some m.val } }

/-- PARCEL_FETCHED (R99, R102, R110): the parcel has been read from the host, or the read failed. -/
def execParcelFetched (bytes : List Byte) (failed : Bool) (s : State) : Host.Outcome State Fault Refusal :=
  match s.loader.loading with
  | none => done s
  | some m =>
    match rootLetter s m 2 with
    | none => done s
    | some l =>
      let s := { s with loader := { s.loader with loading := none } }
      if failed then done (replySt s m stFetch 0)
      else
        let (e, t) := loadParcel s bytes (l.arg 2)
        done (replySt t m e.1 e.2)

/-! ### Switching (R103 to R105, R366) -/

/-- Sheaf N of q has already passed: it, or a later one, is closed or lost (R103). -/
def sheafPassed (s : State) (q : Nat) (n : Int) : Bool :=
  let x := s.seq q
  (match x.floor with | some f => sheafReached s q n f | none => false) || x.lost.any (sheafReached s q n)

/-- A tile of sheaf N or later of q stands in a core's queue (R103). -/
def tileWaits (s : State) (q : Nat) (n : Int) (c : Nat) : Bool :=
  decide (4 ≤ c) && (tileQ s (c - 4)).any (fun t => t.q == q && sheafReached s q n t.no)

/-- The cores that hold a parcel in the bank not in use. -/
def holders (s : State) (id : Word) : List Nat :=
  allCores.filter (fun c => let k := s.core c; k.other != .empty && k.otherId == id)

/-- The parcel is known: READY, in use or RETAINED (R111). -/
def parcelKnown (s : State) (id : Word) : Bool :=
  allCores.any (fun c => let k := s.core c; (k.activeId == id && id != 0) || (k.other != .empty && k.otherId == id))

/-- Begin a switch (R103, R420). -/
def beginSwitch (s : State) (m : Nat) (id : Word) (now : Bool) (q : Nat) (n : Int) (cs : List Nat) : State :=
  let s := cs.foldl (fun t c => if isTc c then t.wr R.PWR_CFG (t.rd R.PWR_CFG &&& ~~~(1#32 <<< clusterOf c)) else t) s
  let s := { s with loader := { s.loader with sw := some ⟨m, id, now, q, n, cs, [], 0, 0⟩ } }
  let cut := match (s.seq q).cutK with | some k => sheafReached s q n k | none => false
  if now || !sqUsable (colCfg s) q || sheafPassed s q n then makeEligible s (fun _ => true)
  else makeEligible s (fun c => if inDispatch s q c then tileWaits s q n c else cut)

/-- SWITCH (R100, R103, R110, R111, R362, R366): the grants to be switched in must be free of those of other cores, which a switch back
to RETAINED banks may find taken. -/
def execSwitch (m : Fin 4) (s : State) : Host.Outcome State Fault Refusal :=
  match rootLetter s m 3 with
  | none => done s
  | some l =>
    if !s.up || !loaderTurn s m then done s
    else
      let id : Word := BitVec.ofNat 32 (l.arg 0)
      let fl := l.arg 1
      if s.lifecycle = 3 then done (replySt s m stDenied 3)
      else if fl &&& 0x701 != fl then done (replySt s m stBadLetter 0x14)
      else if !parcelKnown s id then done (replySt s m stUnknown 0)
      else
        let cs := holders s id
        if cs.isEmpty then done (reply s m stOk 0 [] [])
        else
          let hdr := ((s.loader.parcels.find? (fun p => p.id == id)).map (·.hdr)).getD []
          let k := leAt hdr 0x16 2
          if s.lifecycle != 0 && !(slotUsable s k && sha384B (sliceB hdr 0x140 96) == slotHash s k) then
            done (replySt s m stVerify 0x16)
          else if rollbackFails s hdr then done (replySt s m stRollback 0x18)
          else match conflictOf s (cs.map (fun c => (c, (s.core c).otherGrant))) with
          | some i => done (replySt s m stConflict i)
          | none => done (beginSwitch s m id (fl.testBit 0) (fl / 256 % 8) (signed 64 (l.arg 2 + 2 ^ 32 * l.arg 3)) cs)

/-- The cluster segments of a parcel for a cluster have been written: they are held no longer (R104). -/
def clusterWritten (s : State) (id : Word) (k : Nat) : State :=
  { s with loader := { s.loader with parcels := s.loader.parcels.map (fun p =>
    if p.id == id then { p with cluster := p.cluster.filter (fun e => e.1 != k) } else p) } }

/-- A core's cluster segments are still held: it does not start before they are written (R104). -/
def clusterHeld (s : State) (c : Nat) : Bool :=
  isTc c && s.loader.parcels.any (fun p => p.id == (s.core c).activeId && p.cluster.any (fun e => e.1 == clusterOf c))

/-- One core switches (R104): the banks exchange roles, the data held for it is written, the new grant replaces the old, and it
starts; cluster segments are written once every core of the cluster has stopped, and its cores start after them. -/
def switchCore (s : State) (w : SwitchSt) (c : Nat) (forced : Bool) : State :=
  let s := stopCore s c
  let k := s.core c
  let b := 1 - k.bank
  let s := k.staged.foldl (fun t e => coreWrite t c b false e.1 e.2) s
  let k := s.core c
  let s := s.setCore c { k with
    bank := b, other := .retained, activeId := k.otherId, otherId := k.activeId, grant := k.otherGrant, otherGrant := k.grant
    staged := [], forcedSw := forced, run := .halted }
  let left := w.left.filter (fun x => x != c)
  let w := { w with left := left, switched := w.switched + 1, forced := w.forced + (if forced then 1 else 0)
                    eligible := w.eligible.filter (fun e => e.1 != c) }
  let s := { s with loader := { s.loader with sw := some w } }
  let go (t : State) (x : Nat) : State := if (t.core x).grant.start then startCore t x else t
  let clu := ((s.loader.parcels.find? (fun p => p.id == w.id)).map (·.cluster)).getD []
  let mine := clu.filter (fun e => isTc c && e.1 == clusterOf c)
  if mine.isEmpty then go s c
  else if left.any (fun x => isTc x && clusterOf x == clusterOf c) then s
  else
    let s := mine.foldl (fun t e => placeWrite t (.clu 0 (clusterKey e.1 (e.2.1 - 0x10000000))) e.2.2) s
    let s := clusterWritten s w.id (clusterOf c)
    ((List.range 8).map (fun j => 4 + 8 * clusterOf c + j)).foldl go s

/-- A core is at a moment at which an eligible core switches by itself: not running, or waiting in await, evwait or tfeed (R103). -/
def atSwitchPoint (k : CoreSt) : Bool :=
  k.run != .running || (match k.wait with
    | .await _ _ _ _ => true
    | .evwait _ _ _ => true
    | .tfeed _ _ _ => true
    | _ => false)

/-- CORE_SWITCH (R103, R104). -/
def execCoreSwitch (c : CoreNo) (s : State) : Host.Outcome State Fault Refusal :=
  match s.loader.sw with
  | some w =>
    if s.up && w.left.contains c.val && w.eligible.any (fun e => e.1 == c.val) && atSwitchPoint (s.core c) then
      done (switchCore s w c false)
    else done s
  | none => done s

/-- SWITCH_FORCED (R103): 10 ms after the core became eligible. -/
def execSwitchForced (c : CoreNo) (s : State) : Host.Outcome State Fault Refusal :=
  match s.loader.sw with
  | some w =>
    if s.up && w.left.contains c.val && w.eligible.any (fun e => e.1 == c.val && decide (e.2 + 10000000 ≤ s.now)) then
      done (switchCore s w c true)
    else done s
  | none => done s

/-- Armed slots pass to the core that is granted them; a slot granted to no core is disarmed (R105). -/
def reassignSlots (s : State) : State :=
  (s.slots.map (·.1)).foldl (fun t n =>
    let x := t.slot n
    if !x.armed then t
    else
      match allCores.find? (fun c => let g := (t.core c).grant; decide (g.slots.1 ≤ n) && decide (n < g.slots.1 + g.slots.2)) with
      | some c => t.setSlot n { x with core := c }
      | none => dropSlot t n) s

/-- The end of a switch (R105, R134): slots, selectors, and the staging of the parcel. -/
def endSwitch (s : State) (id : Word) : State :=
  let ps := s.loader.parcels.map (fun p => if p.id == id then { p with cluster := [], stagedBytes := 0 } else p)
  let s := { s with loader := { s.loader with sw := none, parcels := ps } }
  clearUndeclared (reassignSlots (pruneParcels s))

/-- The counts of a switch as RESULT (R110). -/
def swResult (w : SwitchSt) : List (BitVec 8) := bytesLE 4 w.switched ++ bytesLE 4 w.forced

/-- SWITCH_DONE (R103 to R105, R110): the last core has switched. -/
def execSwitchDone (s : State) : Host.Outcome State Fault Refusal :=
  match s.loader.sw with
  | some w =>
    if s.up && w.left.isEmpty then
      let s := endSwitch s w.id
      done (if w.mbox < 4 then reply s w.mbox stOk 0 (swResult w) [] else s)
    else done s
  | none => done s

/-! ### The other letters of R110 -/

/-- QUERY (R110). -/
def execQuery (m : Fin 4) (s : State) : Host.Outcome State Fault Refusal :=
  match rootLetter s m 1 with
  | none => done s
  | some _ =>
    let body := allCores.flatMap (fun c =>
      let k := s.core c
      let other := match k.other with | .empty => 0 | .ready => 1 | .retained => 2
      let run := match k.run with | .halted => 0 | .running => 1 | .fault => 2 | .never => 3
      bytesLE 4 k.activeId.toNat ++ bytesLE 4 (if k.other = .empty then 0 else k.otherId.toNat) ++ bytesLE 1 k.bank ++ bytesLE 1 other ++
        bytesLE 1 run ++ bytesLE 5 0)
    if s.up then done (reply s m stOk 0 [] body) else done s

/-- Answer every SWITCH letter of a parcel that waits its turn, ABORTED. -/
def dropQueued (s : State) (id : Word) : State :=
  (List.range 4).foldl (fun t m =>
    match rootLetter t m 3 with
    | some l =>
      if BitVec.ofNat 32 (l.arg 0) = id && t.loader.queue.contains m &&
          !(match t.loader.sw with | some w => w.mbox == m | none => false) then
        reply t m stAborted 0 [] []
      else t
    | none => t) s

/-- READY banks of a parcel become EMPTY (R110). -/
def dropReady (s : State) (id : Word) : State :=
  let s := (holders s id).foldl (fun t c =>
    let k := t.core c
    if k.other = .ready then t.setCore c { k with other := .empty, otherId := 0, otherGrant := {}, staged := [] } else t) s
  pruneParcels { s with loader := { s.loader with
    parcels := s.loader.parcels.map (fun p => if p.id == id then { p with cluster := [], stagedBytes := 0 } else p) } }

/-- CANCEL (R110). -/
def execCancel (m : Fin 4) (s : State) : Host.Outcome State Fault Refusal :=
  match rootLetter s m 4 with
  | none => done s
  | some l =>
    if !s.up then done s
    else
      let id : Word := BitVec.ofNat 32 (l.arg 0)
      if !parcelKnown s id then done (replySt s m stUnknown 0)
      else
        let s := dropQueued s id
        let s := match s.loader.sw with
          | some w =>
            if w.id = id then
              let t := endSwitch s id
              if w.mbox < 4 then reply t w.mbox stAborted 0 (swResult w) [] else t
            else s
          | none => s
        done (replySt (dropReady s id) m stOk 0)

/-- The cores whose program in use is a parcel. -/
def coresOf (s : State) (id : Word) : List Nat := allCores.filter (fun c => (s.core c).activeId == id && id != 0)

/-- HALT (R110). -/
def execHaltLetter (m : Fin 4) (s : State) : Host.Outcome State Fault Refusal :=
  match rootLetter s m 5 with
  | none => done s
  | some l =>
    if !s.up then done s
    else
      let id : Word := BitVec.ofNat 32 (l.arg 0)
      if !parcelKnown s id then done (replySt s m stUnknown 0)
      else
        let s := (coresOf s id).foldl (fun t c => if (t.core c).run = .running then stopCore t c else t) s
        done (replySt s m stOk 0)

/-- START (R62, R90, R104, R110, R362): it waits while a core of the parcel may not start before cluster segments are written. -/
def execStartLetter (m : Fin 4) (s : State) : Host.Outcome State Fault Refusal :=
  match rootLetter s m 6 with
  | none => done s
  | some l =>
    if !s.up then done s
    else
      let id : Word := BitVec.ofNat 32 (l.arg 0)
      if s.lifecycle = 3 then done (replySt s m stDenied 3)
      else if !parcelKnown s id then done (replySt s m stUnknown 0)
      else
        if (coresOf s id).any (fun c => (s.core c).run != .running && clusterHeld s c) then done s
        else
        let s := (coresOf s id).foldl (fun t c => if (t.core c).run = .running then t else startCore t c) s
        done (replySt s m stOk 0)

/-! ### The flash (R106) -/

/-- A directory is valid in a flash of `size` bytes (R106, R114): its MAGIC, a COUNT of at most 7, each entry inside the flash. -/
def dirOk (size : Nat) (l : List (BitVec 8)) : Bool :=
  leAt l 0 4 == 0x5249444C && decide (leAt l 4 4 ≤ 7) &&
    (List.range (leAt l 4 4)).all (fun e => decide (leAt l (8 + 8 * e) 4 + leAt l (12 + 8 * e) 4 ≤ size))

/-- Load entry `e` of the directory: it loads, or is skipped and logged (R106, R426 code 0x09). -/
def flashEntry (img : FlashImage) (dir : List (BitVec 8)) (s : State) (e : Nat) : State :=
  let n := leAt dir (12 + 8 * e) 4
  let s := s.incr F.XSP_BYTES_BYTES n
  let (r, t) := loadParcel s (img.parcels.getD e []) n
  if r.1 = stOk then t.sf F.XSP_ENTRIES_LOADED (t.f F.XSP_ENTRIES_LOADED ||| 2 ^ e)
  else (t.logFault 0x09 2 0xFFFF 0 r.1).sf F.XSP_ENTRIES_SKIPPED (t.f F.XSP_ENTRIES_SKIPPED ||| 2 ^ e)

/-- FLASH_DIRECTORY (R106, R412 step 6): with FLASH_EN the primary directory or its copy is used; the flash is then left idle. -/
def execFlashDirectory (img : FlashImage) (s : State) : Host.Outcome State Fault Refusal :=
  let b := s.boot
  if s.held || s.lockdown || !b.begun || !b.tests || !b.hbm || !b.dir || b.flash || b.done then done s
  else
    let s := { s with boot := { b with flash := true } }
    let s := if !b.flashEn then s
      else
        let prim := dirOk img.size img.dir
        let dir := if prim then img.dir else img.copy
        let use := prim || dirOk img.size img.copy
        let n := if use then leAt dir 4 4 else 0
        let s := (s.wr R.XSP_BYTES (if prim then 64 else 128)).put F.XSP_STAT_OCTAL img.octal
        let s := (s.sf F.XSP_STAT_DIR (if !use then 0 else if prim then 1 else 2)).sf F.XSP_STAT_COUNT n
        let s := s.wr R.XSP_SCK (BitVec.ofNat 32 img.mhz.toNat)
        (List.range n).foldl (flashEntry img dir) s
    done ((s.set1 F.XSP_STAT_DONE).emit (.pin .xspCsN true))

end Sys2Proof.Machine
end

