-- ==== Sys2Proof/Machine/Trust.lean ====
section
/-! DEFINITION. Machine/Trust.lean: the fuses, the lifecycle, the device directory, LOCKDOWN, authorisations and the root-core letters
0x0010 to 0x0016 (R338, R339, R356 to R366, R379, R380, R474). -/

namespace Sys2Proof.Machine
open Sys2Proof

/-! ### The fuse array (R357 to R359) -/

/-- A fuse word as the array holds it. -/
def fuse (s : State) (w : Nat) : Word := mget (fun _ => 0) s.fuses w
/-- Fuse number `i` (32 × word + bit) is blown. -/
def fuseBit (s : State) (i : Nat) : Bool := (fuse s (i / 32)).getLsbD (i % 32)

/-- FACTORY_CRC as the array's own words give it (R357). -/
def factoryCrc (s : State) : Nat := crc32 (([3, 4] ++ (List.range 32).map (fun i => 53 + i)).flatMap (fun w => bytesLE 4 (fuse s w).toNat))

/-- The lifecycle that a word 0 holds: the highest step of which a copy is blown (R358). -/
def lcOf (w : Word) : Nat :=
  if fieldOf w 5 4 != 0 then 3 else if fieldOf w 3 2 != 0 then 2 else if fieldOf w 1 0 != 0 then 1 else 0
/-- The two copies of some step differ (R358). -/
def lcSplit (w : Word) : Bool := [0, 2, 4].any (fun b => w.getLsbD b != w.getLsbD (b + 1))

/-- ROLLBACK bits blown (R357). -/
def rollbackCount (s : State) : Nat := ((List.range 64).filter (fun i => fuseBit s (32 + i))).length

/-- FUS_LC's fields that follow the array at once (R358): PENDING, ROLLBACK, REVOKED, and DEBUG_OPEN, which DEBUG_LOCK cancels. -/
def showFuses (s : State) : State :=
  let s := (s.sf F.FUS_LC_PENDING (lcOf (fuse s 0))).sf F.FUS_LC_ROLLBACK (rollbackCount s)
  let s := s.sf F.FUS_LC_REVOKED (fieldOf (fuse s 0) 23 20)
  s.put F.FUS_LC_DEBUG_OPEN ((s.rd (R.FUS_WORD 0)).getLsbD 8 && !(fuse s 0).getLsbD 9)

/-- Sense the fuses (R356, R358): every word but SECRET is shown; the lifecycle sensed governs. -/
def senseFuses (s : State) : State :=
  let s := (List.range 86).foldl (fun t w => if 77 ≤ w && w ≤ 84 then t else t.wr (R.FUS_WORD w) (fuse s w)) s
  let s := (s.set1 F.FUS_STAT_SENSED).sf F.FUS_LC_LIFECYCLE (lcOf (fuse s 0))
  let s := (s.put F.FUS_STAT_LC_SPLIT (lcSplit (fuse s 0))).put F.FUS_LC_IDE ((fuse s 0).getLsbD 10)
  showFuses s

/-- The core of blowing (R359): the bits in order, until one still reads 0. -/
def blowBits (s : State) (stuck : Option Nat) : List Nat → Bool × State
  | [] => (true, s)
  | i :: r =>
    if fuseBit s i then blowBits s stuck r
    else if stuck = some i then (false, s)
    else blowBits { s with fuses := mset (fun _ => 0) s.fuses (i / 32) (fuse s (i / 32) ||| (1 <<< (i % 32))) } stuck r

/-- Blow fuses for a letter (R359, R363): the DETAIL of a denial, and the state. `vpp`: VPP_FUSE is in range; `stuck`: the fuse that
still reads 0 after three tries. -/
def blow (s : State) (vpp : Bool) (stuck : Option Nat) (l : List Nat) : Option Nat × State :=
  if l.all (fuseBit s) then (none, s)
  else
    let s := s.put F.FUS_STAT_VPP_OK vpp
    if !vpp then (some 1, s)
    else
      let (ok, s) := blowBits s stuck l
      let s := showFuses s
      if ok then (none, s) else (some 2, s.set1 F.FUS_STAT_PROG_FAIL)

/-! ### The device directory (R338, R339, R474) -/

/-- FEATURES (R338, R357). -/
def features (s : State) : Nat :=
  let w := s.rd (R.FUS_WORD 0)
  (if w.getLsbD 10 then 1 else 0) + (if s.on F.FUS_LC_DEBUG_OPEN then 2 else 0) + 4 * fieldOf w 15 11 + 128 * fieldOf w 18 16

/-- Internal base and span of each block, in the order of R96 (R16). -/
def blockTable : List (Nat × Nat) :=
  [0x20000000, 0x20010000, 0x20020000, 0x20100000, 0x20110000, 0x20120000, 0x20130000, 0x20200000, 0x20210000, 0x20220000,
   0x20230000, 0x20240000, 0x20250000].map (fun b => (b, 0x10000)) ++ [(0x20300000, 0x41000)] ++
  [0x20400000, 0x20500000, 0x20600000, 0x20700000, 0x20710000, 0x20800000, 0x20810000, 0x20900000, 0x20A00000, 0x20A10000,
   0x20B00000, 0x20C00000].map (fun b => (b, 0x10000)) ++ [(0x20D00000, 0x20000), (0x20E00000, 0x10000)]

/-- BAR0_OFS of a block with a host view (R474). -/
def hostView (b : Nat) : Option Nat :=
  match b with
  | 0 => some 0
  | 19 => some 0x100000
  | 20 => some 0x200000
  | 21 => some 0x100
  | 25 => some 0x400000
  | 26 => some 0x10000
  | _ => none

/-- The directory's bytes (R338): with the values as sensed, or with none. -/
def dirBytes (s : State) (known : Bool) : List (BitVec 8) :=
  let order := ascii "LFZ9-72-I"
  bytesLE 4 0x4C394444 ++ bytesLE 2 1 ++ bytesLE 2 28 ++ bytesLE 4 704 ++ bytesLE 2 0x100 ++ bytesLE 2 0x100 ++
    order ++ List.replicate (16 - order.length) (0 : BitVec 8) ++ bytesLE 1 0x10 ++ bytesLE 1 1 ++
    bytesLE 1 (if known then s.lifecycle else 0xFF) ++ [(0 : BitVec 8)] ++ bytesLE 4 (if known then features s else 0) ++
    bytesLE 8 (if known then dsn s else 0) ++ bytesLE 8 0x1200000000 ++ bytesLE 2 256 ++ bytesLE 1 32 ++ bytesLE 1 64 ++
    bytesLE 2 256 ++ bytesLE 1 4 ++ bytesLE 1 64 ++ ([20, 8, 30, 36, 4, 20] : List (BitVec 8)) ++ bytesLE 2 1024 ++ List.replicate 184 (0 : BitVec 8) ++
    (List.range 28).flatMap (fun b =>
      let (base, span) := blockTable.getD b (0, 0)
      bytesLE 1 b ++ ([1, 0] : List (BitVec 8)) ++ bytesLE 1 (if (hostView b).isSome then 1 else 0) ++ bytesLE 4 base ++
        bytesLE 4 ((hostView b).getD 0xFFFFFFFF) ++ bytesLE 4 span)

/-- The root core writes the directory (R339): it then stays until the next RESET_N. -/
def writeDirectory (s : State) (known : Bool) : State :=
  if s.on F.HIF_STAT_DIR_VALID then s
  else { s with pci := { s.pci with dir := dirBytes s known } }.set1 F.HIF_STAT_DIR_VALID

/-! ### LOCKDOWN (R379, R380) -/

/-- A trigger output goes inactive: its pulses end (R188, R380). -/
def quietTrig (s : State) (n : Nat) : State :=
  let x := s.trig n
  let s := s.setTrig n { x with pulses := [], due := [] }
  if s.lon (F.TRG_CFG_ENABLE n) || s.on (F.TRG_STAT_ACTIVE n) then driveTrig s n false else s

/-- Ring keys, chains, sessions and the Link IDE keys are erased; no final cancellation record is made (R380). -/
def zeroise (s : State) : State :=
  let s := (s.rings.map (·.1)).foldl (fun t r =>
    showKey (t.setRing r { t.ring r with key := none, chainId := 0, session := 0, on := false, wanted := false, signing := none }) r) s
  { s with signQ := [], spdm := { s.spdm with sessions := [], reqs := [], ideKeys := [], ideSet := none } }

/-- Enter LOCKDOWN (R339, R379, R380, R426 code 0x15): once in it, only RESET_N or power-on ends it. -/
def enterLockdown (s : State) (cause : Nat) : State :=
  if s.lockdown then s
  else
    let s := (s.set1 F.SEC_STAT_LOCKDOWN).sf F.SEC_STAT_CAUSE cause
    let s := s.logFault 0x15 3 0xFFFF 0 cause
    let s := zeroise s
    let s := allCores.foldl (fun t c => if (t.core c).run = .running then t.setCore c { t.core c with run := .halted, wait := .none, haltPc := (t.core c).pc } else t) s
    let s := (s.slots.map (·.1)).foldl dropSlot s
    let s := (List.range 32).foldl quietTrig s
    let s := (List.range 16).foldl portDown (allLinksOff s)
    let s := (s.clr F.RAS_STAT_WARM_BUSY).clr F.DEV_BIST_STAT_BUSY
    let s := s.sf F.DEV_MODE_REQ 0
    let s := { s with
      ras := { s.ras with warm := none, again := false }
      boot := { s.boot with asleep := false, entered := false, waking := false, bistFrom := none, bistMbox := none } }
    let s := writeDirectory s (s.on F.FUS_STAT_SENSED && cause != 1 && cause != 6)
    let ls := (List.range 4).filter (fun m => (s.mbox m).letter.isSome && s.on (F.MBX_STAT_BUSY m))
    let s := ls.foldl (fun t m =>
      let t := (t.clr (F.CCX_MBX_STAT_LETTER m)).clr (F.CCX_MBX_STAT_ABORT_REQ m)
      if (t.mbox m).next.isSome then nextLetter t m else dispatch (t.setMbox m { t.mbox m with root := false }) m) s
    { s with loader := { s.loader with sw := none, loading := none, queue := [] } }

/-- GLITCH_DETECTED (R379 cause 5, R418, R451). -/
def execGlitchDetected (s : State) : Host.Outcome State Fault Refusal :=
  if s.held then done s
  else if s.boot.asleep then done { s with boot := { s.boot with wakeLock := true, waking := true, wakeFrom := s.now } }
  else done (enterLockdown s 5)

/-- ROOT_CORE_EXCEPTION (R379 cause 4). -/
def execRootCoreException (s : State) : Host.Outcome State Fault Refusal :=
  if s.held || s.boot.asleep then done s else done (enterLockdown s 4)

/-- NOISE_WINDOW (R356, R379 cause 3): a window of 1,024 samples; three that fail in a row enter LOCKDOWN. -/
def execNoiseWindow (ok : Bool) (s : State) : Host.Outcome State Fault Refusal :=
  if !s.up || !s.boot.tests then done s
  else if ok then done { s with ras := { s.ras with noise := 0 } }
  else
    let s := s.bump F.SEC_NOISE_FAILS
    let s := { s with ras := { s.ras with noise := s.ras.noise + 1 } }
    done (if 3 ≤ s.ras.noise then enterLockdown s 3 else s)

/-! ### Identity (R365) -/

/-- The identity's public key: X, then Y, 96 bytes big-endian. -/
def identityPub (s : State) : List (BitVec 8) := bytesBE 96 (Config.ecdsaPublic (identityKey s)).toNat

/-- ENDORSE as the certificate's signature: r, then s. -/
def endorse (s : State) : List (BitVec 8) := (List.range 24).flatMap (fun i => bytesLE 4 (s.rd (R.FUS_WORD (53 + i))).toNat)

/-- The device certificate: the template's to-be-signed part with DSN and Q, and ENDORSE. -/
def deviceCert (s : State) : List (BitVec 8) :=
  Config.certOf (Config.certBody (dsn s) (Config.ecdsaPublic (identityKey s))) (endorse s)

/-- The certificate chain of slot 0 in the SPDM certificate-chain format: length, the root's digest, the certificates. -/
def certChain (s : State) : List (BitVec 8) :=
  let certs := Config.rootCert ++ Config.caCert ++ deviceCert s
  bytesLE 2 (52 + certs.length) ++ [0, 0] ++ sha384B Config.rootCert ++ certs

/-- IDENTITY (R363, R380). -/
def execIdentity (m : Fin 4) (s : State) : Host.Outcome State Fault Refusal :=
  match rootLetter s m 0x10 with
  | none => done s
  | some _ =>
    let body := bytesLE 8 (dsn s) ++ bytesLE 1 s.lifecycle ++ bytesLE 1 (s.f F.FUS_LC_PENDING) ++ [0, 0] ++ bytesLE 4 (features s) ++ certChain s
    if mbxUp s then done (reply s m stOk 0 [] (body.take 4064)) else done s

/-- 256 bits of the DRBG, as bytes. -/
def drbg32 (s : State) : List (BitVec 8) × State :=
  let (a, s) := s.free
  let (b, s) := s.free
  let (c, s) := s.free
  let (d, s) := s.free
  (bytesLE 8 a ++ bytesLE 8 b ++ bytesLE 8 c ++ bytesLE 8 d, s)

/-- CHALLENGE (R363): the nonce is good for 60 s on this mailbox. -/
def execChallenge (m : Fin 4) (s : State) : Host.Outcome State Fault Refusal :=
  match rootLetter s m 0x11 with
  | none => done s
  | some _ =>
    if !s.up then done s
    else
      let (n, s) := drbg32 s
      done (reply (s.setMbox m { s.mbox m with nonce := some (n, s.now) }) m stOk 0 [] n)

/-! ### Authorisations (R364) -/

/-- The fields of an authorisation or ticket match (R364). -/
def authOk (s : State) (b : List (BitVec 8)) (code : Nat) (arg nonce subject : List (BitVec 8)) : Bool :=
  let k := leAt b 6 2
  let key := sliceB b 0x70 96
  decide (304 ≤ b.length) && leAt b 0 4 == 0x48545541 && leAt b 4 2 == code && slotUsable s k && leAt b 8 8 == dsn s &&
    sliceB b 0x10 16 == arg && sliceB b 0x20 32 == nonce && sliceB b 0x40 48 == subject && sha384B key == slotHash s k &&
    p384Verify key (sliceB b 0 0xD0) (sliceB b 0xD0 96)

/-- An authorisation fails (R364): counted; the sixteenth blocks every further one until RESET_N. -/
def authFailed (s : State) : State :=
  let s := s.bump F.SEC_AUTH_FAILS
  if 16 ≤ s.f F.SEC_AUTH_FAILS then s.set1 F.SEC_AUTH_BLOCKED else s

/-- Check the authorisation of a letter (R363, R364): the DETAIL of a denial, and the state, the challenge consumed. `not_`: the slot
that may not sign. -/
def authorise (s : State) (m : Nat) (l : Letter) (not_ : Option Nat) : Option Nat × State :=
  if s.on F.SEC_AUTH_BLOCKED then (some 5, s)
  else
    let x := s.mbox m
    let nonce : Option (List (BitVec 8)) := match x.nonce with
      | some (n, t) => if s.now ≤ t + 60000000000 then some n else none
      | none => none
    let s := s.setMbox m { x with nonce := none }
    let ok := match nonce with
      | some n => authOk s l.body l.code l.argBytes n (List.replicate 48 0) && not_ != some (leAt l.body 6 2)
      | none => false
    if ok then (none, s) else (some 4, authFailed s)

/-! ### Letters that blow fuses (R359 to R363, R366) -/

/-- Some slot is non-empty and unrevoked, one of them left out. -/
def otherSlot (s : State) (k : Nat) : Bool := (List.range 4).any (fun j => j != k && slotUsable s j)

/-- Blow and answer. -/
def blowReply (s : State) (m : Nat) (vpp : Bool) (stuck : Option (Fin 4096)) (l : List Nat) : State :=
  match blow s vpp (stuck.map (·.val)) l with
  | (none, t) => replySt t m stOk 0
  | (some d, t) => replySt t m stDenied d

/-- SET_OWNER_KEY (R357, R359, R360, R363). -/
def execSetOwnerKey (m : Fin 4) (vpp : Bool) (stuck : Option (Fin 4096)) (s : State) : Host.Outcome State Fault Refusal :=
  match rootLetter s m 0x12 with
  | none => done s
  | some l =>
    if !s.up then done s
    else
      let k := l.arg 0
      if 2 ≤ s.lifecycle then done (replySt s m stDenied 3)
      else if 4 ≤ k || l.len != 48 || (List.range 12).any (fun i => fuse s (5 + 12 * k + i) != 0) then done (replySt s m stDenied 6)
      else
        let w0 := 5 + 12 * k
        let bits := (List.range 384).filter (fun i => (leAt l.body (i / 8) 1).testBit (i % 8))
        done (blowReply s m vpp stuck (bits.map (fun i => 32 * w0 + i)))

/-- SET_POLICY (R357, R360, R363). -/
def execSetPolicy (m : Fin 4) (vpp : Bool) (stuck : Option (Fin 4096)) (s : State) : Host.Outcome State Fault Refusal :=
  match rootLetter s m 0x13 with
  | none => done s
  | some l =>
    if !s.up then done s
    else
      let v := l.arg 0
      if v &&& 0xFFB00 != v then done (replySt s m stDenied 6)
      else if s.lifecycle = 3 || (2 ≤ s.lifecycle && v &&& 0x200 != v) then done (replySt s m stDenied 3)
      else done (blowReply s m vpp stuck ((List.range 20).filter (fun i => v.testBit i)))

/-- ADVANCE (R361, R363). -/
def execAdvance (m : Fin 4) (vpp : Bool) (stuck : Option (Fin 4096)) (s : State) : Host.Outcome State Fault Refusal :=
  match rootLetter s m 0x14 with
  | none => done s
  | some l =>
    if !s.up then done s
    else
      let t := l.arg 0
      if 3 < t then done (replySt s m stDenied 6)
      else if t != s.lifecycle + 1 then done (replySt s m stDenied 3)
      else if t = 1 then
        if (List.range 4).any (slotUsable s) then done (blowReply s m vpp stuck [0, 1]) else done (replySt s m stDenied 6)
      else
        match authorise s m l none with
        | (some d, s) => done (replySt s m stDenied d)
        | (none, s) => done (blowReply s m vpp stuck [2 * (t - 1), 2 * (t - 1) + 1])

/-- REVOKE (R360, R363). -/
def execRevoke (m : Fin 4) (vpp : Bool) (stuck : Option (Fin 4096)) (s : State) : Host.Outcome State Fault Refusal :=
  match rootLetter s m 0x15 with
  | none => done s
  | some l =>
    if !s.up then done s
    else
      let k := l.arg 0
      if s.lifecycle = 0 || s.lifecycle = 3 then done (replySt s m stDenied 3)
      else if 4 ≤ k || !otherSlot s k then done (replySt s m stDenied 6)
      else
        match authorise s m l (some k) with
        | (some d, s) => done (replySt s m stDenied d)
        | (none, s) => done (blowReply s m vpp stuck [20 + k])

/-- The least SEC_VER of the parcels in use (R363). -/
def leastSecVer (s : State) : Option Nat :=
  let l := (s.loader.parcels.filter (parcelInUse s)).map (fun p => leAt p.hdr 0x18 4)
  match l with
  | [] => none
  | a :: r => some (r.foldl min a)

/-- COMMIT_VERSION (R360, R363, R366). -/
def execCommitVersion (m : Fin 4) (vpp : Bool) (stuck : Option (Fin 4096)) (s : State) : Host.Outcome State Fault Refusal :=
  match rootLetter s m 0x16 with
  | none => done s
  | some l =>
    if !s.up then done s
    else
      let v := l.arg 0
      if s.lifecycle = 0 || s.lifecycle = 3 then done (replySt s m stDenied 3)
      else if 64 < v || (match leastSecVer s with | some k => decide (k < v) | none => false) then done (replySt s m stDenied 6)
      else if v ≤ rollbackCount s then done (replySt s m stOk 0)
      else done (blowReply s m vpp stuck ((List.range v).map (fun i => 32 + i)))

end Sys2Proof.Machine
end

