-- ==== Sys2Proof/Machine/Spdm.lean ====
section
/-! DEFINITION. Machine/Spdm.lean: the SPDM responder, SPDM_RELAY, the DOE mailbox, ring keys and IDE_KM (R367 to R371, R380 to R382).
The spec names SPDM 1.2, DOE, the secured-message and the IDE_KM formats and does not print them: their byte layouts are those of the
published standards (PRESUMED). -/

namespace Sys2Proof.Machine
open Sys2Proof

/-! ### Connections and sessions -/

def conn (s : State) (t : Nat) : Conn := mget (fun _ => {}) s.spdm.conns t
def setConn (s : State) (t : Nat) (c : Conn) : State :=
  { s with spdm := { s.spdm with conns := mset (fun _ => {}) s.spdm.conns t c } }

/-- An open session of a transport, by its ID. -/
def sessOf (s : State) (t id : Nat) : Option Session := s.spdm.sessions.find? (fun x => x.id == id && x.via == t)
def setSess (s : State) (x : Session) : State :=
  { s with spdm := { s.spdm with sessions := s.spdm.sessions.map (fun y => if y.id = x.id && y.via = x.via then x else y) } }
def dropSess (s : State) (t id : Nat) : State :=
  { s with spdm := { s.spdm with sessions := s.spdm.sessions.filter (fun x => !(x.id == id && x.via == t)) } }

/-- The largest message of a transport (R367). -/
def spdmMax (t : Nat) : Nat := if t = 4 then 65536 else 4064

/-! ### Keys of a session (the SPDM 1.2 key schedule) -/

def hmacB (k m : List (BitVec 8)) : List (BitVec 8) := bytesBE 48 (Config.hmac k m).toNat

/-- HKDF-Expand with SHA-384, for at most one block of 48 bytes (R371). -/
def expand (k info : List (BitVec 8)) (n : Nat) : List (BitVec 8) := (hmacB k (info ++ [1])).take n

/-- BinConcat of the key schedule. -/
def binConcat (n : Nat) (label : String) (ctx : List (BitVec 8)) : List (BitVec 8) :=
  bytesLE 2 n ++ ascii "spdm1.2 " ++ ascii label ++ ctx

def zero48 : List (BitVec 8) := List.replicate 48 0

/-- The handshake secret of a shared secret. -/
def handshakeSecret (dhe : List (BitVec 8)) : List (BitVec 8) := hmacB zero48 dhe
/-- The master secret of a handshake secret. -/
def masterSecret (hs : List (BitVec 8)) : List (BitVec 8) := hmacB (expand hs (binConcat 48 "derived" []) 48) zero48
def finishedKey (x : List (BitVec 8)) : List (BitVec 8) := expand x (binConcat 48 "finished" []) 48

def aeadKey (x : List (BitVec 8)) : BitVec 256 := BitVec.ofNat 256 (ofBE (expand x (binConcat 32 "key" []) 32))
/-- The nonce of message `n`: the IV with the message number over its low bytes. -/
def aeadNonce (x : List (BitVec 8)) (n : Nat) : List (BitVec 8) :=
  List.zipWith (fun a b => a ^^^ b) (expand x (binConcat 12 "iv" []) 12) (bytesLE 12 n)

/-- A secured message of the responder. -/
def sealMsg (x : Session) (m : List (BitVec 8)) : List (BitVec 8) :=
  let pt := bytesLE 2 m.length ++ m
  let hd := bytesLE 4 x.id ++ bytesLE 2 (pt.length + 16)
  let k := aeadKey x.rsp
  let n := aeadNonce x.rsp x.rspSeq
  hd ++ gcmCipher k n pt ++ gcmTagB k n hd pt

/-- The message in a secured message of the requester, when its MAC is right. -/
def openMsg (x : Session) (b : List (BitVec 8)) : Option (List (BitVec 8)) :=
  let n := leAt b 4 2
  if n < 18 || b.length < 6 + n then none
  else
    let k := aeadKey x.req
    let nc := aeadNonce x.req x.reqSeq
    let pt := gcmCipher k nc (sliceB b 6 (n - 16))
    let len := leAt pt 0 2
    if gcmTagB k nc (b.take 6) pt = sliceB b (6 + n - 16) 16 && decide (len + 2 ≤ pt.length) then some (sliceB pt 2 len) else none

/-! ### Signatures (R365, R475) -/

/-- What is signed: the prefix of the version, the purpose and the digest. -/
def signedText (purpose : String) (m : List (BitVec 8)) : List (BitVec 8) :=
  let c := ascii purpose
  ascii "dmtf-spdm-v1.2.*dmtf-spdm-v1.2.*dmtf-spdm-v1.2.*dmtf-spdm-v1.2.*" ++ List.replicate (36 - c.length) (0 : BitVec 8) ++ c ++ sha384B m

/-- An SPDM response's signature by the identity key, with a per-signature value from the DRBG (R475). -/
def spdmSign (s : State) (purpose : String) (m : List (BitVec 8)) : List (BitVec 8) × State :=
  let (a, s) := drbg32 s
  let (b, s) := drbg32 s
  let k : BitVec 384 := BitVec.ofNat 384 (ofLE (a ++ b.take 16))
  (bytesBE 96 (Config.ecdsaSignWith (identityKey s) k (Config.sha384 (signedText purpose m))).toNat, s)

/-! ### DOE (R334) -/

/-- The dwords of a byte list, the last filled with zeros. -/
def dwords (l : List (BitVec 8)) : List Word := (List.range (ceilDiv l.length 4)).map (fun i => BitVec.ofNat 32 (leAt l (4 * i) 4))

/-- The DOE mailbox holds a response object: vector 0 when its interrupt is enabled. -/
def doeReply (s : State) (ty : Nat) (body : List (BitVec 8)) : State :=
  let d := dwords body
  let s := { s with spdm := { s.spdm with doeOut := [BitVec.ofNat 32 (1 + 0x10000 * ty), BitVec.ofNat 32 (2 + d.length)] ++ d } }
  if (s.cfg 0x2A8).getLsbD 1 then (s.orCfg 0x2AC 2).signal 0 else s

/-- A request of DOE is with the responder. -/
def doeBusy (s : State) : Bool := s.spdm.reqs.any (fun r => r.via == 4)

/-! ### Responses -/

/-- Send a message to a transport: into the DOE mailbox, or as the reply of the SPDM_RELAY letter. -/
def sendSpdm (s : State) (t : Nat) (secured : Bool) (b : List (BitVec 8)) : State :=
  if t = 4 then doeReply s (if secured then 2 else 1) b else reply s t stOk 0 [] b

/-- Answer a request: inside its session when it came in one. -/
def answer (s : State) (r : SpdmReq) (b : List (BitVec 8)) : State :=
  match r.sess with
  | none => sendSpdm s r.via false b
  | some id =>
    match sessOf s r.via id with
    | none => sendSpdm s r.via false b
    | some x => sendSpdm (setSess s { x with rspSeq := x.rspSeq + 1 }) r.via true (sealMsg x b)

/-- Version byte of a message to a transport. -/
def verByte (s : State) (t : Nat) : BitVec 8 := if (conn s t).stage = 0 then 0x10 else 0x12

def errInvalid : Nat := 0x01
def errUnexpected : Nat := 0x04
def errUnspecified : Nat := 0x05
def errDecrypt : Nat := 0x06
def errUnsupported : Nat := 0x07
def errSessions : Nat := 0x0A
def errTooLarge : Nat := 0x0D

def answerErr (s : State) (r : SpdmReq) (code data : Nat) : State :=
  answer s r ([verByte s r.via, 0x7F] ++ bytesLE 1 code ++ bytesLE 1 data)

/-- Answer with a response unless it is larger than the transport's largest message (R367). -/
def answerOr (s : State) (r : SpdmReq) (b : List (BitVec 8)) : State :=
  if spdmMax r.via < b.length then answer s r ([0x12, 0x7F] ++ bytesLE 1 errTooLarge ++ [0] ++ bytesLE 4 b.length) else answer s r b

/-! ### Requests -/

/-- The code of a message, and whether a code is one the responder knows. -/
def msgCode (m : List (BitVec 8)) : Nat := leAt m 1 1
def knownCode (m : List (BitVec 8)) : Bool :=
  let c := msgCode m
  let std := leAt m 4 2
  let ven := leAt m 7 2
  let op := leAt m 11 1
  let obj := leAt m 12 1
  [0x84, 0xE1, 0xE3, 0x81, 0x82, 0x83, 0xE0, 0xE4, 0xE5, 0xE8, 0xE9, 0xEC].contains c ||
    (c == 0xFE && std == 3 && ((ven == 0x1F4B && (op == 1 || op == 2 || op == 3)) ||
      (ven == 1 && op == 0 && (obj == 0 || obj == 2 || obj == 4 || obj == 5))))

/-- Requests that LOCKDOWN leaves (R380). -/
def lockdownCode (c : Nat) : Bool := [0x84, 0xE1, 0xE3, 0x81, 0x82, 0xE0, 0x83].contains c

/-- A request reaches the responder (R380, R382): what it cannot take at all is answered at once, the rest waits for its own command. -/
def acceptSpdm (s : State) (r : SpdmReq) : State :=
  if r.msg.length < 4 || spdmMax r.via < r.msg.length then answerErr s r errInvalid 0
  else if !knownCode r.msg then answerErr s r (if s.lockdown then errUnexpected else errUnsupported) (msgCode r.msg)
  else if s.lockdown && !lockdownCode (msgCode r.msg) then answerErr s r errUnexpected 0
  else { s with spdm := { s.spdm with reqs := s.spdm.reqs ++ [r] } }

/-- A secured message reaches the responder: with a bad MAC it is discarded (R382). -/
def acceptSecured (s : State) (t : Nat) (x : Session) (b : List (BitVec 8)) : State :=
  match openMsg x b with
  | none => if t = 4 then s else reply s t stOk 0 [] []
  | some m => acceptSpdm (setSess s { x with reqSeq := x.reqSeq + 1 }) ⟨t, some x.id, m⟩

/-- SPDM_RELAY (R369): the letter's body is a message of the mailbox's transport; one that begins with the ID of an open session is a
secured message. -/
def execSpdmRelay (m : Fin 4) (s : State) : Host.Outcome State Fault Refusal :=
  match rootLetter s m 0x17 with
  | none => done s
  | some l =>
    if !s.up || s.spdm.reqs.any (fun r => r.via == m.val) then done s
    else
      match sessOf s m (leAt l.body 0 4) with
      | some x => done (acceptSecured s m x l.body)
      | none => done (acceptSpdm s ⟨m, none, l.body⟩)

/-- A write of DOE Control's GO (R334, R369): the object written is taken. Discovery is answered at once; an object that is not whole or
of no protocol of the mailbox is in error. -/
def doeGo (s : State) : State :=
  let d := s.spdm.doeIn
  let s := { s with spdm := { s.spdm with doeIn := [] } }
  let h := (d.getD 0 0).toNat
  let n := (d.getD 1 0).toNat % 2 ^ 18
  let body := (d.drop 2).flatMap (fun w => bytesLE 4 w.toNat)
  let err : State := { s with spdm := { s.spdm with doeErr := true } }
  if doeBusy s || d.length < 3 || n != d.length || 16384 < n || h % 65536 != 1 then err
  else
    match h / 65536 % 256 with
    | 0 =>
      let i := leAt body 0 1
      if 2 < i then doeReply s 0 [0xFF, 0xFF, 0, 0] else doeReply s 0 ([1, 0] ++ bytesLE 1 i ++ bytesLE 1 (if i = 2 then 0 else i + 1))
    | 1 => acceptSpdm s ⟨4, none, body⟩
    | 2 =>
      match sessOf s 4 (leAt body 0 4) with
      | some x => acceptSecured s 4 x body
      | none => s
    | _ => err

/-- DOE Abort, and a host-side reset (R24): the object in flight is lost. -/
def doeAbort (s : State) : State :=
  { s with spdm := { s.spdm with doeIn := [], doeOut := [], doeErr := false, reqs := s.spdm.reqs.filter (fun r => r.via != 4) } }

/-- Run a command on the first request of transport `t` that a test names. -/
def spdmRow (s : State) (t : Nat) (p : List (BitVec 8) → Bool) (f : State → SpdmReq → State) : Host.Outcome State Fault Refusal :=
  match s.spdm.reqs.find? (fun r => r.via == t && p r.msg) with
  | none => done s
  | some r =>
    if s.held || s.boot.asleep then done s
    else done (f { s with spdm := { s.spdm with reqs := s.spdm.reqs.erase r } } r)

def isCode (c : Nat) (m : List (BitVec 8)) : Bool := msgCode m == c

/-- The error a request meets before its own rules (R382): its version, its length, and its place: out of any session with the
algorithms settled, or inside a finished session. -/
def reqError (s : State) (r : SpdmReq) (len : Nat) (out ins : Bool) : Option Nat :=
  if leAt r.msg 0 1 != 0x12 || r.msg.length < len then some errInvalid
  else
    match r.sess with
    | none => if out && (conn s r.via).stage == 3 then none else some errUnexpected
    | some id =>
      match sessOf s r.via id with
      | some x => if ins && x.ready then none else some errUnexpected
      | none => some errUnexpected

/-! ### Negotiation (R367, R369) -/

/-- GET_VERSION: ends the transport's sessions. -/
def doGetVersion (s : State) (r : SpdmReq) : State :=
  if r.sess.isSome then answerErr s r errUnexpected 0
  else if leAt r.msg 0 1 != 0x10 then answerErr s r errInvalid 0
  else
    let b : List (BitVec 8) := [0x10, 0x04, 0, 0, 0, 1, 0, 0x12]
    let s := { s with spdm := { s.spdm with sessions := s.spdm.sessions.filter (fun x => x.via != r.via) } }
    answer (setConn s r.via { stage := 1, vca := r.msg.take 4 ++ b }) r b

/-- GET_VERSION (R369). -/
def execGetVersion (t : Fin 5) (s : State) : Host.Outcome State Fault Refusal := spdmRow s t (isCode 0x84) doGetVersion

def doGetCapabilities (s : State) (r : SpdmReq) : State :=
  let c := conn s r.via
  if r.sess.isSome || c.stage != 1 then answerErr s r errUnexpected 0
  else if leAt r.msg 0 1 != 0x12 || r.msg.length < 20 then answerErr s r errInvalid 0
  else
    let b : List (BitVec 8) := [0x12, 0x61, 0, 0, 0, 20, 0, 0] ++ bytesLE 4 0x73F6 ++ bytesLE 4 (spdmMax r.via) ++ bytesLE 4 (spdmMax r.via)
    answer (setConn s r.via { c with stage := 2, vca := c.vca ++ r.msg.take 20 ++ b }) r b

/-- GET_CAPABILITIES (R367). -/
def execGetCapabilities (t : Fin 5) (s : State) : Host.Outcome State Fault Refusal := spdmRow s t (isCode 0xE1) doGetCapabilities

/-- What the responder takes of an algorithm table: DHE secp384r1, AES-256-GCM, requester ECDSA P-384, the SPDM key schedule. -/
def algOf (ty : Nat) : Nat := match ty with | 2 => 0x10 | 3 => 0x2 | 4 => 0x80 | 5 => 0x1 | _ => 0

def doNegotiate (s : State) (r : SpdmReq) : State :=
  let c := conn s r.via
  let m := r.msg
  let k := leAt m 2 1
  let n := leAt m 4 2
  let off := 32 + 4 * (leAt m 28 1 + leAt m 29 1)
  if r.sess.isSome || c.stage != 2 then answerErr s r errUnexpected 0
  else if leAt m 0 1 != 0x12 || m.length < n || n < off + 4 * k || 4 < k || !(leAt m 8 4).testBit 7 || !(leAt m 12 4).testBit 1 then
    answerErr s r errInvalid 0
  else
    let tables := (List.range k).flatMap (fun i =>
      let ty := leAt m (off + 4 * i) 1
      bytesLE 1 ty ++ ([0x20] : List (BitVec 8)) ++ bytesLE 2 (leAt m (off + 4 * i + 2) 2 &&& algOf ty))
    let b : List (BitVec 8) := [0x12, 0x63] ++ bytesLE 1 k ++ [0] ++ bytesLE 2 (36 + 4 * k) ++ bytesLE 1 (leAt m 6 1 &&& 1) ++
      bytesLE 1 (leAt m 7 1 &&& 2) ++ bytesLE 4 4 ++ bytesLE 4 0x80 ++ bytesLE 4 2 ++ List.replicate 16 (0 : BitVec 8) ++ tables
    answer (setConn s r.via { c with stage := 3, vca := c.vca ++ m.take n ++ b }) r b

/-- NEGOTIATE_ALGORITHMS (R367). -/
def execNegotiateAlgorithms (t : Fin 5) (s : State) : Host.Outcome State Fault Refusal := spdmRow s t (isCode 0xE3) doNegotiate

/-! ### Certificates (R365) -/

/-- Keep what counts for CHALLENGE: only outside a session. -/
def noteB (s : State) (r : SpdmReq) (b : List (BitVec 8)) : State :=
  let c := conn s r.via
  if r.sess.isSome then s else setConn s r.via { c with msgB := c.msgB ++ b, msgL := [] }

def doGetDigests (s : State) (r : SpdmReq) : State :=
  match reqError s r 4 true true with
  | some e => answerErr s r e 0
  | none =>
    let b : List (BitVec 8) := [0x12, 0x01, 0, 1] ++ sha384B (certChain s)
    answerOr (noteB s r (r.msg.take 4 ++ b)) r b

/-- GET_DIGESTS (R367). -/
def execGetDigests (t : Fin 5) (s : State) : Host.Outcome State Fault Refusal := spdmRow s t (isCode 0x81) doGetDigests

def doGetCertificate (s : State) (r : SpdmReq) : State :=
  match reqError s r 8 true true with
  | some e => answerErr s r e 0
  | none =>
    let off := leAt r.msg 4 2
    let c := certChain s
    if leAt r.msg 2 1 % 16 != 0 || c.length ≤ off then answerErr s r errInvalid 0
    else
      let n := min (min (leAt r.msg 6 2) (c.length - off)) (spdmMax r.via - 64)
      let b : List (BitVec 8) := [0x12, 0x02, 0, 0] ++ bytesLE 2 n ++ bytesLE 2 (c.length - off - n) ++ sliceB c off n
      answerOr (noteB s r (r.msg.take 8 ++ b)) r b

/-- GET_CERTIFICATE (R365, R367). -/
def execGetCertificate (t : Fin 5) (s : State) : Host.Outcome State Fault Refusal := spdmRow s t (isCode 0x82) doGetCertificate

/-! ### Measurements (R368) -/

/-- The headers of the distinct parcels in use, READY or RETAINED, in ascending PARCEL_ID. -/
def parcelHeaders (s : State) : List (List (BitVec 8)) :=
  let ins (l : List ParcelSt) (p : ParcelSt) : List ParcelSt :=
    if l.any (fun q => q.id == p.id) then l
    else l.filter (fun q => decide (q.id.toNat < p.id.toNat)) ++ [p] ++ l.filter (fun q => decide (p.id.toNat < q.id.toNat))
  (s.loader.parcels.foldl ins []).map (fun p => p.hdr)

/-- The measurement blocks present, by index: DMTF type and value. -/
def measurements (s : State) : List (Nat × Nat × List (BitVec 8)) :=
  let fuses := ([0, 1, 2] ++ (List.range 48).map (fun i => i + 5)).flatMap (fun w => bytesLE 4 (s.rd (R.FUS_WORD w)).toNat)
  let hs := parcelHeaders s
  let raw := bytesLE 1 s.lifecycle ++ bytesLE 1 (s.f F.FUS_LC_PENDING) ++ bytesLE 1 (s.f F.DEV_MODE_MODE) ++ bytesLE 1 (s.f F.SEC_STAT_CAUSE) ++
    bytesLE 1 (s.f F.FUS_LC_ROLLBACK) ++ bytesLE 1 (s.f F.FUS_LC_REVOKED) ++ bytesLE 2 hs.length
  [(1, 0, bytesBE 48 Config.romDigest.toNat), (2, 2, sha384B fuses), (3, 0x85, raw), (15, 1, sha384B (hs.flatMap sha384B))] ++
    (hs.take 224).zipIdx.map (fun e => (16 + e.2, 1, sha384B e.1))

/-- A measurement block. -/
def measBlock (e : Nat × Nat × List (BitVec 8)) : List (BitVec 8) :=
  bytesLE 1 e.1 ++ ([1] : List (BitVec 8)) ++ bytesLE 2 (e.2.2.length + 3) ++ bytesLE 1 e.2.1 ++ bytesLE 2 e.2.2.length ++ e.2.2

/-- The summary hash of CHALLENGE_AUTH and KEY_EXCHANGE_RSP: none, or over every block. -/
def measSummary (s : State) (ty : Nat) : List (BitVec 8) := if ty = 0 then [] else sha384B ((measurements s).flatMap measBlock)

/-- Signed responses are not given in LOCKDOWN of CAUSE 1 or 2 (R380). -/
def noSigning (s : State) : Bool := s.lockdown && decide (s.f F.SEC_STAT_CAUSE ≤ 2)

def doGetMeasurements (s : State) (r : SpdmReq) : State :=
  let sig := (leAt r.msg 2 1).testBit 0
  let len := if sig then 37 else 4
  match reqError s r len true true with
  | some e => answerErr s r e 0
  | none =>
    let op := leAt r.msg 3 1
    let all := measurements s
    let some' := if op = 0 then [] else if op = 0xFF then all else all.filter (fun e => e.1 == op)
    if sig && noSigning s then answerErr s r errUnspecified 0
    else if (sig && leAt r.msg 36 1 % 16 != 0) || (op != 0 && some'.isEmpty) then answerErr s r errInvalid 0
    else
      let rec' := some'.flatMap measBlock
      let (nonce, s) := drbg32 s
      let b := ([0x12, 0x60] : List (BitVec 8)) ++ bytesLE 1 (if op = 0 then all.length else 0) ++ [0] ++ bytesLE 1 some'.length ++
        bytesLE 3 rec'.length ++ rec' ++ nonce ++ [0, 0]
      if spdmMax r.via < b.length + (if sig then 96 else 0) then answerOr s r (b ++ List.replicate 96 0)
      else
        let c := conn s r.via
        let l := c.msgL ++ r.msg.take len ++ b
        if sig then
          let (g, s) := spdmSign s "responder-measurements signing" (c.vca ++ l)
          answer (setConn s r.via { c with msgL := [] }) r (b ++ g)
        else answer (setConn s r.via { c with msgL := l }) r b

/-- GET_MEASUREMENTS (R368). -/
def execGetMeasurements (t : Fin 5) (s : State) : Host.Outcome State Fault Refusal := spdmRow s t (isCode 0xE0) doGetMeasurements

def doSpdmChallenge (s : State) (r : SpdmReq) : State :=
  match reqError s r 36 true false with
  | some e => answerErr s r e 0
  | none =>
    if noSigning s then answerErr s r errUnspecified 0
    else if leAt r.msg 2 1 % 16 != 0 then answerErr s r errInvalid 0
    else
      let c := conn s r.via
      let (nonce, s) := drbg32 s
      let b := ([0x12, 0x03, 0, 1] : List (BitVec 8)) ++ sha384B (certChain s) ++ nonce ++ measSummary s (leAt r.msg 3 1) ++ [0, 0]
      let (g, s) := spdmSign s "responder-challenge_auth signing" (c.vca ++ c.msgB ++ r.msg.take 36 ++ b)
      answerOr (setConn s r.via { c with msgB := [], msgL := [] }) r (b ++ g)

/-- SPDM_CHALLENGE (R367). -/
def execSpdmChallenge (t : Fin 5) (s : State) : Host.Outcome State Fault Refusal := spdmRow s t (isCode 0x83) doSpdmChallenge

/-! ### Sessions (R367, R369) -/

/-- The lowest responder half of a session ID that is not in use. -/
def freeSession (s : State) : Nat :=
  ((List.range 9).find? (fun k => !s.spdm.sessions.any (fun x => x.id / 65536 == k + 1))).getD 0 + 1

def doKeyExchange (s : State) (r : SpdmReq) : State :=
  match reqError s r 138 true false with
  | some e => answerErr s r e 0
  | none =>
    let m := r.msg
    let on := leAt m 136 2
    if leAt m 3 1 != 0 || m.length < 138 + on then answerErr s r errInvalid 0
    else if 8 ≤ s.spdm.sessions.length then answerErr s r errSessions 0
    else
      let c := conn s r.via
      let rid := freeSession s
      let (rnd, s) := drbg32 s
      let (a, s) := drbg32 s
      let (b', s) := drbg32 s
      let d : BitVec 384 := BitVec.ofNat 384 (ofLE (a ++ b'.take 16))
      let shared := bytesBE 48 (Config.ecdh d (BitVec.ofNat 768 (beAt m 40 96))).toNat
      let wantsAuth := (leAt c.vca 20 4).testBit 8
      let opq : List (BitVec 8) := [1, 0, 0, 0, 0, 0, 4, 0, 1, 0, 0, 0x11]
      let b := ([0x12, 0x64, 0, 0] : List (BitVec 8)) ++ bytesLE 2 rid ++ bytesLE 1 (if wantsAuth then 1 else 0) ++ [0] ++ rnd ++
        bytesBE 96 (Config.ecdsaPublic d).toNat ++ measSummary s (leAt m 2 1) ++ bytesLE 2 opq.length ++ opq
      let th0 := c.vca ++ sha384B (certChain s) ++ m.take (138 + on) ++ b
      let (g, s) := spdmSign s "responder-key_exchange_rsp signing" th0
      let th1 := th0 ++ g
      let hs := handshakeSecret shared
      let rq := expand hs (binConcat 48 "req hs data" (sha384B th1)) 48
      let rs := expand hs (binConcat 48 "rsp hs data" (sha384B th1)) 48
      let v := hmacB (finishedKey rs) (sha384B th1)
      let x : Session := { id := leAt m 4 2 + 65536 * rid, via := r.via, mutAuth := wantsAuth, th := th1 ++ v, hs := hs, req := rq, rsp := rs }
      answerOr { s with spdm := { s.spdm with sessions := s.spdm.sessions ++ [x] } } r (b ++ g ++ v)

/-- KEY_EXCHANGE (R367): a session opens, up to eight. -/
def execKeyExchange (t : Fin 5) (s : State) : Host.Outcome State Fault Refusal := spdmRow s t (isCode 0xE4) doKeyExchange

/-- FINISH. `leaf`: the requester's leaf public key, X then Y, and then the certificate chain it was read from. A requester that has
MUT_AUTH signs; a wrong signature or verify data ends the session. -/
def doFinish (leaf : List (BitVec 8)) (s : State) (r : SpdmReq) : State :=
  match r.sess.bind (sessOf s r.via) with
  | none => answerErr s r errUnexpected 0
  | some x =>
    let m := r.msg
    let sig := (leAt m 2 1).testBit 0
    let n := if sig then 148 else 52
    if x.ready then answerErr s r errUnexpected 0
    else if leAt m 0 1 != 0x12 || m.length < n || sig != x.mutAuth then answerErr s r errInvalid 0
    else
      let th := x.th ++ (if sig then sha384B (leaf.drop 96) else [])
      let sigOk := !sig || p384Verify (leaf.take 96) (signedText "requester-finish signing" (th ++ m.take 4)) (sliceB m 4 96)
      let th := th ++ m.take (n - 48)
      if !sigOk || hmacB (finishedKey x.req) (sha384B th) != sliceB m (n - 48) 48 then
        dropSess (answerErr s r errDecrypt 0) r.via x.id
      else
        let b : List (BitVec 8) := [0x12, 0x65, 0, 0]
        let th2 := sha384B (th ++ sliceB m (n - 48) 48 ++ b)
        let s := answer s r b
        let ms := masterSecret x.hs
        setSess s { x with ready := true, leaf := if sig then sha384B (leaf.take 96) else [], th := [], hs := []
                           req := expand ms (binConcat 48 "req app data" th2) 48, rsp := expand ms (binConcat 48 "rsp app data" th2) 48
                           reqSeq := 0, rspSeq := 0, ems := expand ms (binConcat 48 "exp master" th2) 48 }

/-- FINISH (R367). -/
def execFinish (t : Fin 5) (leaf : List Byte) (s : State) : Host.Outcome State Fault Refusal := spdmRow s t (isCode 0xE5) (doFinish leaf)

def doHeartbeatSpdm (s : State) (r : SpdmReq) : State :=
  match reqError s r 4 false true with
  | some e => answerErr s r e 0
  | none => answer s r [0x12, 0x68, 0, 0]

/-- HEARTBEAT_SPDM (R367). -/
def execHeartbeatSpdm (t : Fin 5) (s : State) : Host.Outcome State Fault Refusal := spdmRow s t (isCode 0xE8) doHeartbeatSpdm

def nextSecret (x : List (BitVec 8)) : List (BitVec 8) := expand x (binConcat 48 "traffic upd" []) 48

def doKeyUpdate (s : State) (r : SpdmReq) : State :=
  match reqError s r 4 false true, r.sess.bind (sessOf s r.via) with
  | some e, _ => answerErr s r e 0
  | none, none => answerErr s r errUnexpected 0
  | none, some x =>
    let op := leAt r.msg 2 1
    let b := ([0x12, 0x69] : List (BitVec 8)) ++ sliceB r.msg 2 2
    if op = 1 then answer (setSess s { x with req := nextSecret x.req, reqSeq := 0 }) r b
    else if op = 2 then
      answer (setSess s { x with req := nextSecret x.req, reqSeq := 0, rsp := nextSecret x.rsp, rspSeq := 0 }) r b
    else if op = 3 then answer s r b
    else answerErr s r errInvalid 0

/-- KEY_UPDATE (R367). -/
def execKeyUpdate (t : Fin 5) (s : State) : Host.Outcome State Fault Refusal := spdmRow s t (isCode 0xE9) doKeyUpdate

def doEndSession (s : State) (r : SpdmReq) : State :=
  match reqError s r 4 false true with
  | some e => answerErr s r e 0
  | none => dropSess (answer s r [0x12, 0x6C, 0, 0]) r.via (r.sess.getD 0)

/-- END_SESSION (R369): a bound ring runs on (R372). -/
def execEndSession (t : Fin 5) (s : State) : Host.Outcome State Fault Refusal := spdmRow s t (isCode 0xEC) doEndSession

/-! ### Ring keys (R370, R371) -/

/-- A vendor-defined request of a vendor and an operation. -/
def isVendor (vendor op : Nat) (m : List (BitVec 8)) : Bool :=
  isCode 0xFE m && leAt m 4 2 == 3 && leAt m 7 2 == vendor && leAt m 11 1 == op

/-- A vendor-defined response. -/
def vendorRsp (vendor : Nat) (b : List (BitVec 8)) : List (BitVec 8) :=
  ([0x12, 0x7E, 0, 0, 3, 0, 2] : List (BitVec 8)) ++ bytesLE 2 vendor ++ bytesLE 2 b.length ++ b

/-- The answer of a ring-key operation (R370). -/
def ringAnswer (s : State) (r : SpdmReq) (op ring st cid : Nat) : State :=
  answerOr s r (vendorRsp 0x1F4B (bytesLE 1 op ++ bytesLE 1 ring ++ bytesLE 1 st ++ [0] ++ bytesLE 8 cid ++ bytesLE 8 (dsn s)))

/-- The answer of an operation that fails: its CHAIN_ID is not stated. -/
def ringFail (s : State) (r : SpdmReq) (op ring st : Nat) : State := let (v, s) := s.free; ringAnswer s r op ring st v

/-- The payload's length fits what the message holds. -/
def vendorOk (m : List (BitVec 8)) (n : Nat) : Bool := leAt m 6 1 == 2 && decide (n ≤ leAt m 9 2) && decide (11 + leAt m 9 2 ≤ m.length)

/-- A ticket names this ring, this mode and the requester's key (R364, R370). -/
def ticketOk (s : State) (x : Session) (b : List (BitVec 8)) (ring mode : Nat) : Bool :=
  authOk s b 0x8001 (bytesLE 1 ring ++ bytesLE 1 mode ++ List.replicate 14 0) (List.replicate 32 0) x.leaf

def doBind (s : State) (r : SpdmReq) : State :=
  let m := r.msg
  let ring := leAt m 12 1
  let mode := leAt m 13 1
  match reqError s r 15 true true with
  | some e => answerErr s r e 0
  | none =>
    if !vendorOk m 4 then answerErr s r errInvalid 0
    else
      match r.sess.bind (sessOf s r.via) with
      | none => ringFail s r 1 ring 5
      | some x =>
        if s.lifecycle = 3 then ringFail s r 1 ring 1
        else if ringState s ring != rDisabled || (s.ring ring).key.isSome then ringFail s r 1 ring 2
        else if mode != s.f (F.DLV_R_POLICY_MODE ring) || !(mode == 1 || mode == 2) then ringFail s r 1 ring 3
        else
          let sealed := s.lifecycle != 0
          let ticket := sliceB m 15 (leAt m 9 2 - 4)
          if sealed && !x.mutAuth then ringFail s r 1 ring 6
          else if sealed && s.on F.SEC_AUTH_BLOCKED then ringFail s r 1 ring 4
          else if sealed && !ticketOk s x ticket ring mode then ringFail (authFailed s) r 1 ring 4
          else
            let (cid, s) := s.free
            let info := ascii "Odnel L9 ring" ++ bytesLE 8 (dsn s) ++ bytesLE 1 ring ++ bytesLE 8 cid ++ bytesLE 1 mode
            let k : BitVec 256 := BitVec.ofNat 256 (ofBE (expand x.ems info 32))
            let s := s.setRing ring { s.ring ring with key := some k, chainId := cid, session := x.id + 2 ^ 32 * (x.via + 1) }
            ringAnswer (tryStart (showKey s ring) ring) r 1 ring 0 cid

/-- BIND_RING (R370, R371, R372). -/
def execBindRing (t : Fin 5) (s : State) : Host.Outcome State Fault Refusal := spdmRow s t (isVendor 0x1F4B 1) doBind

def doRingStatus (s : State) (r : SpdmReq) : State :=
  let m := r.msg
  let ring := leAt m 12 1
  match reqError s r 15 true true with
  | some e => answerErr s r e 0
  | none => if !vendorOk m 4 then answerErr s r errInvalid 0 else ringAnswer s r 2 ring 0 (s.ring ring).chainId

/-- RING_STATUS (R370). -/
def execRingStatus (t : Fin 5) (s : State) : Host.Outcome State Fault Refusal := spdmRow s t (isVendor 0x1F4B 2) doRingStatus

def doUnbind (s : State) (r : SpdmReq) : State :=
  let m := r.msg
  let ring := leAt m 12 1
  match reqError s r 15 true true with
  | some e => answerErr s r e 0
  | none =>
    if !vendorOk m 4 then answerErr s r errInvalid 0
    else
      match r.sess.bind (sessOf s r.via) with
      | none => ringFail s r 3 ring 5
      | some x =>
        let y := s.ring ring
        if y.key.isNone || y.session != x.id + 2 ^ 32 * (x.via + 1) then ringFail s r 3 ring 1
        else if ringState s ring != rDisabled then ringFail s r 3 ring 2
        else ringAnswer (showKey (s.setRing ring { y with key := none, chainId := 0, session := 0 }) ring) r 3 ring 0 0

/-- UNBIND (R370). -/
def execUnbind (t : Fin 5) (s : State) : Host.Outcome State Fault Refusal := spdmRow s t (isVendor 0x1F4B 3) doUnbind

/-! ### Link IDE (R381) -/

/-- The stream becomes Insecure and its keys are discarded (R381). -/
def ideInsecure (s : State) : State :=
  let s := { s with spdm := { s.spdm with ideKeys := [], ideSet := none } }
  s.setCfg 0x2D0 (s.cfg 0x2D0 &&& ~~~ 0xF)

/-- An IDE_KM request is in its place: in a secured session on DOE, with IDE_EN blown (R381). -/
def ideRow (s : State) (t obj : Nat) (f : State → SpdmReq → State) : Host.Outcome State Fault Refusal :=
  spdmRow s t (fun m => isVendor 1 0 m && leAt m 12 1 == obj) (fun s r =>
    match reqError s r 15 true true with
    | some e => answerErr s r e 0
    | none =>
      if !vendorOk r.msg 4 then answerErr s r errInvalid 0
      else if r.via != 4 || r.sess.isNone || !s.on F.FUS_LC_IDE then answerErr s r errUnexpected 0
      else f s r)

/-- IDE_KM_QUERY (R381): the port's IDE registers. -/
def execIdeKmQuery (t : Fin 5) (s : State) : Host.Outcome State Fault Refusal :=
  ideRow s t 0 (fun s r =>
    let regs := [0x2C4, 0x2C8, 0x2CC, 0x2D0].flatMap (fun o => bytesLE 4 (s.cfg o).toNat)
    answerOr s r (vendorRsp 1 (([0, 1, 0] : List (BitVec 8)) ++ sliceB r.msg 14 1 ++ [0, 0, 0, 0] ++ regs)))

/-- The acknowledgement of a key operation: its object, a status, and the stream, key and port it names. -/
def ideAck (s : State) (r : SpdmReq) (obj st : Nat) : State :=
  answerOr s r (vendorRsp 1 (([0] : List (BitVec 8)) ++ bytesLE 1 obj ++ [0, 0] ++ sliceB r.msg 15 1 ++ bytesLE 1 st ++ sliceB r.msg 17 2))

/-- A key is named that the one stream has: a sub-stream 0 to 2, port 0. -/
def ideNamed (m : List (BitVec 8)) : Bool := decide (leAt m 17 1 / 16 ≤ 2) && leAt m 18 1 == 0

/-- KEY_PROG (R381): a key of the stream: 32 bytes, and its 8-byte IV. -/
def execKeyProg (t : Fin 5) (s : State) : Host.Outcome State Fault Refusal :=
  ideRow s t 2 (fun s r =>
    let m := r.msg
    if !vendorOk m 48 then ideAck s r 3 1
    else if leAt m 18 1 != 0 then ideAck s r 3 2
    else if !ideNamed m then ideAck s r 3 3
    else ideAck { s with spdm := { s.spdm with ideKeys := minsert s.spdm.ideKeys (leAt m 17 1) (sliceB m 19 40) } } r 3 0)

/-- The three sub-stream keys of a key set and direction are programmed. -/
def ideReady (s : State) (k : Nat) : Bool := [0, 1, 2].all (fun i => s.spdm.ideKeys.any (fun e => e.1 == k % 16 + 16 * i))

/-- K_SET_GO (R381): the stream runs with a key set whose keys are programmed. -/
def execKSetGo (t : Fin 5) (s : State) : Host.Outcome State Fault Refusal :=
  ideRow s t 4 (fun s r =>
    let k := leAt r.msg 17 1
    if !vendorOk r.msg 8 then ideAck s r 6 1
    else if !ideNamed r.msg || !ideReady s k then ideAck s r 6 3
    else
      let s := { s with spdm := { s.spdm with ideSet := some (k % 2) } }
      ideAck (s.setCfg 0x2D0 (setField (s.cfg 0x2D0) 3 0 2)) r 6 0)

/-- K_SET_STOP (R381): the stream stops. -/
def execKSetStop (t : Fin 5) (s : State) : Host.Outcome State Fault Refusal :=
  ideRow s t 5 (fun s r => if !vendorOk r.msg 8 then ideAck s r 6 1 else ideAck (ideInsecure s) r 6 0)

/-- IDE_CHECK_FAILED (R350, R381): reported; the stream becomes Insecure; it begins no containment. -/
def execIdeCheckFailed (s : State) : Host.Outcome State Fault Refusal :=
  if s.up && s.on F.PCI_LINK_UP && s.spdm.ideSet.isSome then done (ideInsecure (logUE s 28 false [])) else done s

end Sys2Proof.Machine
end

