-- ==== Sys2Proof/Machine/Host.lean ====
section
/-! DEFINITION. Machine/Host.lean: host-side resets, the link, configuration requests and the expansion ROM (R22 to R26, R331 to R335,
R338, R339, R346 to R348, R353, R355). -/

namespace Sys2Proof.Machine
open Sys2Proof

/-- The endpoint is there: not held in reset and not asleep. LOCKDOWN leaves it (R380). -/
def endpointUp (s : State) : Bool := !s.held && !s.boot.asleep

/-! ### Host-side resets (R22, R24, R328, R330, R346, R355) -/

/-- Every channel is silenced without a record; each that was not IDLE raises its done producer once; registers go back to reset, but
DMA_C_OWNER and DMA_CFG (R328). -/
def silenceDma (s : State) : State :=
  (List.range 64).foldl (fun t n =>
    let busy := chState t n != dIdle
    let t := (t.setDma n {}).resetRange (R.DMA_C_SRC_LO n) (R.DMA_C_SRC_LO n + 0x100)
    if busy then t.raise (0x1A0 + n) else t) s

/-- Tags of outstanding reads are quarantined for twice the timeout in force; their completions are dropped (R346). -/
def dropReads (s : State) : State :=
  let tmo := ctoForce s
  let s := s.reads.foldl (fun t r => quarantine t r.tag tmo false) s
  { s with reads := [] }

/-- What a host-side reset of source `src` leaves of configuration space (R346): 1 PERST# nothing (but PME_En, until its release), 2 a
hot reset the sticky bits, 3 FLR those and the link fields. -/
def resetCfg (s : State) (src : Nat) : State :=
  let pm := s.cfg 0x44 &&& (if src = 1 then 0x100 else 0x8100)
  let keep (o : Nat) : Bool := src != 1 && (cfgSticky o || (src == 3 && cfgLinkField o))
  let s := { s with pci := { s.pci with cfg := mkeep keep s.pci.cfg } }
  s.setCfg 0x44 (cfgConst 0x44 ||| pm)

/-- The host ring registers, the completion-queue registers, EVT, the MSI-X table and PBA and RAS_H_CFG go back to reset; PCI_CONTAIN and
the counters clear (R330, R355, R437). -/
def resetHostRegs (s : State) : State :=
  let s := s.resetRange (R.DLV_H_BASE_LO 0) (R.DLV_H_BASE_LO 256)
  let s := s.resetRange (R.DLV_CQ_BASE_LO 0) (R.DLV_CQ_BASE_LO 32)
  let s := s.resetRange (R.EVT_PEND 0) (R.EVT_STAT + 4)
  let s := s.resetRange R.RAS_H_CFG (R.RAS_H_CMD + 4)
  let s := (((s.wr R.PCI_CONTAIN 0).wr R.PCI_LATE_CPL 0).wr R.PCI_CTO_CNT 0).wr R.PCI_BAR2_DROP 0
  let s := (List.range 256).foldl (fun t r =>
    let x := t.ring r
    if x.unsig = 0 then t else t.setRing r { x with unsig := 0, unsigAt := 0 }) s
  { s with cqs := [], sigs := [], pci := { s.pci with table := [], pba := [], inta := false, ltr := none, paused := [], d0At := none } }

/-- A DOE or mailbox message in flight is lost (R24); the self-test that a lost letter began answers no one. -/
def loseMessages (s : State) : State :=
  let s := doeAbort s
  let s := { s with spdm := { s.spdm with reqs := [] }, boot := { s.boot with bistMbox := none } }
  (List.range 4).foldl mailboxReset s

/-- A host-side reset begins: what every source has in common. -/
def hostReset (s : State) (src : Nat) : State :=
  let s := holdRings s
  let s := silenceDma (dropReads s)
  let s := loseMessages s
  let s := resetHostRegs (resetCfg (ideInsecure s) src)
  let s := s.set1 F.DEV_RSTSTAT_HOST_IN_RESET
  { s with pci := { s.pci with rst := some (src, s.now) } }

/-- The reset is counted (R347), and its cause shown. -/
def countReset (s : State) (cause : Nat) : State := (s.bump F.DEV_RSTSTAT_HOST_RESET_COUNT).sf F.DEV_RSTSTAT_LAST_HOST_RESET cause

/-- A link-down containment is in force: the reset that ends it is not counted again (R347). -/
def linkDownContained (s : State) : Bool := contained s && s.f F.PCI_CONTAIN_CAUSE == 2

/-- A counted host-side reset. -/
def hostResetCounted (s : State) (src : Nat) : State := hostReset (if linkDownContained s then s else countReset s src) src

/-- The link is not up. -/
def linkOff (s : State) : State := s.wr R.PCI_LINK 0

/-- A host-side reset of source `n` is in progress. -/
def inReset (s : State) (n : Nat) : Bool := s.pci.rst.any (fun e => e.1 == n)

/-- PERST_ASSERT (R22, R346, R347): decides over any other host-side reset. While RESET_N holds the part only the pin is noted (R23). -/
def execPerstAssert (s : State) : Host.Outcome State Fault Refusal :=
  if s.pci.perst then done s
  else
    let s := { s with pci := { s.pci with perst := true } }
    if endpointUp s then done (linkOff (hostResetCounted s 1)) else done s

/-- PERST_RELEASE (R346, R348): configuration space is at reset values; WAKE# is released. -/
def execPerstRelease (s : State) : Host.Outcome State Fault Refusal :=
  if !s.pci.perst then done s
  else
    let s := { s with pci := { s.pci with perst := false } }
    let s := s.setCfg 0x44 (cfgConst 0x44)
    done (if s.pci.wake then { s with pci := { s.pci with wake := false } }.emit (.pin .wakeN true) else s)

/-- HOT_RESET (R346, R347): overrides an FLR in progress; PERST# overrides it. -/
def execHotReset (s : State) : Host.Outcome State Fault Refusal :=
  if !endpointUp s || s.pci.perst || inReset s 1 || inReset s 2 then done s else done (linkOff (hostResetCounted s 2))

/-- Initiate FLR (R346, R347): ignored during another host-side reset. -/
def startFlr (s : State) : State := if s.pci.rst.isSome || !s.on F.PCI_LINK_UP then s else hostResetCounted s 3

/-- INITIATE_FLR (R346). -/
def execInitiateFlr (s : State) : Host.Outcome State Fault Refusal := if endpointUp s then done (startFlr s) else done s

/-- HOST_SIDE_READY (R346): the host side is ready for configuration: not while PERST# is asserted, and after a reset of the link only
once the link is up. -/
def execHostSideReady (s : State) : Host.Outcome State Fault Refusal :=
  if !endpointUp s || s.pci.perst || s.pci.rst.isNone || !s.on F.PCI_LINK_UP then done s
  else done ({ s with pci := { s.pci with rst := none } }.clr F.DEV_RSTSTAT_HOST_IN_RESET)

/-- LINK_DOWN (R22, R346, R350, R351, R353): link-down containment; an FLR in progress gives way to it. -/
def execLinkDown (s : State) : Host.Outcome State Fault Refusal :=
  if !endpointUp s || !s.on F.PCI_LINK_UP then done s
  else
    let s := linkOff s
    if inReset s 1 || inReset s 2 then done s
    else
      let s := { s with pci := { s.pci with rst := none, inta := false } }
      let s := (countReset s 4).set1 F.PCI_STAT_LINK_DOWN
      let s := (contain s 2 0).sf F.PCI_CONTAIN_CAUSE 2
      let s := s.set1 F.DEV_RSTSTAT_HOST_IN_RESET
      done (ideInsecure (s.logFault 0x12 2 0xFFFF 0 0))

/-- A link width that exists (R331). -/
def goodWidth (w : Nat) : Bool := [1, 2, 4, 8, 16].contains w

/-- LINK_UP (R331, R346, R353): a link that comes up out of containment resets the host side as a hot reset does, uncounted. At 64 GT/s
the link always runs in Flit Mode. -/
def execLinkUp (speed : Fin 7) (width : Fin 17) (flit : Bool) (s : State) : Host.Outcome State Fault Refusal :=
  if !endpointUp s || s.pci.perst || s.on F.PCI_LINK_UP || speed.val = 0 || !goodWidth width then done s
  else
    let s := if linkDownContained s then hostReset s 2 else s
    let s := (s.wr R.PCI_LINK 0).set1 F.PCI_LINK_UP
    let s := ((s.sf F.PCI_LINK_SPEED speed).sf F.PCI_LINK_WIDTH width).put F.PCI_LINK_FLIT (flit || speed.val == 6)
    let s := { s with pci := { s.pci with ssid := s.f F.PCI_SUBSYS_SSID } }
    done (if speed.val < 6 || width.val < 16 then s.set1 F.PCI_STAT_DEGRADED else s)

/-! ### Configuration space (R334, R335, R341, R343, R345, R348) -/

/-- The IDE capability is there: FEATURES.IDE of the device directory (R334). -/
def hasIde (s : State) : Bool := leAt s.pci.dir 0x24 4 % 2 == 1

/-- What a configuration read gives. -/
def cfgRead (s : State) (o : Nat) : Word :=
  let w := s.cfg o
  let ide := hasIde s
  if o = 0x04 then (if intaLevel s then w ||| 0x00080000 else w)
  else if o = 0x2C then BitVec.ofNat 32 (0x1F4B + 0x10000 * s.pci.ssid)
  else if o = 0x70 then
    if s.on F.PCI_LINK_UP then w ||| BitVec.ofNat 32 (0x10000 * (s.f F.PCI_LINK_SPEED + 16 * s.f F.PCI_LINK_WIDTH)) else w
  else if o = 0x148 then (if ide then w else 0x00010003)
  else if o = 0x14C then BitVec.ofNat 32 (leAt s.pci.dir 0x28 4)
  else if o = 0x150 then BitVec.ofNat 32 (leAt s.pci.dir 0x2C 4)
  else if o = 0x2A8 then w &&& 2
  else if o = 0x2AC then
    (w &&& 2) ||| (if doeBusy s then 1 else 0) ||| (if s.spdm.doeErr then 4 else 0) ||| (if s.spdm.doeOut.isEmpty then 0 else 0x80000000)
  else if o = 0x2B4 then s.spdm.doeOut.getD 0 0
  else if 0x2C0 ≤ o && o < 0x2D4 && !ide then 0
  else w

/-- A mask of the bytes that are enabled. -/
def beMask (be : BitVec 4) : Word :=
  (if be.getLsbD 0 then 0xFF else 0) ||| (if be.getLsbD 1 then 0xFF00 else 0) ||| (if be.getLsbD 2 then 0xFF0000 else 0) |||
    (if be.getLsbD 3 then 0xFF000000 else 0)

/-- Acts of the DOE registers (R334). -/
def doeWrite (s : State) (o : Nat) (v : Word) : State :=
  if o = 0x2A8 then
    let s := s.setCfg 0x2A8 (v &&& 2)
    if v.getLsbD 0 then doeAbort s else if v.getLsbD 31 then doeGo s else s
  else if o = 0x2AC then s.setCfg 0x2AC (s.cfg 0x2AC &&& ~~~ (v &&& 2))
  else if o = 0x2B0 then { s with spdm := { s.spdm with doeIn := s.spdm.doeIn ++ [v] } }
  else if o = 0x2B4 then { s with spdm := { s.spdm with doeOut := s.spdm.doeOut.drop 1 } }
  else s

/-- What follows from a write of a configuration dword, from its old and new contents and what was written. -/
def cfgActs (s : State) (o : Nat) (old v m : Word) : State :=
  let new := s.cfg o
  if o = 0x04 then
    let s := if old.getLsbD 2 && !new.getLsbD 2 then bmeLost s else s
    updateInta (if !old.getLsbD 2 && new.getLsbD 2 then sendPending s else s)
  else if o = 0x44 then
    let st := fieldOf v 1 0
    if !m.getLsbD 0 || st = fieldOf old 1 0 then s
    else if st = 3 then doD3 s
    else if st = 0 then { s.setCfg 0x44 (new &&& ~~~ 3) with pci := { (s.setCfg 0x44 (new &&& ~~~ 3)).pci with d0At := some s.now } }
    else s
  else if o = 0x50 then updateInta (sendPending s)
  else if o = 0x68 then (if v.getLsbD 15 && m.getLsbD 15 then startFlr s else s)
  else if o = 0x88 then (if ctoLegal (fieldOf new 3 0) then s else s.set1 F.PCI_STAT_RANGE)
  else s

/-- A configuration write of one dword with its byte enables. -/
def cfgWrite (s : State) (o : Nat) (v : Word) (be : BitVec 4) : State :=
  let m := beMask be
  if 0x2A8 ≤ o && o < 0x2B8 then (if be = 15 then doeWrite s o v else s)
  else if 0x2C0 ≤ o && !hasIde s then s
  else
    let old := s.cfg o
    let keepPm : Word := if o = 0x44 then 3 else 0
    let k := cfgMask o &&& m &&& ~~~ keepPm
    let w := ((old &&& ~~~ k) ||| (v &&& k)) &&& ~~~ (cfgW1c o &&& m &&& v)
    cfgActs (s.setCfg o w) o old v m

/-- Configuration requests are answered with RRS: until the directory is written (R339), during a host-side reset (R346), and within
10 ms of the return to D0 (R348). -/
def cfgRetry (s : State) : Bool :=
  !s.on F.HIF_STAT_DIR_VALID || s.pci.rst.isSome ||
    (match s.pci.d0At with | some t => decide (s.now < t + 10000000) | none => false)

/-- CONFIGURATION_REQUEST (R334, R346, R348): a request that comes back with RRS has no effect. -/
def execConfigurationRequest (q : HostReq) (s : State) : Host.Outcome State Fault Refusal :=
  let tag := q.tag.toNat
  let o := q.ofs.toNat % 4096 / 4 * 4
  if !endpointUp s || s.pci.perst then done s
  else if cfgRetry s then done (s.emit (.pciMsg (.rrs tag)))
  else if q.write then
    let s := q.dwords.zipIdx.foldl (fun t e => cfgWrite t ((o + 4 * e.2) % 4096) e.1.1 e.1.2) s
    done (s.emit (.completion tag true []))
  else
    let d := q.dwords.zipIdx.flatMap (fun e => bytesLE 4 (cfgRead s ((o + 4 * e.2) % 4096)).toNat)
    done (s.emit (.completion tag true d))

/-! ### Memory requests in common (R336, R346, R350) -/

/-- Memory requests meet the endpoint in a host-side reset or a link-down containment: a read gets Unsupported Request, a write is
dropped, nothing is logged (R346). -/
def memShut (s : State) : Bool := s.pci.rst.isSome || linkDownContained s

/-- A request that reaches nothing: Unsupported Request for a read, reported as advisory non-fatal (R350). -/
def unsupported (s : State) (q : HostReq) : State :=
  let s := pciError s 20 true []
  if q.write then s else s.emit (.completion q.tag.toNat false [])

/-- A request while the endpoint is shut. -/
def shutOut (s : State) (q : HostReq) : State := if q.write then s else s.emit (.completion q.tag.toNat false [])

/-- The completions that answer a host read of the bytes `l` from an offset `a` on (R342): as few as Max_Payload_Size and a 64-byte RCB
allow; one whose bytes `bad` says are poisoned has EP set (R337). -/
def answerGo (tag : Nat) (bad : Nat → Nat → Bool) : Nat → State → Nat → List (BitVec 8) → State
  | 0, s, _, _ => s
  | k + 1, s, a, l =>
    let m := mps s - a % 64
    let d := l.take m
    let s := s.emit (if bad a d.length then .poisoned tag d else .completion tag true d)
    if l.length ≤ m then s else answerGo tag bad k s (a + m) (l.drop m)
def answerRead (s : State) (q : HostReq) (bad : Nat → Nat → Bool) (l : List (BitVec 8)) : State :=
  answerGo q.tag.toNat bad (l.length + 1) s (q.ofs.toNat / 4 * 4) l
/-- The answer to a read of registers or of the ROM, whose data is never poisoned. -/
def answerRegs (s : State) (q : HostReq) (l : List (BitVec 8)) : State := answerRead s q (fun _ _ => false) l

/-! ### The expansion ROM (R338, R339) -/

/-- ROM_READ (R338, R474): needs ROM BAR.EN and Memory Space Enable; writes are dropped; beyond the directory it reads zero. -/
def execRomRead (q : HostReq) (s : State) : Host.Outcome State Fault Refusal :=
  if !endpointUp s || s.pci.perst then done s
  else if memShut s then done (shutOut s q)
  else if !memEn s || !(s.cfg 0x30).getLsbD 0 then done (unsupported s q)
  else if q.write then done s
  else
    let o := q.ofs.toNat % 2 ^ 20 / 4 * 4
    let d := q.dwords.zipIdx.flatMap (fun e => sliceB s.pci.dir (o + 4 * e.2) 4)
    done (answerRegs s q d)

end Sys2Proof.Machine
end

