-- ==== Sys2Proof/Machine/Reset.lean ====
section
/-! DEFINITION. Machine/Reset.lean: power-on and RESET_N, the boot and its steps (R22, R23, R43, R356, R412 to R415, R422, R437, R448,
R464 to R466). -/

namespace Sys2Proof.Machine
open Sys2Proof

/-! ### Reset (R22, R23, R414, R437) -/

/-- Registers that RESET_N keeps: those of the log and of availability, in AON (R437), and ADDR as last sampled (R438). -/
def resetKeeps (a : Nat) : Bool :=
  a == R.RAS_LOG_WR || a == R.RAS_WARM_CNT || a == R.RAS_LAST_FATAL || a == R.RAS_AVAIL_EXP_LO || a == R.RAS_AVAIL_EXP_HI ||
    a == R.RAS_AVAIL_OUT

/-- Lines of the two-wire bus that the target held low are let go (R438); WAKE# is let go; trigger outputs and GPIO pins become
high-impedance (R188). -/
def releasePins (s : State) : State :=
  let s := releaseOutputs s
  let s := if s.twi.stretch.isSome then s.emit (.pin .scl true) else s
  let s := if s.twi.hold.isSome then s.emit (.pin .sda true) else s
  if s.pci.wake then s.emit (.pin .wakeN true) else s

/-- RESET_N acts (R22, R43, R293, R330, R355, R404, R422, R437, R448): both sides and the root core are reset. What stays: the fuses,
the error log with its counters, LAST_WAKE, the straps as last sampled, the levels on pins. -/
def resetCore (s : State) : State :=
  let s := releasePins s
  let regs := mkeep resetKeeps s.regs
  let t : State := { State.reset with
    now := s.now, pending := s.pending, out := s.out, freeCtr := s.freeCtr, fuses := s.fuses, dmem := s.dmem, regs := regs
    pci := { perst := s.pci.perst }
    boot := { resetN := s.boot.resetN, supply := s.boot.supply, trip := s.boot.trip, pg := s.boot.pg, tap := s.boot.tap, flashEn := s.boot.flashEn }
    ras := { log := s.ras.log, logAt := s.ras.logAt, resets := s.ras.resets + 1, alert := s.ras.alert } }
  (t.sf F.PWR_STAT_LAST_WAKE (s.f F.PWR_STAT_LAST_WAKE)).sf F.TWI_STAT_ADDR (s.f F.TWI_STAT_ADDR)

/-- POWER_ON_RESET (R22): everything but the fuses is at its reset value; RESET_N is still low. -/
def execPowerOnReset (s : State) : Host.Outcome State Fault Refusal :=
  let s := releasePins s
  done { State.reset with
    now := s.now, pending := s.pending, out := s.out, freeCtr := s.freeCtr, fuses := s.fuses, pci := { perst := s.pci.perst }
    ras := { alert := s.ras.alert } }

/-- RESET_N (R23, R414, R418): it overrides every host-side reset, LOCKDOWN, SLEEP and a warm restart. -/
def execResetN (s : State) : Host.Outcome State Fault Refusal :=
  if s.boot.resetN then done s
  else
    let t := { s with boot := { s.boot with resetN := true } }
    done (if s.held then t else resetCore t)

/-- An instruction of the TAP that takes control of the balls (R465). -/
def tapControls : TapInstr → Bool
  | .extest | .extestPulse | .extestTrain | .clamp | .highz => true
  | _ => false

/-- Boot begins (R412): nothing holds the part any longer. The balls return to the device (R465). PERST# still asserted keeps the host
side in reset, uncounted. -/
def startBoot (s : State) : State :=
  if s.held then s
  else
    let tap := if tapControls s.boot.tap then .bypass else s.boot.tap
    let s := { s with boot := { s.boot with begun := true, tap := tap } }.put F.XSP_STAT_FLASH_EN s.boot.flashEn
    if s.pci.perst then { s with pci := { s.pci with rst := some (1, s.now) } }.set1 F.DEV_RSTSTAT_HOST_IN_RESET else s

/-- RESET_N_RELEASE (R412, R438, R465, R466): the straps are sampled; with TEST_EN high the part stays held. -/
def execResetNRelease (flashEn testEn : Bool) (addr : Fin 8) (s : State) : Host.Outcome State Fault Refusal :=
  if !s.boot.resetN || testEn then done s
  else
    let pg := if s.boot.supply then s.boot.pg else 15
    let s := { s with boot := { s.boot with resetN := false, flashEn := flashEn, pg := pg } }
    done (startBoot (s.sf F.TWI_STAT_ADDR addr))

/-- A write of DEV_CMD.FULL_RESET (R414): as RESET_N held low for 1 µs and released with the straps unchanged. -/
def doFullReset (s : State) : State := startBoot (resetCore s)

/-- FULL_RESET (R414). -/
def execFullReset (s : State) : Host.Outcome State Fault Refusal := if s.up then done (doFullReset s) else done s

/-! ### Supplies (R415, R450, R451) -/

/-- SUPPLY_OUT_OF_RANGE (R415, R451): `pg` is the power good of the CORE, HBM, SDS and IO groups. -/
def execSupplyOutOfRange (pg : BitVec 4) (s : State) : Host.Outcome State Fault Refusal :=
  let t := { s with boot := { s.boot with supply := true, pg := pg.toNat } }
  done (if s.held then t else resetCore t)

/-- SUPPLIES_IN_RANGE (R415). -/
def execSuppliesInRange (s : State) : Host.Outcome State Fault Refusal :=
  if s.boot.supply then done (startBoot { s with boot := { s.boot with supply := false, pg := 15 } }) else done s

/-! ### The steps of the boot (R356, R412) -/

/-- The boot is under way: nothing holds the part and no LOCKDOWN is in force. -/
def booting (s : State) : Bool := s.boot.begun && !s.held && !s.lockdown && !s.boot.done

/-- PLL_LOCK (R356 steps 1 to 4, R412): `agree`: the two fuse reads agree; `kat`: the known-answer tests pass; `noise`: the noise
source's start-up tests pass. The aperture's size follows the lifecycle (PCI_BAR2_WIN). -/
def execPllLock (agree kat noise : Bool) (s : State) : Host.Outcome State Fault Refusal :=
  if !booting s || s.boot.pll then done s
  else
    let s := { s with boot := { s.boot with pll := true } }
    if !agree then done (enterLockdown s 6)
    else
      let s := senseFuses s
      let s := if 2 ≤ s.lifecycle then s.sf F.PCI_BAR2_WIN_SIZE 0 else s.sf F.PCI_BAR2_WIN_SIZE 128
      if factoryCrc s != (fuse s 85).toNat then done (enterLockdown s 1)
      else
        let s := s.set1 F.FUS_STAT_CRC_OK
        if !kat then done (enterLockdown s 2) else if !noise then done (enterLockdown s 3) else done s

/-- SELF_TESTS_PASSED (R412 step 3). -/
def execSelfTestsPassed (s : State) : Host.Outcome State Fault Refusal :=
  if booting s && s.boot.pll then done ({ s with boot := { s.boot with tests := true } }.set1 F.SEC_STAT_SELFTEST_OK) else done s

/-- HBM_TRAINED (R412 step 4): device memory is zeroed and unpoisoned. -/
def execHbmTrained (s : State) : Host.Outcome State Fault Refusal :=
  if booting s && s.boot.pll && !s.boot.hbm then done { s with boot := { s.boot with hbm := true }, dmem := [], poison := [] } else done s

/-- HBM_TRAINING_FAILURE (R379 cause 7, R412, R426 code 0x16). -/
def execHbmTrainingFailure (stack : Bool) (s : State) : Host.Outcome State Fault Refusal :=
  if booting s && s.boot.pll && !s.boot.hbm then
    done ((enterLockdown s 7).logFault 0x16 3 (if stack then 1 else 0) 0 0)
  else done s

/-- DIRECTORY_WRITTEN (R339, R356 step 6, R412 step 5). -/
def execDirectoryWritten (s : State) : Host.Outcome State Fault Refusal :=
  if booting s && s.boot.tests && !s.boot.dir then done (writeDirectory { s with boot := { s.boot with dir := true } } true) else done s

/-- BOOT_COMPLETE (R412 step 7, R413): DEV_MODE follows R406, and the letters that came before are served in order. -/
def execBootComplete (s : State) : Host.Outcome State Fault Refusal :=
  if booting s && s.boot.flash && s.boot.hbm && s.boot.dir then done (serveQueued { s with boot := { s.boot with done := true } })
  else done s

/-- UPDATE_IR (R464, R465): an instruction that controls the balls takes effect only while RESET_N is low; otherwise the TAP acts as
though BYPASS were loaded. -/
def execUpdateIr (ir : TapInstr) (s : State) : Host.Outcome State Fault Refusal :=
  let i := if tapControls ir && !s.boot.resetN then .bypass else ir
  done { s with boot := { s.boot with tap := i } }

end Sys2Proof.Machine
end

