-- ==== Sys2Proof/Machine/Replay.lean ====
section
/-! DEFINITION. Machine/Replay.lean: the replay feeder (R19, R285, R409). -/

namespace Sys2Proof.Machine
open Sys2Proof

/-- The parallel port that a stream comes from, none for a network stream (R144, R169). -/
def portOf (s : State) (n : Nat) : Option Nat :=
  if s.lon (F.GVS_S_CFG_ENABLE n) then none
  else (List.range 4).find? (fun p => s.lon (F.PAR_CFG_ENABLE p) && s.lf (F.PAR_CFG_STREAM p) == n)

/-- Size, format and fill sample of a stream, as its port has them in force. -/
def rplShape (s : State) (n : Nat) : Nat × Nat × Nat × Nat :=
  match portOf s n with
  | some p => (s.lf (F.PAR_SIZE_SIZE_X p), s.lf (F.PAR_SIZE_SIZE_Y p), s.lf (F.PAR_FMT_PFNC p), s.lf (F.PAR_FILL_FILL p))
  | none => (s.lf (F.GVS_S_SIZE_SIZE_X n), s.lf (F.GVS_S_SIZE_SIZE_Y n), s.lf (F.GVS_S_FMT_PFNC n), s.lf (F.GVS_S_FILL_FILL n))

/-- The frame fed into a stream is closed (R174, R175, R409, R473): missing lines are filled, its flags set, its producers raised. -/
def rplClose (s : State) (f : RplFrame) : State :=
  let n := f.stream
  let short := decide (f.lines < f.sy)
  let long := f.flags.testBit 1
  let fl := f.flags ||| (if short then flShort else 0)
  let row := signed 32 (s.lf (F.MIL_ROW_GRAINS_ROW n))
  let (_, _, fmt, _) := rplShape s n
  let ch := ((pixFmt fmt).map (·.chans)).getD 1
  let fills := (List.range (f.sy - f.lines)).map (fun k =>
    MillIn.line n f.frame (f.lines + k) (List.replicate (f.sx * ch) none) { f.pm with pos := f.pm.pos + (f.lines + k : Nat) * row })
  let s := toMill s (fills ++ [.closed n f.frame fl f.lines])
  let s := match f.port with
    | some p => let t := if short then s.set1 (F.PAR_FLAGS_SHORT p) else s; if long then t.set1 (F.PAR_FLAGS_LONG p) else t
    | none => let t := if short then s.set1 (F.GVS_S_FLAGS_SHORT n) else s; if long then t.set1 (F.GVS_S_FLAGS_LONG n) else t
  let s := s.raise (prodFrameEnd n)
  let s := if short then s.raise (prodStreamFault n) else s
  if long then s.raise (prodStreamFault n) else s

/-- The feeder stops: the frames it has open close. -/
def feederOff (s : State) : State :=
  let l := s.rpl.frames
  l.foldl rplClose ({ s with rpl := {} }.clr F.DEV_RPL_STAT_BUSY)

/-- A write of DEV_RPL_CMD.GO (R409). -/
def doReplayGo (s : State) : State :=
  if s.f F.DEV_MODE_REQ != 6 || s.on F.DEV_RPL_STAT_BUSY then s.set1 F.DEV_MODE_RANGE
  else
    let s := s.wr R.DEV_RPL_LINES 0
    let len := s.f F.DEV_RPL_LEN_LEN
    if len = 0 then s.set1 F.DEV_MODE_REPLAY_DONE
    else { s with rpl := { len := len * 64 } }.set1 F.DEV_RPL_STAT_BUSY

/-- REPLAY_GO (R409). -/
def execReplayGo (s : State) : Host.Outcome State Fault Refusal := if s.up then done (doReplayGo s) else done s

/-- A write of DEV_RPL_CMD.ABORT (R409): the feeder stops between lines. -/
def doReplayAbort (s : State) : State := if s.on F.DEV_RPL_STAT_BUSY then feederOff s else s

/-- REPLAY_ABORT (R409). -/
def execReplayAbort (s : State) : Host.Outcome State Fault Refusal := if s.up then done (doReplayAbort s) else done s

/-- A byte of device memory is poisoned. -/
def badBytes (s : State) (a n : Nat) : Bool := s.poison.any (unitMeets a n)

/-- The samples of a stored line (R285, R409): raw ones, or pixel words that enter after stage 1 or after noise reduction. What lies in
a poisoned unit is fill (R281). -/
def rplPixels (s : State) (a cnt bits : Nat) (words tap : Bool) : RawLine :=
  if words then
    (List.range cnt).map (fun i =>
      if badBytes s (a + 4 * i) 4 then none else some ((if tap then 2 ^ 33 else 2 ^ 32) + s.dreadN (a + 4 * i) 4))
  else
    let v := s.dreadN a (ceilDiv (cnt * bits) 8)
    (List.range cnt).map (fun i =>
      let lo := bits * i
      if badBytes s (a + lo / 8) ((lo + bits - 1) / 8 - lo / 8 + 1) then none else some ((v >>> lo) % 2 ^ bits))

/-- A port still has a frame of the stream open: the feeder waits for its watchdog (R409). -/
def portBusy (s : State) (n : Nat) : Bool :=
  (s.strm n).blocks.any (fun b => b.closed.isNone) || (List.range 4).any (fun p => match (s.par p).frame with
    | some f => f.stream p == n
    | none => false)

/-- A line opens a new frame of its stream; the one before it closes (R409). -/
def rplOpen (s : State) (n : Nat) (pm : Postmark) (flags : Nat) : State :=
  let s := (s.rpl.frames.filter (fun f => f.stream == n)).foldl rplClose s
  let (sx, sy, fmt, fill) := rplShape s n
  let port := portOf s n
  let (no, cfg, s) := match port with
    | some p => ((s.par p).frames, regsIn s.live (R.PAR_CFG p) (R.PAR_CFG p + 0x100) ++ millCfg s n,
        s.setPar p { s.par p with frames := (s.par p).frames + 1 })
    | none => ((s.strm n).frames, gvsCfg s n ++ millCfg s n, s.setStrm n { s.strm n with frames := (s.strm n).frames + 1 })
  let f : RplFrame := ⟨n, no, sx, sy, pm, flags, 0, port⟩
  let s := frameAccepted { s with rpl := { s.rpl with frames := s.rpl.frames.filter (fun g => g.stream != n) ++ [f] } }
  toMill s [.opened ⟨n, no, pm, fmt, fill, sx, sy, true, cfg, (s.mill n).ver⟩]

/-- A line of an open frame: fed, or beyond SIZE_Y discarded and counted (R175). -/
def rplLine (s : State) (n : Nat) (pm : Postmark) (flags : Nat) (px : RawLine) : State :=
  match s.rpl.frames.find? (fun f => f.stream == n) with
  | none => s
  | some f =>
    let put (g : RplFrame) (t : State) : State := { t with rpl := { t.rpl with frames := t.rpl.frames.map (fun h => if h.stream == n then g else h) } }
    if f.sy ≤ f.lines then
      let s := put { f with flags := f.flags ||| flags ||| flLong } s
      match f.port with
      | some p => s.bump (F.PAR_CHAFF_CHAFF p)
      | none => s.bump (F.GVS_S_CHAFF_CHAFF n)
    else
      let s := put { f with flags := f.flags ||| flags, lines := f.lines + 1 } s
      (toMill s [.line n f.frame f.lines px pm]).bump F.DEV_RPL_LINES_LINES

/-- The feeder takes the next line of its source (R409). -/
def feedLine (s : State) : State :=
  let r := s.rpl
  let a := s.f F.DEV_RPL_BASE_BASE * 64 + r.pos
  let h := s.dread a 32
  let n := leAt h 0x10 1 % 64
  let (fl, bytes) := (leAt h 0x12 2, leAt h 0x1C 4)
  let size := ceilDiv (32 + bytes) 64 * 64
  if badBytes s a 32 then (feederOff (s.meets a 32)).set1 F.DEV_MODE_REPLAY_BAD
  else if r.len < r.pos + size then (feederOff s).set1 F.DEV_MODE_REPLAY_DONE
  else
    let next := { s with rpl := { r with pos := r.pos + size } }
    if leAt h 0x10 1 ≥ 64 || !(s.pair R.DEV_RPL_MASK_LO R.DEV_RPL_MASK_HI).testBit n then next
    else
      let (sx, _, fmt, _) := rplShape s n
      match pixFmt fmt with
      | none => (feederOff s).set1 F.DEV_MODE_REPLAY_BAD
      | some p =>
        let words := fl.testBit 11
        let cnt := sx * p.chans
        if bytes != (if words then 4 * cnt else ceilDiv (cnt * p.bits) 8) then (feederOff s).set1 F.DEV_MODE_REPLAY_BAD
        else
          let first := leAt h 0x16 2 == 0
          if first && portBusy s n then s
          else
            let pm : Postmark :=
              { time := signed 64 (leAt h 8 8), epoch := leAt h 0x11 1, axis := s.lf (F.MIL_CFG_AXIS n), pos := signed 64 (leAt h 0 8)
                gen := leAt h 0x14 2, seq := BitVec.ofNat 32 (leAt h 0x18 4) }
            let rate := s.f F.DEV_RPL_RATE_RATE
            let next := if rate = 0 then next else { next with rpl := { next.rpl with next := s.now + ceilDiv (sx * 1000) rate } }
            let t := if first then rplOpen next n pm (fl % 512) else next
            rplLine (t.meets (a + 32) bytes) n pm (fl % 512) (rplPixels s (a + 32) cnt p.bits words (fl.testBit 10))

/-- The source waits: a line that has been fed waits for room in its stream's queue (R19), or the pixels of the last line still count
against DEV_RPL_RATE (R409). -/
def replayWaits (s : State) : Bool := s.toMill.any (fun e => isLine e && queueFull s e.stream) || decide (s.now < s.rpl.next)

/-- REPLAY_LINE (R19, R409): the next line, or the end of the source. -/
def execReplayLine (s : State) : Host.Outcome State Fault Refusal :=
  if !s.up || !s.on F.DEV_RPL_STAT_BUSY || replayWaits s then done s
  else if s.rpl.len ≤ s.rpl.pos then done ((feederOff s).set1 F.DEV_MODE_REPLAY_DONE)
  else done (feedLine s)

end Sys2Proof.Machine
end

