-- ==== Sys2Proof/Machine/Modes.lean ====
section
/-! DEFINITION. Machine/Modes.lean: mode requests, the self-test, sleep and wake, gated clusters (R57, R188, R403, R404, R406 to R408,
R410, R411, R416 to R421). -/

namespace Sys2Proof.Machine
open Sys2Proof

/-! ### Mode requests (R408) -/

/-- A request is refused, with its reason. -/
def refuseMode (s : State) (why : Nat) : State := (s.set1 F.DEV_MODE_REFUSED).sf F.DEV_MODE_REFUSE why

/-- DEV_MODE as R406 gives it. -/
def modeNow (s : State) : Nat := s.modeOf

/-- REPLAY, CALIBRATE or DIAGNOSE is requested (R403, R408). -/
def reqMode (s : State) (m : Nat) : State :=
  if s.on F.DEV_MODE_REQ then refuseMode s 2
  else if [3, 4, 5, 9].contains (modeNow s) then retestLinks (s.sf F.DEV_MODE_REQ m)
  else refuseMode s 1

/-- LEAVE (R403, R408). -/
def leaveMode (s : State) : State :=
  if !s.on F.DEV_MODE_REQ then s.set1 F.DEV_MODE_RANGE
  else
    let was := s.f F.DEV_MODE_REQ
    let s := s.sf F.DEV_MODE_REQ 0
    if was = 8 then retestLinks s else if was = 6 then feederOff s else s

/-- Work that keeps the part awake (R416): a core-owned channel RUNNING or PAUSED, an extract, an Ebkel copy, the self-test. -/
def sleepBlocked (s : State) : Bool :=
  (List.range 64).any (fun n => s.f (F.DMA_C_OWNER_KIND n) == 1 && (chState s n == dRunning || chState s n == dPaused)) ||
    s.gran.run.isSome || (s.ebk.sending.isSome && !s.ebk.stripLast) || s.boot.bistFrom.isSome

/-- Sleep entry begins (R57, R417): the clock stops at its value, the tick counts are noted. -/
def beginSleep (s : State) : State :=
  let s := (List.range 8).foldl (fun t n => let x := t.axis n; t.setAxis n { x with sleepWord := x.word }) s
  { s with
    boot := { s.boot with asleep := true, entered := false, waking := false, sleepFrom := s.now, wakeHeld := 0, wakeLock := false }
    tim := { s.tim with sleepAt := s.now } }

/-- SLEEP is requested by a core, or by PME_Turn_Off (R408, R416, R419): the first that applies decides. -/
def reqSleep (s : State) (core : Bool) : State :=
  let m := modeNow s
  let soon := match s.boot.wokeAt with
    | some t => decide (s.now < t + 10000000)
    | none => false
  if s.on F.DEV_MODE_REQ then refuseMode s 2
  else if !(m == 2 || m == 3) || soon then refuseMode s 1
  else if sleepBlocked s then refuseMode s 3
  else if core && s.on F.PCI_LINK_UP then refuseMode s 4
  else beginSleep s

/-- A write of DEV_MODE_CMD (R408). -/
def doModeCmd (s : State) (v : Nat) : State :=
  match v with
  | 6 => reqMode s 6
  | 7 => reqMode s 7
  | 8 => reqMode s 8
  | 10 => reqSleep s true
  | 15 => leaveMode s
  | _ => s.set1 F.DEV_MODE_RANGE

/-- REQ_REPLAY (R408). -/
def execReqReplay (s : State) : Host.Outcome State Fault Refusal := if s.up then done (doModeCmd s 6) else done s
/-- REQ_CALIBRATE (R408). -/
def execReqCalibrate (s : State) : Host.Outcome State Fault Refusal := if s.up then done (doModeCmd s 7) else done s
/-- REQ_DIAGNOSE (R408). -/
def execReqDiagnose (s : State) : Host.Outcome State Fault Refusal := if s.up then done (doModeCmd s 8) else done s
/-- REQ_SLEEP (R416). -/
def execReqSleep (s : State) : Host.Outcome State Fault Refusal := if s.up then done (doModeCmd s 10) else done s
/-- LEAVE (R408). -/
def execLeave (s : State) : Host.Outcome State Fault Refusal := if s.up then done (doModeCmd s 15) else done s

/-! ### The self-test (R411) -/

/-- DIAGNOSE is the mode and no test runs: a self-test may start. -/
def bistAllowed (s : State) : Bool := modeNow s == 8 && s.boot.bistFrom.isNone

/-- The self-test starts: every core is halted (R411). -/
def startBist (s : State) (mbox : Option Nat) : State :=
  let s := allCores.foldl (fun t c => if (t.core c).run = .running then stopCore t c else t) s
  let s := (s.wr R.DEV_BIST_STAT 0).set1 F.DEV_BIST_STAT_BUSY
  { s with boot := { s.boot with bistFrom := some s.now, bistMbox := mbox } }

/-- SELF_TEST (R363, R411): the letter is answered when the test ends, or at once when it may not start. -/
def execSelfTest (m : Fin 4) (s : State) : Host.Outcome State Fault Refusal :=
  match rootLetter s m 0x18 with
  | none => done s
  | some _ =>
    if !s.up || s.boot.bistMbox == some m.val then done s
    else if bistAllowed s then done (startBist s (some m)) else done (replySt s m stDenied 3)

/-- A write of DEV_BIST_CMD.GO (R411). -/
def doBistGo (s : State) : State := if bistAllowed s then startBist s none else s.set1 F.DEV_MODE_RANGE

/-- BIST_GO (R411). -/
def execBistGo (s : State) : Host.Outcome State Fault Refusal := if s.up then done (doBistGo s) else done s

/-- A core as one that has never run, with no grant (R102, R411). -/
def blankCore (s : State) (c : Nat) : State :=
  let k := s.core c
  s.setCore c { pc := k.pc, run := .never, lastCause := k.lastCause, haltPc := k.haltPc }

/-- BIST_DONE (R411, R426 code 0x14): `fails` are the memories that failed: 0 to 131 the cores' local memories, 132 to 147 the
clusters'. -/
def execBistDone (fails : List (Fin 148)) (s : State) : Host.Outcome State Fault Refusal :=
  if !s.up || s.boot.bistFrom.isNone then done s
  else
    let fl := (fails.map (·.val)).dedup
    let s := reassignSlots (allCores.foldl blankCore { s with loader := { s.loader with parcels := [] } })
    let s := { s with lmem := [], cmem := [], lpoison := [], cpoison := [] }
    let s := fl.foldl (fun t n => t.logFault 0x14 2 (if n < 132 then targetOf n else 0xFFFF) 0 n) s
    let s := ((s.clr F.DEV_BIST_STAT_BUSY).set1 F.DEV_BIST_STAT_DONE).put F.DEV_BIST_STAT_PASS fl.isEmpty
    let s := s.sf F.DEV_BIST_STAT_FAILS (min 255 fl.length)
    let m := s.boot.bistMbox
    let s := clearUndeclared { s with boot := { s.boot with bistFrom := none, bistMbox := none } }
    match m with
    | some m => done (reply s m stOk 0 [] (bytesLE 4 (s.rd R.DEV_BIST_STAT).toNat))
    | none => done s

/-! ### Sleep (R57, R188, R404, R416 to R419) -/

/-- PME_TURN_OFF (R416): answered, and the link goes to L2/L3 Ready; with AUTO_SLEEP, from D3hot, the part goes to sleep. -/
def execPmeTurnOff (s : State) : Host.Outcome State Fault Refusal :=
  if !endpointUp s || !s.on F.PCI_LINK_UP || s.pci.rst.isSome then done s
  else
    let d3 := fieldOf (s.cfg 0x44) 1 0 == 3
    let s := linkOff ((s.emit (.pciMsg .pmeToAck)).emit (.pciMsg .enterL23))
    done (if s.on F.PWR_CFG_AUTO_SLEEP && d3 && !s.lockdown then reqSleep s false else s)

/-- Outputs go inactive (R188): enabled trigger outputs, and GPIO pins in OUTPUT or STROBE. -/
def quietOutputs (s : State) : State :=
  let s := (List.range 32).foldl quietTrig s
  (List.range 16).foldl (fun t g =>
    let m := t.f (F.TRG_GPIO_CFG_MODE g)
    if m = 1 || m = 2 then driveStrobe (t.setGpio g {}) g false else t) s

/-- The wake sources that hold by themselves (R418): the timer, and the wake axis. -/
def wakesNow (s : State) : Nat :=
  let t := s.f F.PWR_WAKE_TMR_MS
  let timer := t != 0 && decide (s.boot.sleepFrom + t * 1000000 ≤ s.now)
  let n := s.f F.PWR_WAKE_TICKS_TICKS
  let x := s.axis (s.f F.PWR_WAKE_TICKS_AXIS)
  let moved := (floorDiv x.word.toInt 4096 - floorDiv x.sleepWord.toInt 4096).natAbs
  (if timer then 8 else 0) + (if n != 0 && decide (n ≤ moved) then 16 else 0)

/-- The wake begins (R418): PWR_WAKE_STAT records every source that holds. -/
def beginWake (s : State) (held : Nat) : State :=
  let s := s.wr R.PWR_WAKE_STAT (BitVec.ofNat 32 (fieldOf (s.rd R.PWR_WAKE_STAT) 31 5 * 32 + held % 32))
  { s with boot := { s.boot with waking := true, wakeFrom := s.now, wakeHeld := held } }

/-- A wake source holds (R418, R421): one that is not enabled is not heard; before entry is complete it is kept for then. -/
def wakeBy (s : State) (bit : Nat) : State :=
  if !s.boot.asleep || s.boot.waking || !(s.rd R.PWR_WAKE_EN).getLsbD bit then s
  else
    let b := s.boot
    let held := b.wakeHeld ||| 2 ^ bit
    if b.entered then beginWake s (held ||| wakesNow s) else { s with boot := { b with wakeHeld := held } }

/-- SLEEP_ENTRY_DONE (R188, R404, R417, R418): everything stops and keeps its state; a source that already holds wakes the part at
once. -/
def execSleepEntryDone (s : State) : Host.Outcome State Fault Refusal :=
  if !s.boot.asleep || s.boot.entered then done s
  else
    let s := (s.bump F.PWR_STAT_SLEEPS)
    let s := (List.range 16).foldl portDown (allLinksOff (quietOutputs s))
    let s := { s with boot := { s.boot with entered := true } }
    let en := fieldOf (s.rd R.PWR_WAKE_EN) 4 0
    let held := s.boot.wakeHeld ||| wakesNow s
    if held &&& en != 0 && !s.boot.waking then done ((beginWake s held).set1 F.PWR_WAKE_STAT_WAKE_ABORT) else done s

/-- SYS_WAKE_N (R418, R421): low for 1 µs. -/
def execSysWakeN (s : State) : Host.Outcome State Fault Refusal := if s.held then done s else done (wakeBy s 0)

/-- WAKE_PERST (R418). -/
def execWakePerst (s : State) : Host.Outcome State Fault Refusal := if s.held then done s else done (wakeBy s 2)

/-- WAKE_TIMER (R418): PWR_WAKE_TMR ms have passed in SLEEP. -/
def execWakeTimer (s : State) : Host.Outcome State Fault Refusal :=
  if !s.held && (wakesNow s).testBit 3 then done (wakeBy s 3) else done s

/-- WAKE_AXIS (R418): the wake axis has moved by TICKS or more. -/
def execWakeAxis (s : State) : Host.Outcome State Fault Refusal :=
  if !s.held && (wakesNow s).testBit 4 then done (wakeBy s 4) else done s

/-- The clock and the axes resume (R57): the clock from its value at entry plus 40 ns for each AON count; physical axes with their
counts, the grain zero; remote axes STALE. -/
def resumeClock (s : State) : State :=
  let n := (s.now - s.tim.sleepAt) / 40
  let s := { s with tim := { s.tim with clk := s.tim.clk + (n * 40 * 2 ^ 32 : Nat), rates := [] } }.clr F.TIM_STAT_LOCKED
  let s := s.wr R.TIM_HOLD_RATE 0
  let s := { s with tim := { s.tim with ppsSec := ppsIndex s } }
  let s := (List.range 8).foldl (fun t a =>
    let x := t.axis a
    t.setAxis a { x with word := BitVec.ofInt 64 (floorDiv x.word.toInt 4096 * 4096), run := 0, lastTick := none, heldF := none, stallFrom := t.now }) s
  [12, 13, 14].foldl (fun t a => if t.on (F.AXS_CFG_ENABLE a) then t.set1 (F.AXS_STAT_STALE a) else t) s

/-- WAKE_COMPLETE (R57, R404, R418, R419): the part resumes where it was; a dip of VDD_AON ends the wake in LOCKDOWN instead. -/
def execWakeComplete (s : State) : Host.Outcome State Fault Refusal :=
  if s.held || !s.boot.asleep || !s.boot.waking then done s
  else
    let lock := s.boot.wakeLock
    let us := (s.now - s.boot.wakeFrom) / 1000
    let s := { s with boot := { s.boot with asleep := false, entered := false, waking := false, wakeHeld := 0, wakeLock := false, wokeAt := some s.now } }
    let s := (resumeClock s).sf F.PWR_STAT_LAST_WAKE (min 65535 us)
    if lock then done (enterLockdown s 5)
    else
      let s := (s.slots.map (·.1)).foldl (fun t n =>
        let x := t.slot n
        if x.armed then t.setSlot n { x with test := true, late := false, due := none, stop := none } else t) s
      let s := resumeOutputs s
      let s := checkLinks s
      done (hostReset s 1)

/-! ### Gated clusters (R420) -/

/-- Every core of a cluster is halted and its tile queues are empty. -/
def clusterIdle (s : State) (k : Nat) : Bool :=
  (List.range 8).all (fun j => (s.core (4 + 8 * k + j)).run != .running && (tileQ s (8 * k + j)).isEmpty)

/-- A write of PWR_CFG (R420): it is ignored, with RANGE, unless every cluster it gates is idle. -/
def doPwrCfg (s : State) (v : Word) : State :=
  let old := s.f F.PWR_CFG_CLUSTER_GATE
  let want := fieldOf v 15 0
  if (List.range 16).any (fun k => want.testBit k && !old.testBit k && !clusterIdle s k) then s.set1 F.DEV_MODE_RANGE
  else (s.put F.PWR_CFG_AUTO_SLEEP (v.getLsbD 31)).sf F.PWR_CFG_CLUSTER_GATE want

/-- CLUSTER_GATE (R420). -/
def execClusterGate (v : Word) (s : State) : Host.Outcome State Fault Refusal := if s.up then done (doPwrCfg s v) else done s

end Sys2Proof.Machine
end

