-- ==== Sys2Proof/Machine/Ras.lean ====
section
/-! DEFINITION. Machine/Ras.lean: the faults that stop acquisition or a unit of it, warm restarts, the thermal faults, the system
watchdog, the error log's commands (R423 to R437). -/

namespace Sys2Proof.Machine
open Sys2Proof

/-! ### What a warm restart resets (R430, R431) -/

/-- A sequence after a warm restart (R431): its sheaves are gone, and its floor is the furthest sheaf it had opened. -/
def warmSeq (dir : Bool) (x : SeqSt) : SeqSt :=
  let far := x.sheaves.foldl (fun (a : Option Int) h => match a with
    | some f => some (if before_ dir f h.no then h.no else f)
    | none => some h.no) x.floor
  { x with sheaves := [], floor := far, restart := false, lost := [], bands := [], cutK := none }

/-- Restart a sequence (R431): what was OPEN, CUT or CLOSED and unreleased is discarded and counted as lost. -/
def warmCollate (s : State) (q : Nat) : State :=
  let x := s.seq q
  let gone := x.sheaves.filter (fun h => h.stage != .closed)
  let s := s.setSeq q (warmSeq (sqDir (colCfg s) q) x)
  let s := s.bumpBy (F.COL_SQ_CNT_LOST q) x.sheaves.length
  gone.foldl (fun t h => noteClose t q h.no) s

/-- Defect records in units that are not franked. -/
def recsIn (l : List Offer) : Nat := (l.map (fun o => match o.u.src with | .recs n => n | _ => 0)).sum

/-- Ports: receivers, framing, open frames and trigger queues (R430). A parallel port in the middle of a frame waits for the next
frame boundary (R431). -/
def warmPorts (s : State) : State :=
  let s := { s with
    streams := s.streams.map (fun e => (e.1, { e.2 with m := { steps := e.2.m.steps }, blocks := [], lastId := none, badId := none }))
    eth := { s.eth with gapq := [], rx := s.eth.rx.filter (fun d => match d with | .gvsp _ _ => false | _ => true) }
    rpl := { s.rpl with frames := [] } }
  [0, 1, 2, 3].foldl (fun t p =>
    let x := t.par p
    let mid := if t.lon (F.PAR_CFG_FVAL_IGN p) then x.lval else x.fval
    t.setPar p { x with m := { steps := x.m.steps }, frame := none, blocked := x.blocked || mid }) s

/-- The Mill, the heads, the thresher and the franking intake (R430): of the heads' units only those already franked stay, to be
counted when they are delivered. What the granary's extract had offered is offered again; reports not yet franked are gone. -/
def warmBlocks (s : State) : State :=
  let kept := s.hunits.filterMap (fun h => if h.franked then some { h with sheaf := none, stage := none } else none)
  let gone := s.thr.recs.length + recsIn s.thr.units + recsIn s.offers
  { s with
    toMill := [], mills := [], toCol := [], toTap := [], hedQ := [], hunits := kept, sheafHeads := [], boxes := []
    outs := s.outs.map (fun e => (e.1, { e.2 with gather := none, idx := 0 }))
    thr := { lastCore := s.thr.lastCore, lastSeq := s.thr.lastSeq, nextHandle := s.thr.nextHandle, intake := s.thr.intake - gone }
    gran := { s.gran with run := s.gran.run.map (fun x => { x with offered := false }), reports := [] }
    offers := [] }

/-- The schedule slots and the pending counts, when the fault names their unit (R430). -/
def warmSched (s : State) : State := { ((s.slots.map (·.1)).foldl dropSlot s) with evq := [], inputs := [] }

/-- Stop the cores that run; nothing else of a core changes (R430, R431). -/
def warmCores (s : State) : State := allCores.foldl (fun t c => if (t.core c).run = .running then stopCore t c else t) s

/-- A warm restart begins (R428, R429, R431): `code` is that of the fault, zero for a WARM write; `sched` when the fault names the
schedule unit or the event router. -/
def beginWarm (s : State) (code : Nat) (sched : Bool) : State :=
  let s := { s with ras := { s.ras with warm := some code, again := false } }.set1 F.RAS_STAT_WARM_BUSY
  let s := warmBlocks (warmPorts ((List.range 8).foldl warmCollate s))
  warmCores (if sched then warmSched s else s)

/-! ### FATAL faults (R426 to R429) -/

/-- Acquisition stops without a restart (R427, R428, R429). -/
def haltAcq (s : State) : State := { s with ras := { s.ras with stopped := true, stuck := true } }.set1 F.RAS_STAT_HALTED

/-- An automatic restart is permitted now (R428). -/
def autoLeft (s : State) : Bool :=
  decide ((s.ras.autos.filter (fun t => decide (s.now < t + 3600000000000))).length < s.f F.RAS_CFG_WARM_MAX)

/-- A FATAL fault asks for a warm restart (R427, R428): none in LOCKDOWN; during a restart it only leaves acquisition stopped at its
end; one too many within 3,600 s halts acquisition. -/
def faultWarm (s : State) (code : Nat) (sched allowed : Bool) : State :=
  if s.lockdown then s
  else if s.ras.warm.isSome then { s with ras := { s.ras with again := true, stuck := true } }
  else if allowed && autoLeft s then
    beginWarm { s with ras := { s.ras with autos := s.now :: s.ras.autos.filter (fun t => decide (s.now < t + 3600000000000)) } } code sched
  else haltAcq s

/-- Record a FATAL fault and restart, while AUTO_WARM is 1 (R428). -/
def fatalWarm (s : State) (code unit : Nat) (sched : Bool) : State :=
  faultWarm (s.logFault code 3 unit 0 0) code sched (s.on F.RAS_CFG_AUTO_WARM)

/-- UNCORRECTABLE_CONTROL_STATE (R426 code 0x06): parts 0 to 6 are the slot table, the event router, the trigger queues, the Mill, the
collator, the heads and the thresher. -/
def execUncorrectableControlState (part : Fin 7) (s : State) : Host.Outcome State Fault Refusal :=
  if s.up then done (fatalWarm s 0x06 0xFFFF (decide (part.val ≤ 1))) else done s

/-- STALL_FAULT (R426 code 0x0A). -/
def execStallFault (s : State) : Host.Outcome State Fault Refusal :=
  if s.up then done (fatalWarm s 0x0A 0xFFFF false) else done s

/-- PLL_LOCK_LOSS (R45, R426 code 0x0B): PLLs 0 to 3 are TIME, CORE, THR and MEM. -/
def execPllLockLoss (p : Fin 4) (s : State) : Host.Outcome State Fault Refusal :=
  if s.up && s.boot.pll then
    let s := if p.val = 0 then s.clr F.TIM_STAT_LOCKED else s
    done (fatalWarm s 0x0B p.val false)
  else done s

/-- HBM_FAILURE (R426 code 0x0D, R429): acquisition is halted until RESET_N. -/
def execHbmFailure (stack : Bool) (s : State) : Host.Outcome State Fault Refusal :=
  if s.up && s.boot.hbm then done (haltAcq (s.logFault 0x0D 3 (if stack then 1 else 0) 0 0)) else done s

/-! ### WARM and its end (R428, R429, R431) -/

/-- WARM is honoured (R428): ignored with RANGE during a restart, in SLEEP and in LOCKDOWN; otherwise HALTED clears. -/
def doWarm (s : State) : State :=
  if s.ras.warm.isSome || s.boot.asleep || s.lockdown then s.set1 F.RAS_STAT_RANGE
  else beginWarm ({ s with ras := { s.ras with stopped := false } }.clr F.RAS_STAT_HALTED) 0 false

/-- A core may write a block (R7, R96): its grant names it. -/
def coreMay (s : State) (c bit : Nat) : Bool := (s.core c).grant.blkWrite.getLsbD bit

/-- WARM (R428): from a core granted RAS for writing through RAS_CMD, from the host through RAS_H_CMD in BLANK and PROVISION only;
anything else is a locked write (R7). -/
def execWarm (r : Requester) (s : State) : Host.Outcome State Fault Refusal :=
  if s.held then done s
  else match r with
    | .core c => done (if coreMay s c.val 25 then doWarm s else s.lockedWrite R.RAS_CMD)
    | .host => done (if decide (s.lifecycle ≤ 1) then doWarm s else s.lockedWrite R.RAS_H_CMD)
    | .twi => done s

/-- WARM_DONE (R429, R431): the cores with START rights start; a second FATAL fault leaves acquisition stopped (R427). -/
def execWarmDone (s : State) : Host.Outcome State Fault Refusal :=
  match s.ras.warm with
  | none => done s
  | some code =>
    let s := allCores.foldl (fun t c => if (t.core c).grant.start && (t.core c).activeId != 0 then startCore t c else t) s
    let again := s.ras.again
    let s := { s with ras := { s.ras with warm := none, again := false } }.clr F.RAS_STAT_WARM_BUSY
    let s := (s.set1 F.RAS_STAT_WARM_DONE).bump F.RAS_WARM_CNT_COUNT
    let s := if code != 0 && !s.ras.stuck then s.clr F.RAS_STAT_FATAL else s
    done (if again then haltAcq s else s)

/-! ### Faults of one unit (R426) -/

/-- UNCORRECTABLE_FRANKING_STATE (R426 code 0x07): the ring is DISABLED at once, its key and chain erased, without a final record. A ring
whose EN stays set waits for a new key (R372). -/
def execUncorrectableFrankingState (r : Fin 256) (s : State) : Host.Outcome State Fault Refusal :=
  if !s.up then done s
  else
    let s := s.logFault 0x07 2 r.val 0 0
    let x := s.ring r
    let gone := x.placed.filterMap (·.u) ++ x.waiting ++ x.held
    let n := ringChan s r
    let s := if inTransfer s r then
        let s := s.setDma n { s.dma n with ring := none, off := 0 }
        if chState s n = dRunning then setCh s n dIdle else s
      else s
    let s := disableRing { s with signQ := s.signQ.filter (· != r.val) } r
    let s := gone.foldl (fun t u => releaseSource t u.src false) s
    let wait := s.on (F.DLV_R_POLICY_EN r) && s.f (F.DLV_R_POLICY_MODE r) != 0
    done (s.setRing r { s.ring r with wanted := wait })

/-- REFL_LOSS (R139, R389, R426 code 0x0C): the quad's ports go down, its links return to HUNT. -/
def execReflLoss (quad : Fin 6) (s : State) : Host.Outcome State Fault Refusal :=
  if s.held then done s
  else
    let s := s.logFault 0x0C 2 quad.val 0 0
    let mine (l : Nat) : Bool := l / 4 == quad.val
    let s := (List.range 16).foldl (fun t m => if (portLanes t m).any mine then portDown t m else t) s
    done ((List.range 8).foldl (fun t k =>
      if phase t k != lkOff && mine (t.f (F.EBK_CFG_LANE k)) then toPhase t k lkHunt else t) s)

/-! ### Temperature (R426 codes 0x0E and 0x0F) -/

/-- A junction temperature in sixteenths of a degree (PWR_TJ). -/
def tj16 (w : BitVec 16) : Int := w.toInt

/-- THERM_WARN (R426 code 0x0E): PWR_TJ has risen to THERM_WARN. -/
def execThermWarn (tj : BitVec 16) (s : State) : Host.Outcome State Fault Refusal :=
  if s.held then done s
  else
    let s := s.sf F.PWR_TJ_TJ tj.toNat
    if (s.f F.RAS_CFG_THERM_WARN : Int) * 16 ≤ tj16 tj then done ((s.logFault 0x0E 0 0xFFFF 0 0).set1 F.RAS_STAT_THERM_WARN) else done s

/-- THERMAL_TRIP (R426 code 0x0F): at 125 °C the part acts as though RESET_N were held low. -/
def execThermalTrip (tj : BitVec 16) (s : State) : Host.Outcome State Fault Refusal :=
  if s.boot.trip || tj16 tj < 2000 then done s
  else
    let s := s.logFault 0x0F 3 0xFFFF 0 0
    let s := if s.held then { s with boot := { s.boot with trip := true } } else resetCore { s with boot := { s.boot with trip := true } }
    done ((s.sf F.PWR_TJ_TJ tj.toNat).emit (.pin .thermtripN false))

/-- THERMAL_TRIP_END (R412, R426 code 0x0F): below 100 °C the part boots. -/
def execThermalTripEnd (tj : BitVec 16) (s : State) : Host.Outcome State Fault Refusal :=
  if s.boot.trip && decide (tj16 tj < 1600) then
    let s := { s with boot := { s.boot with trip := false } }.sf F.PWR_TJ_TJ tj.toNat
    done (startBoot (s.emit (.pin .thermtripN true)))
  else done s

/-! ### The system watchdog (R432) -/

/-- Milliseconds left of the system watchdog. -/
def swdCount (s : State) : Nat := s.f F.RAS_SWD_LOAD - (s.now - s.ras.swdFrom) / 1000000

/-- Reload the system watchdog. -/
def doSwdKick (s : State) : State := { s with ras := { s.ras with swdFrom := s.now } }

/-- RAS_SWD_KICK (R432). -/
def execRasSwdKick (s : State) : Host.Outcome State Fault Refusal := if s.held then done s else done (doSwdKick s)

/-- SWD_EXPIRY (R414, R426 code 0x10, R432): the count has reached zero; it reloads and acts by ACTION. During a warm restart it is only
recorded. -/
def execSwdExpiry (s : State) : Host.Outcome State Fault Refusal :=
  if s.held || s.boot.asleep || !s.on F.RAS_SWD_LOAD || swdCount s != 0 then done s
  else
    let act := s.f F.RAS_SWD_ACTION
    let busy := s.ras.warm.isSome
    let s := (doSwdKick (s.logFault 0x10 (if act = 0 then 2 else 3) 0xFFFF 0 0)).set1 F.RAS_STAT_SWD_EXP
    if act = 0 then done s
    else if busy then done { s with ras := { s.ras with stuck := true } }
    else if act = 1 then done (faultWarm s 0x10 false true)
    else if s.lockdown then done s
    else done (doFullReset s)

/-! ### The log's command (R426) -/

/-- A write of RAS_CMD.LOG_CLEAR: the log is emptied without resetting SEQ. -/
def doLogClear (s : State) : State := { s with ras := { s.ras with log := [] } }

/-- LOG_CLEAR. -/
def execLogClear (s : State) : Host.Outcome State Fault Refusal := if s.held then done s else done (doLogClear s)

end Sys2Proof.Machine
end

