-- ==== Sys2Proof/Machine/RegView.lean ====
section
/-! DEFINITION. Machine/RegView.lean: what a read of a register gives (R5, R6): the stored word, with the fields that show the state
of a block filled in, and the latching of 64-bit pairs (R9). -/

namespace Sys2Proof.Machine
open Sys2Proof

/-! ### Fields that show the state of a block -/

/-- A one-bit field of a word. -/
def flagAt (w : Word) (b : Nat) (x : Bool) : Word := setField w b b (if x then 1 else 0)

/-- The low or the high word of a 64-bit value. -/
def halfOf (v : Nat) (high : Bool) : Word := BitVec.ofNat 32 (if high then v / 2 ^ 32 else v)

/-- A word of flags: bit b as the predicate says. -/
def bitsWord (p : Nat → Bool) : Word := BitVec.ofNat 32 (((List.range 32).filter p).map (fun b => 2 ^ b)).sum

/-- The registers of an axis that apply to its kind (ch. 02): the others read as zero and ignore writes. -/
def axsApplies (n o : Nat) : Bool :=
  if o == 0x00 || o == 0x08 || o == 0x0C || o == 0x10 || o == 0x2C then true
  else if n < 8 then decide (o < 0x34) || o == 0x48
  else if n < 12 then o == 0x28 || (decide (0x34 ≤ o) && decide (o < 0x44))
  else if n < 15 then o == 0x30 || o == 0x44
  else false

/-- AXS (ch. 02). -/
def viewAxs (s : State) (a : Nat) (w : Word) : Word :=
  let n := a / 0x100 % 0x100
  let o := a % 0x100
  if !axsApplies n o then 0
  else if o = 0x08 then halfOf (axisWord s n).toNat false
  else if o = 0x0C then halfOf (axisWord s n).toNat true
  else if o = 0x10 then shortPos s n
  else if o = 0x2C then flagAt (flagAt w 29 (s.stale n)) 28 (decide (n < 8) && interpOn s n)
  else w

/-- TIM (R42, R59). -/
def viewTim (s : State) (a : Nat) (w : Word) : Word :=
  if a = R.TIM_NS then BitVec.ofNat 32 s.tim.nsec
  else if a = R.TIM_SEC_LO then halfOf s.tim.sec false
  else if a = R.TIM_SEC_HI then halfOf s.tim.sec true
  else if a = R.TIM_SUBNS then BitVec.ofNat 32 s.tim.sub
  else if a = R.TIM_SHORT then s.tim.short
  else w

/-- SCH (ch. 05). -/
def viewSch (s : State) (a : Nat) (w : Word) : Word :=
  if a < R.SCH_IMG 0 0 then
    if R.SCH_ARMED 0 ≤ a && a < R.SCH_ARMED 8 then bitsWord (fun b => (s.slot (8 * (a - R.SCH_ARMED 0) + b)).armed) else w
  else
    let x := s.slot ((a - R.SCH_IMG 0 0) / 0x40)
    let o := a % 0x40
    if o < 0x20 then x.img.getD (o / 4) 0
    else if o = 0x20 then flagAt 0 31 x.armed
    else if o = 0x24 then x.remain
    else if o = 0x28 then halfOf x.target.toNat false
    else if o = 0x2C then halfOf x.target.toNat true
    else w

/-- The pending events of an input: count and highest hop (R129). -/
def inCounts (s : State) (i : Nat) : Nat × Nat :=
  let l := (s.input i).pend
  (l.length, (l.map (·.1)).foldl max 0)

/-- EVR (ch. 05). -/
def viewEvr (s : State) (a : Nat) (w : Word) : Word :=
  if R.EVR_SEL 0 0 ≤ a && a % 0x20 == 0x10 then
    let (n, h) := inCounts s ((a - R.EVR_SEL 0 0) / 0x20)
    setField (setField w 10 8 h) 7 0 n
  else w

/-- ETH (ch. 06): the management receive queue. -/
def viewEth (s : State) (a : Nat) (w : Word) : Word :=
  let m := (a - R.ETH_CFG 0) / 0x400
  let o := a % 0x400
  let q := mrqOf s m
  if o = 0x4C then BitVec.ofNat 32 q.length
  else if 0x50 ≤ o && o ≤ 0x5C || 0x200 ≤ o && o < 0x300 then
    match q with
    | [] => 0
    | (fr, t, ep) :: _ =>
      let (sec, ns, sub) := stampParts t
      if o = 0x50 then BitVec.ofNat 32 fr.length
      else if o = 0x54 then BitVec.ofNat 32 ns
      else if o = 0x58 then BitVec.ofNat 32 sec
      else if o = 0x5C then setField (BitVec.ofNat 32 sub) 31 24 ep
      else BitVec.ofNat 32 (leAt fr (o - 0x200) 4)
  else w

/-- GVS (ch. 06): the gap queue and the streams. -/
def viewGvs (s : State) (a : Nat) (w : Word) : Word :=
  if a = R.GVS_GAPQ_STAT then BitVec.ofNat 32 s.eth.gapq.length
  else if R.GVS_GAP_INFO ≤ a && a ≤ R.GVS_GAP_LAST then
    match s.eth.gapq with
    | [] => 0
    | g :: _ =>
      if a = R.GVS_GAP_INFO then
        let n := match (s.strm g.stream).blocks.find? (fun b => b.id == g.block && b.closed.isNone) with
          | some b => min 15 b.reqs
          | none => 0
        setField (BitVec.ofNat 32 n) 21 16 g.stream
      else if a = R.GVS_GAP_BLK_LO then halfOf g.block false
      else if a = R.GVS_GAP_BLK_HI then halfOf g.block true
      else if a = R.GVS_GAP_FIRST then BitVec.ofNat 32 g.first
      else BitVec.ofNat 32 g.last
  else if R.GVS_S_CFG 0 ≤ a && a % 0x80 == 0x34 then
    let x := s.strm ((a - R.GVS_S_CFG 0) / 0x80)
    setField (flagAt w 31 (x.blocks.any (fun b => b.closed.isNone))) 10 0 x.m.queue.length
  else w

/-- PAR (ch. 07). -/
def viewPar (s : State) (a : Nat) (w : Word) : Word :=
  if a % 0x100 = 0x18 then
    let x := s.par (a / 0x100 % 0x100)
    setField (flagAt w 31 x.frame.isSome) 26 16 x.m.queue.length
  else w

/-- TRG (ch. 07): the width and generation in force. -/
def viewTrg (s : State) (a : Nat) (w : Word) : Word :=
  if a < 0x20250800 then
    let n := (a - 0x20250000) / 0x40
    if a % 0x40 = 0x20 then s.lrd (R.TRG_EXPO n)
    else if a % 0x40 = 0x24 then s.lrd (R.TRG_GEN n)
    else w
  else w

/-- MIL (ch. 08). -/
def viewMil (s : State) (a : Nat) (w : Word) : Word :=
  if a < R.MIL_SEG && a % 0x1000 == 0xA8 then
    let x := s.mill ((a - R.MIL_CFG 0) / 0x1000)
    setField (flagAt (flagAt (flagAt 0 31 (x.taken != 0)) 30 x.ref.isSome) 29 x.calRun) 15 0 (inqUsed x)
  else w

/-- COL (ch. 09). -/
def viewCol (s : State) (a : Nat) (w : Word) : Word :=
  if R.COL_M_CFG 0 ≤ a then
    if a % 0x40 = 0x18 then BitVec.ofNat 32 ((s.member ((a - R.COL_M_CFG 0) / 0x40)).state * 2 ^ 30) else w
  else if R.COL_SQ_CFG 0 ≤ a && a % 0x100 == 0x38 then
    let q := (a - R.COL_SQ_CFG 0) / 0x100
    let l := (s.seq q).sheaves
    let shut := (l.filter (fun h => h.stage == .closed)).length
    let free := if sqUsable (colCfg s) q then (freeBufs (colCfg s) (s.seq q) q).length else 0
    setField (setField (BitVec.ofNat 32 free) 28 24 (l.length - shut)) 20 16 shut
  else w

/-- HED (ch. 10). -/
def viewHed (s : State) (a : Nat) (w : Word) : Word :=
  if R.HED_O_CFG 0 ≤ a && a % 0x80 == 0x44 then
    let o := (a - R.HED_O_CFG 0) / 0x80
    flagAt 0 31 (s.hunits.any (fun h => h.out == o && !h.franked))
  else w

/-- THR (ch. 10). -/
def viewThr (s : State) (a : Nat) (w : Word) : Word :=
  if a = R.THR_FLQ then BitVec.ofNat 32 s.thr.flq.length
  else if R.THR_TQ_STAT 0 ≤ a && a < R.THR_TQ_STAT 128 then
    let c := (a - R.THR_TQ_STAT 0) / 4
    flagAt (BitVec.ofNat 32 (tileQ s c).length) 31 (s.thr.holds.any (fun e => e.2.1 == c + 4))
  else if R.THR_SQ_CFG 0 ≤ a && a % 0x80 == 0x38 then
    let q := (a - R.THR_SQ_CFG 0) / 0x80
    let mine := s.thr.jobs.filter (fun j => j.q == q)
    let left := match mine.find? (fun j => j.cfg.isSome) with
      | some j =>
        match thrSheaf s q j.buf with
        | some h =>
          let (nx, ny) := thrGrid (jobCfg s j) q (sqWidth h.cfg q) (sqLines h.cfg q)
          nx * ny - j.next
        | none => 0
      | none => 0
    setField (BitVec.ofNat 32 (mine.length + (s.thr.dealt.filter (fun e => e.1 == q)).length)) 31 16 left
  else w

/-- The earliest of some values, by their signed difference. -/
def earliest (l : List Int) : Int := match l with | [] => 0 | x :: r => r.foldl vMin x

/-- GRN (ch. 11). -/
def viewGrn (s : State) (a : Nat) (w : Word) : Word :=
  if a = R.GRN_SEG_CAP then BitVec.ofNat 32 (granCap s)
  else if a = R.GRN_SEG_USE then BitVec.ofNat 32 s.gran.segs.length
  else if a = R.GRN_PINNED then BitVec.ofNat 32 (pinnedCount s)
  else if a = R.GRN_OLDEST_LO then halfOf (wrapN 64 (earliest (s.gran.segs.map (·.minTime)))) false
  else if a = R.GRN_OLDEST_HI then halfOf (wrapN 64 (earliest (s.gran.segs.map (·.minTime)))) true
  else if a = R.GRN_X_STAT then flagAt (BitVec.ofNat 32 s.gran.reqs.length) 31 s.gran.run.isSome
  else if R.GRN_S_CFG 0 ≤ a then
    let n := (a - R.GRN_S_CFG 0) / 0x40
    let l := segsOf s n
    if a % 0x40 = 0x08 then flagAt (BitVec.ofNat 32 l.length) 31 (w.getLsbD 31 && decide (s.f (F.GRN_S_QUOTA_QUOTA n) ≤ l.length))
    else if a % 0x40 = 0x10 then halfOf (wrapN 64 (earliest (l.map (·.minPos)))) false
    else if a % 0x40 = 0x14 then halfOf (wrapN 64 (earliest (l.map (·.minPos)))) true
    else w
  else w

/-- MEM (ch. 11). -/
def viewMem (s : State) (a : Nat) (w : Word) : Word :=
  if a = R.MEM_STAT then flagAt w 31 (s.on F.MEM_SCRUB_PERIOD && s.boot.hbm && !s.boot.asleep)
  else if R.MEM_PART_BASE 0 ≤ a && a < R.MEM_PART_BASE 6 then
    let k := (a - R.MEM_PART_BASE 0) / 0x10
    if a % 0x10 = 0x08 then BitVec.ofNat 32 (partUse s k)
    else if a % 0x10 = 0x0C then flagAt 0 0 (w.getLsbD 0 && decide (s.f (F.MEM_PART_SIZE_SIZE k) ≤ partUse s k))
    else w
  else if R.MEM_PR_USE 0 ≤ a && a < R.MEM_PR_FREE then
    let r := (a - R.MEM_PR_USE 0) / 4
    let n := (s.ring r).chunks.length
    flagAt (BitVec.ofNat 32 n) 31 (w.getLsbD 31 && decide (s.f (F.MEM_PR_QUOTA_QUOTA r) ≤ n))
  else if a = R.MEM_PR_FREE then BitVec.ofNat 32 (chunksFree s)
  else w

/-- DLV_R_STAT of a ring: OVER from a write of QSLOTS below the slots in use until the use falls below it (R279, R304). -/
def ringStat (s : State) (r : Nat) : Word :=
  let w := s.rd (R.DLV_R_STAT r)
  flagAt w 29 (w.getLsbD 29 && decide (s.f (F.DLV_R_QSLOTS_SLOTS r) ≤ slotsUsed s r))

/-- DLV (ch. 12). -/
def viewDlv (s : State) (a : Nat) (w : Word) : Word :=
  if R.DLV_R_POLICY 0 ≤ a && a < R.DLV_R_POLICY 256 then
    if a % 0x20 = 0x0C then ringStat s ((a - R.DLV_R_POLICY 0) / 0x20) else w
  else if R.DLV_H_BASE_LO 0 ≤ a && a < R.DLV_H_BASE_LO 256 then
    let r := (a - R.DLV_H_BASE_LO 0) / 0x40
    if a % 0x40 = 0x18 then ringStat s r
    else if a % 0x40 = 0x1C then s.rd (R.DLV_R_POLICY r)
    else w
  else w

/-- DMA (ch. 12). -/
def viewDma (s : State) (a : Nat) (w : Word) : Word :=
  if a < R.DMA_C_SRC_LO 64 then
    let n := (a - R.DMA_C_SRC_LO 0) / 0x100
    let d := s.dma n
    match a % 0x100 with
    | 0x40 => halfOf d.curSrc false
    | 0x44 => halfOf d.curSrc true
    | 0x48 => halfOf d.curDst false
    | 0x4C => halfOf d.curDst true
    | 0x50 => BitVec.ofNat 32 d.remain
    | 0x54 => halfOf d.desc false
    | 0x58 => halfOf d.desc true
    | _ => w
  else if R.DMA_C_OWNER 0 ≤ a && a < R.DMA_C_OWNER 64 then flagAt w 31 (isRingChan s ((a - R.DMA_C_OWNER 0) / 4))
  else w

/-- PCI (ch. 13). -/
def viewPci (s : State) (a : Nat) (w : Word) : Word :=
  if a = R.PCI_TAGS then setField (BitVec.ofNat 32 s.reads.length) 28 16 s.pci.quar.length else w

/-- The effective level of the two-wire view (R441). -/
def twiLevel (s : State) : Nat :=
  if !s.on F.FUS_STAT_SENSED then 0
  else match s.lifecycle with
    | 0 => 3
    | 3 => 0
    | _ => min 3 (fieldOf (s.rd (R.FUS_WORD 0)) 18 16)

/-- TWI (ch. 18). -/
def viewTwi (s : State) (a : Nat) (w : Word) : Word :=
  if a = R.TWI_STAT then flagAt (setField w 27 26 (twiLevel s)) 25 s.twi.busy else w

/-- The 32 bytes of an error record (R425). -/
def LogRec.bytes (r : LogRec) : List (BitVec 8) :=
  bytesLE 4 r.seq ++ bytesLE 1 r.code ++ bytesLE 1 r.cls ++ bytesLE 2 r.unit ++ bytesLE 8 (wrapN 64 r.time) ++ bytesLE 8 r.addr ++
  bytesLE 2 r.detail ++ bytesLE 1 r.epoch ++ bytesLE 1 r.mode ++ bytesLE 2 r.rep ++ bytesLE 1 r.resets ++ [(0 : BitVec 8)]

/-- The bytes of the record with a sequence number, zero when it is no longer held. -/
def logBytes (s : State) (seq : Word) : List (BitVec 8) :=
  match s.ras.log.find? (fun r => BitVec.ofNat 32 r.seq == seq) with
  | some r => r.bytes
  | none => []

/-- RAS (ch. 17). -/
def viewRas (s : State) (a : Nat) (w : Word) : Word :=
  if a = R.RAS_SWD_COUNT then BitVec.ofNat 32 (swdCount s)
  else if R.RAS_LOG_DATA 0 ≤ a && a < R.RAS_LOG_DATA 8 then
    BitVec.ofNat 32 (leAt (logBytes s (s.rd R.RAS_LOG_SEL)) (a - R.RAS_LOG_DATA 0) 4)
  else w

/-- The number of a run state, and of the state of the bank not in use (CCX_C_STAT). -/
def runCode : RunSt → Nat
  | .halted => 0 | .running => 1 | .fault => 2 | .never => 3
def bankCode : BankSt → Nat
  | .empty => 0 | .ready => 1 | .retained => 2

/-- The status registers of a core (ch. 04). -/
def coreStat (k : CoreSt) (o : Nat) : Word :=
  match o with
  | 0x0 => flagAt (setField (flagAt (setField (BitVec.ofNat 32 (k.lastCause % 256)) 31 30 (runCode k.run)) 29 (k.bank != 0)) 28 27
      (bankCode k.other)) 26 k.forcedSw
  | 0x4 => k.haltPc
  | 0x8 => k.activeId
  | 0xC => if k.other == .empty then 0 else k.otherId
  | _ => 0

/-- SEC (ch. 14). -/
def viewSec (s : State) (a : Nat) (w : Word) : Word :=
  if a = R.SEC_STAT then setField w 19 16 s.spdm.sessions.length
  else if a = R.SEC_SIGN_Q then BitVec.ofNat 32 s.signQ.length
  else w

/-- The device reset status (ch. 01): the rings with output in poste restante are those that hold chunks of it (R292). -/
def viewRststat (s : State) (w : Word) : Word :=
  let n := (s.rings.filter (fun e => !e.2.chunks.isEmpty)).length
  flagAt (setField w 15 7 n) 4 (n != 0)

/-- HIF and EVT, which only the host reaches (ch. 13). -/
def viewHost (s : State) (a : Nat) (w : Word) : Word :=
  if a = R.HIF_MODE then setField (BitVec.ofNat 32 (s.f F.DEV_MODE_MODE * 2 ^ 28)) 25 24 s.lifecycle
  else if a = R.EVT_STAT then flagAt 0 0 (intaLevel s)
  else w

/-- What a register shows, from its stored word. -/
def viewWord (s : State) (a : Nat) (w : Word) : Word :=
  if 2 ^ 32 ≤ a then viewHost s a w
  else match blockBit a with
    | 0 => if a = R.DEV_RSTSTAT then viewRststat s w else w
    | 2 => viewSec s a w
    | 3 => viewAxs s a w
    | 4 => viewTim s a w
    | 5 => viewSch s a w
    | 6 => viewEvr s a w
    | 8 => viewEth s a w
    | 9 => viewGvs s a w
    | 11 => viewPar s a w
    | 12 => viewTrg s a w
    | 13 => viewMil s a w
    | 14 => viewCol s a w
    | 15 => viewHed s a w
    | 16 => viewThr s a w
    | 17 => viewGrn s a w
    | 18 => viewMem s a w
    | 19 => viewDlv s a w
    | 20 => viewDma s a w
    | 21 => viewPci s a w
    | 22 => viewTwi s a w
    | 25 => viewRas s a w
    | 26 => if a < R.CCX_STAT then coreStat (s.core ((a - R.CCX_C_STAT 0) / 0x40)) (a % 0x40) else w
    | 27 => coreStat (s.core (4 + (a - R.TCX_T_STAT 0) / 0x10)) (a % 0x10)
    | _ => w

/-- Registers whose reading the spec leaves open: power by rail (R420), and the FEC counts (ch. 06) and memory bandwidth (ch. 11),
for which no event of the spec gives a value. -/
def openRead (s : State) (a : Nat) : Bool :=
  (decide (R.PWR_P_CORE ≤ a) && decide (a ≤ R.PWR_P_TOTAL)) || a == R.MEM_BW ||
  (blockBit a == 8 && decide (a < R.ETH_CFG 16) && (a % 0x400 == 0x38 || a % 0x400 == 0x3C) && s.on (F.ETH_STAT_FEC_LOCK ((a - R.ETH_CFG 0) / 0x400)))

/-- The bits of an open reading that its fields occupy. -/
def openMask (a : Nat) : Word := if a = R.MEM_BW then 0x03FF03FF else if blockBit a = 24 then 0x000FFFFF else 0xFFFFFFFF

/-- The buffers that stand beside the register map: the management frames, the transmit windows and the relay's command and
acknowledge (ch. 06), and the letters' mirrors (R111). -/
def inBuffer (a : Nat) : Bool :=
  (decide (R.ETH_CFG 0 ≤ a) && decide (a < R.ETH_CFG 16) && decide (0x300 ≤ a % 0x400)) ||
  (decide (rlyBuf ≤ a) && decide (a < rlyBuf + 576)) || (decide (rlyAck ≤ a) && decide (a < rlyAck + 0x240)) ||
  (decide (ccxLetter 0 ≤ a) && decide (a < ccxLetter 4)) ||
  (decide (mbxReq 0 ≤ a) && decide (a < mbxReq 4) && decide (a % 0x4000 < 0x2000))

/-- A register as it stands, without latches. -/
def regLive (s : State) (a : Nat) : Word × State :=
  if openRead s a then
    let (v, s) := s.free
    (BitVec.ofNat 32 v &&& openMask a, s)
  else if inBuffer a then (BitVec.ofNat 32 (mreadN s.bufs a 4), s)
  else if blockBit a == 8 && decide (0x200 ≤ a % 0x400) && decide (a < R.ETH_CFG 16) then (viewEth s a 0, s)
  else if (lookup a).isSome then (viewWord s a (s.rd a), s)
  else (0, s)

/-- Which half of a pair an address is (R9). -/
def halfAt (a : Nat) : Half := match lookup a with | some (_, _, r) => r.half | none => .none

/-- The registers latched by a read of a register: the high word of a pair (R9), and the words that TIM_NS, TIM_PPS_NS and the two PTP
stamps latch (R53, R59, R162). -/
def latchesOf (a : Nat) : List Nat :=
  if a = R.TIM_NS then [R.TIM_SEC_LO, R.TIM_SEC_HI, R.TIM_SUBNS]
  else if a = R.TIM_PPS_NS then [R.TIM_PPS_SEC]
  else if blockBit a = 8 && (a % 0x400 == 0x54 || a % 0x400 == 0x68) then [a + 4, a + 8]
  else if halfAt a = .lo then [a + 4]
  else []

/-- Registers that a read gives from the requester's latch, when it has one. -/
def latchable (a : Nat) : Bool :=
  halfAt a == .hi || a == R.TIM_SEC_LO || a == R.TIM_SUBNS || a == R.TIM_PPS_SEC ||
  (blockBit a == 8 && (a % 0x400 == 0x58 || a % 0x400 == 0x5C || a % 0x400 == 0x6C || a % 0x400 == 0x70))

/-- Latch some registers for a requester. -/
def latchAll (s : State) (r : Requester) : List Nat → State
  | [] => s
  | b :: t => let (w, s) := regLive s b; latchAll (s.setLatch r b w) r t

/-- Clear the RC fields of a register after its read (R6). -/
def clearRc (s : State) (a : Nat) : State :=
  match lookup a with
  | some (_, _, i) =>
    if i.fields.any (fun f => f.ty == .rc) then
      s.wr a (i.fields.foldl (fun w f => if f.ty = .rc then setField w f.hi f.lo 0 else w) (s.rd a))
    else s
  | none => s

/-- Read a register for a requester (R6, R9): the latched word where the requester has one; otherwise the register as it stands, and
the registers it latches; RC fields clear. -/
def regRead (s : State) (r : Requester) (a : Nat) : Word × State :=
  match if latchable a then s.latched r a else none with
  | some w => (w, s)
  | none =>
    let (w, s) := regLive s a
    (w, clearRc (latchAll s r (latchesOf a)) a)

end Sys2Proof.Machine
end

