-- ==== Sys2Proof/Machine/RegBus.lean ====
section
/-! DEFINITION. Machine/RegBus.lean: writes of registers (R5 to R12), what a write makes happen in its block, and the accesses of
cores and of the host to registers (R7, R25, R96, R108, R313, R336, R337). -/

namespace Sys2Proof.Machine
open Sys2Proof

/-! ### The checks of a written value (R12) -/

/-- The value stored for a field and whether the range flag is set: `old` is the field's value, `v` what was written. -/
def chkField (c : Chk) (width old v : Nat) : Nat × Bool :=
  match c with
  | .none => (v, false)
  | .max m => if m < v then (m, true) else (v, false)
  | .min m => if v < m then (m, true) else (v, false)
  | .lim a b => if v < a then (a, true) else if b < v then (b, true) else (v, false)
  | .slim m =>
    let x := signed width v
    let y := clampI (-(m : Int)) m x
    (wrapN width y, x != y)
  | .code c => (v, decide (c ≤ v))
  | .code0 c => if c ≤ v then (0, true) else (v, false)
  | .keep c => if c ≤ v then (old, true) else (v, false)

/-- A written word goes into one field of a register, by its type (R6): the new word, and whether the range flag is set. -/
def writeField (e : Word × Bool) (v : Word) (f : FInfo) : Word × Bool :=
  let old := fieldOf e.1 f.hi f.lo
  let x := fieldOf v f.hi f.lo
  match f.ty with
  | .rw | .sh | .rwl =>
    let (y, r) := chkField f.chk (f.hi + 1 - f.lo) old x
    (setField e.1 f.hi f.lo y, e.2 || r)
  | .w1c => (setField e.1 f.hi f.lo (old - (old &&& x)), e.2)
  | .w1s => (setField e.1 f.hi f.lo (old ||| x), e.2)
  | .ro | .rc | .wo => e

/-- Set the range flag of the group a register belongs to, and its block's summary (R12). -/
def rangeFlag (s : State) (g : Group) (i : Nat) : State :=
  let s := if g.rangeBase = 0 then s else s.set1 ⟨g.rangeBase + i * g.rangeStride, g.rangeBit, g.rangeBit⟩
  if g.base == groupColq.base || g.base == groupColm.base then s.set1 F.COL_STAT_RANGE
  else if g.base == groupHedo.base then s.set1 F.HED_STAT_RANGE
  else if g.base == groupDlvr.base || g.base == groupDlvc.base then s.set1 F.DLV_STAT_RANGE
  else if g.base == groupDlvh.base then (s.set1 (F.DLV_R_STAT_RANGE i)).set1 F.DLV_STAT_RANGE
  else s

/-- The fields of a register of an instance: HED_O_MODE has those of its head (ch. 10). -/
def fieldsAt (g : Group) (i : Nat) (r : RInfo) : List FInfo :=
  if g.base == groupHedo.base && r.off == 0x0C then
    if i < 16 then [⟨4, 4, .sh, 0, .none⟩, ⟨3, 0, .sh, 0, .max 12⟩]
    else if i < 24 then [⟨2, 2, .sh, 0, .none⟩, ⟨1, 0, .sh, 0, .none⟩]
    else [⟨1, 0, .sh, 0, .none⟩]
  else r.fields

/-- A write of a register, field by field (R6, R8, R12). -/
def genWrite (s : State) (a : Nat) (v : Word) : State :=
  match lookup a with
  | none => s
  | some (g, i, r) =>
    let (w, bad) := (fieldsAt g i r).foldl (fun e f => writeField e v f) (s.rd a, false)
    let s := s.wr a w
    if bad then rangeFlag s g i else s

/-! ### What a write makes happen, block by block -/

/-- A write of AXS_CFG (R27, R28, R31, R37): a SOURCE that names nothing sets RANGE; an axis that comes to hold keeps its position. -/
def axsCfg (s : State) (n : Nat) (v : Word) : State :=
  if n = 15 then s
  else
    let s := if n < 8 then countDue s n (s.axis n).ticks else s
    let old := axisWord s n
    let wasOn := s.on (F.AXS_CFG_ENABLE n)
    let src := fieldOf v 27 24
    let t := genWrite s (R.AXS_CFG n) v
    let t := if (n < 8 && 8 ≤ src) || (8 ≤ n && n < 12 && 8 ≤ src && src ≤ 11) then t.set1 (F.AXS_STAT_RANGE n) else t
    let dec := t.f (F.AXS_CFG_DECODE n)
    let holds := !t.on (F.AXS_CFG_ENABLE n) ||
      (n < 8 && (dec == 0 || decide (6 ≤ dec) || decide (8 ≤ t.f (F.AXS_CFG_SOURCE n)))) ||
      (decide (8 ≤ n) && decide (n < 12) && !derivedValid t n)
    let t := if holds then t.setAxis n { t.axis n with word := old, heldF := none, run := 0, ticks := [] } else t
    let t := if 8 ≤ n && n < 12 && t.on (F.AXS_CFG_ENABLE n) && !derivedValid t n then t.set1 (F.AXS_STAT_RANGE n) else t
    if t.on (F.AXS_CFG_ENABLE n) && !wasOn then t.setAxis n { t.axis n with stallFrom := t.now } else t

/-- AXS (ch. 02): registers that do not apply to the axis ignore writes. -/
def writeAxs (s : State) (a : Nat) (v : Word) : State :=
  let n := a / 0x100 % 0x100
  let o := a % 0x100
  if n < 16 && axsApplies n o then
    if o = 0 then axsCfg s n v
    else if o = 0x28 then
      let s := if v.getLsbD 0 then doPreset s n else s
      if v.getLsbD 1 then doAxsApply s n else s
    else genWrite s a v
  else s

/-- TIM (ch. 02). -/
def writeTim (s : State) (r : Requester) (a : Nat) (v : Word) : State :=
  if a = R.TIM_RATE then doTimRate s v
  else if a = R.TIM_CMD then
    let s := if v.getLsbD 0 then doAuthStep s r else s
    if v.getLsbD 1 then doHold (if v.getLsbD 2 then s.set1 F.TIM_STAT_RANGE else s)
    else if v.getLsbD 2 then doRelease s
    else s
  else if a = R.TIM_PPS_CFG then
    let wasIn := s.on F.TIM_PPS_CFG_IN_EN
    let wasOut := s.on F.TIM_PPS_CFG_OUT_EN
    let pol := s.on F.TIM_PPS_CFG_OUT_POL
    let s := genWrite s a v
    let s := if s.on F.TIM_PPS_CFG_OUT_EN && !wasOut then { s with tim := { s.tim with ppsSec := ppsIndex s } } else s
    let s := if s.on F.TIM_PPS_CFG_IN_EN && !wasIn then { s with tim := { s.tim with ppsFrom := s.now } } else s
    if s.on F.TIM_PPS_CFG_OUT_POL != pol then drivePps s s.tim.ppsEnd.isSome else s
  else if a = R.TIM_PPS_OUT_OFS then
    let s := genWrite s a v
    { s with tim := { s.tim with ppsSec := ppsIndex s } }
  else genWrite s a v

/-- EVR (ch. 05). -/
def writeEvr (s : State) (a : Nat) (v : Word) : State :=
  if a = R.EVR_GRP_ON then groupsOn s v
  else if a = R.EVR_GRP_OFF then groupsOff s v
  else if R.EVR_SEL 0 0 ≤ a && a < R.EVR_SEL 512 0 then
    let i := (a - R.EVR_SEL 0 0) / 0x20
    let o := a % 0x20
    if o < 0x10 then doSelWrite s i (o / 4) v
    else if o = 0x14 then (if v.getLsbD 0 then doFlush s i else s)
    else genWrite s a v
  else genWrite s a v

/-- LNK (ch. 06, ch. 15). -/
def writeLnk (s : State) (a : Nat) (v : Word) : State :=
  if a < R.LNK_LANE_CFG 24 then doLaneCfg s ((a - R.LNK_LANE_CFG 0) / 4) v
  else if R.LNK_TXEQ 0 ≤ a && a < R.LNK_TXEQ 24 then
    let n := (a - R.LNK_TXEQ 0) / 0x40
    let o := a % 0x40
    if o = 0 then doTxeq s n v
    else if o = 0x14 then
      let s := if v.getLsbD 1 then doSnapshot s n else s
      if v.getLsbD 0 then laneLeft s n else s
    else genWrite s a v
  else genWrite s a v

/-- ETH (ch. 06). -/
def writeEth (s : State) (a : Nat) (v : Word) : State :=
  if a < R.ETH_CFG 16 then
    let m := (a - R.ETH_CFG 0) / 0x400
    let o := a % 0x400
    if o = 0 then doEthCfg s m v
    else if o = 0x40 then doPtpCfg s m v
    else if o = 0x60 then (if v.getLsbD 0 then doMrqPop s m else s)
    else if o = 0x64 then doMtx s m v
    else if 0x300 ≤ o then s.bwrite a (bytesLE 4 v.toNat)
    else genWrite s a v
  else s

/-- GVS (ch. 06). -/
def writeGvs (s : State) (a : Nat) (v : Word) : State :=
  if a = R.GVS_GAP_CMD then (if v.getLsbD 0 then doGapSend s else if v.getLsbD 1 then doGapDrop s else s)
  else if a = R.GVS_RLY_CMD then doRelayGo s v
  else if R.GVS_ACT_CFG 0 ≤ a && a < R.GVS_ACT_CFG 16 then
    let t := (a - R.GVS_ACT_CFG 0) / 0x20
    if a % 0x20 = 0x1C then (if v.getLsbD 0 then doActSend s t else s) else genWrite s a v
  else if rlyBuf ≤ a && a < rlyBuf + 576 then s.bwrite a (bytesLE 4 v.toNat)
  else if R.GVS_S_CFG 0 ≤ a && a < R.GVS_S_CFG 64 && a % 0x80 == 0x60 then
    let n := (a - R.GVS_S_CFG 0) / 0x80
    let s := if v.getLsbD 0 then flushTrigq s (.net n) else s
    let s := if v.getLsbD 1 then doClearUnc s n else s
    if v.getLsbD 2 then streamApply s n else s
  else genWrite s a v

/-- EBK (ch. 15). -/
def writeEbk (s : State) (r : Requester) (a : Nat) (v : Word) : State :=
  if a = R.EBK_NODE then doEbkNode s v
  else if a = R.EBK_X_GO then doXferGo s r v
  else if R.EBK_CFG 0 ≤ a && a < R.EBK_CFG 8 then
    let k := (a - R.EBK_CFG 0) / 0x100
    if a % 0x100 = 0 then doEbkCfg s k v
    else if a % 0x100 = 0x40 then (if v.getLsbD 0 then doEbkRestart s k else s)
    else genWrite s a v
  else genWrite s a v

/-- PAR (ch. 07): APPLY is the apply point of the stream the port feeds. -/
def writePar (s : State) (a : Nat) (v : Word) : State :=
  if a < R.PAR_CFG 4 && a % 0x100 == 0x3C then
    let p := a / 0x100 % 0x100
    let s := if v.getLsbD 0 then flushTrigq s (.par p) else s
    if v.getLsbD 1 then streamApply s (s.lf (F.PAR_CFG_STREAM p)) else s
  else genWrite s a v

/-- TRG (ch. 07). -/
def writeTrg (s : State) (a : Nat) (v : Word) : State :=
  if a < R.TRG_CFG 32 then
    if a % 0x40 = 0x30 then
      let n := (a - R.TRG_CFG 0) / 0x40
      let s := if v.getLsbD 1 then applyTrig s n else s
      if v.getLsbD 0 then doFire s n else s
    else genWrite s a v
  else if R.TRG_GPIO_CFG 0 ≤ a && a < R.TRG_GPIO_CFG 16 && a % 0x10 == 0 then
    let g := (a - R.TRG_GPIO_CFG 0) / 0x10
    let s0 := s
    let s := genWrite s a v
    let s := if s.f (F.TRG_GPIO_CFG_MODE g) = 3 then s.set1 F.TRG_GPIO_STAT_RANGE else s
    gpioWritten s0 s g
  else genWrite s a v

/-- MIL (ch. 08). -/
def writeMil (s : State) (a : Nat) (v : Word) : State :=
  if a < R.MIL_SEG && a % 0x1000 == 0xC0 then
    let n := (a - R.MIL_CFG 0) / 0x1000
    let s := if v.getLsbD 0 then streamApply s n else s
    let s := if v.getLsbD 1 then doTnrReset s n else s
    let s := if v.getLsbD 2 then doCalAbort s n else s
    if v.getLsbD 3 then doCalStart s n else s
  else genWrite s a v

/-- COL (ch. 09). -/
def writeCol (s : State) (a : Nat) (v : Word) : State :=
  if a = R.COL_CMD then (if v.getLsbD 0 then colApply s else s)
  else if R.COL_SQ_CFG 0 ≤ a && a < R.COL_SQ_CFG 8 then
    let q := (a - R.COL_SQ_CFG 0) / 0x100
    if a % 0x100 = 0x5C then releaseBuf s q (v.toNat % 16) 4
    else if a % 0x100 = 0x60 then (if v.getLsbD 0 then doRestart s q else s)
    else genWrite s a v
  else genWrite s a v

/-- GRN (ch. 11). -/
def writeGrn (s : State) (a : Nat) (v : Word) : State :=
  if a = R.GRN_CFG then granSmall (genWrite s a v)
  else if a = R.GRN_X_GO then
    let s := if v.getLsbD 1 then doXAbort s else s
    if v.getLsbD 0 then doXGo s else s
  else if R.GRN_S_CFG 0 ≤ a && a < R.GRN_S_CFG 64 && a % 0x40 == 4 then
    let n := (a - R.GRN_S_CFG 0) / 0x40
    let s := genWrite s a v
    if s.f (F.GRN_S_QUOTA_QUOTA n) < (segsOf s n).length then (s.set1 (F.GRN_S_USE_OVER n)).set1 F.GRN_STAT_OVER else s
  else genWrite s a v

/-- MEM (ch. 11). -/
def writeMem (s : State) (a : Nat) (v : Word) : State :=
  if R.MEM_PART_BASE 0 ≤ a && a < R.MEM_PART_BASE 6 && (a % 0x10 == 0 || a % 0x10 == 4) then
    doPart s ((a - R.MEM_PART_BASE 0) / 0x10) (a % 0x10 == 4) v
  else if R.MEM_PR_QUOTA 0 ≤ a && a < R.MEM_PR_QUOTA 256 then
    let r := (a - R.MEM_PR_QUOTA 0) / 4
    let s := genWrite s a v
    if s.f (F.MEM_PR_QUOTA_QUOTA r) < (s.ring r).chunks.length then s.set1 (F.MEM_PR_USE_OVER r) else s
  else genWrite s a v

/-- DLV (ch. 12): the ring's geometry and the completion queues are written through the host view (`hv`) alone. -/
def writeDlv (s : State) (r : Requester) (hv : Bool) (a : Nat) (v : Word) : State :=
  if R.DLV_R_POLICY 0 ≤ a && a < R.DLV_R_POLICY 256 then
    let n := (a - R.DLV_R_POLICY 0) / 0x20
    let o := a % 0x20
    if hv then s
    else if o = 0 then doPolicy s n v
    else if o = 4 then doQbps s n v
    else if o = 8 then
      let s := genWrite s a v
      let s := if s.f (F.DLV_R_QSLOTS_SLOTS n) < slotsUsed s n then s.set1 (F.DLV_R_STAT_OVER n) else s
      pumpRing s n
    else genWrite s a v
  else if 0x20803000 ≤ a && a < 0x20803400 then
    if hv || !v.getLsbD 0 then s else doDiscard s ((a - 0x20803000) / 4)
  else if R.DLV_H_BASE_LO 0 ≤ a && a < R.DLV_H_BASE_LO 256 then
    let n := (a - R.DLV_H_BASE_LO 0) / 0x40
    let o := a % 0x40
    if !hv then s
    else if o = 0xC then
      let s := if v.getLsbD 0 then doActivate s n else s
      if v.getLsbD 1 then doDeactivate s n else s
    else if o = 0x14 then doCons s n v
    else if o = 0x18 || o = 0x1C then s
    else genWrite s a v
  else if R.DLV_CQ_BASE_LO 0 ≤ a && a < R.DLV_CQ_BASE_LO 32 then
    let c := (a - R.DLV_CQ_BASE_LO 0) / 0x20
    let o := a % 0x20
    if !hv then s
    else if o = 0x14 then doCqHead s c v
    else if o = 0x1C then
      let s := if v.getLsbD 0 then doCqEnable s c else s
      if v.getLsbD 1 then doCqDisable s c else s
    else genWrite s a v
  else if hv || r == .host && a != R.DLV_STAT then s else genWrite s a v

/-- The view through which a channel is written owns it (R313). -/
def ownsChan (s : State) (r : Requester) (hv : Bool) (n : Nat) : Bool :=
  match r with
  | .core c => s.f (F.DMA_C_OWNER_KIND n) == 1 && !hv && s.f (F.DMA_C_OWNER_CORE n) == targetOf c.val
  | _ => hv && s.f (F.DMA_C_OWNER_KIND n) == 0

/-- DMA (ch. 12). -/
def writeDma (s : State) (r : Requester) (hv : Bool) (a : Nat) (v : Word) : State :=
  if a < R.DMA_C_SRC_LO 64 then
    let n := (a - R.DMA_C_SRC_LO 0) / 0x100
    let o := a % 0x100
    if (lookup a).isNone then s
    else if !ownsChan s r hv n then s.lockedWrite a
    else if o = 0x60 then
      let act (b : Nat) (f : State → Nat → State) (s : State) : State := if v.getLsbD b then f s n else s
      act 4 doDoorbell (act 3 doAbort (act 2 doResume (act 1 doPause (act 0 doStart s))))
    else if o < 0x24 && isRingChan s n then s.lockedWrite a
    else genWrite s a v
  else if hv then s else genWrite s a v

/-- PCI (ch. 13). -/
def writePci (s : State) (r : Requester) (hv : Bool) (a : Nat) (v : Word) : State :=
  if a = R.PCI_CONTAIN then (if v.getLsbD 0 then doContainRelease s (v.getLsbD 1) else s)
  else if a = R.PCI_CONTAIN_MASK then genWrite s a v
  else if a = R.PCI_BAR2_WIN then
    let lc := s.lifecycle
    if lc ≤ 1 || (lc == 2 && !(hv || r == .host)) then genWrite s a v else s.lockedWrite a
  else if hv then s
  else if a = R.PCI_PME then
    let s := genWrite s a v
    if v.getLsbD 31 then signalPme s else s
  else genWrite s a v

/-- TWI_CFG (R7, R444): UNLIMITED is locked while its fuse, bit 19 of word 0, is not blown: what a write gives it is ignored, and
recorded. -/
def writeTwiCfg (s : State) (v : Word) : State :=
  if (s.rd (R.FUS_WORD 0)).getLsbD 19 then genWrite s R.TWI_CFG v
  else (genWrite s R.TWI_CFG (setField v 31 31 (s.f F.TWI_CFG_UNLIMITED))).lockedWrite R.TWI_CFG

/-- RAS (ch. 17). -/
def writeRas (s : State) (a : Nat) (v : Word) : State :=
  if a = R.RAS_CMD then
    let s := if v.getLsbD 0 then doWarm s else s
    if v.getLsbD 1 then doLogClear s else s
  else if a = R.RAS_SWD then doSwdKick (genWrite s a v)
  else if a = R.RAS_SWD_KICK then doSwdKick s
  else genWrite s a v

/-- The mailbox whose letter, reply or registers stand at an address of CCX (R108). -/
def mailboxAt (a : Nat) : Option Nat :=
  if ccxLetter 0 ≤ a && a < ccxLetter 4 then some ((a - ccxLetter 0) / 0x2000)
  else if R.CCX_MBX_POST 0 ≤ a && a < R.CCX_MBX_POST 4 then some ((a - R.CCX_MBX_POST 0) / 4)
  else if R.CCX_MBX_STAT 0 ≤ a && a < R.CCX_MBX_STAT 4 then some ((a - R.CCX_MBX_STAT 0) / 4)
  else none

/-- A requester reaches mailbox `m` from the inside (R108): only the control core that serves it. -/
def servesMailbox (s : State) (r : Requester) (m : Nat) : Bool :=
  match r with
  | .core c => decide (c.val < 4) && (s.core c.val).grant.mbx.testBit m
  | _ => false

/-- CCX (ch. 04). -/
def writeCcx (s : State) (r : Requester) (a : Nat) (v : Word) : State :=
  match mailboxAt a with
  | some m =>
    if !servesMailbox s r m then s.lockedWrite a
    else if a = R.CCX_MBX_POST m then
      (match r with
       | .core c => if v.getLsbD 0 then doPost s c.val m else s
       | _ => s)
    else if ccxLetter 0 ≤ a && a < ccxLetter 4 then
      if a % 0x2000 < 0x1000 then s else s.bwrite a (bytesLE 4 v.toNat)
    else genWrite s a v
  | none => genWrite s a v

/-- DEV (ch. 16). -/
def writeDev (s : State) (a : Nat) (v : Word) : State :=
  if a = R.DEV_MODE_CMD then doModeCmd s (v.toNat % 16)
  else if a = R.DEV_CMD then (if v.getLsbD 0 then doFullReset s else s)
  else if a = R.DEV_RPL_CMD then (if v.getLsbD 1 then doReplayAbort s else if v.getLsbD 0 then doReplayGo s else s)
  else if a = R.DEV_BIST_CMD then (if v.getLsbD 0 then doBistGo s else s)
  else genWrite s a v

/-- THR (ch. 10). -/
def writeThr (s : State) (a : Nat) (v : Word) : State :=
  if a = R.THR_TILE_DONE then doTileDone s v
  else if a = R.THR_CMD then (if v.getLsbD 0 then thrApply s else s)
  else genWrite s a v

/-- The registers that only the host reaches: mailboxes, events, the host's RAS registers (ch. 04, ch. 13, ch. 17). -/
def writeHost (s : State) (a : Nat) (v : Word) : State :=
  if mbxReq 0 ≤ a && a < mbxReq 4 then
    let m := (a - mbxReq 0) / 0x4000
    let o := a % 0x4000
    if o < 0x1000 then s.bwrite a (bytesLE 4 v.toNat)
    else if a = R.MBX_SEND m then
      let s := if v.getLsbD 0 then doSend s m else s
      if v.getLsbD 1 then doAbortLetter s m else s
    else genWrite s a v
  else if R.EVT_PEND 0 ≤ a && a < R.EVT_STAT then updateInta (genWrite s a v)
  else if a = R.RAS_H_CMD then
    if !v.getLsbD 0 then s else if s.lifecycle ≤ 1 then doWarm s else s.lockedWrite R.RAS_H_CMD
  else genWrite s a v

/-- A write of a register that is not the low half of a pair (R6): what it makes happen in its block. -/
def hookWrite (s : State) (r : Requester) (hv : Bool) (a : Nat) (v : Word) : State :=
  if 2 ^ 32 ≤ a then writeHost s a v
  else match blockBit a with
    | 0 => writeDev s a v
    | 1 => s
    | 2 => genWrite s a v
    | 3 => writeAxs s a v
    | 4 => writeTim s r a v
    | 5 => if a = R.SCH_CMD then (if v.getLsbD 0 then doDisarmAll s else s) else genWrite s a v
    | 6 => writeEvr s a v
    | 7 => writeLnk s a v
    | 8 => writeEth s a v
    | 9 => writeGvs s a v
    | 10 => writeEbk s r a v
    | 11 => writePar s a v
    | 12 => writeTrg s a v
    | 13 => writeMil s a v
    | 14 => writeCol s a v
    | 15 => if a = R.HED_CMD then (if v.getLsbD 0 then hedApply s else s) else genWrite s a v
    | 16 => writeThr s a v
    | 17 => writeGrn s a v
    | 18 => writeMem s a v
    | 19 => writeDlv s r hv a v
    | 20 => writeDma s r hv a v
    | 21 => writePci s r hv a v
    | 22 => if a = R.TWI_CFG then writeTwiCfg s v else genWrite s a v
    | 24 => if a = R.PWR_CFG then doPwrCfg s v else genWrite s a v
    | 25 => writeRas s a v
    | 26 => writeCcx s r a v
    | _ => genWrite s a v

/-- A register that a write can change: some field of it is not read-only. -/
def writable (a : Nat) : Bool :=
  match lookup a with
  | some (_, _, i) => i.fields.any (fun f => f.ty == .rw || f.ty == .sh || f.ty == .rwl)
  | none => false

/-- The view that writes a register may write it at all: DLV's host-side pairs belong to the host view, a channel's to its owner. -/
def pairOpen (s : State) (r : Requester) (hv : Bool) (a : Nat) : Bool :=
  if 2 ^ 32 ≤ a then true
  else match blockBit a with
    | 3 => axsApplies (a / 0x100 % 0x100) (a % 0x100)
    | 19 => if R.DLV_H_BASE_LO 0 ≤ a then hv else !hv
    | 20 => a < R.DMA_C_SRC_LO 64 && ownsChan s r hv ((a - R.DMA_C_SRC_LO 0) / 0x100) && !isRingChan s ((a - R.DMA_C_SRC_LO 0) / 0x100)
    | _ => true

/-- Write a register for a requester (R6, R9): the low half of a pair is only kept; a write of the high half commits both. -/
def regWrite (s : State) (r : Requester) (hv : Bool) (a : Nat) (v : Word) : State :=
  match halfAt a with
  | .none => hookWrite s r hv a v
  | .lo =>
    if !writable a then s
    else if pairOpen s r hv a then s.setPendLo r a v
    else hookWrite s r hv a v
  | .hi =>
    if !writable a then s
    else if a = R.TIM_ADJ_HI then doTimAdj s r v
    else if pairOpen s r hv a then
      let lo := (s.pendingLo r (a - 4)).getD (s.rd (a - 4))
      hookWrite (hookWrite (s.dropPendLo r (a - 4)) r hv (a - 4) lo) r hv a v
    else hookWrite s r hv a v

/-! ### Accesses by cores (R16, R25, R96, R98, R108) -/

/-- The host side's registers read as zero and ignore writes during a host-side reset (R25). -/
def hostSideAway (s : State) (a : Nat) : Bool := s.pci.rst.isSome && 19 ≤ blockBit a && blockBit a ≤ 21

/-- A core reads a register it reaches. -/
def coreRegRead (s : State) (c : CoreNo) (a : Nat) : Word × State :=
  if hostSideAway s a then (0, s)
  else match mailboxAt a with
    | some m => if servesMailbox s (.core c) m then regRead s (.core c) a else (0, s.lockedWrite a)
    | none => regRead s (.core c) a

/-- A core writes a register it reaches. -/
def coreRegWrite (s : State) (c : CoreNo) (a : Nat) (v : Word) : State :=
  if hostSideAway s a then s else regWrite s (.core c) false a v

/-! ### Accesses by the host through BAR0 (R17, R336, R380) -/

/-- Where an offset of BAR0 below the mirror leads: an internal register of a host view, or the host's own registers. -/
def hostHome (o : Nat) : Nat × Bool :=
  if o = 0x10 then (R.DEV_RSTSTAT, true)
  else if 0x100 ≤ o && o < 0x130 then (R.PCI_LINK + (o - 0x100), true)
  else if 0x100000 ≤ o && o < 0x104000 then (R.DLV_H_BASE_LO 0 + (o - 0x100000), true)
  else if 0x108000 ≤ o && o < 0x108400 then (R.DLV_CQ_BASE_LO 0 + (o - 0x108000), true)
  else if 0x200000 ≤ o && o < 0x204000 then (R.DMA_C_SRC_LO 0 + (o - 0x200000), true)
  else if 0x400000 ≤ o && o < 0x400100 then (R.RAS_STAT + (o - 0x400000), true)
  else (2 ^ 32 + o, false)

/-- The mirror answers (R336): in BLANK, or with the DEBUG_OPEN fuse. -/
def mirrorOpen (s : State) : Bool := s.lifecycle == 0 || s.on F.FUS_LC_DEBUG_OPEN

/-- In LOCKDOWN BAR0 serves HIF, the mailboxes and the RAS host view (R380). -/
def bar0Served (s : State) (o : Nat) : Bool :=
  !s.lockdown || decide (o < 0x20000) || (decide (0x400000 ≤ o) && decide (o < 0x410000))

/-- A read by the host of one dword of BAR0. -/
def hostRegRead (s : State) (o : Nat) : Word × State :=
  if !bar0Served s o then (0, s)
  else if 0x1000000 ≤ o then
    let a := 0x20000000 + (o - 0x1000000)
    if !mirrorOpen s || blockBit a == 28 then (0, s)
    else match mailboxAt a with
      | some _ => (0, s)
      | none => regRead s .host a
  else
    let (a, _) := hostHome o
    let (w, s) := regRead s .host a
    (if o = 0x10 then flagAt w 0 false else w, s)

/-- A write by the host of one dword of BAR0. -/
def hostRegWrite (s : State) (o : Nat) (v : Word) : State :=
  if !bar0Served s o then s
  else if 0x1000000 ≤ o then
    let a := 0x20000000 + (o - 0x1000000)
    if !mirrorOpen s || blockBit a == 28 then s
    else if s.lifecycle = 0 && blockBit a != 2 && (mailboxAt a).isNone then regWrite s .host false a v
    else s.lockedWrite a
  else
    let (a, hv) := hostHome o
    if hv && (blockBit a == 0 || blockBit a == 25) then s else regWrite s .host hv a v

/-- The host's requests reach the registers: not held, awake, no host-side reset (R25, R346). -/
def hostRegs (s : State) : Bool := endpointUp s && s.pci.rst.isNone

/-- A register access by address: an internal address through the host's mirror, or 2^32 plus an offset of BAR0. -/
def barOffset (a : Nat) : Nat := if 2 ^ 32 ≤ a then a - 2 ^ 32 else 0x1000000 + (a - 0x20000000)

/-- A read as one of the register commands: a core's read stops at its grant (R98), the host reads through BAR0. -/
def cmdRead (s : State) (r : Requester) (a : Nat) : State :=
  match r with
  | .core c =>
    if !s.up || (s.core c.val).run != .running || a % 4 != 0 then s
    else if coreReaches s c a false then (coreRegRead s c a).2 else takeExc s c 3 1 a
  | .host => if hostRegs s && memEn s && (decide (2 ^ 32 ≤ a) || decide (0x20000000 ≤ a)) then (hostRegRead s (barOffset a / 4 * 4)).2 else s
  | .twi => s

/-- A write as one of the register commands. -/
def cmdWrite (s : State) (r : Requester) (a : Nat) (v : Word) : State :=
  match r with
  | .core c =>
    if !s.up || a % 4 != 0 then s else byCore s c a (fun s => coreRegWrite s c a v)
  | .host => if hostRegs s && memEn s && (decide (2 ^ 32 ≤ a) || decide (0x20000000 ≤ a)) then hostRegWrite s (barOffset a / 4 * 4) v else s
  | .twi => s

/-- RC_READ (R6): a read of a register with a field that clears on read. -/
def execRcRead (r : Requester) (a : BitVec 34) (s : State) : Host.Outcome State Fault Refusal :=
  match lookup a.toNat with
  | some (_, _, i) => done (if i.fields.any (fun f => f.ty == .rc) then cmdRead s r a.toNat else s)
  | none => done s

/-- LO_READ (R9): a read of a register that latches others. -/
def execLoRead (r : Requester) (a : BitVec 34) (s : State) : Host.Outcome State Fault Refusal :=
  done (if (latchesOf a.toNat).isEmpty then s else cmdRead s r a.toNat)

/-- HI_WRITE (R9): a write of the high half of a writable pair. -/
def execHiWrite (r : Requester) (a : BitVec 34) (v : Word) (s : State) : Host.Outcome State Fault Refusal :=
  done (if halfAt a.toNat = .hi && writable a.toNat then cmdWrite s r a.toNat v else s)

/-- REGISTER_WRITE (R6, R7, R12). -/
def execRegisterWrite (r : Requester) (a : BitVec 34) (v : Word) (s : State) : Host.Outcome State Fault Refusal :=
  done (cmdWrite s r a.toNat v)

/-! ### BAR requests (R5, R336, R337, R340) -/

/-- What a memory request to a BAR meets first: the part held or asleep, PERST#, a shut endpoint, Memory Space Enable. -/
def barGate (s : State) (q : HostReq) : Option State :=
  if !endpointUp s || s.pci.perst then some s
  else if memShut s then some (shutOut s q)
  else if !memEn s then some (unsupported s q)
  else none

/-- Read dwords one after the other, each as one aligned access (R336). -/
def readDwords (f : State → Nat → Word × State) : State → Nat → Nat → List (BitVec 8) × State
  | s, _, 0 => ([], s)
  | s, o, n + 1 =>
    let (w, s) := f s o
    let (l, s) := readDwords f s (o + 4) n
    (bytesLE 4 w.toNat ++ l, s)

/-- BAR0_REQUEST (R5, R336): a write without all four byte enables is ignored and recorded as a partial write (code 0x01). -/
def execBar0Request (q : HostReq) (s : State) : Host.Outcome State Fault Refusal :=
  match barGate s q with
  | some t => done t
  | none =>
    let o := q.ofs.toNat % 2 ^ 25 / 4 * 4
    if q.write then
      done (q.dwords.zipIdx.foldl (fun t e =>
        if e.1.2 = 15 then hostRegWrite t (o + 4 * e.2) e.1.1 else t.logFault 0x01 0 0xFFFF (o + 4 * e.2) 0) s)
    else
      let (d, s) := readDwords hostRegRead s o q.dwords.length
      done (answerRegs s q d)

/-- BAR2 reaches device memory: trained, and not contained (R337, R351). -/
def bar2Up (s : State) : Bool := s.boot.hbm && !contained s && !s.lockdown

/-- Poison a unit (R280). -/
def poisonUnit (s : State) (u : Nat) : State := { s with poison := if s.poison.contains u then s.poison else s.poison ++ [u] }

/-- One dword of a BAR2 write: its enabled bytes that lie within the reach are written. -/
def bar2Write (s : State) (a : Nat) (w : Word) (be : BitVec 4) : State :=
  (List.range 4).foldl (fun t i => if be.getLsbD i then t.dwrite (a + i) [w.extractLsb' (8 * i) 8] else t) s

/-- BAR2_REQUEST (R337): the whole request lies within the reach, or it is an unsupported request, a write of which is dropped and counted; poisoned data poisons
the units written (R350). -/
def execBar2Request (q : HostReq) (s : State) : Host.Outcome State Fault Refusal :=
  match barGate s q with
  | some t => done t
  | none =>
    if !bar2Up s then done (unsupported s q)
    else
      let a := q.ofs.toNat / 4 * 4 + (bar2Win s).1
      let n := 4 * q.dwords.length
      let inside := (hostDenied s a n).isNone
      if q.write then
        if !inside then done (pciError ((s.bump F.PCI_BAR2_DROP_COUNT).set1 F.PCI_STAT_BAR2_OUT) 20 true [])
        else
          -- a write of a whole unit clears its poison; a shorter one leaves it (R280)
          let units := (List.range (n / 64 + 2)).map (fun i => a / 64 + i)
          let whole (u : Nat) : Bool := decide (a ≤ u * 64) && decide (u * 64 + 64 ≤ a + n) && q.dwords.all (fun e => e.2 == 15)
          let t := q.dwords.zipIdx.foldl (fun t e => bar2Write t (a + 4 * e.2) e.1.1 e.1.2) s
          let met := units.filter (unitMeets a n)
          let t := met.foldl (fun t u =>
            if s.poison.contains u && !whole u then poisonUnit t u
            else if whole u then { t with poison := t.poison.filter (· != u) } else t) t
          done (if q.poisoned then pciError (met.foldl poisonUnit t) 12 true [] else t)
      else if !inside then done (unsupported s q)
      else
        -- offsets of the request and addresses differ by the window's base, a multiple of 64 MiB
        done (answerRead (s.meets a n) q (fun o m => s.poison.any (unitMeets (o + (bar2Win s).1) m)) (s.dread a n))

/-- A dword of BAR4: the MSI-X table and the PBA (R340). -/
def bar4Read (s : State) (o : Nat) : Word × State :=
  if o < 0x1000 then (s.tbl o, s)
  else if 0x2000 ≤ o && o < 0x2020 then (bitsWord (fun b => s.pci.pba.contains (8 * (o - 0x2000) + b)), s)
  else (0, s)

/-- A write of a dword of BAR4: only the table takes it, and only the Mask bit of its vector control. -/
def bar4Write (s : State) (o : Nat) (v : Word) (be : BitVec 4) : State :=
  if o < 0x1000 then
    let m := beMask be &&& (match o % 16 with | 0 => 0xFFFFFFFC | 12 => 1 | _ => 0xFFFFFFFF)
    { s with pci := { s.pci with table := mset tableConst s.pci.table o ((s.tbl o &&& ~~~ m) ||| (v &&& m)) } }
  else s

/-- BAR4_REQUEST (R340): a vector that becomes unmasked sends what it holds. -/
def execBar4Request (q : HostReq) (s : State) : Host.Outcome State Fault Refusal :=
  match barGate s q with
  | some t => done t
  | none =>
    let o := q.ofs.toNat % 2 ^ 14 / 4 * 4
    if q.write then done (sendPending (q.dwords.zipIdx.foldl (fun t e => bar4Write t (o + 4 * e.2) e.1.1 e.1.2) s))
    else
      let (d, s) := readDwords bar4Read s o q.dwords.length
      done (answerRegs s q d)

end Sys2Proof.Machine
end

