-- ==== Sys2Proof/Machine/Twi.lean ====
section
/-! DEFINITION. Machine/Twi.lean: the two-wire target (ch. 18): addressing, the pointer and the log selector, the read-only view by
exposure level, sleep and stretching, bus errors and the stuck bus. -/

namespace Sys2Proof.Machine
open Sys2Proof

/-! ### The bus -/

/-- The address the target answers (R438): 0x60 + ADDR, sampled at the release of RESET_N. -/
def twiAddr (s : State) : Nat := 0x60 + s.f F.TWI_STAT_ADDR

/-- Let SDA go, when the target may be holding it. -/
def letGo (s : State) : State :=
  if s.twi.hold.isSome then { s with twi := { s.twi with hold := none } }.emit (.pin .sda true) else s

/-- Acknowledge: SDA is driven low in the acknowledge slot. -/
def twiAck (s : State) : State := { s with twi := { s.twi with hold := some s.now } }.emit (.pin .sda false)

/-- Release SCL. -/
def freeScl (s : State) : State :=
  if s.twi.stretch.isSome then { s with twi := { s.twi with stretch := none } }.emit (.pin .scl true) else s

/-- Back to address matching: a transaction in progress is given up; what it has already done stands. -/
def twiIdle (s : State) : State :=
  let s := letGo s
  { s with twi := { s.twi with busy := false, ptrSet := false, sel := [] } }

/-- The end of a transaction by a STOP or a repeated START (R439): it counts in TWI_XFER. -/
def twiEnd (s : State) : State :=
  if s.twi.busy then (twiIdle s).incr F.TWI_XFER_COUNT 1 else letGo s

/-- The target follows the bus: RESET_N is high and it does not itself hold SCL (R438, R443). -/
def twiFollows (s : State) : Bool := !s.held && s.twi.stretch.isNone

/-- TWI_ADDRESS (R438, R443): an address byte after a START or a repeated START. In SLEEP a match wakes the part when PWR_WAKE_EN.TWI
is set, and SCL is held low. -/
def execTwiAddress (addr : BitVec 7) (read : Bool) (s : State) : Host.Outcome State Fault Refusal :=
  if !twiFollows s then done s
  else
    let s := twiEnd s
    if addr.toNat != twiAddr s then done s
    else
      let t := s.twi
      let s := twiAck { s with twi := { t with busy := true, read := read, ptrSet := false, sel := [], ptr0 := t.ptr, logSel0 := t.logSel } }
      if s.boot.asleep && s.on F.PWR_WAKE_EN_TWI then
        done (wakeBy ({ s with twi := { s.twi with stretch := some s.now } }.emit (.pin .scl false)) 1)
      else done s

/-- A data byte that is not taken (R439): not acknowledged, counted. -/
def rejectByte (s : State) : State := s.bump F.TWI_ERR_WRITE_REJ

/-- TWI_WRITE_BYTE (R439): the pointer; then, at pointer 0x84 and level 3, the four bytes of TWI_V_LOG_SEL. -/
def execTwiWriteByte (b : Byte) (s : State) : Host.Outcome State Fault Refusal :=
  if !twiFollows s || !s.twi.busy || s.twi.read then done s
  else
    let s := letGo s
    let t := s.twi
    if !t.ptrSet then done (twiAck { s with twi := { t with ptr := b.toNat, ptrSet := true } })
    else if t.ptr = 0x84 && twiLevel s == 3 && t.sel.length < 4 then
      let l := t.sel ++ [b]
      let t := { t with sel := l }
      done (twiAck { s with twi := if l.length = 4 then { t with logSel := BitVec.ofNat 32 (ofLE l) } else t })
    else done (rejectByte s)

/-! ### The view (R440 to R442) -/

/-- The level from which a location of the view can be read. -/
def viewLevel (o : Nat) : Nat := if o < 0x20 then 0 else if o < 0x40 then 1 else if o < 0x80 then 2 else 3

/-- Identity (level 0): DSN and lifecycle read zero until the fuses are sensed. -/
def viewId (s : State) (o : Nat) : Word :=
  let sensed := s.on F.FUS_STAT_SENSED
  match o with
  | 0x00 => s.rd R.HIF_ID
  | 0x04 => s.rd R.HIF_REV
  | 0x08 => if sensed then halfOf (dsn s) false else 0
  | 0x0C => if sensed then halfOf (dsn s) true else 0
  | 0x10 =>
    let w := flagAt (flagAt 0 31 sensed) 30 s.lockdown
    let w := if sensed then setField (setField w 25 24 s.lifecycle) 23 22 (s.f F.FUS_LC_PENDING) else w
    setField w 19 16 (s.f F.SEC_STAT_CAUSE)
  | _ => 0

/-- The words of the view that need no free value. -/
def viewPlain (s : State) (o : Nat) : Word :=
  if o < 0x20 then viewId s o
  else match o with
    | 0x20 => setField 0 15 0 (s.rd R.PWR_TJ).toNat
    | 0x28 => setField (flagAt (flagAt 0 31 s.ras.alert) 30 (s.on F.RAS_STAT_THERM_WARN)) 3 0 s.boot.pg
    | 0x40 => setField 0 31 20 (fieldOf (s.rd R.DEV_MODE) 31 20)
    | 0x44 =>
      let w := flagAt (flagAt (flagAt 0 31 (s.on F.RAS_STAT_FATAL)) 30 (s.on F.RAS_STAT_HALTED)) 29 (s.on F.RAS_STAT_WARM_BUSY)
      setField w 15 8 (s.f F.RAS_LAST_FATAL_CODE)
    | 0x48 => viewRststat s (s.rd R.DEV_RSTSTAT)
    | 0x4C => s.rd R.RAS_AVAIL_OUT
    | 0x80 => s.rd R.RAS_LOG_WR
    | 0x84 => s.twi.logSel
    | _ => if 0xA0 ≤ o && o < 0xC0 then BitVec.ofNat 32 (leAt (logBytes s s.twi.logSel) (o - 0xA0) 4) else 0

/-- A word of the view: above the effective level it reads zero (R440); TWI_V_POWER shows PWR_P_TOTAL, an open reading. -/
def viewAt (s : State) (o : Nat) : Word × State :=
  if twiLevel s < viewLevel o then (0, s)
  else if o = 0x24 then
    let (v, s) := s.free
    (setField 0 19 0 v, s)
  else if o = 0x0C then ((s.latched .twi 0x0C).getD (viewPlain s o), s)
  else (viewPlain s o, s)

/-- Where the target keeps the latch of a word of the view, among its own latches (R440). -/
def viewLatch (o : Nat) : Nat := 0x100 + o

/-- TWI_READ_BYTE (R440): byte 0 latches its word, and DSN_LO the high word (R9); bytes 1 to 3 come from the latch. -/
def execTwiReadByte (s : State) : Host.Outcome State Fault Refusal :=
  if !twiFollows s || !s.twi.busy || !s.twi.read then done s
  else
    let s := letGo s
    let p := s.twi.ptr
    let o := p / 4 * 4
    let (w, s) :=
      match if p = o then none else s.latched .twi (viewLatch o) with
      | some w => (w, s)
      | none => viewAt s o
    let s := if p = o then s.setLatch .twi (viewLatch o) w else s
    let s := if p = 0x08 then s.setLatch .twi 0x0C (viewPlain s 0x0C) else s
    let b : BitVec 8 := BitVec.ofNat 8 (w.toNat / 256 ^ (p % 4))
    let s := { s with twi := { s.twi with ptr := (p + 1) % 256, hold := if b = 0xFF then none else some s.now } }
    done (s.emit (.twiByte b))

/-- TWI_STOP (R439). -/
def execTwiStop (s : State) : Host.Outcome State Fault Refusal := if twiFollows s then done (twiEnd s) else done s

/-- TWI_BUS_ERROR (R445): the transaction is aborted; the pointer and the selector keep their values from before it. -/
def execTwiBusError (s : State) : Host.Outcome State Fault Refusal :=
  if !twiFollows s then done s
  else
    let t := s.twi
    let s := if t.busy then twiIdle { s with twi := { t with ptr := t.ptr0, logSel := t.logSel0 } } else s
    done ((s.bump F.TWI_ERR_BUS_ERR).set1 F.TWI_STAT_BUS_ERR)

/-- STRETCH_TMO (R444): not with the TWI_UNLIMITED fuse and TWI_CFG.UNLIMITED; a wake in progress continues. -/
def execStretchTmo (s : State) : Host.Outcome State Fault Refusal :=
  match s.twi.stretch with
  | some t =>
    let free := (s.rd (R.FUS_WORD 0)).getLsbD 19 && s.on F.TWI_CFG_UNLIMITED
    if s.held || free || decide (s.now < t + s.f F.TWI_CFG_STRETCH_TMO * 1000000) then done s
    else done (((twiIdle (freeScl s)).bump F.TWI_ERR_STRETCH).set1 F.TWI_STAT_STRETCH_TMO)
  | none => done s

/-- HOLD_TMO (R446): SDA has been held low, SCL high, for HOLD_TMO ms. -/
def execHoldTmo (s : State) : Host.Outcome State Fault Refusal :=
  match s.twi.hold with
  | some t =>
    if !twiFollows s || decide (s.now < t + s.f F.TWI_CFG_HOLD_TMO * 1000000) then done s
    else done (((twiIdle s).bump F.TWI_ERR_STUCK).set1 F.TWI_STAT_STUCK)
  | none => done s

/-- TWI_WAKE_RELEASE (R443): the wake is complete, in a mode or in LOCKDOWN, and SCL is released. -/
def execTwiWakeRelease (s : State) : Host.Outcome State Fault Refusal :=
  if s.held || s.boot.asleep then done s else done (freeScl s)

end Sys2Proof.Machine
end

