-- ==== Sys2Proof/Machine/Flags.lean ====
section
/-! DEFINITION. Machine/Flags.lean: the arithmetic of the scalar instructions (R71): wrap-around results, comparisons,
counts, multiplication and division with their corners. Urelm has no flag register; STATUS bits are written by the operations
that own them. -/

namespace Sys2Proof.Machine

/-- Rotate right by the low five bits. -/
def rorW (x : Word) (n : Nat) : Word := (x >>> (n % 32)) ||| (x <<< ((32 - n % 32) % 32))

/-- Arithmetic shift right by the low five bits. -/
def sraW (x : Word) (n : Nat) : Word := BitVec.sshiftRight x (n % 32)

/-- Set bits of the low `n` bits. -/
def popcN : Nat → Nat → Nat
  | 0, _ => 0
  | n + 1, x => x % 2 + popcN n (x / 2)

/-- Trailing zeros; `n` for zero. -/
def ctzN : Nat → Nat → Nat
  | 0, _ => 0
  | n + 1, x => if x % 2 = 1 then 0 else 1 + ctzN n (x / 2)

/-- Leading zeros of a 32-bit word; 32 for zero. -/
def clzW (x : Word) : Nat := if x = 0 then 32 else 31 - Nat.log2 x.toNat

/-- A comparison result as a register value. -/
def boolW (b : Bool) : Word := if b then 1 else 0

/-- Low word of a product. -/
def mulLo (a b : Word) : Word := a * b
/-- Signed high word of a product. -/
def mulHi (a b : Word) : Word := BitVec.ofInt 32 (Int.fdiv (a.toInt * b.toInt) (2 ^ 32))
/-- Unsigned high word of a product. -/
def mulHiU (a b : Word) : Word := BitVec.ofNat 32 (a.toNat * b.toNat / 2 ^ 32)

/-- Signed quotient rounded toward zero; division by zero gives all ones; -2^31 / -1 gives -2^31 (R71). -/
def divS (a b : Word) : Word := if b = 0 then 0xFFFFFFFF else BitVec.ofInt 32 (Int.tdiv a.toInt b.toInt)
/-- Unsigned quotient; division by zero gives all ones (R71). -/
def divU (a b : Word) : Word := if b = 0 then 0xFFFFFFFF else BitVec.ofNat 32 (a.toNat / b.toNat)
/-- Signed remainder with the sign of the dividend; by zero the dividend (R71). -/
def remS (a b : Word) : Word := if b = 0 then a else BitVec.ofInt 32 (Int.tmod a.toInt b.toInt)
/-- Unsigned remainder; by zero the dividend (R71). -/
def remU (a b : Word) : Word := if b = 0 then a else BitVec.ofNat 32 (a.toNat % b.toNat)

end Sys2Proof.Machine
end

