-- ==== Sys2Proof/Machine/Urelm.lean ====
section
/-! DEFINITION. Machine/Urelm.lean: the scalar instructions that touch only registers, the branches and jumps, the plain loads
and stores, and the atomics (R71). -/

namespace Sys2Proof.Machine
open Sys2Proof

/-- A register-register instruction. -/
def rrOp (s : State) (c rd rs1 rs2 : Nat) (legal : Bool) (f : Word → Word → Word) : State :=
  issueS s c legal rd (fun k => f (k.rs rs1) (k.rs rs2))

/-- A register-immediate instruction. -/
def riOp (s : State) (c rd rs1 : Nat) (legal : Bool) (f : Word → Word) : State :=
  issueS s c legal rd (fun k => f (k.rs rs1))

/-- ADD (R71). -/
def execAdd (c : CoreNo) (rd rs1 rs2 : RegNo) (s : State) : Host.Outcome State Fault Refusal :=
  done (rrOp s c rd rs1 rs2 true (fun a b => a + b))

/-- SUB (R71). -/
def execSub (c : CoreNo) (rd rs1 rs2 : RegNo) (s : State) : Host.Outcome State Fault Refusal :=
  done (rrOp s c rd rs1 rs2 true (fun a b => a - b))

/-- AND (R71). -/
def execAnd (c : CoreNo) (rd rs1 rs2 : RegNo) (s : State) : Host.Outcome State Fault Refusal :=
  done (rrOp s c rd rs1 rs2 true (fun a b => a &&& b))

/-- OR (R71). -/
def execOr (c : CoreNo) (rd rs1 rs2 : RegNo) (s : State) : Host.Outcome State Fault Refusal :=
  done (rrOp s c rd rs1 rs2 true (fun a b => a ||| b))

/-- XOR (R71). -/
def execXor (c : CoreNo) (rd rs1 rs2 : RegNo) (s : State) : Host.Outcome State Fault Refusal :=
  done (rrOp s c rd rs1 rs2 true (fun a b => a ^^^ b))

/-- SLL (R71). -/
def execSll (c : CoreNo) (rd rs1 rs2 : RegNo) (s : State) : Host.Outcome State Fault Refusal :=
  done (rrOp s c rd rs1 rs2 true (fun a b => a <<< (b.toNat % 32)))

/-- SRL (R71). -/
def execSrl (c : CoreNo) (rd rs1 rs2 : RegNo) (s : State) : Host.Outcome State Fault Refusal :=
  done (rrOp s c rd rs1 rs2 true (fun a b => a >>> (b.toNat % 32)))

/-- SRA (R71). -/
def execSra (c : CoreNo) (rd rs1 rs2 : RegNo) (s : State) : Host.Outcome State Fault Refusal :=
  done (rrOp s c rd rs1 rs2 true (fun a b => sraW a b.toNat))

/-- ROR (R71). -/
def execRor (c : CoreNo) (rd rs1 rs2 : RegNo) (s : State) : Host.Outcome State Fault Refusal :=
  done (rrOp s c rd rs1 rs2 true (fun a b => rorW a b.toNat))

/-- SLT (R71). -/
def execSlt (c : CoreNo) (rd rs1 rs2 : RegNo) (s : State) : Host.Outcome State Fault Refusal :=
  done (rrOp s c rd rs1 rs2 true (fun a b => boolW (decide (a.toInt < b.toInt))))

/-- SLTU (R71). -/
def execSltu (c : CoreNo) (rd rs1 rs2 : RegNo) (s : State) : Host.Outcome State Fault Refusal :=
  done (rrOp s c rd rs1 rs2 true (fun a b => boolW (decide (a.toNat < b.toNat))))

/-- MIN (R71). -/
def execMin (c : CoreNo) (rd rs1 rs2 : RegNo) (s : State) : Host.Outcome State Fault Refusal :=
  done (rrOp s c rd rs1 rs2 true (fun a b => if a.toInt < b.toInt then a else b))

/-- MAX (R71). -/
def execMax (c : CoreNo) (rd rs1 rs2 : RegNo) (s : State) : Host.Outcome State Fault Refusal :=
  done (rrOp s c rd rs1 rs2 true (fun a b => if a.toInt < b.toInt then b else a))

/-- MINU (R71). -/
def execMinu (c : CoreNo) (rd rs1 rs2 : RegNo) (s : State) : Host.Outcome State Fault Refusal :=
  done (rrOp s c rd rs1 rs2 true (fun a b => if a.toNat < b.toNat then a else b))

/-- MAXU (R71). -/
def execMaxu (c : CoreNo) (rd rs1 rs2 : RegNo) (s : State) : Host.Outcome State Fault Refusal :=
  done (rrOp s c rd rs1 rs2 true (fun a b => if a.toNat < b.toNat then b else a))

/-- PDIFF (R71). -/
def execPdiff (c : CoreNo) (rd rs1 rs2 : RegNo) (s : State) : Host.Outcome State Fault Refusal :=
  done (rrOp s c rd rs1 rs2 true (fun a b => a - b))

/-- CLZ (R70, R71): rs2 must be s0. -/
def execClz (c : CoreNo) (rd rs1 rs2 : RegNo) (s : State) : Host.Outcome State Fault Refusal :=
  done (rrOp s c rd rs1 rs2 (rs2.val == 0) (fun a _ => BitVec.ofNat 32 (clzW a)))

/-- CTZ (R70, R71): rs2 must be s0. -/
def execCtz (c : CoreNo) (rd rs1 rs2 : RegNo) (s : State) : Host.Outcome State Fault Refusal :=
  done (rrOp s c rd rs1 rs2 (rs2.val == 0) (fun a _ => BitVec.ofNat 32 (ctzN 32 a.toNat)))

/-- POPC (R70, R71): rs2 must be s0. -/
def execPopc (c : CoreNo) (rd rs1 rs2 : RegNo) (s : State) : Host.Outcome State Fault Refusal :=
  done (rrOp s c rd rs1 rs2 (rs2.val == 0) (fun a _ => BitVec.ofNat 32 (popcN 32 a.toNat)))

/-- MUL (R71). -/
def execMul (c : CoreNo) (rd rs1 rs2 : RegNo) (s : State) : Host.Outcome State Fault Refusal :=
  done (rrOp s c rd rs1 rs2 true mulLo)

/-- MULH (R71). -/
def execMulh (c : CoreNo) (rd rs1 rs2 : RegNo) (s : State) : Host.Outcome State Fault Refusal :=
  done (rrOp s c rd rs1 rs2 true mulHi)

/-- MULHU (R71). -/
def execMulhu (c : CoreNo) (rd rs1 rs2 : RegNo) (s : State) : Host.Outcome State Fault Refusal :=
  done (rrOp s c rd rs1 rs2 true mulHiU)

/-- DIV (R71). -/
def execDiv (c : CoreNo) (rd rs1 rs2 : RegNo) (s : State) : Host.Outcome State Fault Refusal :=
  done (rrOp s c rd rs1 rs2 true divS)

/-- DIVU (R71). -/
def execDivu (c : CoreNo) (rd rs1 rs2 : RegNo) (s : State) : Host.Outcome State Fault Refusal :=
  done (rrOp s c rd rs1 rs2 true divU)

/-- REM (R71). -/
def execRem (c : CoreNo) (rd rs1 rs2 : RegNo) (s : State) : Host.Outcome State Fault Refusal :=
  done (rrOp s c rd rs1 rs2 true remS)

/-- REMU (R71). -/
def execRemu (c : CoreNo) (rd rs1 rs2 : RegNo) (s : State) : Host.Outcome State Fault Refusal :=
  done (rrOp s c rd rs1 rs2 true remU)

/-- ADDI (R70, R71). -/
def execAddi (c : CoreNo) (rd rs1 : RegNo) (imm : BitVec 12) (s : State) : Host.Outcome State Fault Refusal :=
  done (riOp s c rd rs1 true (fun a => a + sx32 imm))

/-- ANDI (R70, R71). -/
def execAndi (c : CoreNo) (rd rs1 : RegNo) (imm : BitVec 12) (s : State) : Host.Outcome State Fault Refusal :=
  done (riOp s c rd rs1 true (fun a => a &&& zx32 imm))

/-- ORI (R70, R71). -/
def execOri (c : CoreNo) (rd rs1 : RegNo) (imm : BitVec 12) (s : State) : Host.Outcome State Fault Refusal :=
  done (riOp s c rd rs1 true (fun a => a ||| zx32 imm))

/-- XORI (R70, R71). -/
def execXori (c : CoreNo) (rd rs1 : RegNo) (imm : BitVec 12) (s : State) : Host.Outcome State Fault Refusal :=
  done (riOp s c rd rs1 true (fun a => a ^^^ zx32 imm))

/-- SLTI (R70, R71). -/
def execSlti (c : CoreNo) (rd rs1 : RegNo) (imm : BitVec 12) (s : State) : Host.Outcome State Fault Refusal :=
  done (riOp s c rd rs1 true (fun a => boolW (decide (a.toInt < (sx32 imm).toInt))))

/-- SLTIU (R70, R71). -/
def execSltiu (c : CoreNo) (rd rs1 : RegNo) (imm : BitVec 12) (s : State) : Host.Outcome State Fault Refusal :=
  done (riOp s c rd rs1 true (fun a => boolW (decide (a.toNat < (sx32 imm).toNat))))

/-- SLLI (R71): imm[11:5] must be zero. -/
def execSlli (c : CoreNo) (rd rs1 : RegNo) (imm : BitVec 12) (s : State) : Host.Outcome State Fault Refusal :=
  done (riOp s c rd rs1 (decide (imm.toNat < 32)) (fun a => a <<< (imm.toNat % 32)))

/-- SRLI (R71): imm[11:5] must be zero. -/
def execSrli (c : CoreNo) (rd rs1 : RegNo) (imm : BitVec 12) (s : State) : Host.Outcome State Fault Refusal :=
  done (riOp s c rd rs1 (decide (imm.toNat < 32)) (fun a => a >>> (imm.toNat % 32)))

/-- SRAI (R71): imm[11:5] must be zero. -/
def execSrai (c : CoreNo) (rd rs1 : RegNo) (imm : BitVec 12) (s : State) : Host.Outcome State Fault Refusal :=
  done (riOp s c rd rs1 (decide (imm.toNat < 32)) (fun a => sraW a imm.toNat))

/-- imm20 × 4096. -/
def upper (imm : BitVec 20) : Word := BitVec.ofNat 32 (imm.toNat * 4096)

/-- LUI (R71): the reserved bit must be zero. -/
def execLui (c : CoreNo) (rd : RegNo) (res : Bool) (imm : BitVec 20) (s : State) : Host.Outcome State Fault Refusal :=
  done (issueS s c (!res) rd (fun _ => upper imm))

/-- AUIPC (R71). -/
def execAuipc (c : CoreNo) (rd : RegNo) (res : Bool) (imm : BitVec 20) (s : State) : Host.Outcome State Fault Refusal :=
  done (issueS s c (!res) rd (fun k => k.pc + upper imm))

/-- A jump: the link goes to rd, the core goes on at `t`; a target that is not a multiple of 4 raises misalignment (DETAIL 3)
before rd is written (R71). -/
def jumpTo (s : State) (c rd : Nat) (k : CoreSt) (t : Word) : State :=
  if t.toNat % 4 != 0 then takeExc s c 2 3 t.toNat
  else s.setCore c ((k.ws rd (k.pc + 4)).retireTo t)

/-- JAL (R71). -/
def execJal (c : CoreNo) (rd : RegNo) (res : Bool) (imm : BitVec 20) (s : State) : Host.Outcome State Fault Refusal :=
  done (issue s c false (!res) (fun k => jumpTo s c rd k (k.pc + 4 * sx32 imm)))

/-- JALR (R71). -/
def execJalr (c : CoreNo) (rd rs1 : RegNo) (imm : BitVec 12) (s : State) : Host.Outcome State Fault Refusal :=
  done (issue s c false true (fun k => jumpTo s c rd k (k.rs rs1 + sx32 imm)))

/-- A conditional branch (R71). -/
def branch (s : State) (c rs1 rs2 : Nat) (off : BitVec 14) (p : Word → Word → Bool) : State :=
  issue s c false true (fun k =>
    s.setCore c (if p (k.rs rs1) (k.rs rs2) then k.retireTo (k.pc + 4 * sx32 off) else k.retire))

/-- BEQ (R71). -/
def execBeq (c : CoreNo) (rs1 rs2 : RegNo) (off : BitVec 14) (s : State) : Host.Outcome State Fault Refusal :=
  done (branch s c rs1 rs2 off (fun a b => a == b))

/-- BNE (R71). -/
def execBne (c : CoreNo) (rs1 rs2 : RegNo) (off : BitVec 14) (s : State) : Host.Outcome State Fault Refusal :=
  done (branch s c rs1 rs2 off (fun a b => a != b))

/-- BLT (R71). -/
def execBlt (c : CoreNo) (rs1 rs2 : RegNo) (off : BitVec 14) (s : State) : Host.Outcome State Fault Refusal :=
  done (branch s c rs1 rs2 off (fun a b => decide (a.toInt < b.toInt)))

/-- BGE (R71). -/
def execBge (c : CoreNo) (rs1 rs2 : RegNo) (off : BitVec 14) (s : State) : Host.Outcome State Fault Refusal :=
  done (branch s c rs1 rs2 off (fun a b => decide (b.toInt ≤ a.toInt)))

/-- BLTU (R71). -/
def execBltu (c : CoreNo) (rs1 rs2 : RegNo) (off : BitVec 14) (s : State) : Host.Outcome State Fault Refusal :=
  done (branch s c rs1 rs2 off (fun a b => decide (a.toNat < b.toNat)))

/-- BGEU (R71). -/
def execBgeu (c : CoreNo) (rs1 rs2 : RegNo) (off : BitVec 14) (s : State) : Host.Outcome State Fault Refusal :=
  done (branch s c rs1 rs2 off (fun a b => decide (b.toNat ≤ a.toNat)))

/-- A load of `n` bytes that does not reach registers (R68, R71, R88, R89). -/
def loadOp (s : State) (c rt base : Nat) (off : BitVec 12) (n : Nat) (ext : Nat → Word) : State :=
  issue s c false true (fun k =>
    let a := memAddr k base off
    match scalarPlace k c a n false false with
    | .error (cause, detail) => takeExc s c cause detail a
    | .ok p =>
      match placeRead s p n with
      | none => takeExc (placeMissed s p n) c 4 0 a
      | some l => s.setCore c ((k.ws rt (ext (ofLE l))).retire))

/-- A store of `n` bytes that does not reach registers (R68, R71, R88). -/
def storeOp (s : State) (c rt base : Nat) (off : BitVec 12) (n : Nat) : State :=
  issue s c false true (fun k =>
    let a := memAddr k base off
    match scalarPlace k c a n true false with
    | .error (cause, detail) => takeExc s c cause detail a
    | .ok p => (placeWrite s p (bytesLE n (k.rs rt).toNat)).mapCore c (·.retire))

/-- LB (R71). -/
def execLb (c : CoreNo) (rt base : RegNo) (off : BitVec 12) (s : State) : Host.Outcome State Fault Refusal :=
  done (loadOp s c rt base off 1 (fun v => BitVec.ofInt 32 (signed 8 v)))

/-- LBU (R71). -/
def execLbu (c : CoreNo) (rt base : RegNo) (off : BitVec 12) (s : State) : Host.Outcome State Fault Refusal :=
  done (loadOp s c rt base off 1 (fun v => BitVec.ofNat 32 v))

/-- LH (R71). -/
def execLh (c : CoreNo) (rt base : RegNo) (off : BitVec 12) (s : State) : Host.Outcome State Fault Refusal :=
  done (loadOp s c rt base off 2 (fun v => BitVec.ofInt 32 (signed 16 v)))

/-- LHU (R71). -/
def execLhu (c : CoreNo) (rt base : RegNo) (off : BitVec 12) (s : State) : Host.Outcome State Fault Refusal :=
  done (loadOp s c rt base off 2 (fun v => BitVec.ofNat 32 v))

/-- SB (R71). -/
def execSb (c : CoreNo) (rt base : RegNo) (off : BitVec 12) (s : State) : Host.Outcome State Fault Refusal :=
  done (storeOp s c rt base off 1)

/-- SH (R71). -/
def execSh (c : CoreNo) (rt base : RegNo) (off : BitVec 12) (s : State) : Host.Outcome State Fault Refusal :=
  done (storeOp s c rt base off 2)

/-- An atomic (R68, R71, R85): the word at rs1 becomes `f old rd rs2`, and rd takes the old word. It is indivisible because
a step is. -/
def amoOp (s : State) (c rd rs1 rs2 : Nat) (f : Word → Word → Word → Word) : State :=
  issue s c false true (fun k =>
    let a := (k.rs rs1).toNat
    match scalarPlace k c a 4 true false with
    | .error (cause, detail) => takeExc s c cause detail a
    | .ok p =>
      match placeRead s p 4 with
      | none => takeExc (placeMissed s p 4) c 4 0 a
      | some l =>
        let old := BitVec.ofNat 32 (ofLE l)
        (placeWrite s p (bytesLE 4 (f old (k.rs rd) (k.rs rs2)).toNat)).mapCore c (fun k => (k.ws rd old).retire))

/-- AMOADD (R71, R85). -/
def execAmoadd (c : CoreNo) (rd rs1 rs2 : RegNo) (s : State) : Host.Outcome State Fault Refusal :=
  done (amoOp s c rd rs1 rs2 (fun o _ b => o + b))

/-- AMOSWAP (R71, R85). -/
def execAmoswap (c : CoreNo) (rd rs1 rs2 : RegNo) (s : State) : Host.Outcome State Fault Refusal :=
  done (amoOp s c rd rs1 rs2 (fun _ _ b => b))

/-- AMOAND (R71, R85). -/
def execAmoand (c : CoreNo) (rd rs1 rs2 : RegNo) (s : State) : Host.Outcome State Fault Refusal :=
  done (amoOp s c rd rs1 rs2 (fun o _ b => o &&& b))

/-- AMOOR (R71, R85). -/
def execAmoor (c : CoreNo) (rd rs1 rs2 : RegNo) (s : State) : Host.Outcome State Fault Refusal :=
  done (amoOp s c rd rs1 rs2 (fun o _ b => o ||| b))

/-- AMOMIN (R71, R85). -/
def execAmomin (c : CoreNo) (rd rs1 rs2 : RegNo) (s : State) : Host.Outcome State Fault Refusal :=
  done (amoOp s c rd rs1 rs2 (fun o _ b => if o.toInt < b.toInt then o else b))

/-- AMOMAX (R71, R85). -/
def execAmomax (c : CoreNo) (rd rs1 rs2 : RegNo) (s : State) : Host.Outcome State Fault Refusal :=
  done (amoOp s c rd rs1 rs2 (fun o _ b => if o.toInt < b.toInt then b else o))

/-- AMOCAS (R71, R85): the word is replaced by rs2 when it equals rd. -/
def execAmocas (c : CoreNo) (rd rs1 rs2 : RegNo) (s : State) : Host.Outcome State Fault Refusal :=
  done (amoOp s c rd rs1 rs2 (fun o d b => if o = d then b else o))

end Sys2Proof.Machine
end

