-- ==== Sys2Proof/Machine/UrelmSys.lean ====
section
/-! DEFINITION. Machine/UrelmSys.lean: the instructions that reach beyond a core (ch. 03): lw and sw with register space, the fences,
eret and halt, the special registers, position and clock, slots, events, records and tiles; what ends a wait; posted bus errors and
the watchdog. -/

namespace Sys2Proof.Machine
open Sys2Proof

/-! ### Loads and stores that reach registers (R68) -/

/-- LW (R68, R71, R98): from register space, the read takes effect in program order, and the block must be granted. -/
def execLw (c : CoreNo) (rt base : RegNo) (off : BitVec 12) (s : State) : Host.Outcome State Fault Refusal :=
  done (issue s c false true (fun k =>
    let a := memAddr k base off
    match scalarPlace k c a 4 false true with
    | .error (cause, detail) => takeExc s c cause detail a
    | .ok (.reg a) =>
      if coreReaches s c a false then
        let (w, s) := coreRegRead s c a
        s.setCore c (((s.core c).ws rt w).retire)
      else takeExc s c 3 1 a
    | .ok p =>
      match placeRead s p 4 with
      | none => takeExc (placeMissed s p 4) c 4 0 a
      | some l => s.setCore c ((k.ws rt (BitVec.ofNat 32 (ofLE l))).retire)))

/-- SW (R68, R71, R98). -/
def execSw (c : CoreNo) (rt base : RegNo) (off : BitVec 12) (s : State) : Host.Outcome State Fault Refusal :=
  done (issue s c false true (fun k =>
    let a := memAddr k base off
    match scalarPlace k c a 4 true true with
    | .error (cause, detail) => takeExc s c cause detail a
    | .ok (.reg a) =>
      if coreReaches s c a true then coreRegWrite (s.setCore c k.retire) c a (k.rs rt) else takeExc s c 3 1 a
    | .ok p => (placeWrite s p (bytesLE 4 (k.rs rt).toNat)).mapCore c (·.retire)))

/-! ### Fences, eret, halt (R71, R83, R84) -/

/-- All register fields are s0. -/
def allS0 (rd rs1 rs2 : RegNo) : Bool := rd == 0 && rs1 == 0 && rs2 == 0

/-- Begin a wait: the core stays at the instruction. -/
def beginWait (s : State) (c : Nat) (w : Wait) : State := s.setCore c { s.core c with wait := w, waited := 0 }

/-- FENCE_C (R83): waits until the earlier accesses to cluster memory are performed. -/
def execFenceC (c : CoreNo) (rd rs1 rs2 : RegNo) (s : State) : Host.Outcome State Fault Refusal :=
  done (issue s c false (allS0 rd rs1 rs2) (fun _ => beginWait s c .fenceC))

/-- FENCE_C_DONE (R80, R83): every earlier access of the model is performed when its command is done; the other cores of the cluster now
see the tiles this one has fed. -/
def execFenceCDone (c : CoreNo) (s : State) : Host.Outcome State Fault Refusal :=
  let k := s.core c
  if s.up && k.run = .running && k.wait = .fenceC then done (shareFed (s.setCore c { k.retire with wait := .none }) c) else done s

/-- FENCE_D (R84). -/
def execFenceD (c : CoreNo) (rd rs1 rs2 : RegNo) (s : State) : Host.Outcome State Fault Refusal :=
  done (issue s c false (allS0 rd rs1 rs2) (fun _ => beginWait s c .fenceD))

/-- FENCE_D_DONE (R84, R89): a posted store that has failed is taken at the fence, which runs again. -/
def execFenceDDone (c : CoreNo) (s : State) : Host.Outcome State Fault Refusal :=
  let k := s.core c
  if s.up && k.run = .running && k.wait = .fenceD then
    match k.busErrs with
    | a :: rest => done (takeExc (s.setCore c { k with busErrs := rest }) c 4 1 a.toNat)
    | [] => done (s.setCore c { k.retire with wait := .none })
  else done s

/-- ERET (R71). -/
def execEret (c : CoreNo) (rd rs1 rs2 : RegNo) (s : State) : Host.Outcome State Fault Refusal :=
  done (issue s c false (allS0 rd rs1 rs2) (fun _ => retExc s c))

/-- HALT (R71): every earlier access has completed; the core stops, and a thresher core's hold ends (R270). -/
def execHalt (c : CoreNo) (rd rs1 rs2 : RegNo) (s : State) : Host.Outcome State Fault Refusal :=
  done (issue s c false (allS0 rd rs1 rs2) (fun k => stopCore (s.setCore c { k with instret := k.instret + 1 }) c))

/-! ### Special registers (R65) -/

/-- CORE_ID of a core. -/
def coreId (c : Nat) : Word :=
  if isTc c then setField (setField 0x80000000 15 8 (clusterOf c)) 7 0 (c - 4) else BitVec.ofNat 32 c

/-- What a special register holds; numbers not listed read as zero. -/
def specialReg (k : CoreSt) (c n : Nat) : Word :=
  match n with
  | 0x000 => coreId c
  | 0x001 => if isTc c then 0x01000001 else 0x01000000
  | 0x002 => halfOf k.cycle.toNat false
  | 0x003 => halfOf k.cycle.toNat true
  | 0x004 => halfOf k.instret.toNat false
  | 0x005 => halfOf k.instret.toNat true
  | 0x010 => flagAt (flagAt (flagAt (flagAt 0 31 k.exc) 30 k.tmo) 29 (k.bank != 0)) 0 k.range
  | 0x011 => k.epc
  | 0x012 => BitVec.ofNat 32 (k.detail % 256 * 256 + k.cause % 256)
  | 0x013 => k.eaddr
  | 0x014 => k.escratch
  | 0x020 => BitVec.ofNat 32 k.dmbase
  | 0x030 => k.wdtLoad
  | 0x031 => k.wdtCount
  | _ => 0

/-- XRD (R65): reading a split counter's _LO latches its _HI for the core (R9). -/
def execXrd (c : CoreNo) (rd rs1 : RegNo) (imm : BitVec 12) (s : State) : Host.Outcome State Fault Refusal :=
  done (issue s c false (rs1 == 0) (fun k =>
    let n := imm.toNat
    let hi := n == 3 || n == 5
    let w := if hi then (s.latched (.core c) n).getD (specialReg k c n) else specialReg k c n
    let s := if n == 2 || n == 4 then s.setLatch (.core c) (n + 1) (specialReg k c (n + 1)) else s
    s.setCore c ((k.ws rd w).retire)))

/-- Reload the watchdog (R91). -/
def CoreSt.kick (k : CoreSt) : CoreSt := { k with wdtCount := k.wdtLoad }

/-- A write of a special register (R65, R67, R91); read-only and unlisted numbers ignore it. -/
def CoreSt.writeSpecial (k : CoreSt) (n : Nat) (w : Word) : CoreSt :=
  match n with
  | 0x010 => if w.getLsbD 0 then { k with range := false } else k
  | 0x011 => { k with epc := w }
  | 0x014 => { k with escratch := w }
  | 0x020 => let x := w.toNat % 64; if 35 < x then { k with dmbase := 35, range := true } else { k with dmbase := x }
  | 0x030 => { k with wdtLoad := w, wdtCount := w }
  | 0x032 => k.kick
  | _ => k

/-- XWR (R65). -/
def execXwr (c : CoreNo) (rd rs1 : RegNo) (imm : BitVec 12) (s : State) : Host.Outcome State Fault Refusal :=
  done (issue s c false (rd == 0) (fun k => s.setCore c ((k.writeSpecial imm.toNat (k.rs rs1)).retire)))

/-- WDT_KICK (R91): the reload that a write of WDT_KICK or WDT_LOAD makes. -/
def execWdtKick (c : CoreNo) (s : State) : Host.Outcome State Fault Refusal :=
  done (if s.up && (s.core c).run = .running then s.setCore c (s.core c).kick else s)

/-! ### Position and time (R73, R74) -/

/-- PGET (R73): the latch is the one of AXS_POS_LO and AXS_POS_HI. -/
def execPget (c : CoreNo) (rd _rs1 _rs2 : RegNo) (idx : BitVec 11) (s : State) : Host.Outcome State Fault Refusal :=
  done (issue s c false true (fun k =>
    let n := idx.toNat % 16
    let p := (axisWord s n).toNat
    (s.setLatch (.core c) (R.AXS_POS_HI n) (halfOf p true)).setCore c ((k.ws rd (halfOf p false)).retire)))

/-- PGETH (R73). -/
def execPgeth (c : CoreNo) (rd _rs1 _rs2 : RegNo) (idx : BitVec 11) (s : State) : Host.Outcome State Fault Refusal :=
  done (issue s c false true (fun k =>
    let n := idx.toNat % 16
    let w := (s.latched (.core c) (R.AXS_POS_HI n)).getD (halfOf (axisWord s n).toNat true)
    s.setCore c ((k.ws rd w).retire)))

/-- The short position of an axis stands at a target or past it (R74): the pdiff is zero or positive. -/
def axisReached (s : State) (n : Nat) (target : Word) : Bool := decide (0 ≤ (shortPos s n - target).toInt)

/-- A wait with a result ends: rd, STATUS.TMO, and the next instruction. -/
def endWait (k : CoreSt) (rd : Nat) (w : Word) (tmo : Bool) : CoreSt :=
  { (k.ws rd w).retire with wait := .none, tmo := tmo }

/-- A timeout has elapsed (R74): 0xFFFF_FFFF never does. -/
def timedOut (k : CoreSt) (tmo : Nat) : Bool := decide (tmo ≠ 0xFFFFFFFF) && decide (tmo ≤ k.waited)

/-- AWAIT (R74): a timeout of zero tests once. -/
def execAwait (c : CoreNo) (rd rs1 rs2 : RegNo) (idx : BitVec 11) (s : State) : Host.Outcome State Fault Refusal :=
  done (issue s c false true (fun k =>
    let n := idx.toNat % 16
    let hit := axisReached s n (k.rs rs1)
    if hit || k.rs rs2 = 0 then s.setCore c (endWait k rd (shortPos s n) (!hit))
    else beginWait s c (.await n (k.rs rs1) (k.rs rs2).toNat rd)))

/-- AWAIT_REACHED (R74). -/
def execAwaitReached (c : CoreNo) (s : State) : Host.Outcome State Fault Refusal :=
  let k := s.core c
  match k.wait with
  | .await n target _ rd =>
    if s.up && k.run = .running && axisReached s n target then done (s.setCore c (endWait k rd (shortPos s n) false)) else done s
  | _ => done s

/-- AWAIT_TIMEOUT (R74). -/
def execAwaitTimeout (c : CoreNo) (s : State) : Host.Outcome State Fault Refusal :=
  let k := s.core c
  match k.wait with
  | .await n target tmo rd =>
    if s.up && k.run = .running && timedOut k tmo && !axisReached s n target then
      done (s.setCore c (endWait k rd (shortPos s n) true))
    else done s
  | _ => done s

/-- What tget gives beside the short stamp (R73): the high word, and the epoch with the fraction. -/
def clockHigh (s : State) : Word := halfOf (wrapN 64 s.tim.total) true
def clockFrac (s : State) : Word := setField (BitVec.ofNat 32 (s.tim.sub % 65536)) 31 24 s.epoch

/-- Where tget keeps its latches, among a core's own (R73). -/
def tgetHigh : Nat := 0xF000
def tgetFrac : Nat := 0xF001

/-- TGET (R73): a selector of 3 is illegal. -/
def execTget (c : CoreNo) (rd _rs1 _rs2 : RegNo) (idx : BitVec 11) (s : State) : Host.Outcome State Fault Refusal :=
  let sel := idx.toNat % 4
  done (issue s c false (sel != 3) (fun k =>
    if sel = 0 then
      ((s.setLatch (.core c) tgetHigh (clockHigh s)).setLatch (.core c) tgetFrac (clockFrac s)).setCore c ((k.ws rd s.tim.short).retire)
    else
      let w := if sel = 1 then (s.latched (.core c) tgetHigh).getD (clockHigh s) else (s.latched (.core c) tgetFrac).getD (clockFrac s)
      s.setCore c ((k.ws rd w).retire)))

/-! ### Slots (R75, R76) -/

/-- A number lies in a granted range: first and count (R95). -/
def granted (r : Nat × Nat) (n : Nat) : Bool := decide (r.1 ≤ n) && decide (n < r.1 + r.2)

/-- The bytes at an address of local data or cluster memory, or the exception that the access takes (R75, R79). -/
def nearBytes (s : State) (k : CoreSt) (c a n : Nat) : Except (Nat × Nat) (List (BitVec 8)) :=
  match dataPlace k c a n false with
  | .ok (.loc p) => (match placeRead s (.loc p) n with | some l => .ok l | none => .error (4, 0))
  | .ok (.clu d p) => (match placeRead s (.clu d p) n with | some l => .ok l | none => .error (4, 0))
  | _ => .error (3, 0)

/-- ARM (R72, R75, R116, R117). -/
def execArm (c : CoreNo) (rd rs1 _rs2 : RegNo) (idx : BitVec 11) (s : State) : Host.Outcome State Fault Refusal :=
  done (issue s c false true (fun k =>
    let a := (k.rs rs1).toNat
    let n := idx.toNat % 256
    if a % 32 != 0 then takeExc s c 2 0 a
    else if !granted k.grant.slots n then takeExc s c 3 2 n
    else match nearBytes s k c a 32 with
      | .error (cause, detail) => takeExc s c cause detail a
      | .ok l =>
        let (st, s) := armSlot s c n ((List.range 8).map (fun i => BitVec.ofNat 32 (leAt l (4 * i) 4)))
        s.setCore c (((s.core c).ws rd (BitVec.ofNat 32 st)).retire)))

/-- DISARM (R72, R76). -/
def execDisarm (c : CoreNo) (rd _rs1 _rs2 : RegNo) (idx : BitVec 11) (s : State) : Host.Outcome State Fault Refusal :=
  done (issue s c false true (fun k =>
    let n := idx.toNat % 256
    if !granted k.grant.slots n then takeExc s c 3 2 n
    else
      let (b, s) := disarmSlot s n
      s.setCore c (((s.core c).ws rd (if b then 1 else 0)).retire)))

/-! ### Events (R77, R78) -/

/-- EVRAISE (R72, R77, R132): the raised producer is the origin. -/
def execEvraise (c : CoreNo) (_rd rs1 _rs2 : RegNo) (idx : BitVec 11) (s : State) : Host.Outcome State Fault Refusal :=
  done (issue s c false true (fun k =>
    let p := idx.toNat % 1024
    if !granted k.grant.producers p then takeExc s c 3 3 p
    else (s.raiseEv p ((k.rs rs1).toNat % 8) p).setCore c k.retire))

/-- What evwait and evpoll report of an input (R78): OVERRUN, the highest hop among the pending events, and a count. -/
def inputWord (s : State) (i n : Nat) : Word :=
  setField (setField (flagAt 0 31 (s.on (F.EVR_IN_STAT_OVERRUN i))) 10 8 (inCounts s i).2) 7 0 n

/-- The hardware consumer of an input could take an event in this TIME cycle (R130): a DMA start while the channel is IDLE, a group, pulse
or HOLDOVER input once a cycle, a cut, a remote event while its link can send. -/
def hwWants (s : State) (i : Nat) : Bool :=
  if i < 0x0C0 then false
  else if i < 0x100 then s.pci.rst.isNone && chState s (i - 0x0C0) == dIdle && !isRingChan s (i - 0x0C0)
  else if i < 0x160 || i == inHoldover then mayTake s i
  else if i < 0x168 then true
  else if 0x170 ≤ i && i < 0x1F0 then remoteReady s (i - 0x170)
  else false

/-- Lower-numbered cores that wait for an event of an input: they are served first (R78). -/
def coresBefore (s : State) (c i : Nat) : Nat :=
  (s.cores.filter (fun e => decide (e.1 < c) && e.2.run == .running &&
    (match e.2.wait with | .evwait j _ _ => j == i | _ => false))).length

/-- The pending events of an input that are not for a core: those the hardware consumer and the lower-numbered cores are served with
first in this cycle (R78, R130). -/
def evAhead (s : State) (c i : Nat) : Nat := (if hwWants s i then 1 else 0) + coresBefore s c i

/-- A core finds an event to take at an input. -/
def evReady (s : State) (c i : Nat) : Bool := decide (evAhead s c i < (s.input i).pend.length)

/-- A core takes one event of an input, the oldest that is left to it (R78). -/
def evTake (s : State) (c i rd : Nat) : State :=
  let x := s.input i
  let w := inputWord s i (x.pend.length - 1)
  (s.setInput i { x with pend := x.pend.eraseIdx (evAhead s c i) }).setCore c (endWait (s.core c) rd w false)

/-- EVWAIT (R72, R78). -/
def execEvwait (c : CoreNo) (rd rs1 _rs2 : RegNo) (idx : BitVec 11) (s : State) : Host.Outcome State Fault Refusal :=
  done (issue s c false true (fun k =>
    let i := idx.toNat % 512
    if !granted k.grant.inputs i then takeExc s c 3 4 i
    else if evReady s c i then evTake s c i rd
    else if k.rs rs1 = 0 then s.setCore c (endWait k rd 0 true)
    else beginWait s c (.evwait i (k.rs rs1).toNat rd)))

/-- EVWAIT_TAKE (R78). -/
def execEvwaitTake (c : CoreNo) (s : State) : Host.Outcome State Fault Refusal :=
  let k := s.core c
  match k.wait with
  | .evwait i _ rd => if s.up && k.run = .running && evReady s c i then done (evTake s c i rd) else done s
  | _ => done s

/-- EVWAIT_TIMEOUT (R78). -/
def execEvwaitTimeout (c : CoreNo) (s : State) : Host.Outcome State Fault Refusal :=
  let k := s.core c
  match k.wait with
  | .evwait i tmo rd =>
    if s.up && k.run = .running && timedOut k tmo && !evReady s c i then done (s.setCore c (endWait k rd 0 true)) else done s
  | _ => done s

/-- EVPOLL (R72, R78): nothing is consumed, and STATUS.TMO stays. -/
def execEvpoll (c : CoreNo) (rd _rs1 _rs2 : RegNo) (idx : BitVec 11) (s : State) : Host.Outcome State Fault Refusal :=
  done (issue s c false true (fun k =>
    let i := idx.toNat % 512
    if !granted k.grant.inputs i then takeExc s c 3 4 i
    else s.setCore c ((k.ws rd (inputWord s i (s.input i).pend.length)).retire)))

/-! ### Records and tiles (R79 to R81) -/

/-- RPOST (R72, R79): never waits; rd is 0 taken, 1 busy, 2 ring not active. -/
def execRpost (c : CoreNo) (rd rs1 _rs2 : RegNo) (idx : BitVec 11) (s : State) : Host.Outcome State Fault Refusal :=
  done (issue s c true true (fun k =>
    let a := (k.rs rs1).toNat
    let r := idx.toNat % 256
    if a % 64 != 0 then takeExc s c 2 0 a
    else if !granted k.grant.rings r then takeExc s c 3 5 r
    else match nearBytes s k c a 64 with
      | .error (cause, detail) => takeExc s c cause detail a
      | .ok l =>
        let (st, s) := postRecord s c r l
        s.setCore c (((s.core c).ws rd (BitVec.ofNat 32 st)).retire)))

/-- An address of cluster memory. -/
def inCluster (a n : Nat) : Bool := decide (0x10000000 ≤ a) && decide (a + n ≤ 0x10200000)

/-- TFEED (R80, R87, R265, R270): the hold of the tile before ends; a tile in the queue is copied at once. A tfeed that faults has no
effect. -/
def execTfeed (c : CoreNo) (rd rs1 rs2 : RegNo) (_idx : BitVec 11) (s : State) : Host.Outcome State Fault Refusal :=
  done (issue s c true true (fun k =>
    let a := (k.rs rs1).toNat
    if a % 64 != 0 then takeExc s c 2 0 a
    else if !inCluster a 64 then takeExc s c 3 0 a
    else
      match feedFault s c a with
      | some e => takeExc s c 3 0 e
      | none =>
      let s := endHold s c
      match feedTile s c a rd with
      | some t => t
      | none =>
        if k.rs rs2 = 0 then s.setCore c (endWait (s.core c) rd 0 true)
        else beginWait s c (.tfeed a (k.rs rs2).toNat rd)))

/-- TFEED_COPY (R80, R265). -/
def execTfeedCopy (c : CoreNo) (s : State) : Host.Outcome State Fault Refusal :=
  let k := s.core c
  match k.wait with
  | .tfeed a _ rd =>
    if s.up && k.run = .running then done ((feedTile s c a rd).getD s) else done s
  | _ => done s

/-- TFEED_TIMEOUT (R80). -/
def execTfeedTimeout (c : CoreNo) (s : State) : Host.Outcome State Fault Refusal :=
  let k := s.core c
  match k.wait with
  | .tfeed _ tmo rd =>
    if s.up && k.run = .running && timedOut k tmo && (tileQ s (c - 4)).isEmpty then done (s.setCore c (endWait k rd 0 true)) else done s
  | _ => done s

/-- A tile goes to the flail's queue of 64 (R269). -/
def pushFlail (s : State) (c a : Nat) (h : Word) : State :=
  let s := { s with thr := { s.thr with flq := s.thr.flq ++ [(c, a, h.toNat)] } }
  s.setCore c { (s.core c).retire with wait := .none }

/-- FLPUSH (R81, R269). -/
def execFlpush (c : CoreNo) (rd rs1 rs2 : RegNo) (_idx : BitVec 11) (s : State) : Host.Outcome State Fault Refusal :=
  done (issue s c true (rd == 0) (fun k =>
    let a := (k.rs rs1).toNat
    if !inCluster a 64 then takeExc s c 3 0 a
    else if s.thr.flq.length < 64 then pushFlail s c a (k.rs rs2)
    else beginWait s c (.flpush a (k.rs rs2))))

/-- FLPUSH_ACCEPT (R269). -/
def execFlpushAccept (c : CoreNo) (s : State) : Host.Outcome State Fault Refusal :=
  let k := s.core c
  match k.wait with
  | .flpush a h => if s.up && k.run = .running && s.thr.flq.length < 64 then done (pushFlail s c a h) else done s
  | _ => done s

/-! ### Posted bus errors and the watchdog (R89, R91) -/

/-- BUS_ERROR_POSTED (R89): a failed posted store is reported at an instruction boundary or at a fence.d, in the order of the failures; a
core in another wait takes it when the wait is over. -/
def execBusErrorPosted (c : CoreNo) (addr : Word) (s : State) : Host.Outcome State Fault Refusal :=
  let k := s.core c
  if !s.up || k.run ≠ .running then done s
  else if k.wait = .none || k.wait = .fenceD then
    match k.busErrs with
    | [] => done (takeExc s c 4 1 addr.toNat)
    | a :: rest => done (takeExc (s.setCore c { k with busErrs := rest ++ [addr] }) c 4 1 a.toNat)
  else done (s.setCore c { k with busErrs := k.busErrs ++ [addr] })

/-- WATCHDOG (R88, R90, R91): the count has reached zero; an await, evwait, tfeed or flpush that waits is abandoned, EPC points at it, and
the count reloads. A fence completes first. -/
def execWatchdog (c : CoreNo) (s : State) : Host.Outcome State Fault Refusal :=
  let k := s.core c
  if s.up && k.run = .running && k.wait ≠ .fenceC && k.wait ≠ .fenceD && k.wdtLoad ≠ 0 && k.wdtCount = 0 then
    done (takeExc (s.setCore c k.kick) c 5 0 0)
  else done s

end Sys2Proof.Machine
end

