-- ==== Sys2Proof/Machine/UrelmVector.lean ====
section
/-! DEFINITION. Machine/UrelmVector.lean: the vector, predicate and pixel instructions (R61 to R64, R71). -/

namespace Sys2Proof.Machine
open Sys2Proof

/-- Element width in bits of a view: 0 .w, 1 .h, 2 .b, 3 .x (R62). -/
def viewWidth (view : Nat) : Nat := if view = 1 then 16 else if view = 2 then 8 else 32
/-- Element count of a view. -/
def viewCount (view : Nat) : Nat := 512 / viewWidth view

/-- Element `i` of a vector register, element 0 in the least significant bits. -/
def elem (v : BitVec 512) (w i : Nat) : Nat := (v.toNat >>> (w * i)) % 2 ^ w

/-- A vector register from its elements, element 0 first. -/
def ofElems (w : Nat) : List Nat → Nat
  | [] => 0
  | e :: r => e % 2 ^ w + 2 ^ w * ofElems w r

/-- The elements a predicate enables take new values, the others keep theirs (R63). -/
def vmerge (old : BitVec 512) (p : Dword) (view : Nat) (f : Nat → Nat) : BitVec 512 :=
  let w := viewWidth view
  BitVec.ofNat 512 (ofElems w ((List.range (viewCount view)).map (fun i => if p.getLsbD i then f i else elem old w i)))

/-- A predicate result: 0 at disabled elements and at and above the element count (R63). -/
def pmerge (p : Dword) (view : Nat) (f : Nat → Bool) : Dword :=
  BitVec.ofNat 64 (ofElems 1 ((List.range (viewCount view)).map (fun i => if p.getLsbD i && f i then 1 else 0)))

/-- An element-wise instruction on two vectors: `f` takes the width, the old element of vd and the elements of va and vb.
Only .w, .h and .b are its views (R64). -/
def vOp (s : State) (c vd va vb view pred : Nat) (f : Nat → Nat → Nat → Nat → Nat) : State :=
  issue s c true (view != 3) (fun k =>
    let w := viewWidth view
    let r := vmerge (k.rv vd) (k.rp pred) view
      (fun i => f w (elem (k.rv vd) w i) (elem (k.rv va) w i) (elem (k.rv vb) w i))
    s.setCore c ((k.wv vd r).retire))

/-- A comparison into a predicate: vd names a predicate, its bits [4:3] zero (R69). -/
def vCmp (s : State) (c vd va vb view pred : Nat) (f : Nat → Nat → Nat → Bool) : State :=
  issue s c true (view != 3 && decide (vd < 8)) (fun k =>
    let w := viewWidth view
    s.setCore c ((k.wp vd (pmerge (k.rp pred) view (fun i => f w (elem (k.rv va) w i) (elem (k.rv vb) w i)))).retire))

/-- Signed saturation to `w` bits. -/
def satS (w : Nat) (x : Int) : Nat := wrapN w (clampI (-(2 ^ (w - 1) : Nat)) ((2 ^ (w - 1) : Nat) - 1) x)

/-- VADD (R71). -/
def execVadd (c : CoreNo) (vd va vb : RegNo) (view : Fin 4) (pred : Fin 8) (s : State) : Host.Outcome State Fault Refusal :=
  done (vOp s c vd va vb view pred (fun _ _ a b => a + b))

/-- VSUB (R71). -/
def execVsub (c : CoreNo) (vd va vb : RegNo) (view : Fin 4) (pred : Fin 8) (s : State) : Host.Outcome State Fault Refusal :=
  done (vOp s c vd va vb view pred (fun w _ a b => a + 2 ^ w - b))

/-- VMUL (R71). -/
def execVmul (c : CoreNo) (vd va vb : RegNo) (view : Fin 4) (pred : Fin 8) (s : State) : Host.Outcome State Fault Refusal :=
  done (vOp s c vd va vb view pred (fun _ _ a b => a * b))

/-- VMULH (R71). -/
def execVmulh (c : CoreNo) (vd va vb : RegNo) (view : Fin 4) (pred : Fin 8) (s : State) : Host.Outcome State Fault Refusal :=
  done (vOp s c vd va vb view pred (fun w _ a b => wrapN w (floorDiv (signed w a * signed w b) (2 ^ w : Nat))))

/-- VMAC (R71). -/
def execVmac (c : CoreNo) (vd va vb : RegNo) (view : Fin 4) (pred : Fin 8) (s : State) : Host.Outcome State Fault Refusal :=
  done (vOp s c vd va vb view pred (fun _ d a b => d + a * b))

/-- VADDS (R71). -/
def execVadds (c : CoreNo) (vd va vb : RegNo) (view : Fin 4) (pred : Fin 8) (s : State) : Host.Outcome State Fault Refusal :=
  done (vOp s c vd va vb view pred (fun w _ a b => satS w (signed w a + signed w b)))

/-- VSUBS (R71). -/
def execVsubs (c : CoreNo) (vd va vb : RegNo) (view : Fin 4) (pred : Fin 8) (s : State) : Host.Outcome State Fault Refusal :=
  done (vOp s c vd va vb view pred (fun w _ a b => satS w (signed w a - signed w b)))

/-- VABSD (R71). -/
def execVabsd (c : CoreNo) (vd va vb : RegNo) (view : Fin 4) (pred : Fin 8) (s : State) : Host.Outcome State Fault Refusal :=
  done (vOp s c vd va vb view pred (fun _ _ a b => if a < b then b - a else a - b))

/-- VMIN (R71). -/
def execVmin (c : CoreNo) (vd va vb : RegNo) (view : Fin 4) (pred : Fin 8) (s : State) : Host.Outcome State Fault Refusal :=
  done (vOp s c vd va vb view pred (fun w _ a b => if signed w a < signed w b then a else b))

/-- VMAX (R71). -/
def execVmax (c : CoreNo) (vd va vb : RegNo) (view : Fin 4) (pred : Fin 8) (s : State) : Host.Outcome State Fault Refusal :=
  done (vOp s c vd va vb view pred (fun w _ a b => if signed w a < signed w b then b else a))

/-- VMINU (R71). -/
def execVminu (c : CoreNo) (vd va vb : RegNo) (view : Fin 4) (pred : Fin 8) (s : State) : Host.Outcome State Fault Refusal :=
  done (vOp s c vd va vb view pred (fun _ _ a b => min a b))

/-- VMAXU (R71). -/
def execVmaxu (c : CoreNo) (vd va vb : RegNo) (view : Fin 4) (pred : Fin 8) (s : State) : Host.Outcome State Fault Refusal :=
  done (vOp s c vd va vb view pred (fun _ _ a b => max a b))

/-- VAND (R71). -/
def execVand (c : CoreNo) (vd va vb : RegNo) (view : Fin 4) (pred : Fin 8) (s : State) : Host.Outcome State Fault Refusal :=
  done (vOp s c vd va vb view pred (fun _ _ a b => a &&& b))

/-- VOR (R71). -/
def execVor (c : CoreNo) (vd va vb : RegNo) (view : Fin 4) (pred : Fin 8) (s : State) : Host.Outcome State Fault Refusal :=
  done (vOp s c vd va vb view pred (fun _ _ a b => a ||| b))

/-- VXOR (R71). -/
def execVxor (c : CoreNo) (vd va vb : RegNo) (view : Fin 4) (pred : Fin 8) (s : State) : Host.Outcome State Fault Refusal :=
  done (vOp s c vd va vb view pred (fun _ _ a b => a ^^^ b))

/-- VSLL (R71). -/
def execVsll (c : CoreNo) (vd va vb : RegNo) (view : Fin 4) (pred : Fin 8) (s : State) : Host.Outcome State Fault Refusal :=
  done (vOp s c vd va vb view pred (fun w _ a b => a <<< (b % w)))

/-- VSRL (R71). -/
def execVsrl (c : CoreNo) (vd va vb : RegNo) (view : Fin 4) (pred : Fin 8) (s : State) : Host.Outcome State Fault Refusal :=
  done (vOp s c vd va vb view pred (fun w _ a b => a >>> (b % w)))

/-- VSRA (R71). -/
def execVsra (c : CoreNo) (vd va vb : RegNo) (view : Fin 4) (pred : Fin 8) (s : State) : Host.Outcome State Fault Refusal :=
  done (vOp s c vd va vb view pred (fun w _ a b => wrapN w (floorDiv (signed w a) (2 ^ (b % w) : Nat))))

/-- VCMPEQ (R71). -/
def execVcmpeq (c : CoreNo) (vd va vb : RegNo) (view : Fin 4) (pred : Fin 8) (s : State) : Host.Outcome State Fault Refusal :=
  done (vCmp s c vd va vb view pred (fun _ a b => a == b))

/-- VCMPLT (R71). -/
def execVcmplt (c : CoreNo) (vd va vb : RegNo) (view : Fin 4) (pred : Fin 8) (s : State) : Host.Outcome State Fault Refusal :=
  done (vCmp s c vd va vb view pred (fun w a b => decide (signed w a < signed w b)))

/-- VCMPLTU (R71). -/
def execVcmpltu (c : CoreNo) (vd va vb : RegNo) (view : Fin 4) (pred : Fin 8) (s : State) : Host.Outcome State Fault Refusal :=
  done (vCmp s c vd va vb view pred (fun _ a b => decide (a < b)))

/-- VSEL (R63, R71): the predicate chooses, every element is written. -/
def execVsel (c : CoreNo) (vd va vb : RegNo) (view : Fin 4) (pred : Fin 8) (s : State) : Host.Outcome State Fault Refusal :=
  done (issue s c true (view.val != 3) (fun k =>
    let w := viewWidth view
    let p := k.rp pred
    let r := vmerge (k.rv vd) (BitVec.allOnes 64) view
      (fun i => if p.getLsbD i then elem (k.rv va) w i else elem (k.rv vb) w i)
    s.setCore c ((k.wv vd r).retire)))

/-- VSLIDE (R71): va followed by vb, shifted down by one element. -/
def execVslide (c : CoreNo) (vd va vb : RegNo) (view : Fin 4) (pred : Fin 8) (s : State) : Host.Outcome State Fault Refusal :=
  done (issue s c true (view.val != 3) (fun k =>
    let w := viewWidth view
    let r := vmerge (k.rv vd) (k.rp pred) view
      (fun i => if i + 1 < viewCount view then elem (k.rv va) w (i + 1) else elem (k.rv vb) w 0)
    s.setCore c ((k.wv vd r).retire)))

/-- VBCAST (R71): va names a scalar; vb must be 0. -/
def execVbcast (c : CoreNo) (vd va vb : RegNo) (view : Fin 4) (pred : Fin 8) (s : State) : Host.Outcome State Fault Refusal :=
  done (issue s c true (view.val != 3 && vb.val == 0) (fun k =>
    s.setCore c ((k.wv vd (vmerge (k.rv vd) (k.rp pred) view (fun _ => (k.rs va).toNat))).retire)))

/-- VEXT (R71): one element into a scalar, sign-extended; vb names the scalar that holds its index. -/
def execVext (c : CoreNo) (vd va vb : RegNo) (view : Fin 4) (_pred : Fin 8) (s : State) : Host.Outcome State Fault Refusal :=
  done (issue s c true (view.val != 3) (fun k =>
    let w := viewWidth view
    let i := (k.rs vb).toNat % viewCount view
    s.setCore c ((k.ws vd (BitVec.ofInt 32 (signed w (elem (k.rv va) w i)))).retire)))

/-- A reduction over the enabled elements, as signed numbers, into a scalar (R63, R71). -/
def vRed (s : State) (c vd va : Nat) (legal : Bool) (view pred : Nat) (start : Nat → Int) (f : Int → Int → Int) : State :=
  issue s c true (view != 3 && legal) (fun k =>
    let w := viewWidth view
    let l := (List.range (viewCount view)).filter (fun i => (k.rp pred).getLsbD i)
    let r := l.foldl (fun acc i => f acc (signed w (elem (k.rv va) w i))) (start w)
    s.setCore c ((k.ws vd (BitVec.ofInt 32 r)).retire))

/-- VREDADD (R71): the sum modulo 2^32 of the sign-extended elements; 0 with none enabled. -/
def execVredadd (c : CoreNo) (vd va _vb : RegNo) (view : Fin 4) (pred : Fin 8) (s : State) : Host.Outcome State Fault Refusal :=
  done (vRed s c vd va true view pred (fun _ => 0) (fun a b => a + b))

/-- VREDMIN (R71): the signed minimum; the largest value of the element width with none enabled. -/
def execVredmin (c : CoreNo) (vd va _vb : RegNo) (view : Fin 4) (pred : Fin 8) (s : State) : Host.Outcome State Fault Refusal :=
  done (vRed s c vd va true view pred (fun w => (2 ^ (w - 1) : Nat) - 1) (fun a b => min a b))

/-- VREDMAX (R71): the signed maximum; the smallest value of the element width with none enabled. -/
def execVredmax (c : CoreNo) (vd va _vb : RegNo) (view : Fin 4) (pred : Fin 8) (s : State) : Host.Outcome State Fault Refusal :=
  done (vRed s c vd va true view pred (fun w => -((2 ^ (w - 1) : Nat) : Int)) (fun a b => max a b))

/-- Value and flags of a pixel word (R64). -/
def pxValue (e : Nat) : Nat := e % 2 ^ 24
def pxFlags (e : Nat) : Nat := (e / 2 ^ 24) % 256
/-- A pixel word whose value is saturated at 0xFF_FFFF, setting the clip flag, bit 24 (R64). -/
def pxSat (v flags : Nat) : Nat :=
  if v > 0xFFFFFF then 0xFFFFFF + 2 ^ 24 * (flags ||| 1) else v + 2 ^ 24 * flags

/-- An element-wise pixel instruction: its only view is .x (R64). -/
def vxOp (s : State) (c vd va vb view pred : Nat) (f : Nat → Nat → Nat) : State :=
  issue s c true (view == 3) (fun k =>
    let r := vmerge (k.rv vd) (k.rp pred) view (fun i => f (elem (k.rv va) 32 i) (elem (k.rv vb) 32 i))
    s.setCore c ((k.wv vd r).retire))

/-- VXADD (R64, R71). -/
def execVxadd (c : CoreNo) (vd va vb : RegNo) (view : Fin 4) (pred : Fin 8) (s : State) : Host.Outcome State Fault Refusal :=
  done (vxOp s c vd va vb view pred (fun a b => pxSat (pxValue a + pxValue b) (pxFlags a ||| pxFlags b)))

/-- VXMUL (R64, R71). -/
def execVxmul (c : CoreNo) (vd va vb : RegNo) (view : Fin 4) (pred : Fin 8) (s : State) : Host.Outcome State Fault Refusal :=
  done (vxOp s c vd va vb view pred (fun a b => pxSat ((pxValue a * b + 2 ^ 15) / 2 ^ 16) (pxFlags a)))

/-- VXFLAG (R64, R71): vd names a predicate, vb a scalar mask. -/
def execVxflag (c : CoreNo) (vd va vb : RegNo) (view : Fin 4) (pred : Fin 8) (s : State) : Host.Outcome State Fault Refusal :=
  done (issue s c true (view.val == 3 && decide (vd.val < 8)) (fun k =>
    let m := (k.rs vb).toNat % 256
    s.setCore c ((k.wp vd (pmerge (k.rp pred) view (fun i => (pxFlags (elem (k.rv va) 32 i) &&& m) != 0))).retire)))

/-- A predicate operation: all three fields name predicates, the view is .w and the predicate p0 (R69, R71). -/
def pOp (s : State) (c vd va vb view pred : Nat) (f : Dword → Dword → Dword) : State :=
  issue s c true (view == 0 && pred == 0 && decide (vd < 8) && decide (va < 8) && decide (vb < 8)) (fun k =>
    s.setCore c ((k.wp vd (f (k.rp va) (k.rp vb))).retire))

/-- PAND (R71). -/
def execPand (c : CoreNo) (vd va vb : RegNo) (view : Fin 4) (pred : Fin 8) (s : State) : Host.Outcome State Fault Refusal :=
  done (pOp s c vd va vb view pred (fun a b => a &&& b))

/-- POR (R71). -/
def execPor (c : CoreNo) (vd va vb : RegNo) (view : Fin 4) (pred : Fin 8) (s : State) : Host.Outcome State Fault Refusal :=
  done (pOp s c vd va vb view pred (fun a b => a ||| b))

/-- PXOR (R71). -/
def execPxor (c : CoreNo) (vd va vb : RegNo) (view : Fin 4) (pred : Fin 8) (s : State) : Host.Outcome State Fault Refusal :=
  done (pOp s c vd va vb view pred (fun a b => a ^^^ b))

/-- PANDN (R71). -/
def execPandn (c : CoreNo) (vd va vb : RegNo) (view : Fin 4) (pred : Fin 8) (s : State) : Host.Outcome State Fault Refusal :=
  done (pOp s c vd va vb view pred (fun a b => a &&& ~~~b))

/-- PCNT (R71): the set bits of a predicate into a scalar; vb must be 0. -/
def execPcnt (c : CoreNo) (vd va vb : RegNo) (view : Fin 4) (_pred : Fin 8) (s : State) : Host.Outcome State Fault Refusal :=
  done (issue s c true (view.val != 3 && decide (va.val < 8) && vb.val == 0) (fun k =>
    s.setCore c ((k.ws vd (BitVec.ofNat 32 ((List.range 64).countP (fun i => (k.rp va).getLsbD i)))).retire)))

/-- The view of a vector load or store: .x is treated as .w (R64). -/
def memView (view : Nat) : Nat := if view = 3 then 0 else view

/-- Address of element `i` (R71): contiguous when the stride field names s0, else a signed byte distance. -/
def vAddr (k : CoreSt) (base stride w i : Nat) : Nat :=
  if stride = 0 then ((k.rs base) + BitVec.ofNat 32 (i * (w / 8))).toNat
  else (BitVec.ofInt 32 ((k.rs base).toNat + i * (k.rs stride).toInt)).toNat

/-- What stops a vector access (R68, R71, R87, R88): a register address, then alignment, then a window, each at the first
element it meets; the enabled elements only. -/
def vFault (k : CoreSt) (c base stride w : Nat) (idx : List Nat) (write : Bool) : Option (Nat × Nat × Nat) :=
  let inRegs (a : Nat) : Bool := decide (0x20000000 ≤ a) && decide (a < 0x30000000)
  match idx.find? (fun i => inRegs (vAddr k base stride w i)) with
  | some i => some (2, 2, vAddr k base stride w i)
  | none =>
    let mis :=
      if stride = 0 then (if (k.rs base).toNat % 64 != 0 then some (k.rs base).toNat else none)
      else (idx.find? (fun i => vAddr k base stride w i % (w / 8) != 0)).map (vAddr k base stride w)
    match mis with
    | some a => some (2, 1, a)
    | none =>
      idx.findSome? (fun i =>
        match dataPlace k c (vAddr k base stride w i) (w / 8) write with
        | .error (cause, detail) => some (cause, detail, vAddr k base stride w i)
        | .ok _ => none)

/-- The place of an element that no fault stops. -/
def vPlace (k : CoreSt) (c a n : Nat) (write : Bool) : Place :=
  match dataPlace k c a n write with
  | .ok p => p
  | .error _ => .loc 0

/-- VLD (R63, R64, R71): disabled elements are not accessed; a fault on any element writes none (R87). -/
def execVld (c : CoreNo) (vt base stride : RegNo) (view : Fin 4) (pred : Fin 8) (s : State) : Host.Outcome State Fault Refusal :=
  done (issue s c true true (fun k =>
    let v := memView view
    let w := viewWidth v
    let idx := (List.range (viewCount v)).filter (fun i => (k.rp pred).getLsbD i)
    match vFault k c base stride w idx false with
    | some (cause, detail, a) => takeExc s c cause detail a
    | none =>
      match idx.find? (fun i => (placeRead s (vPlace k c (vAddr k base stride w i) (w / 8) false) (w / 8)).isNone) with
      | some i =>
        let a := vAddr k base stride w i
        takeExc (placeMissed s (vPlace k c a (w / 8) false) (w / 8)) c 4 0 a
      | none =>
        let r := vmerge (k.rv vt) (k.rp pred) v
          (fun i => ofLE ((placeRead s (vPlace k c (vAddr k base stride w i) (w / 8) false) (w / 8)).getD []))
        s.setCore c ((k.wv vt r).retire)))

/-- VST (R63, R64, R71): the enabled elements are stored in order; a fault on any element stores none (R87). -/
def execVst (c : CoreNo) (vt base stride : RegNo) (view : Fin 4) (pred : Fin 8) (s : State) : Host.Outcome State Fault Refusal :=
  done (issue s c true true (fun k =>
    let v := memView view
    let w := viewWidth v
    let idx := (List.range (viewCount v)).filter (fun i => (k.rp pred).getLsbD i)
    match vFault k c base stride w idx true with
    | some (cause, detail, a) => takeExc s c cause detail a
    | none =>
      (idx.foldl (fun t i =>
        placeWrite t (vPlace k c (vAddr k base stride w i) (w / 8) true) (bytesLE (w / 8) (elem (k.rv vt) w i))) s).mapCore c
        (·.retire)))

end Sys2Proof.Machine
end

