-- ==== Sys2Proof/Machine/Dispatch.lean ====
section
/-! DEFINITION. Machine/Dispatch.lean: the meaning of every command, one arm per constructor. -/

namespace Sys2Proof.Machine
open Sys2Proof

def exec (i : Instr) (s : State) : Host.Outcome State Fault Refusal :=
  match i with
  | .powerOnReset => Sys2Proof.Machine.execPowerOnReset s
  | .resetN => Sys2Proof.Machine.execResetN s
  | .resetNRelease flashEn testEn addr => Sys2Proof.Machine.execResetNRelease flashEn testEn addr s
  | .pllLock agree kat noise => Sys2Proof.Machine.execPllLock agree kat noise s
  | .selfTestsPassed => Sys2Proof.Machine.execSelfTestsPassed s
  | .hbmTrained => Sys2Proof.Machine.execHbmTrained s
  | .hbmTrainingFailure stack => Sys2Proof.Machine.execHbmTrainingFailure stack s
  | .directoryWritten => Sys2Proof.Machine.execDirectoryWritten s
  | .flashDirectory img => Sys2Proof.Machine.execFlashDirectory img s
  | .bootComplete => Sys2Proof.Machine.execBootComplete s
  | .perstAssert => Sys2Proof.Machine.execPerstAssert s
  | .perstRelease => Sys2Proof.Machine.execPerstRelease s
  | .hotReset => Sys2Proof.Machine.execHotReset s
  | .initiateFlr => Sys2Proof.Machine.execInitiateFlr s
  | .hostSideReady => Sys2Proof.Machine.execHostSideReady s
  | .linkDown => Sys2Proof.Machine.execLinkDown s
  | .linkUp speed width flit => Sys2Proof.Machine.execLinkUp speed width flit s
  | .encoderEdge ch a b age width => Sys2Proof.Machine.execEncoderEdge ch a b age width s
  | .tickCount a => Sys2Proof.Machine.execTickCount a s
  | .zEdge ch width => Sys2Proof.Machine.execZEdge ch width s
  | .preset a => Sys2Proof.Machine.execPreset a s
  | .axsApply a => Sys2Proof.Machine.execAxsApply a s
  | .stall a => Sys2Proof.Machine.execStall a s
  | .remoteAxisSample a x => Sys2Proof.Machine.execRemoteAxisSample a x s
  | .stale a => Sys2Proof.Machine.execStale a s
  | .timAdjSubmit r hi => Sys2Proof.Machine.execTimAdjSubmit r hi s
  | .slewEnd => Sys2Proof.Machine.execSlewEnd s
  | .authStep r => Sys2Proof.Machine.execAuthStep r s
  | .hold => Sys2Proof.Machine.execHold s
  | .release => Sys2Proof.Machine.execRelease s
  | .refLost => Sys2Proof.Machine.execRefLost s
  | .timRateWrite v => Sys2Proof.Machine.execTimRateWrite v s
  | .ppsInEdge width => Sys2Proof.Machine.execPpsInEdge width s
  | .ppsLost => Sys2Proof.Machine.execPpsLost s
  | .ppsOutPulse => Sys2Proof.Machine.execPpsOutPulse s
  | .ppsOutEnd => Sys2Proof.Machine.execPpsOutEnd s
  | .fullPostmarkDue ring => Sys2Proof.Machine.execFullPostmarkDue ring s
  | .add c rd rs1 rs2 => Sys2Proof.Machine.execAdd c rd rs1 rs2 s
  | .sub c rd rs1 rs2 => Sys2Proof.Machine.execSub c rd rs1 rs2 s
  | .and c rd rs1 rs2 => Sys2Proof.Machine.execAnd c rd rs1 rs2 s
  | .or c rd rs1 rs2 => Sys2Proof.Machine.execOr c rd rs1 rs2 s
  | .xor c rd rs1 rs2 => Sys2Proof.Machine.execXor c rd rs1 rs2 s
  | .sll c rd rs1 rs2 => Sys2Proof.Machine.execSll c rd rs1 rs2 s
  | .srl c rd rs1 rs2 => Sys2Proof.Machine.execSrl c rd rs1 rs2 s
  | .sra c rd rs1 rs2 => Sys2Proof.Machine.execSra c rd rs1 rs2 s
  | .ror c rd rs1 rs2 => Sys2Proof.Machine.execRor c rd rs1 rs2 s
  | .slt c rd rs1 rs2 => Sys2Proof.Machine.execSlt c rd rs1 rs2 s
  | .sltu c rd rs1 rs2 => Sys2Proof.Machine.execSltu c rd rs1 rs2 s
  | .min c rd rs1 rs2 => Sys2Proof.Machine.execMin c rd rs1 rs2 s
  | .max c rd rs1 rs2 => Sys2Proof.Machine.execMax c rd rs1 rs2 s
  | .minu c rd rs1 rs2 => Sys2Proof.Machine.execMinu c rd rs1 rs2 s
  | .maxu c rd rs1 rs2 => Sys2Proof.Machine.execMaxu c rd rs1 rs2 s
  | .pdiff c rd rs1 rs2 => Sys2Proof.Machine.execPdiff c rd rs1 rs2 s
  | .clz c rd rs1 rs2 => Sys2Proof.Machine.execClz c rd rs1 rs2 s
  | .ctz c rd rs1 rs2 => Sys2Proof.Machine.execCtz c rd rs1 rs2 s
  | .popc c rd rs1 rs2 => Sys2Proof.Machine.execPopc c rd rs1 rs2 s
  | .mul c rd rs1 rs2 => Sys2Proof.Machine.execMul c rd rs1 rs2 s
  | .mulh c rd rs1 rs2 => Sys2Proof.Machine.execMulh c rd rs1 rs2 s
  | .mulhu c rd rs1 rs2 => Sys2Proof.Machine.execMulhu c rd rs1 rs2 s
  | .div c rd rs1 rs2 => Sys2Proof.Machine.execDiv c rd rs1 rs2 s
  | .divu c rd rs1 rs2 => Sys2Proof.Machine.execDivu c rd rs1 rs2 s
  | .rem c rd rs1 rs2 => Sys2Proof.Machine.execRem c rd rs1 rs2 s
  | .remu c rd rs1 rs2 => Sys2Proof.Machine.execRemu c rd rs1 rs2 s
  | .addi c rd rs1 imm => Sys2Proof.Machine.execAddi c rd rs1 imm s
  | .andi c rd rs1 imm => Sys2Proof.Machine.execAndi c rd rs1 imm s
  | .ori c rd rs1 imm => Sys2Proof.Machine.execOri c rd rs1 imm s
  | .xori c rd rs1 imm => Sys2Proof.Machine.execXori c rd rs1 imm s
  | .slti c rd rs1 imm => Sys2Proof.Machine.execSlti c rd rs1 imm s
  | .sltiu c rd rs1 imm => Sys2Proof.Machine.execSltiu c rd rs1 imm s
  | .slli c rd rs1 imm => Sys2Proof.Machine.execSlli c rd rs1 imm s
  | .srli c rd rs1 imm => Sys2Proof.Machine.execSrli c rd rs1 imm s
  | .srai c rd rs1 imm => Sys2Proof.Machine.execSrai c rd rs1 imm s
  | .lui c rd res imm => Sys2Proof.Machine.execLui c rd res imm s
  | .auipc c rd res imm => Sys2Proof.Machine.execAuipc c rd res imm s
  | .jal c rd res imm => Sys2Proof.Machine.execJal c rd res imm s
  | .jalr c rd rs1 imm => Sys2Proof.Machine.execJalr c rd rs1 imm s
  | .beq c rs1 rs2 off => Sys2Proof.Machine.execBeq c rs1 rs2 off s
  | .bne c rs1 rs2 off => Sys2Proof.Machine.execBne c rs1 rs2 off s
  | .blt c rs1 rs2 off => Sys2Proof.Machine.execBlt c rs1 rs2 off s
  | .bge c rs1 rs2 off => Sys2Proof.Machine.execBge c rs1 rs2 off s
  | .bltu c rs1 rs2 off => Sys2Proof.Machine.execBltu c rs1 rs2 off s
  | .bgeu c rs1 rs2 off => Sys2Proof.Machine.execBgeu c rs1 rs2 off s
  | .lb c rt base off => Sys2Proof.Machine.execLb c rt base off s
  | .lbu c rt base off => Sys2Proof.Machine.execLbu c rt base off s
  | .lh c rt base off => Sys2Proof.Machine.execLh c rt base off s
  | .lhu c rt base off => Sys2Proof.Machine.execLhu c rt base off s
  | .lw c rt base off => Sys2Proof.Machine.execLw c rt base off s
  | .sb c rt base off => Sys2Proof.Machine.execSb c rt base off s
  | .sh c rt base off => Sys2Proof.Machine.execSh c rt base off s
  | .sw c rt base off => Sys2Proof.Machine.execSw c rt base off s
  | .amoadd c rd rs1 rs2 => Sys2Proof.Machine.execAmoadd c rd rs1 rs2 s
  | .amoswap c rd rs1 rs2 => Sys2Proof.Machine.execAmoswap c rd rs1 rs2 s
  | .amoand c rd rs1 rs2 => Sys2Proof.Machine.execAmoand c rd rs1 rs2 s
  | .amoor c rd rs1 rs2 => Sys2Proof.Machine.execAmoor c rd rs1 rs2 s
  | .amomin c rd rs1 rs2 => Sys2Proof.Machine.execAmomin c rd rs1 rs2 s
  | .amomax c rd rs1 rs2 => Sys2Proof.Machine.execAmomax c rd rs1 rs2 s
  | .amocas c rd rs1 rs2 => Sys2Proof.Machine.execAmocas c rd rs1 rs2 s
  | .fenceC c rd rs1 rs2 => Sys2Proof.Machine.execFenceC c rd rs1 rs2 s
  | .fenceCDone c => Sys2Proof.Machine.execFenceCDone c s
  | .fenceD c rd rs1 rs2 => Sys2Proof.Machine.execFenceD c rd rs1 rs2 s
  | .fenceDDone c => Sys2Proof.Machine.execFenceDDone c s
  | .eret c rd rs1 rs2 => Sys2Proof.Machine.execEret c rd rs1 rs2 s
  | .halt c rd rs1 rs2 => Sys2Proof.Machine.execHalt c rd rs1 rs2 s
  | .xrd c rd rs1 imm => Sys2Proof.Machine.execXrd c rd rs1 imm s
  | .xwr c rd rs1 imm => Sys2Proof.Machine.execXwr c rd rs1 imm s
  | .wdtKick c => Sys2Proof.Machine.execWdtKick c s
  | .pget c rd rs1 rs2 idx => Sys2Proof.Machine.execPget c rd rs1 rs2 idx s
  | .pgeth c rd rs1 rs2 idx => Sys2Proof.Machine.execPgeth c rd rs1 rs2 idx s
  | .await c rd rs1 rs2 idx => Sys2Proof.Machine.execAwait c rd rs1 rs2 idx s
  | .awaitReached c => Sys2Proof.Machine.execAwaitReached c s
  | .awaitTimeout c => Sys2Proof.Machine.execAwaitTimeout c s
  | .tget c rd rs1 rs2 idx => Sys2Proof.Machine.execTget c rd rs1 rs2 idx s
  | .arm c rd rs1 rs2 idx => Sys2Proof.Machine.execArm c rd rs1 rs2 idx s
  | .disarm c rd rs1 rs2 idx => Sys2Proof.Machine.execDisarm c rd rs1 rs2 idx s
  | .evraise c rd rs1 rs2 idx => Sys2Proof.Machine.execEvraise c rd rs1 rs2 idx s
  | .evwait c rd rs1 rs2 idx => Sys2Proof.Machine.execEvwait c rd rs1 rs2 idx s
  | .evwaitTake c => Sys2Proof.Machine.execEvwaitTake c s
  | .evwaitTimeout c => Sys2Proof.Machine.execEvwaitTimeout c s
  | .evpoll c rd rs1 rs2 idx => Sys2Proof.Machine.execEvpoll c rd rs1 rs2 idx s
  | .rpost c rd rs1 rs2 idx => Sys2Proof.Machine.execRpost c rd rs1 rs2 idx s
  | .tfeed c rd rs1 rs2 idx => Sys2Proof.Machine.execTfeed c rd rs1 rs2 idx s
  | .tfeedCopy c => Sys2Proof.Machine.execTfeedCopy c s
  | .tfeedTimeout c => Sys2Proof.Machine.execTfeedTimeout c s
  | .flpush c rd rs1 rs2 idx => Sys2Proof.Machine.execFlpush c rd rs1 rs2 idx s
  | .flpushAccept c => Sys2Proof.Machine.execFlpushAccept c s
  | .vadd c vd va vb view pred => Sys2Proof.Machine.execVadd c vd va vb view pred s
  | .vsub c vd va vb view pred => Sys2Proof.Machine.execVsub c vd va vb view pred s
  | .vmul c vd va vb view pred => Sys2Proof.Machine.execVmul c vd va vb view pred s
  | .vmulh c vd va vb view pred => Sys2Proof.Machine.execVmulh c vd va vb view pred s
  | .vmac c vd va vb view pred => Sys2Proof.Machine.execVmac c vd va vb view pred s
  | .vadds c vd va vb view pred => Sys2Proof.Machine.execVadds c vd va vb view pred s
  | .vsubs c vd va vb view pred => Sys2Proof.Machine.execVsubs c vd va vb view pred s
  | .vabsd c vd va vb view pred => Sys2Proof.Machine.execVabsd c vd va vb view pred s
  | .vmin c vd va vb view pred => Sys2Proof.Machine.execVmin c vd va vb view pred s
  | .vmax c vd va vb view pred => Sys2Proof.Machine.execVmax c vd va vb view pred s
  | .vminu c vd va vb view pred => Sys2Proof.Machine.execVminu c vd va vb view pred s
  | .vmaxu c vd va vb view pred => Sys2Proof.Machine.execVmaxu c vd va vb view pred s
  | .vand c vd va vb view pred => Sys2Proof.Machine.execVand c vd va vb view pred s
  | .vor c vd va vb view pred => Sys2Proof.Machine.execVor c vd va vb view pred s
  | .vxor c vd va vb view pred => Sys2Proof.Machine.execVxor c vd va vb view pred s
  | .vsll c vd va vb view pred => Sys2Proof.Machine.execVsll c vd va vb view pred s
  | .vsrl c vd va vb view pred => Sys2Proof.Machine.execVsrl c vd va vb view pred s
  | .vsra c vd va vb view pred => Sys2Proof.Machine.execVsra c vd va vb view pred s
  | .vcmpeq c vd va vb view pred => Sys2Proof.Machine.execVcmpeq c vd va vb view pred s
  | .vcmplt c vd va vb view pred => Sys2Proof.Machine.execVcmplt c vd va vb view pred s
  | .vcmpltu c vd va vb view pred => Sys2Proof.Machine.execVcmpltu c vd va vb view pred s
  | .vsel c vd va vb view pred => Sys2Proof.Machine.execVsel c vd va vb view pred s
  | .vslide c vd va vb view pred => Sys2Proof.Machine.execVslide c vd va vb view pred s
  | .vbcast c vd va vb view pred => Sys2Proof.Machine.execVbcast c vd va vb view pred s
  | .vext c vd va vb view pred => Sys2Proof.Machine.execVext c vd va vb view pred s
  | .vredadd c vd va vb view pred => Sys2Proof.Machine.execVredadd c vd va vb view pred s
  | .vredmin c vd va vb view pred => Sys2Proof.Machine.execVredmin c vd va vb view pred s
  | .vredmax c vd va vb view pred => Sys2Proof.Machine.execVredmax c vd va vb view pred s
  | .vxadd c vd va vb view pred => Sys2Proof.Machine.execVxadd c vd va vb view pred s
  | .vxmul c vd va vb view pred => Sys2Proof.Machine.execVxmul c vd va vb view pred s
  | .vxflag c vd va vb view pred => Sys2Proof.Machine.execVxflag c vd va vb view pred s
  | .pand c vd va vb view pred => Sys2Proof.Machine.execPand c vd va vb view pred s
  | .por c vd va vb view pred => Sys2Proof.Machine.execPor c vd va vb view pred s
  | .pxor c vd va vb view pred => Sys2Proof.Machine.execPxor c vd va vb view pred s
  | .pandn c vd va vb view pred => Sys2Proof.Machine.execPandn c vd va vb view pred s
  | .pcnt c vd va vb view pred => Sys2Proof.Machine.execPcnt c vd va vb view pred s
  | .vld c vt base stride view pred => Sys2Proof.Machine.execVld c vt base stride view pred s
  | .vst c vt base stride view pred => Sys2Proof.Machine.execVst c vt base stride view pred s
  | .busErrorPosted c addr => Sys2Proof.Machine.execBusErrorPosted c addr s
  | .watchdog c => Sys2Proof.Machine.execWatchdog c s
  | .mbxSend m => Sys2Proof.Machine.execMbxSend m s
  | .mbxAbort m => Sys2Proof.Machine.execMbxAbort m s
  | .ccxMbxPost c m => Sys2Proof.Machine.execCcxMbxPost c m s
  | .query m => Sys2Proof.Machine.execQuery m s
  | .load m => Sys2Proof.Machine.execLoad m s
  | .parcelFetched bytes failed => Sys2Proof.Machine.execParcelFetched bytes failed s
  | .switch m => Sys2Proof.Machine.execSwitch m s
  | .coreSwitch c => Sys2Proof.Machine.execCoreSwitch c s
  | .switchForced c => Sys2Proof.Machine.execSwitchForced c s
  | .switchDone => Sys2Proof.Machine.execSwitchDone s
  | .cancel m => Sys2Proof.Machine.execCancel m s
  | .haltLetter m => Sys2Proof.Machine.execHaltLetter m s
  | .startLetter m => Sys2Proof.Machine.execStartLetter m s
  | .identity m => Sys2Proof.Machine.execIdentity m s
  | .challenge m => Sys2Proof.Machine.execChallenge m s
  | .setOwnerKey m vpp stuck => Sys2Proof.Machine.execSetOwnerKey m vpp stuck s
  | .setPolicy m vpp stuck => Sys2Proof.Machine.execSetPolicy m vpp stuck s
  | .advance m vpp stuck => Sys2Proof.Machine.execAdvance m vpp stuck s
  | .revoke m vpp stuck => Sys2Proof.Machine.execRevoke m vpp stuck s
  | .commitVersion m vpp stuck => Sys2Proof.Machine.execCommitVersion m vpp stuck s
  | .spdmRelay m => Sys2Proof.Machine.execSpdmRelay m s
  | .selfTest m => Sys2Proof.Machine.execSelfTest m s
  | .disarmAll => Sys2Proof.Machine.execDisarmAll s
  | .slotFire n => Sys2Proof.Machine.execSlotFire n s
  | .slotNextTarget n => Sys2Proof.Machine.execSlotNextTarget n s
  | .pulseEnd n => Sys2Proof.Machine.execPulseEnd n s
  | .widthCap n => Sys2Proof.Machine.execWidthCap n s
  | .eventArrival => Sys2Proof.Machine.execEventArrival s
  | .enableGroup g => Sys2Proof.Machine.execEnableGroup g s
  | .disableGroup g => Sys2Proof.Machine.execDisableGroup g s
  | .eventPulse n => Sys2Proof.Machine.execEventPulse n s
  | .enterHoldover => Sys2Proof.Machine.execEnterHoldover s
  | .evrGrpOn v => Sys2Proof.Machine.execEvrGrpOn v s
  | .evrGrpOff v => Sys2Proof.Machine.execEvrGrpOff v s
  | .flush inp => Sys2Proof.Machine.execFlush inp s
  | .evrSelWrite inp k v => Sys2Proof.Machine.execEvrSelWrite inp k v s
  | .lnkLaneCfgWrite n v => Sys2Proof.Machine.execLnkLaneCfgWrite n v s
  | .ethCfgWrite m v => Sys2Proof.Machine.execEthCfgWrite m v s
  | .ethPortUp m => Sys2Proof.Machine.execEthPortUp m s
  | .ethPortDown m => Sys2Proof.Machine.execEthPortDown m s
  | .ethFrame m bytes fcsOk overload => Sys2Proof.Machine.execEthFrame m bytes fcsOk overload s
  | .arpRequest => Sys2Proof.Machine.execArpRequest s
  | .arpReply => Sys2Proof.Machine.execArpReply s
  | .arpRetry => Sys2Proof.Machine.execArpRetry s
  | .arpEntryExpiry => Sys2Proof.Machine.execArpEntryExpiry s
  | .icmpEchoRequest => Sys2Proof.Machine.execIcmpEchoRequest s
  | .gvspLeader n => Sys2Proof.Machine.execGvspLeader n s
  | .gvspPayload n => Sys2Proof.Machine.execGvspPayload n s
  | .gvspTrailer n => Sys2Proof.Machine.execGvspTrailer n s
  | .gapDelay n => Sys2Proof.Machine.execGapDelay n s
  | .gapSend => Sys2Proof.Machine.execGapSend s
  | .gapDrop => Sys2Proof.Machine.execGapDrop s
  | .resendWait n => Sys2Proof.Machine.execResendWait n s
  | .frameWatchdog n => Sys2Proof.Machine.execFrameWatchdog n s
  | .triggerEntryTimeout port n => Sys2Proof.Machine.execTriggerEntryTimeout port n s
  | .actSend t => Sys2Proof.Machine.execActSend t s
  | .ptpMessage => Sys2Proof.Machine.execPtpMessage s
  | .ethMrqPop m => Sys2Proof.Machine.execEthMrqPop m s
  | .ethMtxSend m v => Sys2Proof.Machine.execEthMtxSend m v s
  | .relayGo v => Sys2Proof.Machine.execRelayGo v s
  | .gvcpAck => Sys2Proof.Machine.execGvcpAck s
  | .ackTmo => Sys2Proof.Machine.execAckTmo s
  | .heartbeat n => Sys2Proof.Machine.execHeartbeat n s
  | .heartbeatTimeout n => Sys2Proof.Machine.execHeartbeatTimeout n s
  | .clearUnc n => Sys2Proof.Machine.execClearUnc n s
  | .streamApply n => Sys2Proof.Machine.execStreamApply n s
  | .flushTrigq port n => Sys2Proof.Machine.execFlushTrigq port n s
  | .parFrameOpen p => Sys2Proof.Machine.execParFrameOpen p s
  | .parLineOpen p => Sys2Proof.Machine.execParLineOpen p s
  | .parLineClose p => Sys2Proof.Machine.execParLineClose p s
  | .parFrameClose p => Sys2Proof.Machine.execParFrameClose p s
  | .parFrameWatchdog p => Sys2Proof.Machine.execParFrameWatchdog p s
  | .pclkCheck p mhz => Sys2Proof.Machine.execPclkCheck p mhz s
  | .fire n => Sys2Proof.Machine.execFire n s
  | .triggerOutputApply n => Sys2Proof.Machine.execTriggerOutputApply n s
  | .strobe g => Sys2Proof.Machine.execStrobe g s
  | .strobeEnd g => Sys2Proof.Machine.execStrobeEnd g s
  | .gpioInput g level width => Sys2Proof.Machine.execGpioInput g level width s
  | .millLineArrive => Sys2Proof.Machine.execMillLineArrive s
  | .millSegment => Sys2Proof.Machine.execMillSegment s
  | .tnrReset n => Sys2Proof.Machine.execTnrReset n s
  | .tdiBinEmit n => Sys2Proof.Machine.execTdiBinEmit n s
  | .statsRecord n => Sys2Proof.Machine.execStatsRecord n s
  | .calStart n => Sys2Proof.Machine.execCalStart n s
  | .calAbort n => Sys2Proof.Machine.execCalAbort n s
  | .milApply n => Sys2Proof.Machine.execMilApply n s
  | .colCut q => Sys2Proof.Machine.execColCut q s
  | .colLine => Sys2Proof.Machine.execColLine s
  | .lineSettle q => Sys2Proof.Machine.execLineSettle q s
  | .sheafClose q => Sys2Proof.Machine.execSheafClose q s
  | .closeTmo q => Sys2Proof.Machine.execCloseTmo q s
  | .stripBandSend q => Sys2Proof.Machine.execStripBandSend q s
  | .stripBand => Sys2Proof.Machine.execStripBand s
  | .colSqRel q b => Sys2Proof.Machine.execColSqRel q b s
  | .restart q => Sys2Proof.Machine.execRestart q s
  | .colApply => Sys2Proof.Machine.execColApply s
  | .headUnit h => Sys2Proof.Machine.execHeadUnit h s
  | .headOffer o => Sys2Proof.Machine.execHeadOffer o s
  | .headWaitExpiry o => Sys2Proof.Machine.execHeadWaitExpiry o s
  | .displayFrame d => Sys2Proof.Machine.execDisplayFrame d s
  | .ovlWait o => Sys2Proof.Machine.execOvlWait o s
  | .hedApply => Sys2Proof.Machine.execHedApply s
  | .tileDeal => Sys2Proof.Machine.execTileDeal s
  | .flailTile => Sys2Proof.Machine.execFlailTile s
  | .thrTileDone h => Sys2Proof.Machine.execThrTileDone h s
  | .cropCut => Sys2Proof.Machine.execCropCut s
  | .recordUnitClose r => Sys2Proof.Machine.execRecordUnitClose r s
  | .thrApply => Sys2Proof.Machine.execThrApply s
  | .memPartWrite k size v => Sys2Proof.Machine.execMemPartWrite k size v s
  | .scrub outcome stack => Sys2Proof.Machine.execScrub outcome stack s
  | .granaryLine => Sys2Proof.Machine.execGranaryLine s
  | .grnXGo => Sys2Proof.Machine.execGrnXGo s
  | .extractStart => Sys2Proof.Machine.execExtractStart s
  | .extractUnit => Sys2Proof.Machine.execExtractUnit s
  | .grnXAbort => Sys2Proof.Machine.execGrnXAbort s
  | .extractTmo => Sys2Proof.Machine.execExtractTmo s
  | .extractReport => Sys2Proof.Machine.execExtractReport s
  | .frank => Sys2Proof.Machine.execFrank s
  | .heldLossReport r => Sys2Proof.Machine.execHeldLossReport r s
  | .ringUnitStart n => Sys2Proof.Machine.execRingUnitStart n s
  | .ringUnitDone n => Sys2Proof.Machine.execRingUnitDone n s
  | .dlvHCons r v => Sys2Proof.Machine.execDlvHCons r v s
  | .activate r => Sys2Proof.Machine.execActivate r s
  | .deactivate r => Sys2Proof.Machine.execDeactivate r s
  | .drainEnd r => Sys2Proof.Machine.execDrainEnd r s
  | .dlvRPolicyWrite r v => Sys2Proof.Machine.execDlvRPolicyWrite r v s
  | .discard r => Sys2Proof.Machine.execDiscard r s
  | .dlvCqHead c v => Sys2Proof.Machine.execDlvCqHead c v s
  | .cqEnable c => Sys2Proof.Machine.execCqEnable c s
  | .cqDisable c => Sys2Proof.Machine.execCqDisable c s
  | .modTime ring n => Sys2Proof.Machine.execModTime ring n s
  | .start n => Sys2Proof.Machine.execStart n s
  | .pause n => Sys2Proof.Machine.execPause n s
  | .resume n => Sys2Proof.Machine.execResume n s
  | .abort n => Sys2Proof.Machine.execAbort n s
  | .doorbell n => Sys2Proof.Machine.execDoorbell n s
  | .dmaStartEvent n => Sys2Proof.Machine.execDmaStartEvent n s
  | .descriptorRead n => Sys2Proof.Machine.execDescriptorRead n s
  | .dmaBurst fromHost => Sys2Proof.Machine.execDmaBurst fromHost s
  | .readCompletion tag status data => Sys2Proof.Machine.execReadCompletion tag status data s
  | .completionTimeout tag => Sys2Proof.Machine.execCompletionTimeout tag s
  | .lateCompletion tag => Sys2Proof.Machine.execLateCompletion tag s
  | .tagQuarantineEnd tag => Sys2Proof.Machine.execTagQuarantineEnd tag s
  | .dmaTransferDone n => Sys2Proof.Machine.execDmaTransferDone n s
  | .bmeClear => Sys2Proof.Machine.execBmeClear s
  | .bar0Request q => Sys2Proof.Machine.execBar0Request q s
  | .bar2Request q => Sys2Proof.Machine.execBar2Request q s
  | .romRead q => Sys2Proof.Machine.execRomRead q s
  | .configurationRequest q => Sys2Proof.Machine.execConfigurationRequest q s
  | .msiXMessage => Sys2Proof.Machine.execMsiXMessage s
  | .intaChange => Sys2Proof.Machine.execIntaChange s
  | .correctableError bit => Sys2Proof.Machine.execCorrectableError bit s
  | .uncorrectableError bit hdr => Sys2Proof.Machine.execUncorrectableError bit hdr s
  | .containRelease resume => Sys2Proof.Machine.execContainRelease resume s
  | .d3hotEntry => Sys2Proof.Machine.execD3hotEntry s
  | .pciPmeSend write => Sys2Proof.Machine.execPciPmeSend write s
  | .ltrMessage => Sys2Proof.Machine.execLtrMessage s
  | .aspmL1Request => Sys2Proof.Machine.execAspmL1Request s
  | .getVersion t => Sys2Proof.Machine.execGetVersion t s
  | .getCapabilities t => Sys2Proof.Machine.execGetCapabilities t s
  | .negotiateAlgorithms t => Sys2Proof.Machine.execNegotiateAlgorithms t s
  | .getDigests t => Sys2Proof.Machine.execGetDigests t s
  | .getCertificate t => Sys2Proof.Machine.execGetCertificate t s
  | .getMeasurements t => Sys2Proof.Machine.execGetMeasurements t s
  | .spdmChallenge t => Sys2Proof.Machine.execSpdmChallenge t s
  | .keyExchange t => Sys2Proof.Machine.execKeyExchange t s
  | .finish t leaf => Sys2Proof.Machine.execFinish t leaf s
  | .heartbeatSpdm t => Sys2Proof.Machine.execHeartbeatSpdm t s
  | .keyUpdate t => Sys2Proof.Machine.execKeyUpdate t s
  | .endSession t => Sys2Proof.Machine.execEndSession t s
  | .bindRing t => Sys2Proof.Machine.execBindRing t s
  | .ringStatus t => Sys2Proof.Machine.execRingStatus t s
  | .unbind t => Sys2Proof.Machine.execUnbind t s
  | .ideKmQuery t => Sys2Proof.Machine.execIdeKmQuery t s
  | .keyProg t => Sys2Proof.Machine.execKeyProg t s
  | .kSetGo t => Sys2Proof.Machine.execKSetGo t s
  | .kSetStop t => Sys2Proof.Machine.execKSetStop t s
  | .ideCheckFailed => Sys2Proof.Machine.execIdeCheckFailed s
  | .cancellationDue r => Sys2Proof.Machine.execCancellationDue r s
  | .cancelSigned => Sys2Proof.Machine.execCancelSigned s
  | .noiseWindow ok => Sys2Proof.Machine.execNoiseWindow ok s
  | .glitchDetected => Sys2Proof.Machine.execGlitchDetected s
  | .rootCoreException => Sys2Proof.Machine.execRootCoreException s
  | .ebkCfgWrite k v => Sys2Proof.Machine.execEbkCfgWrite k v s
  | .ebkRestart k => Sys2Proof.Machine.execEbkRestart k s
  | .txReady k => Sys2Proof.Machine.execTxReady k s
  | .blockLock k => Sys2Proof.Machine.execBlockLock k s
  | .adaptEnd k ppm eq => Sys2Proof.Machine.execAdaptEnd k ppm eq s
  | .ident k p => Sys2Proof.Machine.execIdent k p s
  | .greetTmo k => Sys2Proof.Machine.execGreetTmo k s
  | .probe k p sub => Sys2Proof.Machine.execProbe k p sub s
  | .probeSend k => Sys2Proof.Machine.execProbeSend k s
  | .rangeFail k => Sys2Proof.Machine.execRangeFail k s
  | .lost k invalid slip => Sys2Proof.Machine.execLost k invalid slip s
  | .linkAbsent k => Sys2Proof.Machine.execLinkAbsent k s
  | .beaconSend k b => Sys2Proof.Machine.execBeaconSend k b s
  | .beacon k p value sub => Sys2Proof.Machine.execBeacon k p value sub s
  | .remoteOut r => Sys2Proof.Machine.execRemoteOut r s
  | .event k p => Sys2Proof.Machine.execEvent k p s
  | .ack k p => Sys2Proof.Machine.execAck k p s
  | .frame k start data crcOk => Sys2Proof.Machine.execFrame k start data crcOk s
  | .retryTmo k => Sys2Proof.Machine.execRetryTmo k s
  | .ebkXGo r v => Sys2Proof.Machine.execEbkXGo r v s
  | .transferSend => Sys2Proof.Machine.execTransferSend s
  | .axisSampleSend t => Sys2Proof.Machine.execAxisSampleSend t s
  | .axisSample => Sys2Proof.Machine.execAxisSample s
  | .marginCheck n eye => Sys2Proof.Machine.execMarginCheck n eye s
  | .adaptStep n eq => Sys2Proof.Machine.execAdaptStep n eq s
  | .snapshot n => Sys2Proof.Machine.execSnapshot n s
  | .unfreeze n => Sys2Proof.Machine.execUnfreeze n s
  | .lnkTxeqWrite n v => Sys2Proof.Machine.execLnkTxeqWrite n v s
  | .reqReplay => Sys2Proof.Machine.execReqReplay s
  | .reqCalibrate => Sys2Proof.Machine.execReqCalibrate s
  | .reqDiagnose => Sys2Proof.Machine.execReqDiagnose s
  | .reqSleep => Sys2Proof.Machine.execReqSleep s
  | .leave => Sys2Proof.Machine.execLeave s
  | .fullReset => Sys2Proof.Machine.execFullReset s
  | .replayGo => Sys2Proof.Machine.execReplayGo s
  | .replayAbort => Sys2Proof.Machine.execReplayAbort s
  | .replayLine => Sys2Proof.Machine.execReplayLine s
  | .bistGo => Sys2Proof.Machine.execBistGo s
  | .bistDone fails => Sys2Proof.Machine.execBistDone fails s
  | .pmeTurnOff => Sys2Proof.Machine.execPmeTurnOff s
  | .sleepEntryDone => Sys2Proof.Machine.execSleepEntryDone s
  | .sysWakeN => Sys2Proof.Machine.execSysWakeN s
  | .wakeTimer => Sys2Proof.Machine.execWakeTimer s
  | .wakeAxis => Sys2Proof.Machine.execWakeAxis s
  | .wakePerst => Sys2Proof.Machine.execWakePerst s
  | .wakeComplete => Sys2Proof.Machine.execWakeComplete s
  | .clusterGate v => Sys2Proof.Machine.execClusterGate v s
  | .warm r => Sys2Proof.Machine.execWarm r s
  | .warmDone => Sys2Proof.Machine.execWarmDone s
  | .uncorrectableControlState part => Sys2Proof.Machine.execUncorrectableControlState part s
  | .uncorrectableFrankingState r => Sys2Proof.Machine.execUncorrectableFrankingState r s
  | .stallFault => Sys2Proof.Machine.execStallFault s
  | .pllLockLoss p => Sys2Proof.Machine.execPllLockLoss p s
  | .reflLoss quad => Sys2Proof.Machine.execReflLoss quad s
  | .hbmFailure stack => Sys2Proof.Machine.execHbmFailure stack s
  | .thermWarn tj => Sys2Proof.Machine.execThermWarn tj s
  | .thermalTrip tj => Sys2Proof.Machine.execThermalTrip tj s
  | .thermalTripEnd tj => Sys2Proof.Machine.execThermalTripEnd tj s
  | .swdExpiry => Sys2Proof.Machine.execSwdExpiry s
  | .rasSwdKick => Sys2Proof.Machine.execRasSwdKick s
  | .logClear => Sys2Proof.Machine.execLogClear s
  | .supplyOutOfRange pg => Sys2Proof.Machine.execSupplyOutOfRange pg s
  | .suppliesInRange => Sys2Proof.Machine.execSuppliesInRange s
  | .twiAddress addr read => Sys2Proof.Machine.execTwiAddress addr read s
  | .twiWriteByte b => Sys2Proof.Machine.execTwiWriteByte b s
  | .twiReadByte => Sys2Proof.Machine.execTwiReadByte s
  | .twiStop => Sys2Proof.Machine.execTwiStop s
  | .twiBusError => Sys2Proof.Machine.execTwiBusError s
  | .stretchTmo => Sys2Proof.Machine.execStretchTmo s
  | .holdTmo => Sys2Proof.Machine.execHoldTmo s
  | .twiWakeRelease => Sys2Proof.Machine.execTwiWakeRelease s
  | .updateIr ir => Sys2Proof.Machine.execUpdateIr ir s
  | .rcRead r a => Sys2Proof.Machine.execRcRead r a s
  | .loRead r a => Sys2Proof.Machine.execLoRead r a s
  | .hiWrite r a v => Sys2Proof.Machine.execHiWrite r a v s
  | .registerWrite r a v => Sys2Proof.Machine.execRegisterWrite r a v s
  | .actionTimeReached => Sys2Proof.Machine.execActionTimeReached s
  | .parSample p rise fall => Sys2Proof.Machine.execParSample p rise fall s
  | .bar4Request q => Sys2Proof.Machine.execBar4Request q s
  | .identSend k => Sys2Proof.Machine.execIdentSend k s
  | .prbsCheckerLock k errs bits => Sys2Proof.Machine.execPrbsCheckerLock k errs bits s

end Sys2Proof.Machine
end

