-- ==== Sys2Proof/Decode.lean ====
section
/-! DEFINITION. Decode.lean: the 32-bit words of the Urelm instructions (R69 to R71), read and written; and the words of the command
table, which gives its rows no bits. -/

namespace Sys2Proof

/-- The command that a word spells by the bits of the table: none, since no row of the table has bits. -/
def decodeTableWord (_nbits _w : Nat) : Option Instr := none

/-! ### Fields (R69) -/

/-- The first register field, [25:21]. -/
def fieldA (w : Word) : RegNo := (w.extractLsb' 21 5).toFin
/-- The second register field, [20:16]. -/
def fieldB (w : Word) : RegNo := (w.extractLsb' 16 5).toFin
/-- The third register field, [15:11]. -/
def fieldC (w : Word) : RegNo := (w.extractLsb' 11 5).toFin
/-- The element view, [10:9]. -/
def viewOf (w : Word) : Fin 4 := (w.extractLsb' 9 2).toFin
/-- The predicate, [8:6]. -/
def predOf (w : Word) : Fin 8 := (w.extractLsb' 6 3).toFin

/-! ### The rows of the instruction table, by major opcode (R71) -/

/-- Major opcode 0x00, by func: the register-register instructions. -/
def regRows (c : CoreNo) (w : Word) : Option Instr :=
  match (w.extractLsb' 0 11).toNat with
  | 0 => some (.add c (fieldA w) (fieldB w) (fieldC w))
  | 1 => some (.sub c (fieldA w) (fieldB w) (fieldC w))
  | 2 => some (.and c (fieldA w) (fieldB w) (fieldC w))
  | 3 => some (.or c (fieldA w) (fieldB w) (fieldC w))
  | 4 => some (.xor c (fieldA w) (fieldB w) (fieldC w))
  | 5 => some (.sll c (fieldA w) (fieldB w) (fieldC w))
  | 6 => some (.srl c (fieldA w) (fieldB w) (fieldC w))
  | 7 => some (.sra c (fieldA w) (fieldB w) (fieldC w))
  | 8 => some (.ror c (fieldA w) (fieldB w) (fieldC w))
  | 9 => some (.slt c (fieldA w) (fieldB w) (fieldC w))
  | 10 => some (.sltu c (fieldA w) (fieldB w) (fieldC w))
  | 11 => some (.min c (fieldA w) (fieldB w) (fieldC w))
  | 12 => some (.max c (fieldA w) (fieldB w) (fieldC w))
  | 13 => some (.minu c (fieldA w) (fieldB w) (fieldC w))
  | 14 => some (.maxu c (fieldA w) (fieldB w) (fieldC w))
  | 15 => some (.pdiff c (fieldA w) (fieldB w) (fieldC w))
  | 16 => some (.clz c (fieldA w) (fieldB w) (fieldC w))
  | 17 => some (.ctz c (fieldA w) (fieldB w) (fieldC w))
  | 18 => some (.popc c (fieldA w) (fieldB w) (fieldC w))
  | 32 => some (.mul c (fieldA w) (fieldB w) (fieldC w))
  | 33 => some (.mulh c (fieldA w) (fieldB w) (fieldC w))
  | 34 => some (.mulhu c (fieldA w) (fieldB w) (fieldC w))
  | 40 => some (.div c (fieldA w) (fieldB w) (fieldC w))
  | 41 => some (.divu c (fieldA w) (fieldB w) (fieldC w))
  | 42 => some (.rem c (fieldA w) (fieldB w) (fieldC w))
  | 43 => some (.remu c (fieldA w) (fieldB w) (fieldC w))
  | _ => none

/-- Major opcode 0x01, by func: the register-immediate instructions. -/
def immRows (c : CoreNo) (w : Word) : Option Instr :=
  match (w.extractLsb' 12 4).toNat with
  | 0 => some (.addi c (fieldA w) (fieldB w) (w.extractLsb' 0 12))
  | 1 => some (.andi c (fieldA w) (fieldB w) (w.extractLsb' 0 12))
  | 2 => some (.ori c (fieldA w) (fieldB w) (w.extractLsb' 0 12))
  | 3 => some (.xori c (fieldA w) (fieldB w) (w.extractLsb' 0 12))
  | 4 => some (.slti c (fieldA w) (fieldB w) (w.extractLsb' 0 12))
  | 5 => some (.sltiu c (fieldA w) (fieldB w) (w.extractLsb' 0 12))
  | 6 => some (.slli c (fieldA w) (fieldB w) (w.extractLsb' 0 12))
  | 7 => some (.srli c (fieldA w) (fieldB w) (w.extractLsb' 0 12))
  | 8 => some (.srai c (fieldA w) (fieldB w) (w.extractLsb' 0 12))
  | _ => none

/-- Major opcode 0x06, by func: the signed branches. -/
def branchRows (c : CoreNo) (w : Word) : Option Instr :=
  match (w.extractLsb' 14 2).toNat with
  | 0 => some (.beq c (fieldA w) (fieldB w) (w.extractLsb' 0 14))
  | 1 => some (.bne c (fieldA w) (fieldB w) (w.extractLsb' 0 14))
  | 2 => some (.blt c (fieldA w) (fieldB w) (w.extractLsb' 0 14))
  | 3 => some (.bge c (fieldA w) (fieldB w) (w.extractLsb' 0 14))
  | _ => none

/-- Major opcode 0x07, by func: the unsigned branches. -/
def branchURows (c : CoreNo) (w : Word) : Option Instr :=
  match (w.extractLsb' 14 2).toNat with
  | 0 => some (.bltu c (fieldA w) (fieldB w) (w.extractLsb' 0 14))
  | 1 => some (.bgeu c (fieldA w) (fieldB w) (w.extractLsb' 0 14))
  | _ => none

/-- Major opcode 0x08, by func: the loads. -/
def loadRows (c : CoreNo) (w : Word) : Option Instr :=
  match (w.extractLsb' 12 4).toNat with
  | 0 => some (.lb c (fieldA w) (fieldB w) (w.extractLsb' 0 12))
  | 1 => some (.lbu c (fieldA w) (fieldB w) (w.extractLsb' 0 12))
  | 2 => some (.lh c (fieldA w) (fieldB w) (w.extractLsb' 0 12))
  | 3 => some (.lhu c (fieldA w) (fieldB w) (w.extractLsb' 0 12))
  | 4 => some (.lw c (fieldA w) (fieldB w) (w.extractLsb' 0 12))
  | _ => none

/-- Major opcode 0x09, by func: the stores. -/
def storeRows (c : CoreNo) (w : Word) : Option Instr :=
  match (w.extractLsb' 12 4).toNat with
  | 0 => some (.sb c (fieldA w) (fieldB w) (w.extractLsb' 0 12))
  | 1 => some (.sh c (fieldA w) (fieldB w) (w.extractLsb' 0 12))
  | 2 => some (.sw c (fieldA w) (fieldB w) (w.extractLsb' 0 12))
  | _ => none

/-- Major opcode 0x0A, by func: the atomics. -/
def atomicRows (c : CoreNo) (w : Word) : Option Instr :=
  match (w.extractLsb' 0 11).toNat with
  | 0 => some (.amoadd c (fieldA w) (fieldB w) (fieldC w))
  | 1 => some (.amoswap c (fieldA w) (fieldB w) (fieldC w))
  | 2 => some (.amoand c (fieldA w) (fieldB w) (fieldC w))
  | 3 => some (.amoor c (fieldA w) (fieldB w) (fieldC w))
  | 4 => some (.amomin c (fieldA w) (fieldB w) (fieldC w))
  | 5 => some (.amomax c (fieldA w) (fieldB w) (fieldC w))
  | 6 => some (.amocas c (fieldA w) (fieldB w) (fieldC w))
  | _ => none

/-- Major opcode 0x0B, by func: the fences, eret and halt. -/
def systemRows (c : CoreNo) (w : Word) : Option Instr :=
  match (w.extractLsb' 0 11).toNat with
  | 0 => some (.fenceC c (fieldA w) (fieldB w) (fieldC w))
  | 1 => some (.fenceD c (fieldA w) (fieldB w) (fieldC w))
  | 2 => some (.eret c (fieldA w) (fieldB w) (fieldC w))
  | 3 => some (.halt c (fieldA w) (fieldB w) (fieldC w))
  | _ => none

/-- Major opcode 0x0C, by func: xrd and xwr. -/
def specialRows (c : CoreNo) (w : Word) : Option Instr :=
  match (w.extractLsb' 12 4).toNat with
  | 0 => some (.xrd c (fieldA w) (fieldB w) (w.extractLsb' 0 12))
  | 1 => some (.xwr c (fieldA w) (fieldB w) (w.extractLsb' 0 12))
  | _ => none

/-- Major opcode 0x10, by func: vector arithmetic. -/
def vecArithRows (c : CoreNo) (w : Word) : Option Instr :=
  match (w.extractLsb' 0 6).toNat with
  | 0 => some (.vadd c (fieldA w) (fieldB w) (fieldC w) (viewOf w) (predOf w))
  | 1 => some (.vsub c (fieldA w) (fieldB w) (fieldC w) (viewOf w) (predOf w))
  | 2 => some (.vmul c (fieldA w) (fieldB w) (fieldC w) (viewOf w) (predOf w))
  | 3 => some (.vmulh c (fieldA w) (fieldB w) (fieldC w) (viewOf w) (predOf w))
  | 4 => some (.vmac c (fieldA w) (fieldB w) (fieldC w) (viewOf w) (predOf w))
  | 5 => some (.vadds c (fieldA w) (fieldB w) (fieldC w) (viewOf w) (predOf w))
  | 6 => some (.vsubs c (fieldA w) (fieldB w) (fieldC w) (viewOf w) (predOf w))
  | 7 => some (.vabsd c (fieldA w) (fieldB w) (fieldC w) (viewOf w) (predOf w))
  | 8 => some (.vmin c (fieldA w) (fieldB w) (fieldC w) (viewOf w) (predOf w))
  | 9 => some (.vmax c (fieldA w) (fieldB w) (fieldC w) (viewOf w) (predOf w))
  | 10 => some (.vminu c (fieldA w) (fieldB w) (fieldC w) (viewOf w) (predOf w))
  | 11 => some (.vmaxu c (fieldA w) (fieldB w) (fieldC w) (viewOf w) (predOf w))
  | _ => none

/-- Major opcode 0x11, by func: vector logic and shifts. -/
def vecLogicRows (c : CoreNo) (w : Word) : Option Instr :=
  match (w.extractLsb' 0 6).toNat with
  | 0 => some (.vand c (fieldA w) (fieldB w) (fieldC w) (viewOf w) (predOf w))
  | 1 => some (.vor c (fieldA w) (fieldB w) (fieldC w) (viewOf w) (predOf w))
  | 2 => some (.vxor c (fieldA w) (fieldB w) (fieldC w) (viewOf w) (predOf w))
  | 3 => some (.vsll c (fieldA w) (fieldB w) (fieldC w) (viewOf w) (predOf w))
  | 4 => some (.vsrl c (fieldA w) (fieldB w) (fieldC w) (viewOf w) (predOf w))
  | 5 => some (.vsra c (fieldA w) (fieldB w) (fieldC w) (viewOf w) (predOf w))
  | _ => none

/-- Major opcode 0x12, by func: vector compares and vsel. -/
def vecCompareRows (c : CoreNo) (w : Word) : Option Instr :=
  match (w.extractLsb' 0 6).toNat with
  | 0 => some (.vcmpeq c (fieldA w) (fieldB w) (fieldC w) (viewOf w) (predOf w))
  | 1 => some (.vcmplt c (fieldA w) (fieldB w) (fieldC w) (viewOf w) (predOf w))
  | 2 => some (.vcmpltu c (fieldA w) (fieldB w) (fieldC w) (viewOf w) (predOf w))
  | 3 => some (.vsel c (fieldA w) (fieldB w) (fieldC w) (viewOf w) (predOf w))
  | _ => none

/-- Major opcode 0x13, by func: vslide, vbcast, vext and the reductions. -/
def vecMoveRows (c : CoreNo) (w : Word) : Option Instr :=
  match (w.extractLsb' 0 6).toNat with
  | 0 => some (.vslide c (fieldA w) (fieldB w) (fieldC w) (viewOf w) (predOf w))
  | 1 => some (.vbcast c (fieldA w) (fieldB w) (fieldC w) (viewOf w) (predOf w))
  | 2 => some (.vext c (fieldA w) (fieldB w) (fieldC w) (viewOf w) (predOf w))
  | 3 => some (.vredadd c (fieldA w) (fieldB w) (fieldC w) (viewOf w) (predOf w))
  | 4 => some (.vredmin c (fieldA w) (fieldB w) (fieldC w) (viewOf w) (predOf w))
  | 5 => some (.vredmax c (fieldA w) (fieldB w) (fieldC w) (viewOf w) (predOf w))
  | _ => none

/-- Major opcode 0x14, by func: pixel words. -/
def pixelRows (c : CoreNo) (w : Word) : Option Instr :=
  match (w.extractLsb' 0 6).toNat with
  | 0 => some (.vxadd c (fieldA w) (fieldB w) (fieldC w) (viewOf w) (predOf w))
  | 1 => some (.vxmul c (fieldA w) (fieldB w) (fieldC w) (viewOf w) (predOf w))
  | 2 => some (.vxflag c (fieldA w) (fieldB w) (fieldC w) (viewOf w) (predOf w))
  | _ => none

/-- Major opcode 0x15, by func: the predicates. -/
def predicateRows (c : CoreNo) (w : Word) : Option Instr :=
  match (w.extractLsb' 0 6).toNat with
  | 0 => some (.pand c (fieldA w) (fieldB w) (fieldC w) (viewOf w) (predOf w))
  | 1 => some (.por c (fieldA w) (fieldB w) (fieldC w) (viewOf w) (predOf w))
  | 2 => some (.pxor c (fieldA w) (fieldB w) (fieldC w) (viewOf w) (predOf w))
  | 3 => some (.pandn c (fieldA w) (fieldB w) (fieldC w) (viewOf w) (predOf w))
  | 4 => some (.pcnt c (fieldA w) (fieldB w) (fieldC w) (viewOf w) (predOf w))
  | _ => none

/-- The instruction a word spells (R69 to R71); none for a major opcode or func that the table does not have (R70). The reserved fields
that an instruction has are among its operands, and its meaning raises illegal instruction for them. -/
def decodeUrelm (c : CoreNo) (w : Word) : Option Instr :=
  match (w.extractLsb' 26 6).toNat with
  | 0x00 => regRows c w
  | 0x01 => immRows c w
  | 0x02 => some (.lui c (fieldA w) (w.getLsbD 20) (w.extractLsb' 0 20))
  | 0x03 => some (.auipc c (fieldA w) (w.getLsbD 20) (w.extractLsb' 0 20))
  | 0x04 => some (.jal c (fieldA w) (w.getLsbD 20) (w.extractLsb' 0 20))
  | 0x05 => if (w.extractLsb' 12 4).toNat = 0 then some (.jalr c (fieldA w) (fieldB w) (w.extractLsb' 0 12)) else none
  | 0x06 => branchRows c w
  | 0x07 => branchURows c w
  | 0x08 => loadRows c w
  | 0x09 => storeRows c w
  | 0x0A => atomicRows c w
  | 0x0B => systemRows c w
  | 0x0C => specialRows c w
  | 0x10 => vecArithRows c w
  | 0x11 => vecLogicRows c w
  | 0x12 => vecCompareRows c w
  | 0x13 => vecMoveRows c w
  | 0x14 => pixelRows c w
  | 0x15 => predicateRows c w
  | 0x18 => if (w.extractLsb' 0 6).toNat = 0 then some (.vld c (fieldA w) (fieldB w) (fieldC w) (viewOf w) (predOf w)) else none
  | 0x19 => if (w.extractLsb' 0 6).toNat = 0 then some (.vst c (fieldA w) (fieldB w) (fieldC w) (viewOf w) (predOf w)) else none
  | 0x20 => some (if w.getLsbD 10 then .pgeth c (fieldA w) (fieldB w) (fieldC w) (w.extractLsb' 0 11) else .pget c (fieldA w) (fieldB w) (fieldC w) (w.extractLsb' 0 11))
  | 0x21 => some (.await c (fieldA w) (fieldB w) (fieldC w) (w.extractLsb' 0 11))
  | 0x22 => some (.tget c (fieldA w) (fieldB w) (fieldC w) (w.extractLsb' 0 11))
  | 0x23 => some (.arm c (fieldA w) (fieldB w) (fieldC w) (w.extractLsb' 0 11))
  | 0x24 => some (.disarm c (fieldA w) (fieldB w) (fieldC w) (w.extractLsb' 0 11))
  | 0x25 => some (.evraise c (fieldA w) (fieldB w) (fieldC w) (w.extractLsb' 0 11))
  | 0x26 => some (.evwait c (fieldA w) (fieldB w) (fieldC w) (w.extractLsb' 0 11))
  | 0x27 => some (.evpoll c (fieldA w) (fieldB w) (fieldC w) (w.extractLsb' 0 11))
  | 0x28 => some (.rpost c (fieldA w) (fieldB w) (fieldC w) (w.extractLsb' 0 11))
  | 0x29 => some (.tfeed c (fieldA w) (fieldB w) (fieldC w) (w.extractLsb' 0 11))
  | 0x2A => some (.flpush c (fieldA w) (fieldB w) (fieldC w) (w.extractLsb' 0 11))
  | _ => none

/-! ### The words of the instructions (R69, R71) -/

/-- The major opcode and the first two register fields of a word, above its low 16 bits. -/
def wordOf (op : Nat) (a b : RegNo) (low : Nat) : Word := BitVec.ofNat 32 (op * 0x4000000 + a.val * 0x200000 + b.val * 0x10000 + low)
/-- A word of format RR or T: the third register and the low 11 bits. -/
def wordR (op : Nat) (a b d : RegNo) (low : Nat) : Word := wordOf op a b (d.val * 0x800 + low)
/-- A word of format RI or M: func and the 12-bit immediate. -/
def wordI (op : Nat) (a b : RegNo) (func : Nat) (imm : BitVec 12) : Word := wordOf op a b (func * 0x1000 + imm.toNat)
/-- A word of format B: func and the 14-bit offset. -/
def wordB (op : Nat) (a b : RegNo) (func : Nat) (off : BitVec 14) : Word := wordOf op a b (func * 0x4000 + off.toNat)
/-- A word of format U: bit 20 and the 20-bit immediate. -/
def wordU (op : Nat) (a : RegNo) (res : Bool) (imm : BitVec 20) : Word :=
  BitVec.ofNat 32 (op * 0x4000000 + a.val * 0x200000 + res.toNat * 0x100000 + imm.toNat)
/-- A word of format V3 or VM: the third register, the view, the predicate and func. -/
def wordV (op : Nat) (a b d : RegNo) (view : Fin 4) (pred : Fin 8) (func : Nat) : Word :=
  wordR op a b d (view.val * 0x200 + pred.val * 0x40 + func)

/-- The core that an instruction runs on and the word that spells it; none for a command that is not an instruction, and for a pget or a
pgeth whose idx[10] is the other's. -/
def encodeUrelm : Instr → Option (CoreNo × Word)
  | .add c a b d => some (c, wordR 0x00 a b d 0)
  | .sub c a b d => some (c, wordR 0x00 a b d 1)
  | .and c a b d => some (c, wordR 0x00 a b d 2)
  | .or c a b d => some (c, wordR 0x00 a b d 3)
  | .xor c a b d => some (c, wordR 0x00 a b d 4)
  | .sll c a b d => some (c, wordR 0x00 a b d 5)
  | .srl c a b d => some (c, wordR 0x00 a b d 6)
  | .sra c a b d => some (c, wordR 0x00 a b d 7)
  | .ror c a b d => some (c, wordR 0x00 a b d 8)
  | .slt c a b d => some (c, wordR 0x00 a b d 9)
  | .sltu c a b d => some (c, wordR 0x00 a b d 10)
  | .min c a b d => some (c, wordR 0x00 a b d 11)
  | .max c a b d => some (c, wordR 0x00 a b d 12)
  | .minu c a b d => some (c, wordR 0x00 a b d 13)
  | .maxu c a b d => some (c, wordR 0x00 a b d 14)
  | .pdiff c a b d => some (c, wordR 0x00 a b d 15)
  | .clz c a b d => some (c, wordR 0x00 a b d 16)
  | .ctz c a b d => some (c, wordR 0x00 a b d 17)
  | .popc c a b d => some (c, wordR 0x00 a b d 18)
  | .mul c a b d => some (c, wordR 0x00 a b d 32)
  | .mulh c a b d => some (c, wordR 0x00 a b d 33)
  | .mulhu c a b d => some (c, wordR 0x00 a b d 34)
  | .div c a b d => some (c, wordR 0x00 a b d 40)
  | .divu c a b d => some (c, wordR 0x00 a b d 41)
  | .rem c a b d => some (c, wordR 0x00 a b d 42)
  | .remu c a b d => some (c, wordR 0x00 a b d 43)
  | .addi c a b imm => some (c, wordI 0x01 a b 0 imm)
  | .andi c a b imm => some (c, wordI 0x01 a b 1 imm)
  | .ori c a b imm => some (c, wordI 0x01 a b 2 imm)
  | .xori c a b imm => some (c, wordI 0x01 a b 3 imm)
  | .slti c a b imm => some (c, wordI 0x01 a b 4 imm)
  | .sltiu c a b imm => some (c, wordI 0x01 a b 5 imm)
  | .slli c a b imm => some (c, wordI 0x01 a b 6 imm)
  | .srli c a b imm => some (c, wordI 0x01 a b 7 imm)
  | .srai c a b imm => some (c, wordI 0x01 a b 8 imm)
  | .lui c a res imm => some (c, wordU 0x02 a res imm)
  | .auipc c a res imm => some (c, wordU 0x03 a res imm)
  | .jal c a res imm => some (c, wordU 0x04 a res imm)
  | .jalr c a b imm => some (c, wordI 0x05 a b 0 imm)
  | .beq c a b off => some (c, wordB 0x06 a b 0 off)
  | .bne c a b off => some (c, wordB 0x06 a b 1 off)
  | .blt c a b off => some (c, wordB 0x06 a b 2 off)
  | .bge c a b off => some (c, wordB 0x06 a b 3 off)
  | .bltu c a b off => some (c, wordB 0x07 a b 0 off)
  | .bgeu c a b off => some (c, wordB 0x07 a b 1 off)
  | .lb c a b imm => some (c, wordI 0x08 a b 0 imm)
  | .lbu c a b imm => some (c, wordI 0x08 a b 1 imm)
  | .lh c a b imm => some (c, wordI 0x08 a b 2 imm)
  | .lhu c a b imm => some (c, wordI 0x08 a b 3 imm)
  | .lw c a b imm => some (c, wordI 0x08 a b 4 imm)
  | .sb c a b imm => some (c, wordI 0x09 a b 0 imm)
  | .sh c a b imm => some (c, wordI 0x09 a b 1 imm)
  | .sw c a b imm => some (c, wordI 0x09 a b 2 imm)
  | .amoadd c a b d => some (c, wordR 0x0A a b d 0)
  | .amoswap c a b d => some (c, wordR 0x0A a b d 1)
  | .amoand c a b d => some (c, wordR 0x0A a b d 2)
  | .amoor c a b d => some (c, wordR 0x0A a b d 3)
  | .amomin c a b d => some (c, wordR 0x0A a b d 4)
  | .amomax c a b d => some (c, wordR 0x0A a b d 5)
  | .amocas c a b d => some (c, wordR 0x0A a b d 6)
  | .fenceC c a b d => some (c, wordR 0x0B a b d 0)
  | .fenceD c a b d => some (c, wordR 0x0B a b d 1)
  | .eret c a b d => some (c, wordR 0x0B a b d 2)
  | .halt c a b d => some (c, wordR 0x0B a b d 3)
  | .xrd c a b imm => some (c, wordI 0x0C a b 0 imm)
  | .xwr c a b imm => some (c, wordI 0x0C a b 1 imm)
  | .vadd c a b d view pred => some (c, wordV 0x10 a b d view pred 0)
  | .vsub c a b d view pred => some (c, wordV 0x10 a b d view pred 1)
  | .vmul c a b d view pred => some (c, wordV 0x10 a b d view pred 2)
  | .vmulh c a b d view pred => some (c, wordV 0x10 a b d view pred 3)
  | .vmac c a b d view pred => some (c, wordV 0x10 a b d view pred 4)
  | .vadds c a b d view pred => some (c, wordV 0x10 a b d view pred 5)
  | .vsubs c a b d view pred => some (c, wordV 0x10 a b d view pred 6)
  | .vabsd c a b d view pred => some (c, wordV 0x10 a b d view pred 7)
  | .vmin c a b d view pred => some (c, wordV 0x10 a b d view pred 8)
  | .vmax c a b d view pred => some (c, wordV 0x10 a b d view pred 9)
  | .vminu c a b d view pred => some (c, wordV 0x10 a b d view pred 10)
  | .vmaxu c a b d view pred => some (c, wordV 0x10 a b d view pred 11)
  | .vand c a b d view pred => some (c, wordV 0x11 a b d view pred 0)
  | .vor c a b d view pred => some (c, wordV 0x11 a b d view pred 1)
  | .vxor c a b d view pred => some (c, wordV 0x11 a b d view pred 2)
  | .vsll c a b d view pred => some (c, wordV 0x11 a b d view pred 3)
  | .vsrl c a b d view pred => some (c, wordV 0x11 a b d view pred 4)
  | .vsra c a b d view pred => some (c, wordV 0x11 a b d view pred 5)
  | .vcmpeq c a b d view pred => some (c, wordV 0x12 a b d view pred 0)
  | .vcmplt c a b d view pred => some (c, wordV 0x12 a b d view pred 1)
  | .vcmpltu c a b d view pred => some (c, wordV 0x12 a b d view pred 2)
  | .vsel c a b d view pred => some (c, wordV 0x12 a b d view pred 3)
  | .vslide c a b d view pred => some (c, wordV 0x13 a b d view pred 0)
  | .vbcast c a b d view pred => some (c, wordV 0x13 a b d view pred 1)
  | .vext c a b d view pred => some (c, wordV 0x13 a b d view pred 2)
  | .vredadd c a b d view pred => some (c, wordV 0x13 a b d view pred 3)
  | .vredmin c a b d view pred => some (c, wordV 0x13 a b d view pred 4)
  | .vredmax c a b d view pred => some (c, wordV 0x13 a b d view pred 5)
  | .vxadd c a b d view pred => some (c, wordV 0x14 a b d view pred 0)
  | .vxmul c a b d view pred => some (c, wordV 0x14 a b d view pred 1)
  | .vxflag c a b d view pred => some (c, wordV 0x14 a b d view pred 2)
  | .pand c a b d view pred => some (c, wordV 0x15 a b d view pred 0)
  | .por c a b d view pred => some (c, wordV 0x15 a b d view pred 1)
  | .pxor c a b d view pred => some (c, wordV 0x15 a b d view pred 2)
  | .pandn c a b d view pred => some (c, wordV 0x15 a b d view pred 3)
  | .pcnt c a b d view pred => some (c, wordV 0x15 a b d view pred 4)
  | .vld c a b d view pred => some (c, wordV 0x18 a b d view pred 0)
  | .vst c a b d view pred => some (c, wordV 0x19 a b d view pred 0)
  | .await c a b d idx => some (c, wordR 0x21 a b d idx.toNat)
  | .tget c a b d idx => some (c, wordR 0x22 a b d idx.toNat)
  | .arm c a b d idx => some (c, wordR 0x23 a b d idx.toNat)
  | .disarm c a b d idx => some (c, wordR 0x24 a b d idx.toNat)
  | .evraise c a b d idx => some (c, wordR 0x25 a b d idx.toNat)
  | .evwait c a b d idx => some (c, wordR 0x26 a b d idx.toNat)
  | .evpoll c a b d idx => some (c, wordR 0x27 a b d idx.toNat)
  | .rpost c a b d idx => some (c, wordR 0x28 a b d idx.toNat)
  | .tfeed c a b d idx => some (c, wordR 0x29 a b d idx.toNat)
  | .flpush c a b d idx => some (c, wordR 0x2A a b d idx.toNat)
  | .pget c a b d idx => if idx.getLsbD 10 then none else some (c, wordR 0x20 a b d idx.toNat)
  | .pgeth c a b d idx => if idx.getLsbD 10 then some (c, wordR 0x20 a b d idx.toNat) else none
  | _ => none

end Sys2Proof
end

