-- ==== Sys2Proof/Machine/Fetch.lean ====
section
/-! DEFINITION. Machine/Fetch.lean: the instruction word at a core's pc, and what the core does with a word (R66, R69 to R71, R88). The
commands of the table name the instructions; these operations say which of them a program word is. -/

namespace Sys2Proof.Machine
open Sys2Proof

/-- The word at a core's pc in the bank it runs from, little-endian (R66, R69). -/
def fetchWord (s : State) (c : CoreNo) : Word :=
  let k := s.core c
  BitVec.ofNat 32 (ofLE ((placeRead s (.loc (codeKey c k.bank k.pc.toNat)) 4).getD []))

/-- What a core does with an instruction word: the instruction it spells, or an illegal instruction for a major opcode or func that the
instruction table does not have (R70), after what goes before it at issue (R88). -/
def execWord (c : CoreNo) (w : Word) (s : State) : Host.Outcome State Fault Refusal :=
  match decodeUrelm c w with
  | some i => exec i s
  | none => done (issue s c false false (fun _ => s))

/-- A core takes its next instruction from its own memory. -/
def runCore (c : CoreNo) (s : State) : Host.Outcome State Fault Refusal := execWord c (fetchWord s c) s

end Sys2Proof.Machine
end

