-- ==== Sys2Proof/Machine/Time.lean ====
section
/-! DEFINITION. Machine/Time.lean: one TIME cycle (1 ns) of the part, which is what a step does when no command waits: the clock, the
cores' counters, and the counts that run by the millisecond. Everything else that happens with time is a command of its own. -/

namespace Sys2Proof.Machine
open Sys2Proof

/-- The clock runs: out of reset, with its PLL locked, and not asleep (R43, R57, R412). -/
def clockRuns (s : State) : Bool := !s.held && s.boot.pll && !s.boot.asleep

/-- Cycles of a core in a TIME cycle (R60): 1.0 GHz for a control core; 1.25 GHz, one more in every fourth cycle, for a thresher
core. -/
def coreCycles (now c : Nat) : Nat := if isTc c && now % 4 == 0 then 2 else 1

/-- The counters of a core over some of its cycles (R65, R74, R91): they stop while it is halted. -/
def CoreSt.tick (k : CoreSt) (n : Nat) : CoreSt :=
  if k.run = .running then
    { k with
      cycle := k.cycle + BitVec.ofNat 64 n
      waited := if k.wait = .none then k.waited else k.waited + n
      wdtCount := BitVec.ofNat 32 (k.wdtCount.toNat - n) }
  else k

/-- The load of the Mill at the end of a millisecond (MIL_LOAD): in 1/1,000 of 32 Gpx/s. -/
def millWindow (s : State) : State :=
  let load := min 1000 (s.millPos / 32000)
  ({ s with millPos := 0 }.sf F.MIL_LOAD_AVG load).sf F.MIL_LOAD_PEAK (max load (s.f F.MIL_LOAD_PEAK))

/-- The counts of availability over a TIME cycle (R434): EXP at the end of each millisecond in which a stream acquired or an outage
was in progress; OUT at the beginning of each millisecond of an outage. -/
def availTick (s : State) : State :=
  let out := s.ras.outFrom.isSome
  let seen := s.ras.msAcq || out || !s.acquiring.isEmpty
  let s := match s.ras.outFrom with
    | some t => if (s.now - t) % 1000000 = 0 then s.bump F.RAS_AVAIL_OUT_MS else s
    | none => s
  if (s.now + 1) % 1000000 = 0 then
    let s := { s with ras := { s.ras with msAcq := false } }
    if seen then s.incrPair R.RAS_AVAIL_EXP_LO R.RAS_AVAIL_EXP_HI 1 else s
  else { s with ras := { s.ras with msAcq := seen } }

/-- The registers that keep an OVER mark, with its bit (R279, R285, R304). -/
def overMarks (s : State) : List (Nat × Nat) :=
  let at_ (lo hi n o b : Nat) : List (Nat × Nat) :=
    ((regsIn s.regs lo hi).filter (fun e => e.1 % n == o && e.2.getLsbD b)).map (fun e => (e.1, b))
  at_ (R.MEM_PR_USE 0) (R.MEM_PR_USE 256) 4 0 31 ++ at_ (R.GRN_S_CFG 0) (R.GRN_S_CFG 64) 0x40 8 31 ++
    at_ (R.MEM_PART_BASE 0) (R.MEM_PART_BASE 6) 0x10 0xC 0 ++ at_ (R.DLV_R_POLICY 0) (R.DLV_R_POLICY 256) 0x20 0xC 29

/-- An OVER mark goes once the use has fallen below the quota. -/
def dropMarks (s : State) : State :=
  (overMarks s).foldl (fun t e =>
    let w := t.rd e.1
    if (viewWord t e.1 w).getLsbD e.2 then t else t.wr e.1 (flagAt w e.2 false)) s

/-- The end of a TIME cycle and the start of the next: rising edges of the cycle are placed (R180), the router counts (R128, R129), the
counters count, and the slots and pulses look at the axes (R119); the links send the blocks of the cycle (R401). -/
def cycle (s : State) : State :=
  let s := routerTick (placeEdges (dropMarks s))
  let s := availTick (if s.up then linkTick s else s)
  let s := if (s.now + 1) % 1000000 = 0 then millWindow s else s
  let s := if s.up then { s with cores := s.cores.map (fun e => (e.1, e.2.tick (coreCycles s.now e.1))) } else s
  let s := if clockRuns s then { s with tim := s.tim.tick (rateNow s) } else s
  let s := if s.boot.asleep then { s with ras := { s.ras with swdFrom := s.ras.swdFrom + 1 } } else s
  let s := { s with now := s.now + 1 }
  if s.up then lookAll s (lookCycle s) else s

/-- One TIME cycle: the offsets submitted in it are acted on, and time goes on (R42, R46). -/
def tick (s : State) : State := cycle (takeOffsets s)

end Sys2Proof.Machine
end

