-- ==== Sys2Proof/Safety.lean ====
section
/-! DEFINITION. Safety.lean: the terms in which claims about the part are made: when a core takes an instruction, what an outcome
leaves of the rest of the machine, and what holds of every state that a command leaves. -/

namespace Sys2Proof.Machine
open Sys2Proof

/-! ### Cores -/

/-- Core `c` takes an instruction at its pc, of profile V when `v` is set, and nothing stops the fetch (R60, R66, R70, R86, R89). -/
abbrev Ready (s : State) (c : Nat) (v : Bool) : Prop :=
  s.up = true ∧ (s.core c).run = .running ∧ (s.core c).wait = .none ∧ (s.core c).busErrs = [] ∧ fetchOk (s.core c) c = true ∧
    fetchPoisoned s (s.core c) c = false ∧ (v = true → isTc c = true)

/-- Core `c` runs and waits as `w` says (R74, R77, R79). -/
abbrev Waits (s : State) (c : Nat) (w : Wait) : Prop := s.up = true ∧ (s.core c).run = .running ∧ (s.core c).wait = w

/-- What follows the effect of every command: the mode is decided again (R406) and ALERT_N is driven (R436). -/
def State.settled (s : State) : State := s.settle.driveAlert

/-- The state after a command whose whole effect is that core `c` becomes `k`: the mode is decided again and ALERT_N driven, as after
every command (R406, R436). -/
def State.coreNext (s : State) (c : Nat) (k : CoreSt) : State := (s.setCore c k).settle.driveAlert

/-- The state after an instruction whose one result is `w` in scalar register `rd`. -/
def State.writes (s : State) (c rd : Nat) (w : Word) : State := s.coreNext c (((s.core c).ws rd w).retire)

/-- The parts of the machine that no instruction of a core reaches except through registers: everything but the cores, their
memories, device memory, the registers and what a fault logs. -/
structure SameRest (s t : State) : Prop where
  axes : t.axes = s.axes
  tim : t.tim = s.tim
  streams : t.streams = s.streams
  pars : t.pars = s.pars
  mills : t.mills = s.mills
  seqs : t.seqs = s.seqs
  rings : t.rings = s.rings
  dmas : t.dmas = s.dmas
  mboxes : t.mboxes = s.mboxes
  loader : t.loader = s.loader
  fuses : t.fuses = s.fuses
  pci : t.pci = s.pci
  spdm : t.spdm = s.spdm
  ebk : t.ebk = s.ebk
  boot : t.boot = s.boot
  twi : t.twi = s.twi
  bufs : t.bufs = s.bufs
  now : t.now = s.now

/-- Every core but `c` is as before. -/
def OtherCoresSame (s t : State) (c : Nat) : Prop := ∀ d, d ≠ c → t.core d = s.core d

/-- The device-memory bytes that core `c` may write: they lie in a window of its grant that is not read-only (R98). -/
def MayWrite (s : State) (c a : Nat) : Prop :=
  ∃ w ∈ (s.core c).grant.wins, w.ro = false ∧ w.base * 4096 ≤ a ∧ a < (w.base + w.size) * 4096

/-! ### Every state that a command leaves -/

/-- What holds after every step: MODE is the mode that R406 decides, and ALERT_N is driven as R436 says. -/
abbrev Inv (s : State) : Prop := s.f F.DEV_MODE_MODE = s.modeOf ∧ s.ras.alert = s.alertLow

/-- The memories are in canonical form: addresses rising, no byte listed that equals what an unlisted byte reads as. -/
abbrev MemoriesCanonical (s : State) : Prop :=
  Memory.wf s.lmem = true ∧ Memory.wf s.cmem = true ∧ Memory.wf s.dmem = true

end Sys2Proof.Machine
end

