-- ==== Sys2Proof/Certificates/Slice0/Obligations.lean ====
section
/-! DEFINITION. Certificates/Slice0/Obligations.lean: the statements for the provers, one definition each. -/

open Sys2Proof Sys2Proof.Machine

/-! ### The cores: scalar instructions -/

/-- The register-register instructions of one cycle: from every state in which the core takes one, rd takes the value of the instruction
table, the pc goes on by four, the instruction counts, and nothing else of the machine changes but what follows every command. `shift`
amounts are rs2[4:0]; comparisons and minima are signed or unsigned as named; pdiff is the difference read as signed. The
register-immediate instructions: the immediate is sign-extended for addi, slti and sltiu, zero-extended for andi, ori and xori, and below
32 for the shifts; lui and auipc take the upper twenty bits. Rules: R70, R71. -/
def Obligations.ScalarResults : Prop :=
  (∀ (c : CoreNo) (rd rs1 rs2 : RegNo) (s : State), Ready s c false →
    let a := (s.core c).rs rs1
    let b := (s.core c).rs rs2
    let sh := b.toNat % 32
    exec (.add c rd rs1 rs2) s = .next (s.writes c rd (a + b)) ∧
    exec (.sub c rd rs1 rs2) s = .next (s.writes c rd (a - b)) ∧
    exec (.and c rd rs1 rs2) s = .next (s.writes c rd (a &&& b)) ∧
    exec (.or c rd rs1 rs2) s = .next (s.writes c rd (a ||| b)) ∧
    exec (.xor c rd rs1 rs2) s = .next (s.writes c rd (a ^^^ b)) ∧
    exec (.sll c rd rs1 rs2) s = .next (s.writes c rd (a <<< sh)) ∧
    exec (.srl c rd rs1 rs2) s = .next (s.writes c rd (a >>> sh)) ∧
    exec (.sra c rd rs1 rs2) s = .next (s.writes c rd (a.sshiftRight sh)) ∧
    exec (.ror c rd rs1 rs2) s = .next (s.writes c rd (a.rotateRight sh)) ∧
    exec (.slt c rd rs1 rs2) s = .next (s.writes c rd (if a.slt b then 1 else 0)) ∧
    exec (.sltu c rd rs1 rs2) s = .next (s.writes c rd (if a < b then 1 else 0)) ∧
    exec (.min c rd rs1 rs2) s = .next (s.writes c rd (if a.slt b then a else b)) ∧
    exec (.max c rd rs1 rs2) s = .next (s.writes c rd (if a.slt b then b else a)) ∧
    exec (.minu c rd rs1 rs2) s = .next (s.writes c rd (if a < b then a else b)) ∧
    exec (.maxu c rd rs1 rs2) s = .next (s.writes c rd (if a < b then b else a)) ∧
    exec (.pdiff c rd rs1 rs2) s = .next (s.writes c rd (a - b))) ∧
  (∀ (c : CoreNo) (rd rs1 : RegNo) (imm : BitVec 12) (imm20 : BitVec 20) (s : State), Ready s c false →
    let a := (s.core c).rs rs1
    exec (.addi c rd rs1 imm) s = .next (s.writes c rd (a + imm.signExtend 32)) ∧
    exec (.andi c rd rs1 imm) s = .next (s.writes c rd (a &&& imm.zeroExtend 32)) ∧
    exec (.ori c rd rs1 imm) s = .next (s.writes c rd (a ||| imm.zeroExtend 32)) ∧
    exec (.xori c rd rs1 imm) s = .next (s.writes c rd (a ^^^ imm.zeroExtend 32)) ∧
    exec (.slti c rd rs1 imm) s = .next (s.writes c rd (if a.slt (imm.signExtend 32) then 1 else 0)) ∧
    exec (.sltiu c rd rs1 imm) s = .next (s.writes c rd (if a < imm.signExtend 32 then 1 else 0)) ∧
    (imm.toNat < 32 → exec (.slli c rd rs1 imm) s = .next (s.writes c rd (a <<< imm.toNat))) ∧
    (imm.toNat < 32 → exec (.srli c rd rs1 imm) s = .next (s.writes c rd (a >>> imm.toNat))) ∧
    (imm.toNat < 32 → exec (.srai c rd rs1 imm) s = .next (s.writes c rd (a.sshiftRight imm.toNat))) ∧
    exec (.lui c rd false imm20) s = .next (s.writes c rd (imm20 ++ (0 : BitVec 12))) ∧
    exec (.auipc c rd false imm20) s = .next (s.writes c rd ((s.core c).pc + (imm20 ++ (0 : BitVec 12)))))

/-- Products, quotients and remainders: the low word, the signed high word and the unsigned high word of the 64-bit product; the quotient
rounded toward zero, the remainder with the sign of rs1, and for a zero divisor all ones and rs1. Rules: R71. -/
def Obligations.MultiplyDivideResults : Prop :=
  ∀ (c : CoreNo) (rd rs1 rs2 : RegNo) (s : State), Ready s c false →
    let a := (s.core c).rs rs1
    let b := (s.core c).rs rs2
    exec (.mul c rd rs1 rs2) s = .next (s.writes c rd ((a.signExtend 64 * b.signExtend 64).extractLsb' 0 32)) ∧
    exec (.mulh c rd rs1 rs2) s = .next (s.writes c rd ((a.signExtend 64 * b.signExtend 64).extractLsb' 32 32)) ∧
    exec (.mulhu c rd rs1 rs2) s = .next (s.writes c rd ((a.zeroExtend 64 * b.zeroExtend 64).extractLsb' 32 32)) ∧
    exec (.div c rd rs1 rs2) s = .next (s.writes c rd (if b = 0 then BitVec.allOnes 32 else a.sdiv b)) ∧
    exec (.divu c rd rs1 rs2) s = .next (s.writes c rd (if b = 0 then BitVec.allOnes 32 else a / b)) ∧
    exec (.rem c rd rs1 rs2) s = .next (s.writes c rd (if b = 0 then a else a.srem b)) ∧
    exec (.remu c rd rs1 rs2) s = .next (s.writes c rd (if b = 0 then a else a % b))

/-- Counts: with rs2 naming s0, clz and ctz give the number n of zeros before the first set bit from the top or from the bottom, 32 for zero,
and popc gives the number of set bits. Rules: R70, R71. -/
def Obligations.BitCounts : Prop :=
  ∀ (c : CoreNo) (rd rs1 : RegNo) (s : State), Ready s c false →
    let a := (s.core c).rs rs1
    (∃ n : Nat, exec (.clz c rd rs1 0) s = .next (s.writes c rd (BitVec.ofNat 32 n)) ∧ n ≤ 32 ∧ (n = 32 ↔ a = 0) ∧
      (∀ i, 32 - n ≤ i → a.getLsbD i = false) ∧ (n < 32 → a.getLsbD (31 - n) = true)) ∧
    (∃ n : Nat, exec (.ctz c rd rs1 0) s = .next (s.writes c rd (BitVec.ofNat 32 n)) ∧ n ≤ 32 ∧ (n = 32 ↔ a = 0) ∧
      (∀ i, i < n → a.getLsbD i = false) ∧ (n < 32 → a.getLsbD n = true)) ∧
    exec (.popc c rd rs1 0) s = .next (s.writes c rd (BitVec.ofNat 32 ((List.range 32).countP (fun i => a.getLsbD i))))

/-- Jumps and branches: the target is counted in words from the instruction itself, a taken branch goes there and an untaken one to the next
instruction; jal and jalr leave pc + 4 in the register they name, and a jump to an address that is not a multiple of four is the
misalignment exception (cause 2, DETAIL 3), with rd unwritten. Rules: R71. -/
def Obligations.JumpsAndBranches : Prop :=
  ∀ (c : CoreNo) (rd rs1 rs2 : RegNo) (imm20 : BitVec 20) (imm : BitVec 12) (off : BitVec 14) (s : State), Ready s c false →
    let k := s.core c
    let a := k.rs rs1
    let b := k.rs rs2
    let go (p : Bool) : State := s.coreNext c (if p then k.retireTo (k.pc + (off ++ (0 : BitVec 2)).signExtend 32) else k.retire)
    let j := k.pc + (imm20 ++ (0 : BitVec 2)).signExtend 32
    let t := a + imm.signExtend 32
    (j.toNat % 4 = 0 → exec (.jal c rd false imm20) s = .next (s.coreNext c ((k.ws rd (k.pc + 4)).retireTo j))) ∧
    (t.toNat % 4 = 0 → exec (.jalr c rd rs1 imm) s = .next (s.coreNext c ((k.ws rd (k.pc + 4)).retireTo t))) ∧
    (t.toNat % 4 ≠ 0 → exec (.jalr c rd rs1 imm) s = .next (takeExc s c 2 3 t.toNat).settle.driveAlert) ∧
    exec (.beq c rs1 rs2 off) s = .next (go (a = b)) ∧
    exec (.bne c rs1 rs2 off) s = .next (go (a ≠ b)) ∧
    exec (.blt c rs1 rs2 off) s = .next (go (a.slt b)) ∧
    exec (.bge c rs1 rs2 off) s = .next (go (b.sle a)) ∧
    exec (.bltu c rs1 rs2 off) s = .next (go (a < b)) ∧
    exec (.bgeu c rs1 rs2 off) s = .next (go (b ≤ a))

/-- The forms that R70 calls illegal: a reserved field that is not zero, a register field that must be s0 and is not, a shift amount above 31,
a word whose major opcode or func the instruction table does not have, selector 3 of tget, view .x of an instruction that does not take
it, and an instruction of profile V on a control core all take the illegal-instruction exception (cause 1, DETAIL 0, EADDR 0) with no
other effect; a word that decodes is its instruction. Rules: R9, R63, R64, R65, R70, R71, R72, R73, R79, R80, R81, R83, R84, R87, R265,
R269, R270. -/
def Obligations.IllegalForms : Prop :=
  ∀ (c : CoreNo) (rd rs1 rs2 : RegNo) (imm : BitVec 12) (imm20 : BitVec 20) (view : Fin 4) (pred : Fin 8) (idx : BitVec 11) (s : State),
    Ready s c false →
    let ill : State := (takeExc s c 1 0 0).settle.driveAlert
    (rs2 ≠ 0 → exec (.clz c rd rs1 rs2) s = .next ill ∧ exec (.ctz c rd rs1 rs2) s = .next ill ∧
      exec (.popc c rd rs1 rs2) s = .next ill) ∧
    (32 ≤ imm.toNat → exec (.slli c rd rs1 imm) s = .next ill ∧ exec (.srli c rd rs1 imm) s = .next ill ∧
      exec (.srai c rd rs1 imm) s = .next ill) ∧
    (exec (.lui c rd true imm20) s = .next ill ∧ exec (.auipc c rd true imm20) s = .next ill ∧
      exec (.jal c rd true imm20) s = .next ill) ∧
    ((rd ≠ 0 ∨ rs1 ≠ 0 ∨ rs2 ≠ 0) → exec (.fenceC c rd rs1 rs2) s = .next ill ∧ exec (.fenceD c rd rs1 rs2) s = .next ill ∧
      exec (.eret c rd rs1 rs2) s = .next ill ∧ exec (.halt c rd rs1 rs2) s = .next ill) ∧
    (rs1 ≠ 0 → exec (.xrd c rd rs1 imm) s = .next ill) ∧
    (rd ≠ 0 → exec (.xwr c rd rs1 imm) s = .next ill) ∧
    (idx.toNat % 4 = 3 → exec (.tget c rd rs1 rs2 idx) s = .next ill) ∧
    (isTc c = false → exec (.vadd c rd rs1 rs2 view pred) s = .next ill ∧ exec (.vld c rd rs1 rs2 view pred) s = .next ill ∧
      exec (.vst c rd rs1 rs2 view pred) s = .next ill ∧ exec (.rpost c rd rs1 rs2 idx) s = .next ill ∧
      exec (.tfeed c rd rs1 rs2 idx) s = .next ill ∧ exec (.flpush c rd rs1 rs2 idx) s = .next ill) ∧
    (view = 3 → exec (.vadd c rd rs1 rs2 view pred) s = .next ill ∧ exec (.vmul c rd rs1 rs2 view pred) s = .next ill ∧
      exec (.vcmpeq c rd rs1 rs2 view pred) s = .next ill ∧ exec (.vsel c rd rs1 rs2 view pred) s = .next ill ∧
      exec (.vredadd c rd rs1 rs2 view pred) s = .next ill) ∧
    (view ≠ 3 → exec (.vxadd c rd rs1 rs2 view pred) s = .next ill ∧ exec (.vxmul c rd rs1 rs2 view pred) s = .next ill ∧
      exec (.vxflag c rd rs1 rs2 view pred) s = .next ill) ∧
    (∀ w, decodeUrelm c w = none → execWord c w s = .next ill) ∧
    (∀ w i, decodeUrelm c w = some i → execWord c w s = exec i s)

/-! ### The cores: memory -/

/-- Loads: at an aligned address inside the core's grant the bytes there, sign- or zero-extended, go to rt; lw from register space takes what
the register read gives. An address that `scalarPlace` refuses is the exception it names with EADDR the address, and uncorrectable data is
a bus error (DETAIL 0), which device memory counts as `placeMissed` says. Rules: R68, R71, R98. -/
def Obligations.LoadResults : Prop :=
  ∀ (c : CoreNo) (rt base : RegNo) (off : BitVec 12) (s : State), Ready s c false →
    let k := s.core c
    let a := (k.rs base + off.signExtend 32).toNat
    let byte (l : List (BitVec 8)) (i : Nat) : BitVec 8 := l.getD i 0
    let half (l : List (BitVec 8)) : BitVec 16 := byte l 1 ++ byte l 0
    (∀ p l, scalarPlace k c a 1 false false = .ok p → placeRead s p 1 = some l →
      exec (.lb c rt base off) s = .next (s.writes c rt ((byte l 0).signExtend 32)) ∧
      exec (.lbu c rt base off) s = .next (s.writes c rt ((byte l 0).zeroExtend 32))) ∧
    (∀ p l, scalarPlace k c a 2 false false = .ok p → placeRead s p 2 = some l →
      exec (.lh c rt base off) s = .next (s.writes c rt ((half l).signExtend 32)) ∧
      exec (.lhu c rt base off) s = .next (s.writes c rt ((half l).zeroExtend 32))) ∧
    (∀ p l, scalarPlace k c a 4 false true = .ok p → placeRead s p 4 = some l →
      exec (.lw c rt base off) s = .next (s.writes c rt (byte l 3 ++ byte l 2 ++ byte l 1 ++ byte l 0))) ∧
    (∀ r, scalarPlace k c a 4 false true = .ok (.reg r) → coreReaches s c r false = true →
      exec (.lw c rt base off) s =
        .next ((coreRegRead s c r).2.writes c rt (coreRegRead s c r).1)) ∧
    (∀ r, scalarPlace k c a 4 false true = .ok (.reg r) → coreReaches s c r false = false →
      exec (.lw c rt base off) s = .next (takeExc s c 3 1 r).settle.driveAlert) ∧
    (∀ cause d, scalarPlace k c a 1 false false = .error (cause, d) →
      exec (.lb c rt base off) s = .next (takeExc s c cause d a).settle.driveAlert ∧
      exec (.lbu c rt base off) s = .next (takeExc s c cause d a).settle.driveAlert) ∧
    (∀ cause d, scalarPlace k c a 2 false false = .error (cause, d) →
      exec (.lh c rt base off) s = .next (takeExc s c cause d a).settle.driveAlert ∧
      exec (.lhu c rt base off) s = .next (takeExc s c cause d a).settle.driveAlert) ∧
    (∀ cause d, scalarPlace k c a 4 false true = .error (cause, d) →
      exec (.lw c rt base off) s = .next (takeExc s c cause d a).settle.driveAlert) ∧
    (∀ p, scalarPlace k c a 1 false false = .ok p → placeRead s p 1 = none →
      exec (.lb c rt base off) s = .next (takeExc (placeMissed s p 1) c 4 0 a).settle.driveAlert ∧
      exec (.lbu c rt base off) s = .next (takeExc (placeMissed s p 1) c 4 0 a).settle.driveAlert) ∧
    (∀ p, scalarPlace k c a 2 false false = .ok p → placeRead s p 2 = none →
      exec (.lh c rt base off) s = .next (takeExc (placeMissed s p 2) c 4 0 a).settle.driveAlert ∧
      exec (.lhu c rt base off) s = .next (takeExc (placeMissed s p 2) c 4 0 a).settle.driveAlert) ∧
    (∀ p, scalarPlace k c a 4 false true = .ok p → (∀ r, p ≠ .reg r) → placeRead s p 4 = none →
      exec (.lw c rt base off) s = .next (takeExc (placeMissed s p 4) c 4 0 a).settle.driveAlert)

/-- Stores: at an aligned address that the core may write, the low bytes of rt are stored, least significant first, the pc goes on and no
register changes; sw to register space is the register write, which the core makes after the instruction. Rules: R68, R71, R98. -/
def Obligations.StoreResults : Prop :=
  ∀ (c : CoreNo) (rt base : RegNo) (off : BitVec 12) (s : State), Ready s c false →
    let k := s.core c
    let a := (k.rs base + off.signExtend 32).toNat
    let w := k.rs rt
    let byte (i : Nat) : BitVec 8 := w.extractLsb' (8 * i) 8
    (∀ p, scalarPlace k c a 1 true false = .ok p →
      exec (.sb c rt base off) s = .next (((placeWrite s p [byte 0]).mapCore c (·.retire)).settled)) ∧
    (∀ p, scalarPlace k c a 2 true false = .ok p →
      exec (.sh c rt base off) s = .next (((placeWrite s p [byte 0, byte 1]).mapCore c (·.retire)).settled)) ∧
    (∀ p, scalarPlace k c a 4 true true = .ok p → (∀ r, p ≠ .reg r) →
      exec (.sw c rt base off) s = .next (((placeWrite s p [byte 0, byte 1, byte 2, byte 3]).mapCore c (·.retire)).settled)) ∧
    (∀ r, scalarPlace k c a 4 true true = .ok (.reg r) → coreReaches s c r true = true →
      exec (.sw c rt base off) s = .next (coreRegWrite (s.setCore c k.retire) c r w).settle.driveAlert) ∧
    (∀ r, scalarPlace k c a 4 true true = .ok (.reg r) → coreReaches s c r true = false →
      exec (.sw c rt base off) s = .next (takeExc s c 3 1 r).settle.driveAlert) ∧
    (∀ cause d, scalarPlace k c a 1 true false = .error (cause, d) →
      exec (.sb c rt base off) s = .next (takeExc s c cause d a).settle.driveAlert) ∧
    (∀ cause d, scalarPlace k c a 2 true false = .error (cause, d) →
      exec (.sh c rt base off) s = .next (takeExc s c cause d a).settle.driveAlert) ∧
    (∀ cause d, scalarPlace k c a 4 true true = .error (cause, d) →
      exec (.sw c rt base off) s = .next (takeExc s c cause d a).settle.driveAlert)

/-- Atomics: the old word goes to rd, and the word in memory becomes the old one combined with rs2; amocas stores rs2 only over a word equal
to rd. An address that `scalarPlace` refuses is the exception it names, and uncorrectable data is a bus error, as for loads. Rules: R71,
R85. -/
def Obligations.AtomicResults : Prop :=
  ∀ (c : CoreNo) (rd rs1 rs2 : RegNo) (s : State), Ready s c false →
    let k := s.core c
    let a := (k.rs rs1).toNat
    let b := k.rs rs2
    let all : List Instr := [.amoadd c rd rs1 rs2, .amoswap c rd rs1 rs2, .amoand c rd rs1 rs2, .amoor c rd rs1 rs2,
      .amomin c rd rs1 rs2, .amomax c rd rs1 rs2, .amocas c rd rs1 rs2]
    (∀ cause d, scalarPlace k c a 4 true false = .error (cause, d) → ∀ i ∈ all, exec i s = .next (takeExc s c cause d a).settled) ∧
    (∀ p, scalarPlace k c a 4 true false = .ok p → placeRead s p 4 = none →
      ∀ i ∈ all, exec i s = .next (takeExc (placeMissed s p 4) c 4 0 a).settled) ∧
    ∀ p l, scalarPlace k c a 4 true false = .ok p → placeRead s p 4 = some l →
      let old : Word := l.getD 3 0 ++ l.getD 2 0 ++ l.getD 1 0 ++ l.getD 0 0
      let gives (w : Word) : State :=
        ((placeWrite s p ((List.range 4).map (fun i => w.extractLsb' (8 * i) 8))).mapCore c (fun k => (k.ws rd old).retire)).settled
      exec (.amoadd c rd rs1 rs2) s = .next (gives (old + b)) ∧
      exec (.amoswap c rd rs1 rs2) s = .next (gives b) ∧
      exec (.amoand c rd rs1 rs2) s = .next (gives (old &&& b)) ∧
      exec (.amoor c rd rs1 rs2) s = .next (gives (old ||| b)) ∧
      exec (.amomin c rd rs1 rs2) s = .next (gives (if old.slt b then old else b)) ∧
      exec (.amomax c rd rs1 rs2) s = .next (gives (if old.slt b then b else old)) ∧
      exec (.amocas c rd rs1 rs2) s = .next (gives (if old = k.rs rd then b else old))

/-- Vector loads and stores: when no enabled element faults, vld puts the element at each enabled address into the element of vt and leaves
the others, and vst stores each enabled element, in the order of the elements; when one faults, the exception is taken and no element is
loaded or stored. View .x is treated as .w. Moves between elements: vsel writes every element, from va where the predicate is set and from
vb elsewhere; vslide moves va down by one element with element 0 of vb on top; vbcast copies the low bits of the scalar that va names;
vext reads the element that the scalar vb names, modulo the element count, sign-extended. Rules: R63, R64, R71, R87. -/
def Obligations.VectorMovesAndMemory : Prop :=
  (∀ (c : CoreNo) (vt base stride : RegNo) (view : Fin 4) (pred : Fin 8) (s : State), Ready s c true →
    let k := s.core c
    let v := memView view
    let w := viewWidth v
    let idx := (List.range (viewCount v)).filter (fun i => (k.rp pred).getLsbD i)
    let place (i : Nat) (wr : Bool) : Place := vPlace k c (vAddr k base stride w i) (w / 8) wr
    (vFault k c base stride w idx false = none → (∀ i ∈ idx, (placeRead s (place i false) (w / 8)).isSome) →
      ∃ r, exec (.vld c vt base stride view pred) s = .next (s.coreNext c ((k.wv vt r).retire)) ∧
        ∀ i < viewCount v, elem r w i = if (k.rp pred).getLsbD i
          then ofLE ((placeRead s (place i false) (w / 8)).getD []) else elem (k.rv vt) w i) ∧
    (vFault k c base stride w idx true = none →
      exec (.vst c vt base stride view pred) s =
        .next (((idx.foldl (fun t i => placeWrite t (place i true) (bytesLE (w / 8) (elem (k.rv vt) w i))) s).mapCore c (·.retire)).settled)) ∧
    (∀ cause d a, vFault k c base stride w idx false = some (cause, d, a) →
      exec (.vld c vt base stride view pred) s = .next (takeExc s c cause d a).settle.driveAlert) ∧
    (∀ cause d a, vFault k c base stride w idx true = some (cause, d, a) →
      exec (.vst c vt base stride view pred) s = .next (takeExc s c cause d a).settle.driveAlert)) ∧
  (∀ (c : CoreNo) (vd va vb : RegNo) (view : Fin 4) (pred : Fin 8) (s : State), Ready s c true → view ≠ 3 →
    let k := s.core c
    let w := viewWidth view
    let n := viewCount view
    (∃ r, exec (.vsel c vd va vb view pred) s = .next (s.coreNext c ((k.wv vd r).retire)) ∧
      ∀ j < n, elem r w j = if (k.rp pred).getLsbD j then elem (k.rv va) w j else elem (k.rv vb) w j) ∧
    (∃ r, exec (.vslide c vd va vb view pred) s = .next (s.coreNext c ((k.wv vd r).retire)) ∧
      ∀ j < n, elem r w j = if (k.rp pred).getLsbD j
        then (if j + 1 < n then elem (k.rv va) w (j + 1) else elem (k.rv vb) w 0) else elem (k.rv vd) w j) ∧
    (vb = 0 → ∃ r, exec (.vbcast c vd va vb view pred) s = .next (s.coreNext c ((k.wv vd r).retire)) ∧
      ∀ j < n, elem r w j = if (k.rp pred).getLsbD j then (k.rs va).toNat % 2 ^ w else elem (k.rv vd) w j) ∧
    exec (.vext c vd va vb view pred) s =
      .next (s.writes c vd (BitVec.ofInt 32 (signed w (elem (k.rv va) w ((k.rs vb).toNat % n))))))

/-! ### The cores: vector instructions -/

/-- The element-wise vector instructions in views .w, .h and .b: each enabled element of vd takes the value given, modulo two to the element
width, each other element keeps its own, and nothing else of the machine changes but the pc and the instruction count. Rules: R71. -/
def Obligations.VectorArithmetic : Prop :=
  ∀ (c : CoreNo) (vd va vb : RegNo) (view : Fin 4) (pred : Fin 8) (s : State), Ready s c true → view ≠ 3 →
    let k := s.core c
    let w := viewWidth view
    let gives (i : Instr) (f : Nat → Nat → Nat → Int) : Prop :=
      ∃ r, exec i s = .next (s.coreNext c ((k.wv vd r).retire)) ∧
        ∀ j < viewCount view, (elem r w j : Int) = if (k.rp pred).getLsbD j
          then f (elem (k.rv vd) w j) (elem (k.rv va) w j) (elem (k.rv vb) w j) % 2 ^ w else elem (k.rv vd) w j
    let sg (x : Nat) : Int := signed w x
    let sat (x : Int) : Int := max (-(2 ^ (w - 1))) (min (2 ^ (w - 1) - 1) x)
    gives (.vadd c vd va vb view pred) (fun _ a b => a + b) ∧
    gives (.vsub c vd va vb view pred) (fun _ a b => a - b) ∧
    gives (.vmul c vd va vb view pred) (fun _ a b => a * b) ∧
    gives (.vmulh c vd va vb view pred) (fun _ a b => sg a * sg b / 2 ^ w) ∧
    gives (.vmac c vd va vb view pred) (fun d a b => d + a * b) ∧
    gives (.vadds c vd va vb view pred) (fun _ a b => sat (sg a + sg b)) ∧
    gives (.vsubs c vd va vb view pred) (fun _ a b => sat (sg a - sg b)) ∧
    gives (.vabsd c vd va vb view pred) (fun _ a b => |(a : Int) - b|) ∧
    gives (.vmin c vd va vb view pred) (fun _ a b => min (sg a) (sg b)) ∧
    gives (.vmax c vd va vb view pred) (fun _ a b => max (sg a) (sg b)) ∧
    gives (.vminu c vd va vb view pred) (fun _ a b => min a b) ∧
    gives (.vmaxu c vd va vb view pred) (fun _ a b => max a b) ∧
    gives (.vand c vd va vb view pred) (fun _ a b => (a &&& b : Nat)) ∧
    gives (.vor c vd va vb view pred) (fun _ a b => (a ||| b : Nat)) ∧
    gives (.vxor c vd va vb view pred) (fun _ a b => (a ^^^ b : Nat)) ∧
    gives (.vsll c vd va vb view pred) (fun _ a b => a * 2 ^ (b % w)) ∧
    gives (.vsrl c vd va vb view pred) (fun _ a b => (a / 2 ^ (b % w) : Nat)) ∧
    gives (.vsra c vd va vb view pred) (fun _ a b => sg a / 2 ^ (b % w))

/-- Comparisons, predicates and reductions: a comparison sets bit i of predicate vd for an enabled element i below the element count that
satisfies it, and clears every other bit; pand, por, pxor and pandn combine two predicates; pcnt counts set bits; the reductions take the
enabled elements, sign-extended, and with none enabled give 0, the largest and the smallest value of the element width. Rules: R64, R71. -/
def Obligations.VectorComparisons : Prop :=
  ∀ (c : CoreNo) (vd va vb : RegNo) (view : Fin 4) (pred : Fin 8) (s : State), Ready s c true →
    let k := s.core c
    let w := viewWidth view
    let n := viewCount view
    let x (j : Nat) : Nat := elem (k.rv va) w j
    let y (j : Nat) : Nat := elem (k.rv vb) w j
    let gives (i : Instr) (f : Nat → Bool) : Prop :=
      ∃ r, exec i s = .next (s.coreNext c ((k.wp vd r).retire)) ∧
        ∀ j < 64, r.getLsbD j = (decide (j < n) && (k.rp pred).getLsbD j && f j)
    let on := (List.range n).filter (fun i => (k.rp pred).getLsbD i)
    let reduces (i : Instr) (r : Int) : Prop := exec i s = .next (s.writes c vd (BitVec.ofInt 32 r))
    let vals := on.map (fun j => signed w (x j))
    (view ≠ 3 → vd.val < 8 →
      gives (.vcmpeq c vd va vb view pred) (fun j => x j == y j) ∧
      gives (.vcmplt c vd va vb view pred) (fun j => decide (signed w (x j) < signed w (y j))) ∧
      gives (.vcmpltu c vd va vb view pred) (fun j => decide (x j < y j))) ∧
    (view ≠ 3 →
      reduces (.vredadd c vd va vb view pred) vals.sum ∧
      (∃ r : Int, reduces (.vredmin c vd va vb view pred) r ∧ (∀ v ∈ vals, r ≤ v) ∧ (r ∈ vals ∨ (vals = [] ∧ r = 2 ^ (w - 1) - 1))) ∧
      (∃ r : Int, reduces (.vredmax c vd va vb view pred) r ∧ (∀ v ∈ vals, v ≤ r) ∧ (r ∈ vals ∨ (vals = [] ∧ r = -(2 ^ (w - 1)))))) ∧
    (view = 3 → vd.val < 8 →
      gives (.vxflag c vd va vb view pred) (fun j => (x j / 2 ^ 24 &&& (k.rs vb).toNat % 256) != 0)) ∧
    (vd.val < 8 → va.val < 8 → vb.val < 8 →
      exec (.pand c vd va vb 0 0) s = .next (s.coreNext c ((k.wp vd (k.rp va &&& k.rp vb)).retire)) ∧
      exec (.por c vd va vb 0 0) s = .next (s.coreNext c ((k.wp vd (k.rp va ||| k.rp vb)).retire)) ∧
      exec (.pxor c vd va vb 0 0) s = .next (s.coreNext c ((k.wp vd (k.rp va ^^^ k.rp vb)).retire)) ∧
      exec (.pandn c vd va vb 0 0) s = .next (s.coreNext c ((k.wp vd (k.rp va &&& ~~~(k.rp vb))).retire))) ∧
    (view ≠ 3 → va.val < 8 → exec (.pcnt c vd va 0 view pred) s =
      .next (s.writes c vd (BitVec.ofNat 32 ((List.range 64).countP (fun i => (k.rp va).getLsbD i)))))

/-- The pixel instructions in view .x: the value field saturates at 0xFF_FFFF and then sets flag bit 24; vxadd joins the flags of both, vxmul
keeps those of va and multiplies by an unsigned Q16.16 gain, rounding to nearest. Rules: R64, R71. -/
def Obligations.PixelArithmetic : Prop :=
  ∀ (c : CoreNo) (vd va vb : RegNo) (pred : Fin 8) (s : State), Ready s c true →
    let k := s.core c
    let value (e : Nat) : Nat := e % 2 ^ 24
    let flags (e : Nat) : Nat := e / 2 ^ 24
    let px (v f : Nat) : Nat := min 0xFFFFFF v + 2 ^ 24 * (if 0xFFFFFF < v then f ||| 1 else f)
    let gives (i : Instr) (f : Nat → Nat → Nat) : Prop :=
      ∃ r, exec i s = .next (s.coreNext c ((k.wv vd r).retire)) ∧
        ∀ j < 16, elem r 32 j = if (k.rp pred).getLsbD j then f (elem (k.rv va) 32 j) (elem (k.rv vb) 32 j) else elem (k.rv vd) 32 j
    gives (.vxadd c vd va vb 3 pred) (fun a b => px (value a + value b) (flags a ||| flags b)) ∧
    gives (.vxmul c vd va vb 3 pred) (fun a b => px ((value a * b + 2 ^ 15) / 2 ^ 16) (flags a))

/-! ### The cores: system, position, time and events -/

/-- Barriers, the special registers, halt and eret: a fence begins its wait and ends when the earlier accesses have been performed, a fence.c
with the tiles that the core has fed then seen by every core of its cluster, a fence.d with the bus error of a posted store that failed;
xrd reads the special register, from the latch for the high half of a counter, and a read of a low half latches the high one; xwr writes
one; eret goes to EPC with STATUS.EXC clear; halt stops the core; a kick reloads the watchdog. Rules: R9, R65, R71, R80, R83, R84, R89,
R91, R270. -/
def Obligations.SystemInstructions : Prop :=
  ∀ (c : CoreNo) (rd rs1 : RegNo) (imm : BitVec 12) (s : State),
    let k := s.core c
    let n := imm.toNat
    (Ready s c false →
      exec (.fenceC c 0 0 0) s = .next (s.coreNext c { k with wait := .fenceC, waited := 0 }) ∧
      exec (.fenceD c 0 0 0) s = .next (s.coreNext c { k with wait := .fenceD, waited := 0 }) ∧
      (k.epc.toNat % 4 = 0 → exec (.eret c 0 0 0) s = .next (s.coreNext c { k with pc := k.epc, exc := false, instret := k.instret + 1 })) ∧
      exec (.halt c 0 0 0) s = .next (stopCore (s.setCore c { k with instret := k.instret + 1 }) c).settle.driveAlert ∧
      (n ≠ 2 → n ≠ 3 → n ≠ 4 → n ≠ 5 → exec (.xrd c rd 0 imm) s = .next (s.writes c rd (specialReg k c n))) ∧
      ((n = 2 ∨ n = 4) → exec (.xrd c rd 0 imm) s =
        .next ((s.setLatch (.core c) (n + 1) (specialReg k c (n + 1))).writes c rd (specialReg k c n))) ∧
      ((n = 3 ∨ n = 5) → exec (.xrd c rd 0 imm) s = .next (s.writes c rd ((s.latched (.core c) n).getD (specialReg k c n)))) ∧
      exec (.xwr c 0 rs1 imm) s = .next (s.coreNext c (k.writeSpecial n (k.rs rs1)).retire)) ∧
    (Waits s c .fenceC → exec (.fenceCDone c) s = .next (shareFed (s.setCore c { k.retire with wait := .none }) c).settled) ∧
    (Waits s c .fenceD → k.busErrs = [] → exec (.fenceDDone c) s = .next (s.coreNext c { k.retire with wait := .none })) ∧
    (∀ a r, Waits s c .fenceD → k.busErrs = a :: r →
      exec (.fenceDDone c) s = .next (takeExc (s.setCore c { k with busErrs := r }) c 4 1 a.toNat).settle.driveAlert) ∧
    (s.up = true → k.run = .running → exec (.wdtKick c) s = .next (s.coreNext c { k with wdtCount := k.wdtLoad }))

/-- Posted bus errors and the core watchdog: at an instruction boundary or at a fence.d a posted store that failed is a bus error with DETAIL
1, in the order of the failures; in another wait it is kept until the wait is over; an expired watchdog is exception 5, abandons a wait
other than a fence and reloads the count. Rules: R83, R84, R88, R89, R90, R91. -/
def Obligations.CoreErrors : Prop :=
  ∀ (c : CoreNo) (a : Word) (s : State), s.up = true → (s.core c).run = .running →
    let k := s.core c
    ((k.wait = .none ∨ k.wait = .fenceD) → k.busErrs = [] →
      exec (.busErrorPosted c a) s = .next (takeExc s c 4 1 a.toNat).settle.driveAlert) ∧
    (∀ b r, (k.wait = .none ∨ k.wait = .fenceD) → k.busErrs = b :: r →
      exec (.busErrorPosted c a) s = .next (takeExc (s.setCore c { k with busErrs := r ++ [a] }) c 4 1 b.toNat).settle.driveAlert) ∧
    (k.wait ≠ .none → k.wait ≠ .fenceD →
      exec (.busErrorPosted c a) s = .next (s.coreNext c { k with busErrs := k.busErrs ++ [a] })) ∧
    (k.wait ≠ .fenceC → k.wait ≠ .fenceD → k.wdtLoad ≠ 0 → k.wdtCount = 0 → exec (.watchdog c) s =
      .next (takeExc (s.setCore c { k with wdtCount := k.wdtLoad }) c 5 0 0).settle.driveAlert)

/-- Position and time: pget gives the low word of the axis's position word and latches the high one for the core, pgeth gives the latch; tget
with selector 0 gives the short stamp and latches the rest, with 1 and 2 the latches; await completes at once when the short position
stands at the target or past it, or when its timeout is zero, and else waits; the wait ends when the position gets there, or with
STATUS.TMO set when its timeout has elapsed first. Rules: R73, R74. -/
def Obligations.PositionAndTime : Prop :=
  ∀ (c : CoreNo) (rd rs1 rs2 : RegNo) (idx : BitVec 11) (s : State),
    let k := s.core c
    let n := idx.toNat % 16
    let p := axisWord s n
    let at_ (target : Word) : Bool := decide (0 ≤ (shortPos s n - target).toInt)
    let ends (w : Word) (tmo : Bool) : State := s.coreNext c { (k.ws rd w).retire with wait := .none, tmo := tmo }
    (Ready s c false →
      exec (.pget c rd rs1 rs2 idx) s = .next ((s.setLatch (.core c) (R.AXS_POS_HI n) (p.extractLsb' 32 32)).writes c rd (p.extractLsb' 0 32)) ∧
      exec (.pgeth c rd rs1 rs2 idx) s =
        .next (s.writes c rd ((s.latched (.core c) (R.AXS_POS_HI n)).getD (p.extractLsb' 32 32))) ∧
      (idx.toNat % 4 = 0 → exec (.tget c rd rs1 rs2 idx) s =
        .next (((s.setLatch (.core c) tgetHigh (clockHigh s)).setLatch (.core c) tgetFrac (clockFrac s)).writes c rd s.tim.short)) ∧
      (idx.toNat % 4 = 1 → exec (.tget c rd rs1 rs2 idx) s =
        .next (s.writes c rd ((s.latched (.core c) tgetHigh).getD (clockHigh s)))) ∧
      (idx.toNat % 4 = 2 → exec (.tget c rd rs1 rs2 idx) s =
        .next (s.writes c rd ((s.latched (.core c) tgetFrac).getD (clockFrac s)))) ∧
      (at_ (k.rs rs1) = true → exec (.await c rd rs1 rs2 idx) s = .next (ends (shortPos s n) false)) ∧
      (at_ (k.rs rs1) = false → k.rs rs2 = 0 → exec (.await c rd rs1 rs2 idx) s = .next (ends (shortPos s n) true)) ∧
      (at_ (k.rs rs1) = false → k.rs rs2 ≠ 0 → exec (.await c rd rs1 rs2 idx) s =
        .next (s.coreNext c { k with wait := .await n (k.rs rs1) (k.rs rs2).toNat rd, waited := 0 }))) ∧
    (∀ target tmo, Waits s c (.await n target tmo rd) → at_ target = true →
      exec (.awaitReached c) s = .next (ends (shortPos s n) false)) ∧
    (∀ target tmo, Waits s c (.await n target tmo rd) → at_ target = false → tmo ≠ 0xFFFFFFFF → tmo ≤ k.waited →
      exec (.awaitTimeout c) s = .next (ends (shortPos s n) true))

/-- arm and disarm: from every state in which the core takes one, with a slot of its grant and, for arm, an image of 32 bytes at a multiple of
32 that it can read, arm gives the status that the slot's rules decide for the image and disarm gives 1 when the slot was still armed and
0 when it was not; the pc goes on by four. A slot outside the grant is the access-window violation with DETAIL 2 and EADDR the slot, and
an image that is not at a multiple of 32 is the misalignment exception. evraise, evwait and evpoll: evraise raises a producer of the grant
with the hop count of rs1[2:0] and itself as origin. A core finds an event at an input of its grant when more are pending than the
hardware consumer and the waiting cores of lower number take in this cycle; evwait then takes the oldest that is left to it, with rd the
input's OVERRUN, highest hop and the count left and STATUS.TMO clear, and otherwise waits, or for rs1 of zero ends with rd 0 and
STATUS.TMO set. evpoll gives the same word of the pending count and takes nothing. A waiting core takes an event when it finds one, and
ends with STATUS.TMO set when its timeout has elapsed without one. A producer or an input outside the grant is the access-window violation
with DETAIL 3 or 4 and EADDR the number. Rules: R72, R75, R76, R77, R78, R116, R117, R132. -/
def Obligations.SlotsAndEvents : Prop :=
  (∀ (c : CoreNo) (rd rs1 rs2 : RegNo) (idx : BitVec 11) (s : State), Ready s c false →
    let k := s.core c
    let a := (k.rs rs1).toNat
    let n := idx.toNat % 256
    let image (l : List (BitVec 8)) : List Word := (List.range 8).map (fun i => BitVec.ofNat 32 (leAt l (4 * i) 4))
    (∀ l, a % 32 = 0 → granted k.grant.slots n = true → nearBytes s k c a 32 = .ok l →
      exec (.arm c rd rs1 rs2 idx) s = .next ((armSlot s c n (image l)).2.writes c rd (BitVec.ofNat 32 (armSlot s c n (image l)).1))) ∧
    (granted k.grant.slots n = true →
      exec (.disarm c rd rs1 rs2 idx) s = .next ((disarmSlot s n).2.writes c rd (if (disarmSlot s n).1 then 1 else 0))) ∧
    (a % 32 ≠ 0 → exec (.arm c rd rs1 rs2 idx) s = .next (takeExc s c 2 0 a).settle.driveAlert) ∧
    (a % 32 = 0 → granted k.grant.slots n = false → exec (.arm c rd rs1 rs2 idx) s = .next (takeExc s c 3 2 n).settle.driveAlert) ∧
    (granted k.grant.slots n = false → exec (.disarm c rd rs1 rs2 idx) s = .next (takeExc s c 3 2 n).settle.driveAlert)) ∧
  (∀ (c : CoreNo) (rd rs1 rs2 : RegNo) (idx : BitVec 11) (s : State),
    let k := s.core c
    let n := idx.toNat % 512
    let report (i m : Nat) : Word :=
      setField (setField (flagAt 0 31 (s.on (F.EVR_IN_STAT_OVERRUN i))) 10 8 (inCounts s i).2) 7 0 m
    let take (i : Nat) : State :=
      (s.setInput i { s.input i with pend := (s.input i).pend.eraseIdx (evAhead s c i) }).coreNext c
        { (k.ws rd (report i ((s.input i).pend.length - 1))).retire with wait := .none, tmo := false }
    let timeout : State := s.coreNext c { (k.ws rd 0).retire with wait := .none, tmo := true }
    let there (i : Nat) : Prop := evAhead s c i < (s.input i).pend.length
    (Ready s c false →
      (granted k.grant.producers (idx.toNat % 1024) = true → exec (.evraise c rd rs1 rs2 idx) s =
        .next ((s.raiseEv (idx.toNat % 1024) ((k.rs rs1).toNat % 8) (idx.toNat % 1024)).coreNext c k.retire)) ∧
      (granted k.grant.inputs n = true → there n → exec (.evwait c rd rs1 rs2 idx) s = .next (take n)) ∧
      (granted k.grant.inputs n = true → ¬ there n → k.rs rs1 = 0 → exec (.evwait c rd rs1 rs2 idx) s = .next timeout) ∧
      (granted k.grant.inputs n = true → ¬ there n → k.rs rs1 ≠ 0 →
        exec (.evwait c rd rs1 rs2 idx) s = .next (s.coreNext c { k with wait := .evwait n (k.rs rs1).toNat rd, waited := 0 })) ∧
      (granted k.grant.inputs n = true →
        exec (.evpoll c rd rs1 rs2 idx) s = .next (s.writes c rd (report n (s.input n).pend.length))) ∧
      (granted k.grant.producers (idx.toNat % 1024) = false →
        exec (.evraise c rd rs1 rs2 idx) s = .next (takeExc s c 3 3 (idx.toNat % 1024)).settle.driveAlert) ∧
      (granted k.grant.inputs n = false → exec (.evwait c rd rs1 rs2 idx) s = .next (takeExc s c 3 4 n).settle.driveAlert ∧
        exec (.evpoll c rd rs1 rs2 idx) s = .next (takeExc s c 3 4 n).settle.driveAlert)) ∧
    (∀ i tmo, Waits s c (.evwait i tmo rd) → there i → exec (.evwaitTake c) s = .next (take i)) ∧
    (∀ i tmo, Waits s c (.evwait i tmo rd) → ¬ there i → tmo ≠ 0xFFFFFFFF → tmo ≤ k.waited →
      exec (.evwaitTimeout c) s = .next timeout))

/-! ### Reset, boot, modes -/

/-- Resets and supplies: each reset leaves the part as the reset's own operation says, and a release or the return of the supplies starts the
boot; RESET_N needs its release, and the release with TEST_EN low samples the straps. The steps of the boot: in their order, while nothing
holds the part and no LOCKDOWN is in force; the fuse sense reads the array, the memory is listed empty when the stacks are trained, the
flash directory is passed over with FLASH_EN low and otherwise read, its first good copy deciding the entries whose parcels are loaded,
and a failed step is LOCKDOWN with its cause. What takes the part into LOCKDOWN: a root core exception has cause 4, a glitch cause 5, the
third noise window in a row that fails cause 3; a good window clears the run of failures. Sleep and wake: entry counts one sleep, quiets
the outputs and wakes at once for an enabled source that is already there, a wake source wakes the part, and the wake ends with the clock
and the axes resumed, the armed slots tested again, the links checked and a host-side reset. Rules: R22, R23, R57, R106, R188, R339, R356,
R379, R404, R406, R412, R413, R414, R415, R416, R417, R418, R419, R420, R421, R426, R438, R451, R464, R465, R466. -/
def Obligations.ResetBootAndSleep : Prop :=
  (∀ (fe : Bool) (addr : Fin 8) (pg : BitVec 4) (tap : TapInstr) (s : State),
    (∃ t, exec .powerOnReset s = .next t ∧ t.fuses = s.fuses ∧ t.pending = s.pending ∧ t.now = s.now ∧ t.cores = [] ∧ t.dmem = [] ∧
      t.live = State.reset.live ∧ (∀ a, a ≠ R.DEV_MODE → t.rd a = State.reset.rd a) ∧ t.boot = State.reset.boot) ∧
    (s.boot.resetN = false → s.held = false →
      exec .resetN s = .next (resetCore { s with boot := { s.boot with resetN := true } }).settled) ∧
    (s.boot.resetN = true → exec (.resetNRelease fe false addr) s = .next (startBoot ({ s with boot :=
      { s.boot with resetN := false, flashEn := fe, pg := if s.boot.supply then s.boot.pg else 15 } }.sf F.TWI_STAT_ADDR addr)).settled) ∧
    (s.up = true → exec .fullReset s = .next (startBoot (resetCore s)).settled) ∧
    (s.held = false →
      exec (.supplyOutOfRange pg) s = .next (resetCore { s with boot := { s.boot with supply := true, pg := pg.toNat } }).settled) ∧
    (s.boot.supply = true →
      exec .suppliesInRange s = .next (startBoot { s with boot := { s.boot with supply := false, pg := 15 } }).settled) ∧
    (tapControls tap = false → exec (.updateIr tap) s = .next { s with boot := { s.boot with tap := tap } }.settled)) ∧
  (∀ (kat noise stack : Bool) (img : FlashImage) (s : State), booting s = true →
    (s.boot.pll = false → let u := senseFuses { s with boot := { s.boot with pll := true } }
      let v := u.sf F.PCI_BAR2_WIN_SIZE (if 2 ≤ u.lifecycle then 0 else 128)
      factoryCrc v = (fuse v 85).toNat →
      exec (.pllLock true true true) s = .next (v.set1 F.FUS_STAT_CRC_OK).settled) ∧
    (s.boot.pll = false →
      exec (.pllLock false kat noise) s = .next (enterLockdown { s with boot := { s.boot with pll := true } } 6).settled) ∧
    (s.boot.pll = true →
      exec .selfTestsPassed s = .next ({ s with boot := { s.boot with tests := true } }.set1 F.SEC_STAT_SELFTEST_OK).settled) ∧
    (s.boot.pll = true → s.boot.hbm = false →
      exec .hbmTrained s = .next { s with boot := { s.boot with hbm := true }, dmem := [], poison := [] }.settled ∧
      exec (.hbmTrainingFailure stack) s = .next ((enterLockdown s 7).logFault 0x16 3 (if stack then 1 else 0) 0 0).settled) ∧
    (s.boot.tests = true → s.boot.dir = false →
      exec .directoryWritten s = .next (writeDirectory { s with boot := { s.boot with dir := true } } true).settled) ∧
    (s.boot.tests = true → s.boot.hbm = true → s.boot.dir = true → s.boot.flash = false → s.boot.flashEn = false →
      exec (.flashDirectory img) s =
        .next (({ s with boot := { s.boot with flash := true } }.set1 F.XSP_STAT_DONE).emit (.pin .xspCsN true)).settled) ∧
    (s.boot.tests = true → s.boot.hbm = true → s.boot.dir = true → s.boot.flash = false → s.boot.flashEn = true →
      let prim := dirOk img.size img.dir
      let use := prim || dirOk img.size img.copy
      let dir := if prim then img.dir else img.copy
      let n := if use then leAt dir 4 4 else 0
      let t := { s with boot := { s.boot with flash := true } }
      let t := (t.wr R.XSP_BYTES (if prim then 64 else 128)).put F.XSP_STAT_OCTAL img.octal
      let t := (t.sf F.XSP_STAT_DIR (if use then (if prim then 1 else 2) else 0)).sf F.XSP_STAT_COUNT n
      let t := t.wr R.XSP_SCK (BitVec.ofNat 32 img.mhz.toNat)
      exec (.flashDirectory img) s =
        .next ((((List.range n).foldl (flashEntry img dir) t).set1 F.XSP_STAT_DONE).emit (.pin .xspCsN true)).settled) ∧
    (s.boot.flash = true → s.boot.hbm = true → s.boot.dir = true →
      exec .bootComplete s = .next (serveQueued { s with boot := { s.boot with done := true } }).settled)) ∧
  (∀ (s : State),
    (s.held = false → s.boot.asleep = false →
      exec .glitchDetected s = .next (enterLockdown s 5).settled ∧ exec .rootCoreException s = .next (enterLockdown s 4).settled) ∧
    (s.up = true → s.boot.tests = true →
      exec (.noiseWindow true) s = .next { s with ras := { s.ras with noise := 0 } }.settled ∧
      (s.ras.noise < 2 → exec (.noiseWindow false) s =
        .next { s.bump F.SEC_NOISE_FAILS with ras := { s.ras with noise := s.ras.noise + 1 } }.settled)) ∧
    (s.up = true → s.boot.tests = true → 2 ≤ s.ras.noise →
      exec (.noiseWindow false) s =
        .next (enterLockdown { s.bump F.SEC_NOISE_FAILS with ras := { s.ras with noise := s.ras.noise + 1 } } 3).settled)) ∧
  (∀ (v : Word) (s : State),
    (s.boot.asleep = true → s.boot.entered = false →
      let u := (List.range 16).foldl portDown (allLinksOff (quietOutputs (s.bump F.PWR_STAT_SLEEPS)))
      let w := { u with boot := { u.boot with entered := true } }
      let held := w.boot.wakeHeld ||| wakesNow w
      (held &&& fieldOf (w.rd R.PWR_WAKE_EN) 4 0 = 0 → exec .sleepEntryDone s = .next w.settled) ∧
      (held &&& fieldOf (w.rd R.PWR_WAKE_EN) 4 0 ≠ 0 → w.boot.waking = false →
        exec .sleepEntryDone s = .next ((beginWake w held).set1 F.PWR_WAKE_STAT_WAKE_ABORT).settled)) ∧
    (s.held = false →
      exec .sysWakeN s = .next (wakeBy s 0).settled ∧ exec .wakePerst s = .next (wakeBy s 2).settled ∧
      ((wakesNow s).testBit 3 = true → exec .wakeTimer s = .next (wakeBy s 3).settled) ∧
      ((wakesNow s).testBit 4 = true → exec .wakeAxis s = .next (wakeBy s 4).settled)) ∧
    (s.held = false → s.boot.asleep = true → s.boot.waking = true → s.boot.wakeLock = false →
      let u := { s with boot := { s.boot with
        asleep := false, entered := false, waking := false, wakeHeld := 0, wakeLock := false, wokeAt := some s.now } }
      let w := (resumeClock u).sf F.PWR_STAT_LAST_WAKE (min 65535 ((s.now - s.boot.wakeFrom) / 1000))
      exec .wakeComplete s = .next (hostReset (checkLinks ((w.slots.map (·.1)).foldl
        (fun t n => if (t.slot n).armed then t.setSlot n { t.slot n with test := true, late := false, due := none, stop := none } else t)
        w |> resumeOutputs)) 1).settled) ∧
    (s.up = true → (∀ k < 16, (fieldOf v 15 0).testBit k = true → clusterIdle s k = true) →
      exec (.clusterGate v) s =
        .next ((s.put F.PWR_CFG_AUTO_SLEEP (v.getLsbD 31)).sf F.PWR_CFG_CLUSTER_GATE (fieldOf v 15 0)).settled) ∧
    (endpointUp s = true → s.on F.PCI_LINK_UP = true → s.pci.rst = none → s.on F.PWR_CFG_AUTO_SLEEP = false →
      exec .pmeTurnOff s = .next (linkOff ((s.emit (.pciMsg .pmeToAck)).emit (.pciMsg .enterL23))).settled))

/-- Mode requests: from the modes that allow it a request is put into DEV_MODE.REQ and the links are tested again, SLEEP begins with the clock
stopped, LEAVE withdraws the request; a request while one is in force is refused with reason 2. The replay feeder and the self-test: GO
starts the feeder over the length in DEV_RPL_LEN, each command feeds the next line until the source is at its end, ABORT stops it; the
self-test starts where it is allowed, and its end blanks the cores, leaves the memories tested with nothing listed, and answers the
letter. Rules: R19, R363, R408, R409, R411, R416, R426. -/
def Obligations.ModesAndReplay : Prop :=
  (∀ (s : State), s.up = true →
    (s.f F.DEV_MODE_REQ = 0 → [3, 4, 5, 9].contains s.modeOf = true →
      exec .reqReplay s = .next (retestLinks (s.sf F.DEV_MODE_REQ 6)).settled ∧
      exec .reqCalibrate s = .next (retestLinks (s.sf F.DEV_MODE_REQ 7)).settled ∧
      exec .reqDiagnose s = .next (retestLinks (s.sf F.DEV_MODE_REQ 8)).settled) ∧
    (s.f F.DEV_MODE_REQ = 0 → (s.modeOf = 2 ∨ s.modeOf = 3) → s.boot.wokeAt = none → sleepBlocked s = false → s.on F.PCI_LINK_UP = false →
      exec .reqSleep s = .next (beginSleep s).settled) ∧
    (s.f F.DEV_MODE_REQ = 7 → exec .leave s = .next (s.sf F.DEV_MODE_REQ 0).settled) ∧
    (s.f F.DEV_MODE_REQ = 8 → exec .leave s = .next (retestLinks (s.sf F.DEV_MODE_REQ 0)).settled) ∧
    (s.f F.DEV_MODE_REQ = 6 → exec .leave s = .next (feederOff (s.sf F.DEV_MODE_REQ 0)).settled) ∧
    (s.f F.DEV_MODE_REQ ≠ 0 →
      exec .reqReplay s = .next ((s.set1 F.DEV_MODE_REFUSED).sf F.DEV_MODE_REFUSE 2).settled ∧
      exec .reqCalibrate s = .next ((s.set1 F.DEV_MODE_REFUSED).sf F.DEV_MODE_REFUSE 2).settled ∧
      exec .reqDiagnose s = .next ((s.set1 F.DEV_MODE_REFUSED).sf F.DEV_MODE_REFUSE 2).settled ∧
      exec .reqSleep s = .next ((s.set1 F.DEV_MODE_REFUSED).sf F.DEV_MODE_REFUSE 2).settled)) ∧
  (∀ (m : Fin 4) (fails : List (Fin 148)) (s : State), s.up = true →
    (s.f F.DEV_MODE_REQ = 6 → s.on F.DEV_RPL_STAT_BUSY = false → s.f F.DEV_RPL_LEN_LEN ≠ 0 →
      exec .replayGo s =
        .next ({ s.wr R.DEV_RPL_LINES 0 with rpl := { len := s.f F.DEV_RPL_LEN_LEN * 64 } }.set1 F.DEV_RPL_STAT_BUSY).settled) ∧
    (s.on F.DEV_RPL_STAT_BUSY = true →
      exec .replayAbort s = .next (feederOff s).settled ∧
      (replayWaits s = false →
        (s.rpl.len ≤ s.rpl.pos → exec .replayLine s = .next ((feederOff s).set1 F.DEV_MODE_REPLAY_DONE).settled) ∧
        (s.rpl.pos < s.rpl.len → exec .replayLine s = .next (feedLine s).settled)) ∧
      (replayWaits s = true → exec .replayLine s = .next s.settled)) ∧
    (bistAllowed s = true →
      exec .bistGo s = .next (startBist s none).settled ∧
      (∀ l, rootLetter s m 0x18 = some l → s.boot.bistMbox ≠ some m.val → exec (.selfTest m) s = .next (startBist s (some m)).settled)) ∧
    (s.boot.bistFrom ≠ none →
      let fl := (fails.map (·.val)).dedup
      let u := reassignSlots (allCores.foldl blankCore { s with loader := { s.loader with parcels := [] } })
      let w := fl.foldl (fun t n => t.logFault 0x14 2 (if n < 132 then targetOf n else 0xFFFF) 0 n)
        { u with lmem := [], cmem := [], lpoison := [], cpoison := [] }
      let x := (((w.clr F.DEV_BIST_STAT_BUSY).set1 F.DEV_BIST_STAT_DONE).put F.DEV_BIST_STAT_PASS fl.isEmpty).sf F.DEV_BIST_STAT_FAILS
        (min 255 fl.length)
      w.boot.bistMbox = none →
      exec (.bistDone fails) s = .next (clearUndeclared { x with boot := { x.boot with bistFrom := none, bistMbox := none } }).settled))

/-! ### The host side -/

/-- Resets and power states of the host side: PERST#, hot reset and FLR reset the host side and count it, the link going down contains it, the
link coming up shows its speed, width and mode, HOST_SIDE_READY ends the reset; D3hot and Bus Master Enable going to 0 leave the memory
space off or the bus master off. Rules: R22, R23, R331, R345, R346, R347, R348, R350, R351, R353. -/
def Obligations.HostSideResets : Prop :=
  ∀ (speed : Fin 7) (width : Fin 17) (flit : Bool) (s : State),
    (s.pci.perst = false → endpointUp s = true → exec .perstAssert s =
      .next (linkOff (hostResetCounted { s with pci := { s.pci with perst := true } } 1)).settled) ∧
    (s.pci.perst = true → s.pci.wake = false → exec .perstRelease s =
      .next (({ s with pci := { s.pci with perst := false } }.setCfg 0x44 (cfgConst 0x44))).settled) ∧
    (s.held = false → s.boot.asleep = false → s.pci.perst = false →
      (s.pci.rst = none → exec .hotReset s = .next (linkOff (hostResetCounted s 2)).settled) ∧
      (s.on F.PCI_LINK_UP = true → s.pci.rst = none → exec .initiateFlr s = .next (hostResetCounted s 3).settled) ∧
      (s.pci.rst.isSome = true → s.on F.PCI_LINK_UP = true → exec .hostSideReady s =
        .next ({ s with pci := { s.pci with rst := none } }.clr F.DEV_RSTSTAT_HOST_IN_RESET).settled) ∧
      (s.on F.PCI_LINK_UP = true → s.pci.rst = none →
        let u := linkOff s
        let u := { u with pci := { u.pci with rst := none, inta := false } }
        let u := (contain ((countReset u 4).set1 F.PCI_STAT_LINK_DOWN) 2 0).sf F.PCI_CONTAIN_CAUSE 2
        exec .linkDown s = .next (ideInsecure ((u.set1 F.DEV_RSTSTAT_HOST_IN_RESET).logFault 0x12 2 0xFFFF 0 0)).settled) ∧
      (s.on F.PCI_LINK_UP = false → linkDownContained s = false → 0 < speed.val → goodWidth width = true →
        let u := (s.wr R.PCI_LINK 0).set1 F.PCI_LINK_UP
        let u := ((u.sf F.PCI_LINK_SPEED speed).sf F.PCI_LINK_WIDTH width).put F.PCI_LINK_FLIT (flit || speed.val == 6)
        let u := { u with pci := { u.pci with ssid := u.f F.PCI_SUBSYS_SSID } }
        exec (.linkUp speed width flit) s =
          .next (if speed.val < 6 ∨ width.val < 16 then u.set1 F.PCI_STAT_DEGRADED else u).settled)) ∧
    (s.up = true → s.pci.rst = none → bme s = true →
      let u := bmeLost (s.setCfg 0x04 (s.cfg 0x04 &&& ~~~ 0x4))
      exec .bmeClear s = .next u.settled ∧
      (s.on F.PCI_LINK_UP = true → exec .d3hotEntry s =
        .next ((u.setCfg 0x04 (u.cfg 0x04 &&& ~~~ 0x2)).setCfg 0x44 (u.cfg 0x44 ||| 3)).settled))

/-- Requests from the host: a configuration request is answered from the configuration space, also while memory is shut; with Memory Space
Enable a BAR request reads or writes its registers, device memory inside reach, or the MSI-X tables, a read of the expansion ROM answers
from its directory, and the completions of a read carry the bytes, with EP set where device memory is poisoned. Rules: R5, R334, R336,
R337, R338, R340, R346, R348, R350, R474. -/
def Obligations.HostRequests : Prop :=
  ∀ (q : HostReq) (s : State), s.held = false → s.boot.asleep = false → s.pci.perst = false →
    (cfgRetry s = true → exec (.configurationRequest q) s = .next (s.emit (.pciMsg (.rrs q.tag.toNat))).settled) ∧
    (cfgRetry s = false →
      let o := q.ofs.toNat % 4096 / 4 * 4
      (q.write = true → exec (.configurationRequest q) s = .next ((q.dwords.zipIdx.foldl
        (fun t e => cfgWrite t ((o + 4 * e.2) % 4096) e.1.1 e.1.2) s).emit (.completion q.tag.toNat true [])).settled) ∧
      (q.write = false → exec (.configurationRequest q) s = .next (s.emit (.completion q.tag.toNat true
        (q.dwords.zipIdx.flatMap (fun e => bytesLE 4 (cfgRead s ((o + 4 * e.2) % 4096)).toNat)))).settled)) ∧
    (memShut s = false → memEn s = true →
      (q.write = false → (s.cfg 0x30).getLsbD 0 = true → exec (.romRead q) s = .next (answerRegs s q
        (q.dwords.zipIdx.flatMap (fun e => sliceB s.pci.dir (q.ofs.toNat % 2 ^ 20 / 4 * 4 + 4 * e.2) 4))).settled) ∧
      (let o := q.ofs.toNat % 2 ^ 25 / 4 * 4
       (q.write = true → exec (.bar0Request q) s = .next (q.dwords.zipIdx.foldl (fun t e =>
          if e.1.2 = 15 then hostRegWrite t (o + 4 * e.2) e.1.1 else t.logFault 0x01 0 0xFFFF (o + 4 * e.2) 0) s).settled) ∧
       (q.write = false → let r := readDwords hostRegRead s o q.dwords.length
          exec (.bar0Request q) s = .next (answerRegs r.2 q r.1).settled)) ∧
      (bar2Up s = true → q.poisoned = false → q.write = true → s.poison = [] →
        let a := q.ofs.toNat / 4 * 4 + (bar2Win s).1
        hostDenied s a (4 * q.dwords.length) = none → exec (.bar2Request q) s =
          .next (q.dwords.zipIdx.foldl (fun t e => bar2Write t (a + 4 * e.2) e.1.1 e.1.2) s).settled) ∧
      (bar2Up s = true → q.write = false →
        let a := q.ofs.toNat / 4 * 4 + (bar2Win s).1
        hostDenied s a (4 * q.dwords.length) = none →
        exec (.bar2Request q) s = .next (answerRead (s.meets a (4 * q.dwords.length)) q
          (fun o m => s.poison.any (unitMeets (o + (bar2Win s).1) m)) (s.dread a (4 * q.dwords.length))).settled) ∧
      (let o := q.ofs.toNat % 2 ^ 14 / 4 * 4
       (q.write = true → exec (.bar4Request q) s =
          .next (sendPending (q.dwords.zipIdx.foldl (fun t e => bar4Write t (o + 4 * e.2) e.1.1 e.1.2) s)).settled) ∧
       (q.write = false → let r := readDwords bar4Read s o q.dwords.length
          exec (.bar4Request q) s = .next (answerRegs r.2 q r.1).settled)))

/-- Messages and errors of the endpoint: a waiting signal is sent or kept pending, or shown in EVT_PEND without MSI-X; INTx, LTR, L1 and PME
messages are sent when due; an error is logged, and one of PCI_CONTAIN_MASK contains the host side, until CONTAIN_RELEASE sends what is
pending and resumes what it is asked to. Completions of the part's own reads: the bytes of a successful completion go to the read it
answers, which ends with its last byte; UR, CA and EP fail the read; a timeout quarantines the tag and fails it; a completion of a tag
quarantined by a timeout is counted as late, and the quarantine ends at its time. Rules: R340, R341, R342, R343, R344, R345, R348, R349,
R350, R352. -/
def Obligations.PcieTraffic : Prop :=
  (∀ (v : Nat) (rest : List Nat) (b : Fin 16) (u : Fin 32) (hdr : List Word) (s : State), s.up = true →
    (s.sigs = v :: rest → v < 256 →
      let t := { s with sigs := rest }
      (msixOn s = true → canSend t v = true → s.pci.pba.contains v = false → exec .msiXMessage s = .next (sendMsix t v).settled) ∧
      (msixOn s = true → canSend t v = false → s.pci.pba.contains v = false → exec .msiXMessage s =
        .next { t with pci := { t.pci with pba := t.pci.pba ++ [v] } }.settled) ∧
      (msixOn s = false → exec .msiXMessage s =
        .next (t.wr (R.EVT_PEND (v / 32)) (s.rd (R.EVT_PEND (v / 32)) ||| (1 <<< (v % 32)))).settled)) ∧
    (s.sigs = [] → exec .msiXMessage s = .next (sendPending s).settled) ∧
    (s.on F.PCI_LINK_UP = true →
      exec (.correctableError b) s = .next (logCE s b).settled ∧
      (s.pci.rst = none →
        ((intaLevel s && !intxDis s) = true → s.pci.inta = false → exec .intaChange s =
          .next ({ s with pci := { s.pci with inta := true } }.emit (.pciMsg .assertInta)).settled) ∧
        ((intaLevel s && !intxDis s) = false → s.pci.inta = true → exec .intaChange s =
          .next ({ s with pci := { s.pci with inta := false } }.emit (.pciMsg .deassertInta)).settled) ∧
        (ltrEn s = true → s.pci.ltr ≠ some (ltrValue s) → exec .ltrMessage s =
          .next ({ s with pci := { s.pci with ltr := some (ltrValue s) } }.emit (.pciMsg (.ltr (ltrValue s)))).settled) ∧
        (s.reads = [] → (s.cfg 0x70).getLsbD 1 = true → s.f F.PCI_LINK_PM = 0 → s.pci.lastReq + 10000 ≤ s.now →
          exec .aspmL1Request s = .next ((s.sf F.PCI_LINK_PM 1).emit (.pciMsg .l1Request)).settled) ∧
        (let t := logUE s u (u == 12 || u == 16 || u == 20) hdr
         ((t.rd R.PCI_CONTAIN_MASK).getLsbD u.val = false → exec (.uncorrectableError u hdr) s = .next t.settled) ∧
         ((t.rd R.PCI_CONTAIN_MASK).getLsbD u.val = true → contained t = false →
          exec (.uncorrectableError u hdr) s = .next ((contain t 1 u).logFault 0x11 2 0xFFFF 0 u).settled)))) ∧
    (pmeEn s = true → s.pci.perst = false → inD3 s = true →
      (s.pci.rst = none → exec (.pciPmeSend true) s = .next ((s.orCfg 0x44 0x8000).emit (.pciMsg .pmePm)).settled) ∧
      (s.f F.PCI_PME_FREE_THRESH ≠ 0 → chunksFree s ≤ s.f F.PCI_PME_FREE_THRESH → s.pci.low = false → exec (.pciPmeSend false) s =
        .next (({ s with pci := { s.pci with low := true } }.orCfg 0x44 0x8000).emit (.pciMsg .pmePm)).settled)) ∧
    (s.pci.rst = none → contained s = true → s.f F.PCI_CONTAIN_CAUSE ≠ 2 →
      let t := ((s.clr F.PCI_CONTAIN_CONTAINED).sf F.PCI_CONTAIN_CAUSE 0).sf F.PCI_CONTAIN_FIRST_ERR 0
      let t := { t with pci := { t.pci with paused := [] } }
      let u := sendPending (t.clr F.DEV_RSTSTAT_HOST_IN_RESET)
      exec (.containRelease false) s = .next u.settled ∧
      exec (.containRelease true) s = .next (s.pci.paused.foldl (fun w n =>
        if chState w n ≠ dPaused then w
        else if (w.dma n).parked = true then tailRead (setCh (w.setDma n { w.dma n with parked := false }) n dParked) n
        else if isRingChan w n = true ∧ (w.dma n).active = false then setCh w n dIdle
        else tryEnd (issueDesc (setCh w n dRunning) n) n) u).settled)) ∧
  (∀ (tag : BitVec 14) (status : Fin 4) (l : List Byte) (s : State),
    (s.held = false → exec (.tagQuarantineEnd tag) s = .next { s with pci := { s.pci with
      quar := s.pci.quar.filter (fun e => !(e.1 == tag.toNat && decide (e.2.1 ≤ s.now))) } }.settled) ∧
    (s.up = true → s.pci.rst = none →
      (s.on F.PCI_LINK_UP = true → s.pci.quar.any (fun e => e.1 == tag.toNat && e.2.2) = true →
        exec (.lateCompletion tag) s = .next (s.bump F.PCI_LATE_CPL_COUNT).settled) ∧
      (s.pci.quar.any (fun e => e.1 == tag.toNat && e.2.2) = false → exec (.lateCompletion tag) s = .next s.settled) ∧
      (∀ r, s.reads.find? (fun r => r.tag == tag.toNat) = some r →
        let t := { s with reads := s.reads.filter (fun x => x.tag != tag.toNat) }
        (s.on F.PCI_LINK_UP = true →
          (status.val ≠ 0 → exec (.readCompletion tag status l) s = .next (readFailed t r (r.addr + r.got)).settled) ∧
          (l ≠ [] → r.got + l.length = r.len → exec (.readCompletion tag 0 l) s = .next (readData t r l true).settled) ∧
          (l ≠ [] → r.got + l.length < r.len → (r.addr + (r.got + l.length)) % 64 = 0 →
            let u := readData s r l false
            exec (.readCompletion tag 0 l) s = .next { u with
              reads := u.reads.map (fun x : HRead => if x.tag = tag.toNat then { x with got := r.got + l.length } else x) }.settled)) ∧
        (∀ tmo, ctoNs s = some tmo → r.at_ + tmo ≤ s.now → r.dead = false →
          let u := ((quarantine t tag.toNat tmo true).bump F.PCI_CTO_CNT_COUNT).set1 F.PCI_STAT_CTO
          exec (.completionTimeout tag) s = .next (readFailed (pciError u 14 false []) r (r.addr + r.got)).settled))))

/-! ### Axes and the clock -/

/-- Commands of the axes: an encoder edge is taken by every axis on its channel, a confirmed tick moves its axis, a Z edge goes to the axes of
the channel, PRESET loads AXS_SET, APPLY of a derived axis puts its new ratio and offset in force, a standing axis is STALLED, a sample is
taken by the remote axis whose source it names, and one that stays away makes it STALE. Commands of the clock: an offset submitted waits
for the next TIME cycle; there it is dropped in the cycle of an authorised step, joins the rates and is acted on by a locked clock out of
holdover, and steps a clock that is not locked; AUTH_STEP steps the clock by TIM_STEP for a core with the right, HOLD and RELEASE set and
clear the forced holdover, a rate out of holdover is written within its limits, and the pulses per second go in and out. Rules: R27, R28,
R29, R32, R33, R34, R38, R39, R41, R44, R45, R46, R48, R52, R53, R54, R58. -/
def Obligations.AxesAndClock : Prop :=
  (∀ (ch : Fin 8) (a b : Bool) (age width : Word) (s : State),
    (s.held = false → exec (.encoderEdge ch a b age width) s =
      .next ((List.range 8).foldl (fun s n => chanEdge s ch n a b (s.now - age.toNat) width.toNat) s).settled) ∧
    (∀ (n : Fin 8), s.held = false → ∀ p ps, (s.axis n).ticks = p :: ps → tickDue s n p ≤ s.now →
      exec (.tickCount n) s = .next (countTick s n p).settled) ∧
    (s.up = true →
      exec (.zEdge ch width) s = .next ((axesOn s ch).foldl (fun s n => axisZ s n width.toNat) s).settled ∧
      (∀ n : Fin 16, n.val < 8 → exec (.preset n) s = .next (loadSet s n).settled) ∧
      (∀ n : Fin 16, 8 ≤ n.val → n.val < 12 → s.on (F.AXS_CFG_APPLY_CONT n) = false →
        let t := s.applyRange (R.AXS_RATIO_M n) (R.AXS_OFFSET_HI n + 4)
        derivedValid t n = true → exec (.axsApply n) s = .next (afterMove s t).settled) ∧
      (∀ n : Fin 8, s.f (F.AXS_FILT_STALL_TMO n) ≠ 0 → s.on (F.AXS_CFG_ENABLE n) = true → s.on (F.AXS_STAT_STALLED n) = false →
        (s.axis n).stallFrom + s.f (F.AXS_FILT_STALL_TMO n) * 1000 ≤ s.now → exec (.stall n) s =
          .next (axisFault ((s.setAxis n { s.axis n with heldF := some (grainF s n), run := 0 }).set1 (F.AXS_STAT_STALLED n)) n).settled) ∧
      (∀ (n : Fin 3) (x : AxisSample),
        (sampleMatches s (12 + n) x = true → s.on (F.AXS_CFG_ENABLE (12 + n)) = true → exec (.remoteAxisSample n x) s =
          .next (takeSample s (12 + n) x.seq x.pos.toInt (if x.via = 1 then beaconTime s (x.port.val % 8) 0 else x.time.toInt)).settled) ∧
        (sampleMatches s (12 + n) x = false →
          exec (.remoteAxisSample n x) s = .next (s.bump (F.AXS_ERRCNT_QUAD_ERRS (12 + n))).settled)) ∧
      (∀ n : Fin 3, s.f (F.AXS_REMOTE_STALE_TMO (12 + n)) ≠ 0 → s.on (F.AXS_CFG_ENABLE (12 + n)) = true →
        s.on (F.AXS_STAT_STALE (12 + n)) = false →
        (s.axis (12 + n)).lastSample + s.f (F.AXS_REMOTE_STALE_TMO (12 + n)) * 10000 ≤ s.now →
        exec (.stale n) s = .next (axisFault (s.set1 (F.AXS_STAT_STALE (12 + n))) (12 + n)).settled))) ∧
  (∀ (r : Requester) (hi v width : Word) (s : State),
    (∀ w, s.tim.slew = some w → w.done = w.total → exec .slewEnd s =
      .next (({ s with tim := { s.tim with slew := none } }.clr F.TIM_STAT_SLEWING).clr F.TIM_STAT_NEG_SLEW).settled) ∧
    (s.up = true →
      (let lo := (s.pendingLo r R.TIM_ADJ_LO).getD (s.rd R.TIM_ADJ_LO)
        let x := signed 64 (lo.toNat + 2 ^ 32 * hi.toNat)
        let t := ((s.dropPendLo r R.TIM_ADJ_LO).wr R.TIM_ADJ_LO lo).wr R.TIM_ADJ_HI hi
        exec (.timAdjSubmit r hi) s = .next { t with tim := { t.tim with adj := s.tim.adj ++ [x] } }.settled) ∧
      (∀ x, s.pending = [] → s.tim.adj = [x] →
        let u := { s with tim := { s.tim with adj := [] } }
        let t := u.setPair R.TIM_LASTOFF_LO R.TIM_LASTOFF_HI (wrapN 64 x)
        (s.tim.authAt = some s.now → step s = .next (cycle (u.set1 F.TIM_STAT_ADJ_DROPPED)).settled) ∧
        (s.tim.authAt ≠ some s.now → t.on F.TIM_STAT_LOCKED = true → t.on F.TIM_STAT_HOLDOVER = false →
          let rates := ((t.rd R.TIM_RATE).toInt :: t.tim.rates).take 16
          step s = .next (cycle (actOffset ({ t with tim := { t.tim with refFrom := t.now, rates := rates } }.wr
            R.TIM_HOLD_RATE (BitVec.ofInt 32 (meanRate rates))) x)).settled) ∧
        (s.tim.authAt ≠ some s.now → t.on F.TIM_STAT_LOCKED = false → t.tim.forced = false → step s =
          .next (cycle (authStep ({ t with tim := { t.tim with refLost := false, refFrom := t.now } }.set1 F.TIM_STAT_LOCKED) (x * 65536))).settled)) ∧
      (∀ c, r = .core c → (s.core c).grant.clockStep = true → exec (.authStep r) s =
        .next (authStep s (signed 64 (s.pair R.TIM_STEP_LO R.TIM_STEP_HI) * 2 ^ 32)).settled) ∧
      exec .hold s = .next (updateHoldover { s with tim := { s.tim with forced := true } }).settled ∧
      exec .release s = .next (updateHoldover { s with tim := { s.tim with forced := false } }).settled ∧
      (s.on F.TIM_STAT_LOCKED = true → s.f F.TIM_CFG_REF_TMO ≠ 0 → s.tim.refLost = false →
        s.tim.refFrom + s.f F.TIM_CFG_REF_TMO * 100000000 ≤ s.now → exec .refLost s =
          .next (updateHoldover ({ s with tim := { s.tim with refLost := true } }.set1 F.TIM_STAT_REF_LOST)).settled) ∧
      (s.on F.TIM_STAT_HOLDOVER = false →
        (-2147484 ≤ v.toInt → v.toInt ≤ 2147484 → exec (.timRateWrite v) s = .next (s.wr R.TIM_RATE v).settled) ∧
        (2147484 < v.toInt → exec (.timRateWrite v) s = .next ((s.wr R.TIM_RATE 2147484).set1 F.TIM_STAT_RANGE).settled) ∧
        (v.toInt < -2147484 →
          exec (.timRateWrite v) s = .next ((s.wr R.TIM_RATE (BitVec.ofInt 32 (-2147484))).set1 F.TIM_STAT_RANGE).settled)) ∧
      (s.on F.TIM_PPS_CFG_IN_EN = true →
        (100 ≤ width.toNat → ∀ level, (level != s.on F.TIM_PPS_CFG_IN_POL) = true →
          let far := min s.tim.nsec (1000000000 - s.tim.nsec)
          let w := s.f F.TIM_PPS_CFG_IN_WINDOW
          (w ≠ 0 → w * 1000 < far → exec (.ppsInEdge ⟨level, width⟩) s = .next (s.set1 F.TIM_STAT_PPS_OUTLIER).settled) ∧
          ((w = 0 ∨ far ≤ w * 1000) →
            let t := (s.wr R.TIM_PPS_NS (BitVec.ofNat 32 s.tim.nsec)).wr R.TIM_PPS_SEC (BitVec.ofNat 32 s.tim.sec)
            exec (.ppsInEdge ⟨level, width⟩) s =
              .next ({ t with tim := { t.tim with ppsFrom := t.now, refFrom := t.now } }.raise prodPpsIn).settled)) ∧
        (s.tim.ppsFrom + 1500000000 ≤ s.now → exec .ppsLost s = .next (s.set1 F.TIM_STAT_PPS_LOST).settled)) ∧
      (s.tim.ppsSec < ppsIndex s → s.on F.TIM_PPS_CFG_OUT_EN = true → s.f F.TIM_PPS_CFG_OUT_WIDTH ≠ 0 → s.tim.ppsEnd = none →
        exec .ppsOutPulse s = .next (drivePps { s with tim := { s.tim with
          ppsSec := ppsIndex s, ppsEnd := some (s.now + s.f F.TIM_PPS_CFG_OUT_WIDTH * 1000000) } } true).settled) ∧
      (∀ e, s.tim.ppsEnd = some e → e ≤ s.now →
        exec .ppsOutEnd s = .next (drivePps { s with tim := { s.tim with ppsEnd := none } } false).settled)))

/-! ### Letters -/

/-- Mailboxes: SEND takes the letter and gives it to its server, ABORT asks the control core that holds it or ends a LOAD that waits, and a
control core's POST ends the letter, hands over the next one and gives the reply to the host. Rules: R98, R107, R108, R112. -/
def Obligations.MailboxCommands : Prop :=
  ∀ (m c : Fin 4) (s : State),
    (mbxUp s = true → s.on (F.MBX_STAT_BUSY m) = false → (s.mbox m).letter = none →
      let u := s.set1 (F.MBX_STAT_BUSY m)
      let u := { u with loader := { u.loader with sends := s.loader.sends + 1 } }
      let u := u.setMbox m { u.mbox m with letter := some ⟨s.bread (mbxReq m) 0x1000⟩, root := false, order := s.loader.sends }
      exec (.mbxSend m) s = .next (if servesLetters u = true then dispatch u m else u).settled) ∧
    (mbxUp s = true → s.on (F.MBX_STAT_BUSY m) = true → exec (.mbxSend m) s = .next (s.set1 (F.MBX_STAT_OVERRUN m)).settled) ∧
    (mbxUp s = true → s.on (F.MBX_STAT_BUSY m) = true → ∀ l, (s.mbox m).letter = some l → (s.mbox m).next = none →
      (s.on (F.CCX_MBX_STAT_LETTER m) = true → exec (.mbxAbort m) s = .next (s.set1 (F.CCX_MBX_STAT_ABORT_REQ m)).settled) ∧
      (s.on (F.CCX_MBX_STAT_LETTER m) = false → l.code = 2 → s.loader.loading = some m.val →
        exec (.mbxAbort m) s = .next (replySt { s with loader := { s.loader with loading := none } } m stAborted 0).settled)) ∧
    (s.up = true → (s.core c).run = .running → coreReaches s c (R.CCX_MBX_POST m) true = true →
      (s.core c).grant.mbx.testBit m = true → s.on (F.CCX_MBX_STAT_LETTER m) = true →
      let hdr := s.bread (ccxReply m) 32
      let n := leAt hdr 8 4
      let u := (s.clr (F.CCX_MBX_STAT_LETTER m)).clr (F.CCX_MBX_STAT_ABORT_REQ m)
      n ≤ 4064 → (u.mbox m).orphan = false → exec (.ccxMbxPost c m) s = .next (giveReply (nextLetter u m) m
        (sliceB hdr 0 8 ++ bytesLE 4 n ++ sliceB hdr 12 20 ++ s.bread (ccxReply m + 32) n)).settled)

/-- Letters of the loader: each is answered with its status once the root core serves it; LOAD fetches and checks the parcel, SWITCH makes its
cores eligible until each has switched or was forced after 10 ms, CANCEL drops what waits, HALT stops the running cores of the parcel and
START starts the others. Rules: R62, R68, R71, R90, R98, R99, R100, R102, R103, R104, R105, R110, R111, R114, R362, R366. -/
def Obligations.LoaderLetters : Prop :=
  ∀ (m : Fin 4) (c : CoreNo) (bytes : List Byte) (l : Letter) (s : State), s.up = true →
    (rootLetter s m 1 = some l → exec (.query m) s = .next (reply s m stOk 0 [] (allCores.flatMap (fun c =>
      let k := s.core c
      let other := match k.other with | .empty => 0 | .ready => 1 | .retained => 2
      let run := match k.run with | .halted => 0 | .running => 1 | .fault => 2 | .never => 3
      bytesLE 4 k.activeId.toNat ++ bytesLE 4 (if k.other = .empty then 0 else k.otherId.toNat) ++ bytesLE 1 k.bank ++ bytesLE 1 other ++
        bytesLE 1 run ++ bytesLE 5 0))).settled) ∧
    (rootLetter s m 2 = some l →
      (loadTurn s m = true → s.lifecycle ≠ 3 → l.arg 2 ≤ 0x4000000 → l.arg 0 % 64 = 0 → canRequest s = true →
        exec (.load m) s = .next { s with loader := { s.loader with loading := some m.val } }.settled) ∧
      (s.loader.loading = some m.val →
        (let r := loadParcel { s with loader := { s.loader with loading := none } } bytes (l.arg 2)
         exec (.parcelFetched bytes false) s = .next (replySt r.2 m r.1.1 r.1.2).settled) ∧
        exec (.parcelFetched bytes true) s =
          .next (replySt { s with loader := { s.loader with loading := none } } m stFetch 0).settled)) ∧
    (rootLetter s m 3 = some l → loaderTurn s m = true → s.lifecycle ≠ 3 → l.arg 1 &&& 0x701 = l.arg 1 →
      let id : Word := BitVec.ofNat 32 (l.arg 0)
      let hdr := ((s.loader.parcels.find? (fun p => p.id == id)).map (·.hdr)).getD []
      let k := leAt hdr 0x16 2
      parcelKnown s id = true → holders s id ≠ [] → (s.lifecycle = 0 ∨ (slotUsable s k = true ∧ sha384B (sliceB hdr 0x140 96) = slotHash s k)) →
      rollbackFails s hdr = false → conflictOf s ((holders s id).map (fun c => (c, (s.core c).otherGrant))) = none →
      exec (.switch m) s = .next
        (beginSwitch s m id ((l.arg 1).testBit 0) (l.arg 1 / 256 % 8) (signed 64 (l.arg 2 + 2 ^ 32 * l.arg 3)) (holders s id)).settled) ∧
    (∀ w, s.loader.sw = some w →
      (w.left.contains c.val = true → (∃ e ∈ w.eligible, e.1 = c.val) → atSwitchPoint (s.core c) = true →
        exec (.coreSwitch c) s = .next (switchCore s w c false).settled) ∧
      (w.left.contains c.val = true → (∃ e ∈ w.eligible, e.1 = c.val ∧ e.2 + 10000000 ≤ s.now) →
        exec (.switchForced c) s = .next (switchCore s w c true).settled) ∧
      (w.left = [] → w.mbox < 4 → exec .switchDone s = .next (reply (endSwitch s w.id) w.mbox stOk 0 (swResult w) []).settled)) ∧
    (let id : Word := BitVec.ofNat 32 (l.arg 0)
     parcelKnown s id = true →
      (rootLetter s m 4 = some l → (dropQueued s id).loader.sw = none →
        exec (.cancel m) s = .next (replySt (dropReady (dropQueued s id) id) m stOk 0).settled) ∧
      (rootLetter s m 5 = some l → exec (.haltLetter m) s = .next (replySt ((coresOf s id).foldl
        (fun t c => if (t.core c).run = .running then stopCore t c else t) s) m stOk 0).settled) ∧
      (rootLetter s m 6 = some l → s.lifecycle ≠ 3 →
        (coresOf s id).any (fun c => (s.core c).run != .running && clusterHeld s c) = false → exec (.startLetter m) s = .next (replySt ((coresOf s id).foldl
        (fun t c => if (t.core c).run = .running then t else startCore t c) s) m stOk 0).settled))

/-- Letters of trust: IDENTITY answers who the part is, CHALLENGE draws a nonce, and where the life-cycle, the field and the authorisation
allow it the fuse letters blow exactly their bits and answer OK. Rules: R357, R359, R360, R361, R363, R366, R380. -/
def Obligations.TrustLetters : Prop :=
  ∀ (m : Fin 4) (vpp : Bool) (stuck : Option (Fin 4096)) (l : Letter) (t s : State), s.up = true →
    (mbxUp s = true → rootLetter s m 0x10 = some l → exec (.identity m) s = .next (reply s m stOk 0 []
      ((bytesLE 8 (dsn s) ++ bytesLE 1 s.lifecycle ++ bytesLE 1 (s.f F.FUS_LC_PENDING) ++ [0, 0] ++ bytesLE 4 (features s) ++
        certChain s).take 4064)).settled) ∧
    (rootLetter s m 0x11 = some l → let r := drbg32 s
      exec (.challenge m) s = .next (reply (r.2.setMbox m { r.2.mbox m with nonce := some (r.1, r.2.now) }) m stOk 0 [] r.1).settled) ∧
    (rootLetter s m 0x12 = some l → s.lifecycle < 2 → l.arg 0 < 4 → l.len = 48 → (∀ i < 12, fuse s (5 + 12 * l.arg 0 + i) = 0) →
      blow s vpp (stuck.map (·.val)) (((List.range 384).filter (fun i => (leAt l.body (i / 8) 1).testBit (i % 8))).map
        (fun i => 32 * (5 + 12 * l.arg 0) + i)) = (none, t) →
      exec (.setOwnerKey m vpp stuck) s = .next (replySt t m stOk 0).settled) ∧
    (rootLetter s m 0x13 = some l → l.arg 0 &&& 0xFFB00 = l.arg 0 → s.lifecycle ≠ 3 → (s.lifecycle < 2 ∨ l.arg 0 &&& 0x200 = l.arg 0) →
      blow s vpp (stuck.map (·.val)) ((List.range 20).filter (fun i => (l.arg 0).testBit i)) = (none, t) →
      exec (.setPolicy m vpp stuck) s = .next (replySt t m stOk 0).settled) ∧
    (rootLetter s m 0x14 = some l → l.arg 0 ≤ 3 → l.arg 0 = s.lifecycle + 1 →
      (l.arg 0 = 1 → (∃ k < 4, slotUsable s k = true) → blow s vpp (stuck.map (·.val)) [0, 1] = (none, t) →
        exec (.advance m vpp stuck) s = .next (replySt t m stOk 0).settled) ∧
      (l.arg 0 ≠ 1 → ∀ u, authorise s m l none = (none, u) →
        blow u vpp (stuck.map (·.val)) [2 * (l.arg 0 - 1), 2 * (l.arg 0 - 1) + 1] = (none, t) →
        exec (.advance m vpp stuck) s = .next (replySt t m stOk 0).settled)) ∧
    (rootLetter s m 0x15 = some l → s.lifecycle ≠ 0 → s.lifecycle ≠ 3 → l.arg 0 < 4 → otherSlot s (l.arg 0) = true →
      ∀ u, authorise s m l (some (l.arg 0)) = (none, u) → blow u vpp (stuck.map (·.val)) [20 + l.arg 0] = (none, t) →
        exec (.revoke m vpp stuck) s = .next (replySt t m stOk 0).settled) ∧
    (rootLetter s m 0x16 = some l → s.lifecycle ≠ 0 → s.lifecycle ≠ 3 → l.arg 0 ≤ 64 → (∀ k, leastSecVer s = some k → l.arg 0 ≤ k) →
      rollbackCount s < l.arg 0 → blow s vpp (stuck.map (·.val)) ((List.range (l.arg 0)).map (fun i => 32 + i)) = (none, t) →
        exec (.commitVersion m vpp stuck) s = .next (replySt t m stOk 0).settled)

/-- Requests of SPDM in its own transport: a request that waits and may be asked here is taken, and answered with what the request asks. The
relay letter and the link's check: a relayed request waits for its own command, and a failed IDE check is logged and leaves the stream
insecure. Rules: R350, R365, R367, R368, R369, R370, R371, R372, R381. -/
def Obligations.SpdmCommands : Prop :=
  (∀ (t : Fin 5) (leaf : List Byte) (r : SpdmReq) (s : State), s.held = false → s.boot.asleep = false →
    let u := { s with spdm := { s.spdm with reqs := s.spdm.reqs.erase r } }
    let asked := fun p => s.spdm.reqs.find? (fun r => r.via == t.val && p r.msg) = some r
    (asked (isCode 0x84) → r.sess = none → leAt r.msg 0 1 = 0x10 →
      let b : List Byte := [0x10, 0x04, 0, 0, 0, 1, 0, 0x12]
      exec (.getVersion t) s = .next (answer (setConn { u with spdm := { u.spdm with
        sessions := u.spdm.sessions.filter (fun x => x.via != r.via) } } r.via { stage := 1, vca := r.msg.take 4 ++ b }) r b).settled) ∧
    (asked (isCode 0xE1) → r.sess = none → (conn u r.via).stage = 1 → leAt r.msg 0 1 = 0x12 → 20 ≤ r.msg.length →
      exec (.getCapabilities t) s = .next (doGetCapabilities u r).settled) ∧
    (asked (isCode 0xE3) → r.sess = none → (conn u r.via).stage = 2 → leAt r.msg 0 1 = 0x12 →
      exec (.negotiateAlgorithms t) s = .next (doNegotiate u r).settled) ∧
    (asked (isCode 0x81) → reqError u r 4 true true = none →
      let b : List Byte := [0x12, 0x01, 0, 1] ++ sha384B (certChain u)
      exec (.getDigests t) s = .next (answerOr (noteB u r (r.msg.take 4 ++ b)) r b).settled) ∧
    (asked (isCode 0x82) → reqError u r 8 true true = none → leAt r.msg 2 1 % 16 = 0 → leAt r.msg 4 2 < (certChain u).length →
      let off := leAt r.msg 4 2
      let c := certChain u
      let n := min (min (leAt r.msg 6 2) (c.length - off)) (spdmMax r.via - 64)
      let b : List Byte := [0x12, 0x02, 0, 0] ++ bytesLE 2 n ++ bytesLE 2 (c.length - off - n) ++ sliceB c off n
      exec (.getCertificate t) s = .next (answerOr (noteB u r (r.msg.take 8 ++ b)) r b).settled) ∧
    (asked (isCode 0xE0) → reqError u r (if (leAt r.msg 2 1).testBit 0 then 37 else 4) true true = none →
      exec (.getMeasurements t) s = .next (doGetMeasurements u r).settled) ∧
    (asked (isCode 0x83) → reqError u r 36 true false = none → noSigning u = false → leAt r.msg 2 1 % 16 = 0 →
      exec (.spdmChallenge t) s = .next (doSpdmChallenge u r).settled) ∧
    (asked (isCode 0xE4) → reqError u r 138 true false = none → leAt r.msg 3 1 = 0 → 138 + leAt r.msg 136 2 ≤ r.msg.length →
      u.spdm.sessions.length < 8 → exec (.keyExchange t) s = .next (doKeyExchange u r).settled) ∧
    (asked (isCode 0xE5) → ∀ x, r.sess.bind (sessOf u r.via) = some x → x.ready = false →
      exec (.finish t leaf) s = .next (doFinish leaf u r).settled) ∧
    (asked (isCode 0xE8) → reqError u r 4 false true = none →
      exec (.heartbeatSpdm t) s = .next (answer u r [0x12, 0x68, 0, 0]).settled) ∧
    (asked (isCode 0xE9) → reqError u r 4 false true = none → ∀ x, r.sess.bind (sessOf u r.via) = some x → leAt r.msg 2 1 = 1 →
      exec (.keyUpdate t) s = .next (answer (setSess u { x with req := nextSecret x.req, reqSeq := 0 }) r
        (([0x12, 0x69] : List Byte) ++ sliceB r.msg 2 2)).settled) ∧
    (asked (isCode 0xEC) → reqError u r 4 false true = none →
      exec (.endSession t) s = .next (dropSess (answer u r [0x12, 0x6C, 0, 0]) r.via (r.sess.getD 0)).settled) ∧
    (reqError u r 15 true true = none → vendorOk r.msg 4 = true →
      let ring := leAt r.msg 12 1
      (asked (isVendor 0x1F4B 2) → exec (.ringStatus t) s = .next (ringAnswer u r 2 ring 0 (u.ring ring).chainId).settled) ∧
      (∀ x, r.sess.bind (sessOf u r.via) = some x →
        (asked (isVendor 0x1F4B 1) → s.lifecycle = 0 → ringState u ring = rDisabled → (u.ring ring).key = none →
          leAt r.msg 13 1 = u.f (F.DLV_R_POLICY_MODE ring) → (leAt r.msg 13 1 = 1 ∨ leAt r.msg 13 1 = 2) →
          exec (.bindRing t) s = .next (doBind u r).settled) ∧
        (asked (isVendor 0x1F4B 3) → (u.ring ring).key.isSome = true → (u.ring ring).session = x.id + 2 ^ 32 * (x.via + 1) →
          ringState u ring = rDisabled → exec (.unbind t) s =
            .next (ringAnswer (showKey (u.setRing ring { u.ring ring with key := none, chainId := 0, session := 0 }) ring) r 3 ring 0 0).settled)) ∧
      (r.via = 4 → r.sess.isSome = true → s.on F.FUS_LC_IDE = true →
        let obj := fun n => s.spdm.reqs.find? (fun r => r.via == t.val && (isVendor 1 0 r.msg && leAt r.msg 12 1 == n)) = some r
        (obj 0 → exec (.ideKmQuery t) s = .next (answerOr u r (vendorRsp 1 (([0, 1, 0] : List Byte) ++ sliceB r.msg 14 1 ++ [0, 0, 0, 0] ++
          [0x2C4, 0x2C8, 0x2CC, 0x2D0].flatMap (fun o => bytesLE 4 (u.cfg o).toNat)))).settled) ∧
        (obj 2 → vendorOk r.msg 48 = true → leAt r.msg 18 1 = 0 → ideNamed r.msg = true → exec (.keyProg t) s =
          .next (ideAck { u with spdm := { u.spdm with
            ideKeys := minsert u.spdm.ideKeys (leAt r.msg 17 1) (sliceB r.msg 19 40) } } r 3 0).settled) ∧
        (obj 4 → vendorOk r.msg 8 = true → ideNamed r.msg = true → ideReady u (leAt r.msg 17 1) = true → exec (.kSetGo t) s =
          .next (let v := { u with spdm := { u.spdm with ideSet := some (leAt r.msg 17 1 % 2) } }
            ideAck (v.setCfg 0x2D0 (setField (v.cfg 0x2D0) 3 0 2)) r 6 0).settled) ∧
        (obj 5 → vendorOk r.msg 8 = true → exec (.kSetStop t) s = .next (ideAck (ideInsecure u) r 6 0).settled)))) ∧
  (∀ (m : Fin 4) (l : Letter) (s : State), s.up = true →
    (rootLetter s m 0x17 = some l → (∀ r ∈ s.spdm.reqs, r.via ≠ m.val) → sessOf s m (leAt l.body 0 4) = none → s.lockdown = false →
      4 ≤ l.body.length → l.body.length ≤ spdmMax m → knownCode l.body = true →
      exec (.spdmRelay m) s = .next { s with spdm := { s.spdm with reqs := s.spdm.reqs ++ [(⟨m.val, none, l.body⟩ : SpdmReq)] } }.settled) ∧
    (s.on F.PCI_LINK_UP = true → s.spdm.ideSet.isSome = true →
      exec .ideCheckFailed s = .next (ideInsecure (logUE s 28 false [])).settled))

/-! ### Schedule and events -/

/-- The schedule: an armed slot whose firing is due fires; the test of its next target finds it ahead and looks for it, fires it late,
discards it or disarms with RANGE; DISARM_ALL disarms; a FIRE command places a rising edge 24 ns after the next cycle; APPLY puts an
output's settings in force; a pulse whose end has come ends and one at its limit is cut with WIDTH_CAP; and the strobes of a pin in STROBE
mode that are due start, and end with their times. Events: the event at the front of the queue arrives, three TIME cycles after it was
raised, at every input that names its producer; an event taken by an input of the part, one in a cycle, enables or disables its group from
the next cycle on, places the rising edge of its output 24 ns later, or begins holdover; the writes of the EVR registers do as they say,
those of the groups for the next cycle. Rules: R52, R76, R119, R120, R122, R126, R127, R128, R129, R131, R134, R180, R181, R184, R187. -/
def Obligations.SlotsAndRouting : Prop :=
  (∀ (n : Fin 256) (r : RegNo) (g : Fin 16) (s : State),
    (s.up = true →
      let x := s.slot n
      (∀ d, x.armed = true → x.test = false → x.due = some d → d ≤ half s + 1 → x.acted ≠ some s.now →
        exec (.slotFire n) s = .next (fireSlot s n).settled) ∧
      (x.armed = true → x.test = true → x.acted ≠ some s.now →
        let y := { x with test := false }
        let d := slotDiff y (axisPos s y.axis)
        (d < 0 → exec (.slotNextTarget n) s = .next (s.setSlot n (y.look (lookCycle s))).settled) ∧
        (2 ^ 31 ≤ d → exec (.slotNextTarget n) s = .next (slotRange (s.setSlot n y) n 3).settled) ∧
        (0 ≤ d → d < 2 ^ 31 → x.dropLate = true → exec (.slotNextTarget n) s = .next (slotDiscard (s.setSlot n y) n).settled) ∧
        (0 ≤ d → d < 2 ^ 31 → x.dropLate = false →
          exec (.slotNextTarget n) s = .next (fireSlot (s.setSlot n { y with late := true, due := some (half s) }) n).settled)) ∧
      exec .disarmAll s = .next ((s.slots.map (·.1)).foldl (fun t n => (disarmSlot t n).2) s).settled ∧
      exec (.fire r) s =
        .next (s.setTrig r { s.trig r with due := (s.trig r).due ++ [⟨2 * (s.now + 25), .expo, none⟩] }).settled ∧
      exec (.triggerOutputApply r) s = .next (applyTrig s r).settled ∧
      (let y := s.gpio g
       let start := y.due.filter (·.starts s)
       s.f (F.TRG_GPIO_CFG_MODE g) = 2 → start ≠ [] →
        let t := s.setGpio g { due := y.due.filter (fun d => !d.starts s), running := y.running ++ start }
        exec (.strobe g) s = .next (if y.running = [] then driveStrobe t g true else t).settled)) ∧
    (s.held = false →
      exec (.pulseEnd r) s = .next (endPulses s r (fun p => p.over (half s + 1))).settled ∧
      (let capped := (s.trig r).pulses.filter (fun p => p.capped (half s + 1))
       capped ≠ [] → exec (.widthCap r) s = .next (endPulses ((capped.filterMap (·.slot)).foldl
        (fun t k => t.set1 (F.SCH_REC_FLAGS_WIDTH_CAP k)) (s.set1 F.SCH_STAT_WIDTH_CAP)) r (fun p => p.capped (half s + 1))).settled) ∧
      (let y := s.gpio g
       let left := y.running.filter (fun e => !e.over s)
       left.length ≠ y.running.length →
        let t := s.setGpio g { y with running := left }
        exec (.strobeEnd g) s = .next (if left = [] then driveStrobe t g false else t).settled))) ∧
  (∀ (r : RegNo) (i : Fin 512) (k : Fin 4) (v : Word) (s : State),
    (∀ e rest, s.evq = e :: rest → e.at_ + 3 ≤ s.now → exec .eventArrival s =
      .next ((reached s e).foldl (fun t i => addPending t i e.hop e.origin) { s with evq := rest }).settled) ∧
    (s.up = true →
      let taken (j : Nat) (rest : List (Nat × Nat)) : State := s.setInput j { s.input j with pend := rest, took := some s.now }
      (∀ e rest, (s.input (inGroupOn r)).pend = e :: rest → (s.input (inGroupOn r)).took ≠ some s.now →
        exec (.enableGroup r) s = .next (groupsOn (taken (inGroupOn r) rest) (1 <<< r.val)).settled) ∧
      (∀ e rest, (s.input (inGroupOff r)).pend = e :: rest → (s.input (inGroupOff r)).took ≠ some s.now →
        exec (.disableGroup r) s = .next (groupsOff (taken (inGroupOff r) rest) (1 <<< r.val)).settled) ∧
      (∀ e rest, (s.input (inPulse r)).pend = e :: rest → (s.input (inPulse r)).took ≠ some s.now →
        exec (.eventPulse r) s = .next ((taken (inPulse r) rest).setTrig r
          { s.trig r with due := (s.trig r).due ++ [⟨2 * (s.now + 24), .expo, none⟩] }).settled) ∧
      (∀ e rest, (s.input inHoldover).pend = e :: rest → (s.input inHoldover).took ≠ some s.now →
        exec .enterHoldover s = .next (doHold (taken inHoldover rest)).settled) ∧
      exec (.evrGrpOn v) s = .next { s with grpOn := s.grpOn ||| v }.settled ∧
      exec (.evrGrpOff v) s = .next { s with grpOff := s.grpOff ||| v }.settled ∧
      exec (.flush i) s = .next (s.setInput i { s.input i with pend := [] }).settled ∧
      ((v.getLsbD 31 = false ∨ declared s i (fieldOf v 9 0) (fieldOf v 20 16) = true) →
        exec (.evrSelWrite i k v) s = .next (s.wr (R.EVR_SEL i k) (v &&& 0x801F03FF)).settled) ∧
      (v.getLsbD 31 = true → declared s i (fieldOf v 9 0) (fieldOf v 20 16) = false →
        exec (.evrSelWrite i k v) s = .next ((s.lockedWrite (R.EVR_SEL i k)).set1 F.EVR_STAT_UNDECLARED).settled)))

/-! ### Ethernet, cameras and parallel ports -/

/-- The Ethernet ports: configuration, the link coming up and going down, the frames that are counted and dropped, those taken, and the part's
answers to ARP and ICMP. Rules: R138, R139, R140, R141, R142, R143, R154, R384. -/
def Obligations.EthernetCommands : Prop :=
  ∀ (m : Fin 16) (n : Fin 24) (v : Word) (bytes : List Byte) (overload : Bool) (s : State),
    (s.held = false → exec (.ethPortDown m) s = .next (portDown s m).settled) ∧
    exec .arpEntryExpiry s = .next { s with eth := { s.eth with
      arp := s.eth.arp.filter (fun e => decide (s.now < e.2.2.2 + 60000000000)) } }.settled ∧
    (s.up = true →
      exec (.ethCfgWrite m v) s = .next (doEthCfg s m v).settled ∧
      exec (.lnkLaneCfgWrite n v) s = .next (doLaneCfg s n v).settled ∧
      (s.on (F.ETH_CFG_ENABLE m) = true → s.on (F.ETH_STAT_LINK_UP m) = false → placementOk s m = true →
        let ty := s.f (F.ETH_CFG_TYPE m)
        let u := ((s.set1 (F.ETH_STAT_LINK_UP m)).set1 (F.ETH_STAT_BLOCK_LOCK m)).put (F.ETH_STAT_ALIGNED m) (decide (ty ≥ 2))
        let u := (u.put (F.ETH_STAT_FEC_LOCK m) (decide (ty ≥ 2) || (ty == 1 && s.on (F.ETH_CFG_FEC m)))).set1 (F.ETH_STAT_LINK_CHG m)
        let u := (portLanes u m).foldl (fun t l =>
          let t := ((t.set1 (F.LNK_LANE_STAT_SIGNAL l)).set1 (F.LNK_LANE_STAT_CDR_LOCK l)).set1 (F.LNK_LANE_STAT_TX_READY l)
          laneRun (t.free.2.wr (R.LNK_RXEQ l) (BitVec.ofNat 32 t.free.1)) l) u
        let u := u.raise (prodEthLink m)
        let ip := (u.rd (R.ETH_IP m)).toNat
        exec (.ethPortUp m) s = .next (if ip = 0 then u else sendArp u m ip).settled) ∧
      (s.on (F.ETH_STAT_LINK_UP m) = true →
        exec (.ethFrame m bytes false overload) s = .next (s.bump (F.ETH_DROP_FCS m)).settled ∧
        exec (.ethFrame m bytes true true) s = .next ((s.bump (F.ETH_DROP_OVERLOAD m)).set1 (F.ETH_STAT_OVERLOAD m)).settled ∧
        (60 ≤ bytes.length → bytes.length + 4 ≤ s.f (F.ETH_CFG_MAX_FRAME m) → macTaken s m (beAt bytes 0 6) = true →
          s.on (F.ETH_VLAN_TAGGED m) = false →
          let u := s.incrPair (R.ETH_RX_FRAMES_LO m) (R.ETH_RX_FRAMES_HI m) 1
          (beAt bytes 12 2 = 0x0806 → exec (.ethFrame m bytes true false) s = .next (takeArp u m (bytes.drop 14)).settled) ∧
          (beAt bytes 12 2 = 0x0800 →
            exec (.ethFrame m bytes true false) s = .next (takeIp u m (beAt bytes 6 6) (bytes.drop 14) bytes).settled))) ∧
      (∀ w, s.eth.waits.find? (fun w => decide (w.at_ + 100000000 ≤ s.now)) = some w → s.on (F.ETH_STAT_LINK_UP w.port) = true →
        (w.sent < 3 → let u := sendArp s w.port w.ip.toNat
          exec .arpRetry s = .next { u with eth := { u.eth with
            waits := u.eth.waits.map (fun v => if v == w then { w with sent := w.sent + 1, at_ := u.now } else v) } }.settled) ∧
        (3 ≤ w.sent → let u := { s with eth := { s.eth with waits := s.eth.waits.erase w } }
          exec .arpRetry s = .next (w.packets.foldl (fun t p => afterRefused t p.1) (u.set1 (F.ETH_STAT_ARP_FAIL w.port))).settled))) ∧
    (∀ p mac ip u, takeRx s (fun r => match r with | .arpRequest _ _ _ => true | _ => false) = some (.arpRequest p mac ip, u) →
      exec .arpRequest s = .next (sendFrame u p mac 0x0806 ([0, 1, 8, 0, 6, 4, 0, 2] ++ bytesBE 6 (portMac u p) ++
        bytesBE 4 (u.rd (R.ETH_IP p)).toNat ++ bytesBE 6 mac ++ bytesBE 4 ip.toNat)).settled) ∧
    (∀ p mac ip u w, takeRx s (fun r => match r with | .arpReply _ _ _ => true | _ => false) = some (.arpReply p mac ip, u) →
      u.eth.waits.find? (fun w => w.port == p && w.ip == ip) = some w → u.on (F.ETH_STAT_LINK_UP p) = true →
      let cache := (p, ip, mac, u.now) :: u.eth.arp.filter (fun e => !(e.1 == p && e.2.1 == ip))
      exec .arpReply s = .next (w.packets.foldl (fun t q => afterSent (sendFrame t p mac 0x0800 q.2) q.1)
        { u with eth := { u.eth with arp := cache.take 128, waits := u.eth.waits.erase w } }).settled) ∧
    (∀ p mac ip body u, takeRx s (fun r => match r with | .icmp _ _ _ _ => true | _ => false) = some (.icmp p mac ip body, u) →
      u.eth.icmp.find? (fun e => e.1 == p) = none →
      let t0 := u.now
      let n := 0
      let u := { u with eth := { u.eth with icmp := (p, n + 1, t0) :: u.eth.icmp.filter (fun e => e.1 != p) } }
      let b : List Byte := [0] ++ (body.drop 1).take 1 ++ [0, 0] ++ body.drop 4
      exec .icmpEchoRequest s = .next (sendIp u p ip.toNat 1 (b.take 2 ++ bytesBE 2 (cksum b) ++ b.drop 4) .none).2.settled)

/-- Camera packets: a leader opens its block with the mark of its frame, a payload packet joins its block, a trailer ends it, a gap is asked
for again after its delay, and what stays away closes the block. Feeds and the relay: an entry of a trigger queue times out or is flushed,
an action is sent, the exposure uncertainty of a stream is cleared, APPLY puts a stream's settings in force, and PTP messages, relayed
commands and heartbeats go as their registers say. Rules: R145, R146, R147, R148, R149, R150, R151, R152, R153, R155, R156, R157, R158,
R159, R160, R162, R163, R164, R165, R166, R167, R178, R179, R221, R391, R397, R398. -/
def Obligations.CameraPortCommands : Prop :=
  (∀ (n : Fin 64) (s : State),
    (∀ id pid l t, takePacket s n 1 = (some (id, pid, l), t) → openBlock t n id = none → opensFrames t = true → gvsActive t n = true →
      idAfter t n id = true → beAt l 2 2 = 1 → beAt l 12 4 = cfgF t.live (F.GVS_S_FMT_PFNC n) →
      beAt l 16 4 = cfgF t.live (F.GVS_S_SIZE_SIZE_X n) →
      let o := newBlock t n id
      let w := openMark o.2 (.net n) o.1.cfg o.1.arr (beAt l 4 8)
      let b := { o.1.received 0 with
        next := max 1 o.1.next, gaps := fillGap o.1.gaps 0, chunks := false, chunkOnly := false, sizeY := beAt l 20 4, padX := beAt l 32 2 }
      cfgMode o.1.cfg (.net n) = 0 → w.2.2.on (F.GVS_S_STAT_EXPO_UNCERTAIN n) = false → exec (.gvspLeader n) s =
        .next (closeIfComplete w.2.2 n
          { b with pm := some w.1, flags := b.flags ||| w.2.1, wdFrom := some w.2.2.tim.total }).settled) ∧
    (∀ id pid l t b, takePacket s n 3 = (some (id, pid, l), t) → openBlock t n id = some b → pid ≠ 0 → pid ≤ 1 + max b.sizeY (b.sy n) →
      (∀ p ∈ b.pkts, p.1 ≠ pid) →
      let b1 := noteGap t b pid
      let b2 := { b1 with pkts := b1.pkts ++ [(pid, l)] }
      let u := if b2.wanted.contains pid then t.bump (F.GVS_S_RSND_CNT_RECOVERED n) else t
      let r := markLines u n (b2.received pid) pid l.length
      exec (.gvspPayload n) s = .next (closeIfComplete r.2 n r.1).settled) ∧
    (∀ id pid l t b, takePacket s n 2 = (some (id, pid, l), t) → openBlock t n id = some b → pid ≠ 0 → pid ≤ 1 + max b.sizeY (b.sy n) → b.trailer = none →
      let b1 := noteGap t b pid
      let b2 := { b1 with
        trailer := some (pid, if beAt l 2 2 = 0x4001 then beAt l 8 4 else beAt l 4 4), waitFrom := some (b1.waitFrom.getD t.now) }
      (b2.complete n = true → exec (.gvspTrailer n) s = .next (closeBlock t n b2 .complete).settled) ∧
      (b2.complete n = false → cfgF b2.cfg (F.GVS_S_RESEND_WAIT n) = 0 →
        exec (.gvspTrailer n) s = .next (closeBlock t n b2 .missing).settled) ∧
      (b2.complete n = false → cfgF b2.cfg (F.GVS_S_RESEND_WAIT n) ≠ 0 → exec (.gvspTrailer n) s = .next (setBlock t n b2).settled)) ∧
    (let due := fun (b : Block) (g : Gap) => decide (g.found + cfgF b.cfg (F.GVS_S_RESEND_GAP_DELAY n) * 1000 ≤ s.now)
     ∀ b g, (s.strm n).blocks.find? (fun b => b.closed.isNone && b.gaps.any (due b)) = some b → b.gaps.find? (due b) = some g →
      exec (.gapDelay n) s = .next
        ((b.asksOf n g).foldl (fun t r => queueGap t n b.id r) (setBlock s n { b with gaps := b.gaps.erase g })).settled) ∧
    (s.up = true → s.eth.gapq ≠ [] →
      exec .gapSend s = .next (doGapSend s).settled ∧
      exec .gapDrop s = .next { s with eth := { s.eth with gapq := s.eth.gapq.drop 1 } }.settled) ∧
    (s.up = true → ∀ b,
      ((s.strm n).blocks.find? (fun b => b.closed.isNone && (match b.waitFrom with
        | some w => decide (w + cfgF b.cfg (F.GVS_S_RESEND_WAIT n) * 100000 ≤ s.now) | none => false)) = some b →
        exec (.resendWait n) s = .next (closeBlock s n b .missing).settled) ∧
      ((s.strm n).blocks.find? (fun b => b.closed.isNone && cfgF b.cfg (F.GVS_S_TMO_FRAME_TMO n) != 0 && (match b.wdFrom with
        | some w => decide (w + (cfgF b.cfg (F.GVS_S_TMO_FRAME_TMO n) : Nat) * 1000 ≤ s.tim.total) | none => false)) = some b →
        exec (.frameWatchdog n) s = .next (closeBlock s n b .timeout).settled))) ∧
  (∀ (port : Bool) (n : Fin 64) (t m : Fin 16) (v : Word) (s : State),
    let fd : Feed := if port then .par (n.val % 4) else .net n
    (s.up = true →
      (∀ e rest, (feedM s fd).queue = e :: rest → feedTmo s fd ≠ 0 → e.edge + feedTmo s fd * 1000 ≤ s.tim.total →
        exec (.triggerEntryTimeout port n) s = .next (missed (setFeedM s fd { feedM s fd with queue := rest }) fd).settled) ∧
      exec (.flushTrigq port n) s = .next (setFeedM s fd { feedM s fd with queue := [] }).settled ∧
      (s.on (F.GVS_ACT_CFG_VALID t) = true → exec (.actSend t) s = .next (doActSend s t).settled) ∧
      exec .actionTimeReached s = .next ((s.streams.map (·.1)).foldl sampleQueue s).settled ∧
      (s.on (F.GVS_S_STAT_EXPO_UNCERTAIN n) = true → exec (.clearUnc n) s =
        .next ((s.clr (F.GVS_S_STAT_EXPO_UNCERTAIN n)).sf (F.GVS_S_GEN_CURRENT n) (s.f (F.GVS_S_GEN_EXPECTED n))).settled) ∧
      exec (.streamApply n) s = .next (streamApply s n).settled ∧
      exec (.milApply n) s = .next (streamApply s n).settled ∧
      (∀ e, s.eth.mrq.find? (fun e => e.1 == m.val) = some e →
        exec (.ethMrqPop m) s = .next { s with eth := { s.eth with mrq := s.eth.mrq.erase e } }.settled) ∧
      (v.getLsbD 31 = true → v.getLsbD 30 = false → v.getLsbD 29 = false → 60 ≤ fieldOf v 8 0 → fieldOf v 8 0 ≤ 256 →
        s.on (F.ETH_STAT_LINK_UP m) = true →
        exec (.ethMtxSend m v) s = .next (s.emit (.frame m (s.bread (mtxData m) (fieldOf v 8 0)))).settled) ∧
      (v.getLsbD 31 = true → s.on F.GVS_RLY_STAT_BUSY = false → 8 ≤ fieldOf v 9 0 → fieldOf v 9 0 ≤ 576 →
        exec (.relayGo v) s = .next (doRelayGo s v).settled) ∧
      (∀ k c orig from_ wait, s.eth.relay = some (k, c, orig, some from_, wait) → from_ + wait ≤ s.now →
        (s.f F.GVS_RLY_CFG_RETRIES < s.f F.GVS_RLY_STAT_ATTEMPTS →
          exec .ackTmo s = .next (relayEnd s 2).settled) ∧
        (s.f F.GVS_RLY_STAT_ATTEMPTS ≤ s.f F.GVS_RLY_CFG_RETRIES →
          let u := s.sf F.GVS_RLY_STAT_ATTEMPTS (s.f F.GVS_RLY_STAT_ATTEMPTS + 1)
          exec .ackTmo s = .next (relaySend { u with eth := { u.eth with relay := some (k, c, orig, none, ackTmo u) } } k c).settled)) ∧
      (s.lon (F.GVS_S_HB_EN n) = true → s.lf (F.GVS_S_HB_PERIOD n) ≠ 0 →
        (s.strm n).hbFrom + s.lf (F.GVS_S_HB_PERIOD n) * 1000000 ≤ s.now →
        let q := nextReq s
        let u := q.2.setStrm n { q.2.strm n with hbFrom := q.2.now, hbOut := (q.2.strm n).hbOut ++ [(q.1, q.2.now)] }
        exec (.heartbeat n) s = .next (sendUdp u (u.lf (F.GVS_S_CFG_PORT n)) (u.lrd (R.GVS_S_CAM_IP n)).toNat 49152 3956
          (gvcp 1 0x0080 q.1 (bytesBE 4 0x0A00)) (.heartbeat n)).2.settled) ∧
      (∀ q w rest, (s.strm n).hbOut = (q, w) :: rest → w + 200000000 ≤ s.now → s.lon (F.GVS_S_HB_EN n) = true →
        let x := s.strm n
        let u := s.setStrm n { x with hbOut := rest, hbMiss := x.hbMiss + 1 }
        (x.hbMiss + 1 < 3 → exec (.heartbeatTimeout n) s = .next u.settled) ∧
        (3 ≤ x.hbMiss + 1 → s.on (F.GVS_S_STAT_CAM_LOST n) = false → exec (.heartbeatTimeout n) s =
          .next (streamFault ((u.set1 (F.GVS_S_STAT_CAM_LOST n)).set1 (F.GVS_S_FLAGS_CAM_LOST n)) n).settled))) ∧
    (∀ p fr st ep u, takeRx s (fun r => match r with | .ptp _ _ _ _ => true | _ => false) = some (.ptp p fr st ep, u) →
      (mrqOf u p).length < 16 →
      exec .ptpMessage s = .next { u with eth := { u.eth with mrq := u.eth.mrq ++ [(p, fr, st, ep)] } }.settled) ∧
    (∀ p ip a u k c orig from_ wait,
      takeRx s (fun r => match r with | .gvcp _ _ _ => true | _ => false) = some (.gvcp p ip a, u) →
      u.eth.relay = some (k, c, orig, from_, wait) → u.lrd (R.GVS_S_CAM_IP k) = ip → u.lf (F.GVS_S_CFG_PORT k) = p →
      beAt c 6 2 = beAt a 6 2 → 8 ≤ a.length → a.length ≤ 576 → beAt a 2 2 ≠ 0x0089 → exec .gvcpAck s =
        .next ((relayEnd (u.bwrite rlyAck (a.take 6 ++ bytesBE 2 orig ++ a.drop 8)) 1).sf F.GVS_RLY_STAT_ACK_LEN a.length).settled))

/-- Parallel ports: the active level of FVAL opens a frame where FVAL_IGN is clear, that of LVAL a line of it, valid samples join the line,
the inactive levels close the line and the frame, a frame is ended by its watchdog, and the pixel clock is judged; a GPIO input is shown
when it held for its filter's time. Rules: R170, R171, R172, R173, R174, R175, R176, R177, R178, R186, R189, R391, R397, R398. -/
def Obligations.ParallelPorts : Prop :=
  ∀ (p : Fin 4) (g : Fin 16) (level : Bool) (w : Word) (rise fall : BitVec 16) (s : State), s.up = true →
    let active (pol : RF) : Prop := ctlActive (parCfg s p) pol level = true
    (active (F.PAR_CFG_FVAL_POL p) →
      (s.lon (F.PAR_CFG_FVAL_IGN p) = false →
        exec (.parFrameOpen ⟨p, level⟩) s = .next (parOpen (s.setPar p { s.par p with fval := true }) p).settled) ∧
      (s.lon (F.PAR_CFG_FVAL_IGN p) = true →
        exec (.parFrameOpen ⟨p, level⟩) s = .next (s.setPar p { s.par p with fval := true }).settled)) ∧
    (active (F.PAR_CFG_LVAL_POL p) → capturing s = true → s.lon (F.PAR_CFG_FVAL_IGN p) = false →
      let x := { s.par p with lval := true }
      let u := s.setPar p x
      ∀ f, x.frame = some f → x.blocked = false → f.line = none → f.lines < f.sy p → cfgF f.cfg (F.PAR_CFG_TRIG_MODE p) ≠ 2 →
        exec (.parLineOpen ⟨p, level⟩) s = .next (u.setPar p { u.par p with frame := some { f with line := some { pm := f.pm } } }).settled) ∧
    ((cfgOn (parCfg s p) (F.PAR_CFG_DVAL_EN p) = false ∨ active (F.PAR_CFG_DVAL_POL p)) →
      capturing s = true → (s.par p).lval = true → (s.par p).badClk = false → ∀ f l, (s.par p).frame = some f → f.line = some l →
      let a := l.take (f.sx p) (parPixels f.cfg p rise) false
      let b := if cfgOn f.cfg (F.PAR_CFG_DDR p) then a.take (f.sx p) (parPixels f.cfg p fall) true else a
      exec (.parSample ⟨p, level⟩ rise fall) s = .next (s.setPar p { s.par p with frame := some { f with line := some b } }).settled) ∧
    (¬ active (F.PAR_CFG_LVAL_POL p) → capturing s = true →
      let u := parLineEnd s p
      let u := u.setPar p { u.par p with lval := false, blocked := (u.par p).blocked && !u.lon (F.PAR_CFG_FVAL_IGN p) }
      ((u.par p).frame = none → exec (.parLineClose ⟨p, level⟩) s = .next u.settled) ∧
      (∀ f, (u.par p).frame = some f → fvalIgn f p = false → exec (.parLineClose ⟨p, level⟩) s = .next u.settled)) ∧
    (¬ active (F.PAR_CFG_FVAL_POL p) → capturing s = true →
      (∀ f, (s.par p).frame = some f → fvalIgn f p = false →
        let u := parEnd s p false
        exec (.parFrameClose ⟨p, level⟩) s =
          .next (u.setPar p { u.par p with fval := false, blocked := (u.par p).blocked && u.lon (F.PAR_CFG_FVAL_IGN p) }).settled)) ∧
    (∀ f, (s.par p).frame = some f → cfgF f.cfg (F.PAR_TMO_FRAME_TMO p) ≠ 0 →
      f.wdFrom + (cfgF f.cfg (F.PAR_TMO_FRAME_TMO p) : Nat) * 1000 ≤ s.tim.total →
      exec (.parFrameWatchdog p) s = .next (parEnd s p true).settled) ∧
    (let x := s.par p
     (x.badClk = false →
       exec (.pclkCheck p none) s = .next ((((s.sf (F.PAR_STAT_PCLK_MHZ p) 0).set1 (F.PAR_FLAGS_PCLK_LOST p)).clr (F.PAR_STAT_PCLK_OK p)).setPar p
        { x with goodFrom := none }).settled) ∧
     ∀ mhz : Nat, let u := s.sf (F.PAR_STAT_PCLK_MHZ p) (min 255 mhz)
      (204 < mhz → exec (.pclkCheck p (some mhz)) s = .next (((u.set1 (F.PAR_FLAGS_PCLK_RANGE p)).clr (F.PAR_STAT_PCLK_OK p)).setPar p
        { x with badClk := true, goodFrom := some s.now }).settled) ∧
      (mhz ≤ 204 → (x.badClk = true → ∃ g, x.goodFrom = some g ∧ g + 100000 ≤ s.now) → exec (.pclkCheck p (some mhz)) s =
        .next ((u.set1 (F.PAR_STAT_PCLK_OK p)).setPar p { x with badClk := false, goodFrom := none }).settled)) ∧
    ((s.f (F.TRG_GPIO_CFG_MODE g) = 0 ∨ s.f (F.TRG_GPIO_CFG_MODE g) = 3) → s.f (F.TRG_GPIO_CFG_FILT g) ≤ w.toNat →
      exec (.gpioInput g level w) s = .next (s.put ⟨R.TRG_GPIO_IN, g, g⟩ level).settled)

/-! ### The Mill, the collator -/

/-- The Mill: a line joins its stream's input queue, or when the queue is full is dropped and flagged with a stand-in owed to the queue, in
REPLAY waits; the next stream in turn is worked on, due bins leave, a statistics record is written, and a calibration run begins and ends.
Rules: R19, R197, R198, R200, R206, R212, R219, R220. -/
def Obligations.MillCommands : Prop :=
  ∀ (n : Fin 64) (s : State),
    (∀ b rest, (s.mill n).ready = b :: rest → exec (.tdiBinEmit n) s =
      .next (binOut (s.setMill n { s.mill n with ready := rest }) b).settled) ∧
    (s.up = true →
      (∀ st fr r px pm rest, s.toMill = .line st fr r px pm :: rest →
        let u := { s with toMill := rest }
        let x := u.mill st
        (queueFull s st = false → exec .millLineArrive s =
          .next (u.setMill st { x with inq := x.inq ++ [(.line st fr r px pm, false)] }).settled) ∧
        (queueFull s st = true → s.f F.DEV_MODE_MODE ≠ 6 → exec .millLineArrive s = .next
          ((((u.setMill st { x with owed := x.owed ++ [.line st fr r (px.map (fun _ => none)) pm] }).bump (F.MIL_S_DROP_LINES st)).set1
            (F.MIL_S_FLAGS_OVERFLOW st)).set1 F.MIL_STAT_OVERFLOW).settled) ∧
        (queueFull s st = true → s.f F.DEV_MODE_MODE = 6 → exec .millLineArrive s = .next s.settled)) ∧
      (let u := (List.range 64).foldl (fun t n => drainMarks (t.mill n).inq.length t n) s
       (∀ k, (List.range 64).find? (fun k => segReady u ((u.millLast + 1 + k) % 64)) = some k →
        let st := (u.millLast + 1 + k) % 64
        let w := takeSegment u st
        exec .millSegment s = .next (drainMarks (w.mill st).inq.length w st).settled)) ∧
      (∀ r base lg rest, (s.mill n).recs = (r, base, lg) :: rest →
        let k := (s.rd (R.MIL_ST_WR n)).toNat
        exec (.statsRecord n) s = .next (((s.setMill n { s.mill n with recs := rest }).dwrite (base * 64 + 1280 * (k % 2 ^ lg))
          (r.take 28 ++ bytesLE 4 k ++ r.drop 32)).incr (F.MIL_ST_WR_COUNT n) 1).settled) ∧
      exec (.tnrReset n) s = .next (s.setMill n { s.mill n with ref := none, cmdReset := true }).settled ∧
      ((s.mill n).calRun = false → s.f (F.MIL_CAL_CFG_FRAMES n) ≠ 0 → s.rd (R.MIL_CAL_TBL n) ≠ 0 →
        (∀ p < 4, (parActive s p && s.lf (F.PAR_CFG_STREAM p) == n) = false) →
        let cells := if s.lon (F.MIL_CFG_KIND n) then s.lf (F.GVS_S_SIZE_SIZE_X n) * s.lf (F.GVS_S_SIZE_SIZE_Y n) else s.lf (F.GVS_S_SIZE_SIZE_X n)
        exec (.calStart n) s = .next (((s.dzero ((s.rd (R.MIL_CAL_TBL n)).toNat * 64) (24 * cells)).sf (F.MIL_CAL_LEFT_LEFT n)
          (s.f (F.MIL_CAL_CFG_FRAMES n))).setMill n
          { s.mill n with calRun := true, ver := { (s.mill n).ver with cals := (s.mill n).ver.cals + 1 } }).settled) ∧
      exec (.calAbort n) s = .next (s.setMill n { s.mill n with calRun := false }).settled)

/-- The collator: a Mill line is placed in its sheaves, a cut event cuts and raises the sequence's event, a sheaf whose lines are settled
closes, or by its timeout, bands of strips go and come, and releases, RESTART and APPLY do as they say. Rules: R230, R233, R236, R237,
R239, R240, R241, R243, R244, R246, R409. -/
def Obligations.CollatorCommands : Prop :=
  ∀ (q : Fin 8) (b : Fin 16) (s : State), s.up = true →
    (∀ o rest, s.toCol = o :: rest → exec .colLine s = .next (collateLine { s with toCol := rest } o).settled) ∧
    (∀ h o rest, (s.input (inCut q)).pend = (h, o) :: rest → (isRelay (inCut q) && h == 7) = false →
      let u := s.setInput (inCut q) { s.input (inCut q) with pend := rest, took := some s.now }
      let c := colCfg u
      (u.f F.DEV_MODE_MODE ≠ 6 →
        let k := sheafOf c q (axisPos u (cfgF c (F.COL_SQ_CFG_AXIS q)))
        exec (.colCut q) s =
          .next ((noteCut (cutWhere u q false (fun h => before_ (sqDir c q) h.no k)) q k).raiseEv (prodCut q) (h + 1) o).settled) ∧
      (u.f F.DEV_MODE_MODE = 6 → ∀ p, (u.seq q).lastPos = some p →
        let k := sheafOf c q p
        exec (.colCut q) s =
          .next ((noteCut (cutWhere u q false (fun h => before_ (sqDir c q) h.no k)) q k).raiseEv (prodCut q) (h + 1) o).settled)) ∧
    (let u := cutWhere s q true (fun _ => true)
     ((∃ h ∈ (u.seq q).sheaves, h.stage = .cut) → exec (.restart q) s = .next (u.setSeq q { u.seq q with restart := true }).settled) ∧
     ((∀ h ∈ (u.seq q).sheaves, h.stage ≠ .cut) →
        exec (.restart q) s = .next (u.setSeq q { u.seq q with floor := none, restart := false, lost := [], cutK := none }).settled)) ∧
    (∀ h, firstSheaf (s.seq q) (sqDir (colCfg s) q) (fun h => h.stage != .closed && decide (h.settled < sqLines h.cfg q) &&
        membersDone s q h h.settled && bandsThere q h h.settled) = some h →
      exec (.lineSettle q) s = .next (putSheaf (settleLine s q h).2 q (settleLine s q h).1).settled) ∧
    (∀ h, nextToClose s q = some h →
      (h.settled = sqLines h.cfg q → exec (.sheafClose q) s = .next (closeSheaf s q h false).settled) ∧
      (cfgF h.cfg (F.COL_SQ_CLOSE_TMO_TMO q) ≠ 0 → h.cutAt.getD s.now + cfgF h.cfg (F.COL_SQ_CLOSE_TMO_TMO q) * 1000 ≤ s.now →
        exec (.closeTmo q) s = .next (closeSheaf s q h true).settled)) ∧
    exec (.colSqRel q b) s = .next (releaseBuf s q b 4).settled ∧
    (∀ w link bytes rest, (s.seq q).bands = (w, link, bytes) :: rest → exec (.stripBandSend q) s = .next
      { s.setSeq q { s.seq q with bands := rest } with toLink := s.toLink ++ [({ link := link, bytes := bytes } : Bulk)] }.settled) ∧
    (∀ link p rest, s.strips = (link, p) :: rest →
      let u := { s with strips := rest }
      (∀ k r, bandSide (colCfg u) link p = some (k, r) → exec .stripBand s = .next (takeBand u k r p).settled) ∧
      (bandSide (colCfg u) link p = none → exec .stripBand s = .next (strayBand u p).settled)) ∧
    exec .colApply s = .next (colApply s).settled

/-! ### Heads, thresher, granary -/

/-- The heads: a head begins the next unit of its queue, an output offers its unit to its ring and drops it when WAIT has passed, a display
output skips or sends its frame, OVL_WAIT lets a unit go without its boxes, APPLY puts the HED settings in force. Rules: R249, R251, R256,
R257, R261, R262, R410. -/
def Obligations.HeadCommands : Prop :=
  ∀ (n : Fin 3) (o : Fin 32) (d : Fin 8) (s : State), s.up = true →
    exec .hedApply s = .next (hedApply s).settled ∧
    (∀ a, s.hedQ.find? (fun a => a.head == n.val) = some a → let u := { s with hedQ := s.hedQ.erase a }
      (∀ x q b held t, a = .sheaf x q b held t → exec (.headUnit n) s = .next (beginSheaf u x q b held t).settled) ∧
      (∀ x, a = .lines x → exec (.headUnit n) s = .next (beginLines u x).settled)) ∧
    (let t := fun h : HUnit => cfgF h.cfg (F.HED_O_OVL_OVL_WAIT h.out)
     exec (.ovlWait o) s = .next { s with hunits := s.hunits.map (fun h : HUnit =>
      if h.out == o.val && t h != 0 && decide (h.from_ + t h * 1000000 ≤ s.now) then { h with waited := true } else h) }.settled) ∧
    (∀ h, firstUnit s o = some h → h.offered = false →
      ((h.first = none ∨ h.last + 1000 ≤ s.now) → s.f F.DEV_MODE_MODE ≠ 7 → let ring := cfgF h.cfg (F.HED_O_CFG_RING o)
        (h.formed = true → exec (.headOffer o) s =
          .next (let u := putHunit s { h with offered := true, first := some (h.first.getD s.now), last := s.now }
            { u with offers := u.offers ++ [(⟨ring, h.u⟩ : Offer)] }).settled) ∧
        (24 ≤ o.val → h.formed = false → boxesReady s h = true → exec (.headOffer o) s =
          .next (let p := codingPayload s h
            let dec := 2 ^ cfgF h.cfg (F.HED_O_MODE_DEC o)
            let g : UnitIn := { h.u with payload := p.1, format := 0x10000 * dec + cfgF h.cfg (F.HED_O_CFG_FMT o)
                                         width := ceilDiv h.cols dec, lines := ceilDiv h.rows dec }
            let u := putHunit p.2 { firstOffer p.2 h with formed := true, u := g }
            { u with offers := u.offers ++ [(⟨ring, g⟩ : Offer)] }).settled)) ∧
      (∀ t, h.first = some t → t + cfgF h.cfg (F.HED_O_WAIT_WAIT o) * 1000 ≤ s.now →
        exec (.headWaitExpiry o) s = .next (dropUnit s h).settled)) ∧
    (∀ h, s.hunits.find? (fun h => h.out == 16 + d.val && !h.formed) = some h → s.f F.DEV_MODE_MODE ≠ 7 → boxesReady s h = true →
      (stillSending s (16 + d) = true → exec (.displayFrame d) s =
        .next (headDone ((s.bump (F.HED_O_DROP_SKIPPED (16 + d))).set1 (F.HED_O_FLAGS_SKIP (16 + d))) h.id false).settled) ∧
      (stillSending s (16 + d) = false →
        exec (.displayFrame d) s = .next (emitFrame (framePayload s h).2 h (framePayload s h).1).settled))

/-- Records and tiles of a thresher core: from every state in which the core takes one, with its record or tile area where it may be, rpost
completes with 0, 1 or 2 and never waits; tfeed ends the hold of the tile before and, with a tile at the head of its queue, completes as
the copy of that tile leaves it, and with none waits, or for a timeout of zero completes with STATUS.TMO set; one whose tile would leave
cluster memory is the access-window violation with no other effect; flpush completes with the tile in the flail's queue while that holds
fewer than 64, and otherwise waits. A waiting core goes on in the same ways. The thresher: a tile is dealt, dealt again or done, a crop is
cut, a record unit closes when its batch is full or its time has come; APPLY puts the THR settings in force. Rules: R72, R79, R80, R81,
R87, R264, R265, R269, R270, R272, R274, R298. -/
def Obligations.ThresherFeed : Prop :=
  (∀ (c : CoreNo) (rd rs1 rs2 : RegNo) (idx : BitVec 11) (s : State),
    let k := s.core c
    let a := (k.rs rs1).toNat
    let u := endHold s c
    let push (a : Nat) (h : Word) : State :=
      ({ s with thr := { s.thr with flq := s.thr.flq ++ [(c.val, a, h.toNat)] } }).coreNext c { k.retire with wait := .none }
    (Ready s c true →
      (∀ l, a % 64 = 0 → granted k.grant.rings (idx.toNat % 256) = true → nearBytes s k c a 64 = .ok l →
        let o := postRecord s c (idx.toNat % 256) l
        exec (.rpost c rd rs1 rs2 idx) s = .next (o.2.writes c rd (BitVec.ofNat 32 o.1)) ∧ o.1 ≤ 2) ∧
      (a % 64 = 0 → granted k.grant.rings (idx.toNat % 256) = false →
        exec (.rpost c rd rs1 rs2 idx) s = .next (takeExc s c 3 5 (idx.toNat % 256)).settle.driveAlert) ∧
      (∀ e, a % 64 = 0 → inCluster a 64 = true → feedFault s c a = some e →
        exec (.tfeed c rd rs1 rs2 idx) s = .next (takeExc s c 3 0 e).settle.driveAlert) ∧
      (∀ x, a % 64 = 0 → inCluster a 64 = true → feedFault s c a = none → headTile u c = some x →
        ∃ t, feedTile u c a rd = some t ∧ exec (.tfeed c rd rs1 rs2 idx) s = .next t.settle.driveAlert) ∧
      (a % 64 = 0 → inCluster a 64 = true → feedFault s c a = none → headTile u c = none → k.rs rs2 ≠ 0 →
        exec (.tfeed c rd rs1 rs2 idx) s = .next (u.coreNext c { u.core c with wait := .tfeed a (k.rs rs2).toNat rd, waited := 0 })) ∧
      (a % 64 = 0 → inCluster a 64 = true → feedFault s c a = none → headTile u c = none → k.rs rs2 = 0 →
        exec (.tfeed c rd rs1 rs2 idx) s = .next (u.coreNext c { ((u.core c).ws rd 0).retire with wait := .none, tmo := true })) ∧
      (inCluster a 64 = true → s.thr.flq.length < 64 → exec (.flpush c 0 rs1 rs2 idx) s = .next (push a (k.rs rs2))) ∧
      (inCluster a 64 = true → 64 ≤ s.thr.flq.length → exec (.flpush c 0 rs1 rs2 idx) s =
        .next (s.coreNext c { k with wait := .flpush a (k.rs rs2), waited := 0 }))) ∧
    (∀ b tmo x, Waits s c (.tfeed b tmo rd) → headTile s c = some x →
      ∃ t, feedTile s c b rd = some t ∧ exec (.tfeedCopy c) s = .next t.settle.driveAlert) ∧
    (∀ b tmo, Waits s c (.tfeed b tmo rd) → tileQ s (c - 4) = [] → tmo ≠ 0xFFFFFFFF → tmo ≤ k.waited →
      exec (.tfeedTimeout c) s = .next (s.coreNext c { (k.ws rd 0).retire with wait := .none, tmo := true })) ∧
    (∀ b h, Waits s c (.flpush b h) → s.thr.flq.length < 64 → exec (.flpushAccept c) s = .next (push b h))) ∧
  (∀ (h : Word) (r : Fin 256) (s : State), s.up = true →
    exec .thrApply s = .next (thrApply s).settled ∧
    (s.f F.DEV_MODE_MODE ≠ 7 → ∀ j tc, ((List.range 8).map (fun k => (s.thr.lastSeq + 1 + k) % 8)).findSome? (dealable s) = some (j, tc) →
      exec .tileDeal s = .next (dealTile s j tc).settled) ∧
    exec (.thrTileDone h) s = .next (doTileDone s h).settled ∧
    (∀ c a t rest, s.thr.flq = (c, a, t) :: rest →
      exec .flailTile s = .next (flailTile { s with thr := { s.thr with flq := rest } } c a t).settled) ∧
    (∀ x i g box, s.thr.recs.zipIdx.find? (fun e => e.1.crop.isSome) = some (x, i) → x.h = some g → x.crop = some box →
      let row := fun j : Nat => g.addr + 4 * (((box.2.1.toNat + j) * g.width + (box.1 - g.u0).toNat) * g.chans)
      let cut := { s with
        freeCtr := s.freeCtr + box.2.2.1 * box.2.2.2 * g.chans
        thr := { s.thr with recs := s.thr.recs.set i (cutCrop s x g box) } }
      let met := (List.range box.2.2.2).foldl (fun t j => t.meets (row j) (4 * box.2.2.1 * g.chans)) cut
      exec .cropCut s = .next (thrRelease met g.q g.buf).settled) ∧
    (let mine := s.thr.recs.filter (fun x => x.ring == r.val)
     ∀ f rest, mine = f :: rest →
      let same := mine.takeWhile (fun x => recSheaf x == recSheaf f)
      let batch := max 1 (s.f (F.DLV_R_POLICY_BATCH r))
      let unit := same.take batch
      (batch ≤ same.length ∨ same.length < mine.length ∨ f.at_ + 100000 ≤ s.now) → (∀ x ∈ unit, x.crop = none) →
      let u := recordUnit s unit
      let left := (u.2.thr.recs.foldl (fun (a : List DefRec × Nat) x =>
        if x.ring == r.val && a.2 < unit.length then (a.1, a.2 + 1) else (a.1 ++ [x], a.2)) ([], 0)).1
      exec (.recordUnitClose r) s =
        .next { u.2 with thr := { u.2.thr with recs := left, units := u.2.thr.units ++ [(⟨r.val, u.1⟩ : Offer)] } }.settled))

/-- Device memory and the granary: a partition's base or size is written, the scrub corrects or reports the unit it stands at and goes on, a
line of a tap is stored, and an extract is asked for, starts, offers its units, waits out its time, is aborted and reports. Rules: R278,
R280, R282, R285, R288, R289, R290, R291, R367. -/
def Obligations.GranaryCommands : Prop :=
  ∀ (k : Fin 6) (size : Bool) (v : Word) (outcome : Fin 3) (stack : Bool) (s : State), s.up = true →
    (let w := v.toNat % 2 ^ 17
     (size = false → partUse s k = 0 → extentsOk (extents s k w (s.f (F.MEM_PART_SIZE_SIZE k))) = true →
        exec (.memPartWrite k size v) s = .next (s.wr (R.MEM_PART_BASE k) (BitVec.ofNat 32 w)).settled) ∧
     (size = true → k.val ≠ 0 → k.val ≠ 4 → k.val ≠ 5 → extentsOk (extents s k (s.f (F.MEM_PART_BASE_BASE k)) w) = true →
        exec (.memPartWrite k size v) s = .next (s.wr (R.MEM_PART_SIZE k) (BitVec.ofNat 32 w)).settled)) ∧
    (s.on F.MEM_SCRUB_PERIOD = true →
      let at_ := s.gran.scrub
      let next := (at_ + 1) % (dmemBytes / 64)
      let moved := fun t : State => { t with gran := { t.gran with scrub := next } }.sf F.MEM_SCRUB_POS_POS (next / 1024)
      ((outcome = 2 ∨ s.poison.contains at_ = true) → exec (.scrub outcome stack) s = .next (moved (s.uncorrectable at_)).settled) ∧
      (outcome = 1 → s.poison.contains at_ = false → exec (.scrub outcome stack) s = .next (moved (corrected s stack)).settled) ∧
      (outcome = 0 → s.poison.contains at_ = false → exec (.scrub outcome stack) s = .next (moved s).settled)) ∧
    (∀ t rest, s.toTap = t :: rest → exec .granaryLine s = .next (storeLine { s with toTap := rest } t).settled) ∧
    (s.gran.reqs.length < 8 → exec .grnXGo s = .next { s with gran := { s.gran with reqs := s.gran.reqs ++ [(⟨s.on F.GRN_X_CFG_BY_TIME,
      s.on F.GRN_X_CFG_WAIT, s.f F.GRN_X_CFG_AXIS, s.f F.GRN_X_CFG_RING, s.f F.GRN_X_CFG_ID, s.pair R.GRN_X_MASK_LO R.GRN_X_MASK_HI,
      signed 64 (s.pair R.GRN_X_FROM_LO R.GRN_X_FROM_HI), signed 64 (s.pair R.GRN_X_TO_LO R.GRN_X_TO_HI), s.f F.GRN_X_EPOCH_EPOCH,
      s.f F.GRN_X_TMO_TMO⟩ : XReq)] } }.settled) ∧
    (∀ x, s.gran.run = some x →
      exec .grnXAbort s = .next { s with gran := { s.gran with run := some { x with stop := true } } }.settled) ∧
    (s.gran.run = none → ∀ r rest, s.gran.reqs = r :: rest →
      exec .extractStart s = .next (startExtract { s with gran := { s.gran with reqs := rest } } r).settled) ∧
    (∀ x, s.gran.run = some x →
      (∀ n i a y c, x.offered = false → x.cur = none → xNext s x = .read n i a → let t := readSeg s x n i a
        t.gran.run = some y → y.cur = some c → ringActive t y.r.ring = true → exec .extractUnit s = .next
          { t with gran := { t.gran with run := some { y with offered := true } }, offers := t.offers ++ [(⟨y.r.ring, c.u⟩ : Offer)] }.settled) ∧
      (∀ c, x.offered = false → x.cur = some c → ringActive s x.r.ring = true → exec .extractUnit s = .next
        { s with gran := { s.gran with run := some { x with offered := true } }, offers := s.offers ++ [(⟨x.r.ring, c.u⟩ : Offer)] }.settled) ∧
      (x.r.wait = true → x.r.tmo ≠ 0 → xNext s x = .wait → x.started + x.r.tmo * 1000000 ≤ s.now →
        exec .extractTmo s = .next { s with gran := { s.gran with run := some { x with flags := x.flags ||| 16 } } }.settled) ∧
      (xNext s x = .finish → x.cur = none → exec .extractReport s = .next (reportExtract
        { s with offers := s.offers.filter (fun o => o.u.src != .extract) } { x with cur := none }).settled))

/-! ### Rings and DMA -/

/-- Units and rings: an offered unit is franked or judged, a full postmark is franked when due, a policy is written, DISCARD, ACTIVATE and
DEACTIVATE act on the ring, the host's consumption is taken, a held ring reports its loss and ends its drain, chains sign their
cancellation records, and a ring channel starts and ends its units. Rules: R25, R296, R302, R304, R305, R306, R308, R311, R314, R375,
R377. -/
def Obligations.RingCommands : Prop :=
  ∀ (r : Fin 256) (n : Fin 64) (v : Word) (s : State), s.up = true →
    (∀ o rest, s.offers = o :: rest → exec .frank s = .next (frankOffer { s with offers := rest } o).settled) ∧
    (s.offers = [] →
      let u := { s with gran := { s.gran with reports := s.gran.reports.filter (fun o => ringActive s o.ring) } }
      ∀ o, nextOffer u (u.thr.units ++ u.gran.reports) [] = some o →
        let t := { u with thr := { u.thr with units := u.thr.units.erase o }, gran := { u.gran with reports := u.gran.reports.erase o } }
        exec .frank s = .next (offer t o.ring (restamp t o)).2.settled) ∧
    (∀ k, pmReason s r = some k → exec (.fullPostmarkDue r) s = .next (frankPm s r k).settled) ∧
    (s.pci.rst = none → ringState s r = rDisabled → s.on (F.DLV_R_POLICY_EN r) = false → v.getLsbD 31 = false → fieldOf v 30 29 ≠ 3 → fieldOf v 6 0 ≤ 64 →
      exec (.dlvRPolicyWrite r v) s = .next (s.wr (R.DLV_R_POLICY r) (v &&& 0xFFF8007F)).settled) ∧
    (s.pci.rst = none → s.on (F.DLV_R_POLICY_EN r) = false → ringState s r ≠ rDisabled → exec (.discard r) s = .next (discardRing s r).settled) ∧
    (hostUp s = true →
      (canActivate s r = true → exec (.activate r) s = .next (doActivate s r).settled) ∧
      ((ringState s r = rActive ∨ ringState s r = rDraining) →
        (inTransfer s r = false → exec (.deactivate r) s = .next (holdRing s r).settled) ∧
        (inTransfer s r = true → exec (.deactivate r) s = .next (s.setRing r { s.ring r with deact := true }).settled)) ∧
      exec (.dlvHCons r v) s = .next (doCons s r v).settled) ∧
    (ringState s r = rDraining → (s.ring r).held = [] → (s.ring r).placed = [] →
      ((s.ring r).loss.isSome = true → (s.ring r).signing = none →
        exec (.heldLossReport r) s = .next (pumpRing (frankReport s r) r).settled) ∧
      ((s.ring r).loss = none → (s.ring r).waiting = [] →
        exec (.drainEnd r) s = .next (pumpRing (setRingState s r rActive) r).settled)) ∧
    ((s.ring r).on = true → (s.ring r).signing = none → (s.ring r).since ≠ 0 →
      (4096 ≤ (s.ring r).since → exec (.cancellationDue r) s =
        .next { s.setRing r { s.ring r with signing := some (cancelBytes s r 0, false) } with signQ := s.signQ ++ [r.val] }.settled) ∧
      ((s.ring r).since < 4096 → (s.ring r).cancelAt + 10000000000 ≤ s.now → exec (.cancellationDue r) s =
        .next { s.setRing r { s.ring r with signing := some (cancelBytes s r 1, false) } with signQ := s.signQ ++ [r.val] }.settled)) ∧
    (∀ k rest b final, s.signQ = k :: rest → (s.ring k).signing = some (b, final) →
      let u := { s with signQ := rest }
      let u := (u.setRing k { u.ring k with signing := none }).incrPair R.SEC_CANCEL_LO R.SEC_CANCEL_HI 1
      let u := frankOwn u k 8 (b ++ identitySign u b)
      let x := u.ring k
      let u := u.setRing k { x with cancelNo := x.cancelNo + 1, firstEnv := x.envNo, cancelAt := u.now, since := 0 }
      exec .cancelSigned s = .next (if final = true then tryStart (settleRing u k) k
        else if (u.ring k).on = false ∧ u.on (F.DLV_R_POLICY_EN k) = false then endChain u k else tryStart u k).settled) ∧
    (s.pci.rst = none → canRequest s = true →
      (let between := chState s n = dRunning ∧ (s.dma n).ring = none ∧ (s.dma n).active = false ∧ (s.dma n).fetch = false ∧
        (s.dma n).stop = none ∧ (s.dma n).chain = false
       (∀ k, (chState s n = dIdle ∨ between) → nextRing s n = some k → exec (.ringUnitStart n) s = .next
        ((s.sf (F.DMA_C_STAT_STATE n) dRunning).setDma n { s.dma n with ring := some k, off := 0, lastRing := k, chain := false }).settled) ∧
       (between → nextRing s n = none → exec (.ringUnitStart n) s = .next (setCh s n dIdle).settled)) ∧
      (∀ k p ps, (s.dma n).ring = some k → (s.ring k).placed = p :: ps → chState s n = dRunning → ringTotal s k ≤ (s.dma n).off →
        (cqFull s (s.f (F.DLV_H_CFG_CQ k)) = true → exec (.ringUnitDone n) s = .next (noteFull s n (s.f (F.DLV_H_CFG_CQ k))).settled) ∧
        (cqFull s (s.f (F.DLV_H_CFG_CQ k)) = false → exec (.ringUnitDone n) s = .next (unitDone s n k p).settled)))

/-- Completion queues and the moderation of signals: HEAD moves within what was written, ENABLE starts an empty queue, DISABLE turns it off or
waits for its writer, and a held-back signal is sent when MOD_TIME has passed. DMA channels: START, by a register or an event, PAUSE,
RESUME, ABORT and DOORBELL act on their channel, and its descriptor reads, bursts and ends go on while the host side is up. Rules: R132,
R309, R310, R311, R312, R315, R319, R320, R322, R323. -/
def Obligations.QueuesAndDma : Prop :=
  (∀ (c : Fin 32) (n : Fin 256) (v : Word) (s : State), s.up = true →
    (hostUp s = true →
      (let old := s.rd (R.DLV_CQ_HEAD c)
       ((v - old).toNat ≤ (s.rd (R.DLV_CQ_TAIL c) - old).toNat → exec (.dlvCqHead c v) s = .next (s.wr (R.DLV_CQ_HEAD c) v).settled) ∧
       ((s.rd (R.DLV_CQ_TAIL c) - old).toNat < (v - old).toNat → exec (.dlvCqHead c v) s = .next (cqRange s c).settled)) ∧
      (s.pair (R.DLV_CQ_BASE_LO c) (R.DLV_CQ_BASE_HI c) ≠ 0 →
        let u := ((s.wr (R.DLV_CQ_TAIL c) 0).wr (R.DLV_CQ_HEAD c) 0).set1 (F.DLV_CQ_STAT_ENABLED c)
        exec (.cqEnable c) s = .next (u.setCq c { u.cq c with off := false }).settled) ∧
      (cqBusy s c = false → exec (.cqDisable c) s = .next (s.clr (F.DLV_CQ_STAT_ENABLED c)).settled) ∧
      (cqBusy s c = true → cqOn s c = true → exec (.cqDisable c) s = .next (s.setCq c { s.cq c with off := true }).settled)) ∧
    ((s.ring n).unsig ≠ 0 →
      let mt := s.f (F.DLV_CQ_MOD_MOD_TIME (s.f (F.DLV_H_CFG_CQ n)))
      mt ≠ 0 → (s.ring n).unsigAt + mt * 1000 ≤ s.now → exec (.modTime true n) s =
        .next ((s.setRing n { s.ring n with unsig := 0 }).signal (s.f (F.DLV_H_CFG_VECTOR n))).settled) ∧
    ((s.cq (n.val % 32)).unsig ≠ 0 →
      let k := n.val % 32
      let mt := s.f (F.DLV_CQ_MOD_MOD_TIME k)
      mt ≠ 0 → (s.cq k).unsigAt + mt * 1000 ≤ s.now → exec (.modTime false n) s =
        .next ((s.setCq k { s.cq k with unsig := 0 }).signal (s.f (F.DLV_CQ_CFG_VECTOR k))).settled)) ∧
  (∀ (n : Fin 64) (fromHost : Bool) (s : State), s.up = true → s.pci.rst = none →
    (isRingChan s n = false → chState s n = dIdle →
      let u := s.applyRange (R.DMA_C_SRC_LO n) (R.DMA_C_USER n + 4)
      let w := u.lrd (R.DMA_C_CTRL n)
      let lp := fun lo hi : Nat => (u.lrd lo).toNat + 2 ^ 32 * (u.lrd hi).toNat
      let len := (u.lrd (R.DMA_C_LEN n)).toNat
      let d : DmaSt := { u.dma n with
        src := lp (R.DMA_C_SRC_LO n) (R.DMA_C_SRC_HI n), dst := lp (R.DMA_C_DST_LO n) (R.DMA_C_DST_HI n), len := len, remain := len
        ctrl := w, user := u.lrd (R.DMA_C_USER n), chain := false, active := false, stop := none, parked := false, pausing := false
        fetch := false, tail := false, data := none, next := none, relay := none }
      w.getLsbD 31 = false →
        exec (.start n) s = .next (startTransfer ((u.sf (F.DMA_C_STAT_STATE n) dRunning).setDma n d) n).settled) ∧
    (chState s n = dIdle → isRingChan s n = false → ∀ h o rest, (s.input (inDma n)).pend = (h, o) :: rest →
      (isRelay (inDma n) && h == 7) = false →
      exec (.dmaStartEvent n) s = .next
        (startChannel (s.setInput (inDma n) { s.input (inDma n) with pend := rest, took := some s.now }) n (some (h, o))).settled) ∧
    (chState s n = dParked → exec (.pause n) s = .next (setCh (s.setDma n { s.dma n with parked := true }) n dPaused).settled) ∧
    (chState s n = dRunning → liveReads s n = [] →
      exec (.pause n) s = .next (setCh (s.setDma n { s.dma n with parked := false }) n dPaused).settled) ∧
    (isRingChan s n = false → chState s n = dPaused → (s.dma n).parked = false →
      exec (.resume n) s = .next (tryEnd (issueDesc (setCh s n dRunning) n) n).settled) ∧
    (chState s n ≠ dIdle → exec (.abort n) s =
      .next (tryEnd (killReads (s.setDma n { s.dma n with stop := some { status := 8 } }) n) n).settled) ∧
    (isRingChan s n = false → exec (.doorbell n) s = .next (tailRead (s.set1 (F.DMA_C_STAT_DB_PENDING n)) n).settled) ∧
    exec (.dmaTransferDone n) s = .next (tryEnd s n).settled ∧
    ((s.dma n).fetch = true → (chState s n = dRunning ∨ chState s n = dParked) →
      (∀ l, (s.dma n).data = some l → exec (.descriptorRead n) s = .next (takeDesc s n l).settled) ∧
      ((s.dma n).data = none → (s.dma n).descHost = true → exec (.descriptorRead n) s = .next (issueDesc s n).settled) ∧
      ((s.dma n).data = none → (s.dma n).descHost = false → devRange s n (s.dma n).desc 64 false = none →
        (s.poison.contains ((s.dma n).desc / 64) = false →
          exec (.descriptorRead n) s = .next (takeDesc s n (some (s.dread (s.dma n).desc 64))).settled) ∧
        (s.poison.contains ((s.dma n).desc / 64) = true →
          exec (.descriptorRead n) s = .next (takeDesc (s.meets (s.dma n).desc 64) n none).settled))) ∧
    (∀ k u, pickBurst s fromHost = some (k, u) →
      ((u.dma k).ring = none → exec (.dmaBurst fromHost) s = .next (burst u k).settled) ∧
      (∀ r, (u.dma k).ring = some r → exec (.dmaBurst fromHost) s = .next (ringBurst u k r).settled)))

/-! ### The Ebkel fabric -/

/-- Bringing up a link: configuration and RESTART, the phases from TX_READY to RANGE, identities, probes and their timeouts, and the loss of
the link. Rules: R385, R387, R388, R389, R390, R391, R393. -/
def Obligations.LinkBringUp : Prop :=
  ∀ (k : Fin 8) (v eq : Word) (ppm invalid : BitVec 16) (p : Dword) (sub : Fin 16) (slip : Bool) (s : State), s.up = true →
    let n := s.f (F.EBK_CFG_LANE k)
    let x := s.link k
    exec (.ebkCfgWrite k v) s = .next (doEbkCfg s k v).settled ∧
    (phase s k ≠ lkOff → exec (.ebkRestart k) s = .next (linkStart s k).settled) ∧
    (phase s k = lkSend → exec (.txReady k) s = .next ((toPhase s k lkHunt).set1 (F.LNK_LANE_STAT_TX_READY n)).settled) ∧
    (phase s k = lkHunt → exec (.blockLock k) s =
      .next (((toPhase s k lkAdapt).set1 (F.LNK_LANE_STAT_SIGNAL n)).set1 (F.LNK_LANE_STAT_CDR_LOCK n)).settled) ∧
    (phase s k = lkAdapt → x.phaseAt + 2000000 ≤ s.now →
      let u := (s.sf (F.EBK_FREQ_PPM k) ppm.toNat).wr (R.LNK_RXEQ n) eq
      (800 < ppm.toInt.natAbs → exec (.adaptEnd k ppm eq) s = .next ((toPhase u k lkHunt).set1 (F.EBK_FLAGS_FREQ_ERR k)).settled) ∧
      (ppm.toInt.natAbs ≤ 800 → let w := toPhase u k lkGreet
        exec (.adaptEnd k ppm eq) s = .next (w.setLink k { w.link k with identAt := w.now - 1000 }).settled)) ∧
    (phase s k = lkGreet → blockType p = 0x99 →
      let c := match x.ident with | some (w, c) => if w = p.toNat then c + 1 else 1 | none => 1
      let u := s.setLink k { x with ident := some (p.toNat, c) }
      (c < 3 → exec (.ident k p) s = .next u.settled) ∧
      (3 ≤ c → pf p 35 34 = u.f (F.LNK_LANE_CFG_RATE (u.f (F.EBK_CFG_LANE k))) → pf p 63 48 = u.f F.EBK_NODE_SYS_ID →
        pf p 47 39 ≠ u.f F.EBK_NODE_NODE →
        let w := ((u.sf (F.EBK_PARTNER_SYS_ID k) (pf p 63 48)).sf (F.EBK_PARTNER_NODE k) (pf p 47 39)).sf (F.EBK_PARTNER_LINK k) (pf p 38 36)
        let w := toPhase w k lkRange
        exec (.ident k p) s = .next (w.setLink k { w.link k with probeAt := w.now - 1000, absentAt := none }).settled)) ∧
    (phase s k = lkGreet → x.phaseAt + 10000000 ≤ s.now →
      exec (.greetTmo k) s = .next ((toPhase s k lkHunt).set1 (F.EBK_FLAGS_GREET_TMO k)).settled) ∧
    (phase s k = lkRange → x.phaseAt + 10000000 ≤ s.now →
      exec (.rangeFail k) s = .next ((toPhase s k lkHunt).set1 (F.EBK_FLAGS_RANGE_FAIL k)).settled) ∧
    ((phase s k = lkGreet ∨ phase s k = lkRange) → x.identAt + 1000 ≤ s.now →
      exec (.identSend k) s = .next (sendBlock (s.setLink k { x with identAt := s.now }) k 0x99
        (s.f F.EBK_NODE_SYS_ID * 2 ^ 48 + s.f F.EBK_NODE_NODE * 2 ^ 39 + k.val * 2 ^ 36 + s.f (F.LNK_LANE_CFG_RATE n) * 2 ^ 34)).settled) ∧
    (phase s k = lkRange → x.probeAt + 1000 ≤ s.now →
      let y := if 16 ≤ x.probes then { x with
        probes := 0, stamps := [], echoes := [], ready := x.ready.filter (fun r => r.type != 0x33 || r.rank != 2) } else x
      exec (.probeSend k) s = .next (addReady (s.setLink k { y with probeAt := s.now, probes := y.probes + 1 }) k
        { rank := 2, due := s.now, order := y.probes, type := 0x33 }).settled) ∧
    (phase s k = lkRange → blockType p = 0x33 →
      (pf p 63 63 = 1 → exec (.probe k p sub) s = .next (takeEcho s k (pf p 62 56) (pf p 55 24) (pf p 23 8) (stamp16 s sub)).settled) ∧
      (pf p 63 63 ≠ 1 → exec (.probe k p sub) s =
        .next (sendBlock s.free.2 k 0x33 (2 ^ 63 + pf p 62 24 * 2 ^ 24 + s.free.1 % 65536 * 256)).settled)) ∧
    (3 ≤ phase s k → phase s k ≤ 6 →
      let u := ((s.bump (F.EBK_HDR_CNT_LOSSES k)).bumpBy (F.EBK_HDR_CNT_INVALID k) invalid.toNat).set1 (F.EBK_FLAGS_LOST k)
      let u := if slip then u.set1 (F.EBK_FLAGS_SLIP k) else u
      let n := u.f (F.EBK_CFG_LANE k)
      exec (.lost k invalid slip) s =
        .next (((toPhase u k lkHunt).clr (F.LNK_LANE_STAT_SIGNAL n)).clr (F.LNK_LANE_STAT_CDR_LOCK n)).settled) ∧
    (∀ t, x.absentAt = some t → 1 ≤ phase s k → phase s k ≤ 4 → s.on (F.EBK_STATE_LINK_ABSENT k) = false → t + 100000000 ≤ s.now →
      exec (.linkAbsent k) s = .next ((s.set1 (F.EBK_STATE_LINK_ABSENT k)).raise (prodEbk k)).settled)

/-- A running link: acknowledgements and retries, frames, beacons, axis samples, remote events and transfers. In each block slot it sends the
VALUE block of a beacon just begun, then the ready block that no other goes before, then the next block of the frame in progress or the
next frame's first. The lanes: transmit equalisation, margins, adaptation, snapshots and the PRBS checker. Rules: R71, R132, R391, R392,
R393, R394, R395, R396, R397, R398, R399, R400, R402, R403, R405. -/
def Obligations.EbkelTraffic : Prop :=
  (∀ (k : Fin 8) (b : Fin 8) (t : Fin 16) (r : Fin 128) (q : Requester) (v : Word) (p value : Dword) (sub : Fin 16) (data : List Byte)
    (s : State), s.up = true →
    let x := s.link k
    (∀ a, x.value = some a → linkSlot s k = showBlock (s.setLink k { x with value := none }) k (none, a)) ∧
    (x.value = none →
      (x.ready ≠ [] → ∃ a ∈ x.ready, (∀ c ∈ x.ready, c.before a = false) ∧ linkSlot s k = sendReady s k a) ∧
      (x.ready = [] →
        (∀ a w, x.wire = a :: w → linkSlot s k = showBlock (s.setLink k { x with wire := w }) k a) ∧
        (x.wire = [] → ∀ seq f rest, x.txq = (seq, f) :: rest → ∃ a w, frameBlocks f seq = a :: w ∧
          linkSlot s k = showBlock (s.setLink k { x with wire := w, txq := rest }) k a) ∧
        (x.wire = [] → x.txq = [] → linkSlot s k = s))) ∧
    ((∀ c, q = .core c → (s.core c).run = .running ∧ coreReaches s c R.EBK_X_GO true = true) →
      v.getLsbD 31 = true → s.ebk.copies.length < 8 → s.f F.EBK_X_LEN_LEN ≠ 0 →
      copyAllowed s q (s.f F.EBK_X_SRC_SRC * 64) (s.f F.EBK_X_LEN_LEN) = true →
      exec (.ebkXGo q v) s = .next (showCopies { s with ebk := { s.ebk with copies := s.ebk.copies ++
        [⟨s.f F.EBK_X_SRC_SRC, s.f F.EBK_X_DST_DST, s.f F.EBK_X_LEN_LEN, fieldOf v 8 0⟩] } }).settled) ∧
    (s.toLink ≠ [] → (s.ebk.copies = [] ∨ s.ebk.stripLast = false) → s.ebk.sending = none →
      exec .transferSend s = .next (sendStrip s).settled) ∧
    ((s.toLink = [] ∨ s.ebk.stripLast = true) → s.ebk.copies ≠ [] → s.ebk.sending = none → exec .transferSend s = .next (sendCopy s).settled) ∧
    (phase s k = lkRun →
      (blockType p = 0x66 →
        let n := (pf p 61 50 + 4096 - x.base) % 4096
        0 < n → n ≤ x.unacked.length → pf p 63 63 = 0 →
        exec (.ack k p) s = .next (pumpLink (noteSent (s.setLink k { x with
          unacked := x.unacked.drop n, base := (x.base + n) % 4096, ackAt := s.now, resends := 0 }) (x.unacked.take n)) k).settled) ∧
      (x.unacked ≠ [] → x.ackAt + (if s.f (F.EBK_RETRY_RETRY_TMO k) = 0 then 20 else s.f (F.EBK_RETRY_RETRY_TMO k)) * 1000 ≤ s.now →
        exec (.retryTmo k) s = .next (rewind s k true).settled) ∧
      (let n := pf p 29 16
       blockType p = 0x78 → 16 ≤ n → n ≤ 8192 → data.length = ceilDiv n 8 * 8 → pf p 59 48 = x.expect →
        let e := (x.expect + 1) % 4096
        (frameRoom s (pf p 47 39) (pf p 15 10) n = true → exec (.frame k p data true) s =
          .next (acceptFrame (sendAck (s.setLink k { x with expect := e, nakAt := none }) k false false e) k p (data.take n)).settled) ∧
        (frameRoom s (pf p 47 39) (pf p 15 10) n = false → exec (.frame k p data true) s = .next (sendAck s k true true x.expect).settled)) ∧
      exec (.frame k p data false) s = .next (sendNak (s.bump (F.EBK_FRM_CNT_BAD k)) k).settled ∧
      (s.on (F.EBK_BCN_EN k b) = true → s.f (F.EBK_BCN_PERIOD k b) ≠ 0 →
        let sendAs := fun due n : Nat => addReady (s.setLink k { x with bcn := (b.val, s.now, n) :: x.bcn.filter (fun e => e.1 != b.val) }) k
          { rank := 0, due := due, order := b, type := 0x2D }
        (x.bcn.find? (fun e => e.1 == b.val) = none → exec (.beaconSend k b) s = .next (sendAs s.now 0).settled) ∧
        (∀ last n, x.bcn.find? (fun e => e.1 == b.val) = some (b.val, last, n) → last + s.f (F.EBK_BCN_PERIOD k b) * 1000 ≤ s.now →
          exec (.beaconSend k b) s = .next (sendAs (last + s.f (F.EBK_BCN_PERIOD k b) * 1000) n).settled)) ∧
      (blockType p = 0x2D →
        (pf p 63 63 = 1 →
          let arr : Int := floorDiv s.tim.clk 65536 + (sub.val : Nat) * 4096
          let ofs := (value.toNat : Int) * 65536 + (pf p 41 26 : Nat) + linkLat s k * 4096 - arr
          exec (.beacon k p value sub) s =
            .next ((s.setPair (R.EBK_TB_OFS_LO k) (R.EBK_TB_OFS_HI k) (wrapN 64 ofs)).set1 (F.EBK_FLAGS_TB_NEW k)).settled) ∧
        (pf p 63 63 = 0 → exec (.beacon k p value sub) s = .next (offerAll s ⟨1, ⟨k.val, by omega⟩,
          BitVec.toFin (BitVec.ofNat 9 (pf p 58 50)), BitVec.toFin (BitVec.ofNat 4 (pf p 62 59)), BitVec.ofNat 32 (pf p 19 8), value, 0⟩
          sub).settled)) ∧
      (blockType p = 0x55 →
        ((pf p 35 35 = 1 ∨ pf p 44 36 = s.f F.EBK_NODE_NODE) →
          (pf p 56 54 ≠ 7 → exec (.event k p) s = .next (s.raiseEv (0x300 + pf p 63 57) (pf p 56 54 + 1) (0x300 + pf p 63 57)).settled) ∧
          (pf p 56 54 = 7 → exec (.event k p) s = .next (s.bump F.EBK_DROP_EVENT).settled)) ∧
        (pf p 35 35 ≠ 1 → pf p 44 36 ≠ s.f F.EBK_NODE_NODE → s.on (F.EBK_ROUTE_VALID (pf p 44 36)) = true →
          ∀ j, routeOf s (pf p 44 36) = some j →
            (eventRoom s j = true → exec (.event k p) s = .next (sendBlock s j 0x55 p.toNat).settled) ∧
            (eventRoom s j = false → exec (.event k p) s = .next (s.bump F.EBK_DROP_EVENT).settled)))) ∧
    (let ks := if s.on (F.EBK_REV_NBR r) = true then (List.range 8).filter (fun k => phase s k == lkRun) else (routeOf s (s.f (F.EBK_REV_DEST r))).toList
     s.on (F.EBK_REV_VALID r) = true → ks ≠ [] → (∀ j ∈ ks, eventRoom s j = true) → ∀ h o rest, (s.input (inRemote r)).pend = (h, o) :: rest → (isRelay (inRemote r) && h == 7) = false →
      let u := s.setInput (inRemote r) { s.input (inRemote r) with pend := rest, took := some s.now }
      let w := r.val * 2 ^ 57 + h * 2 ^ 54 + u.f F.EBK_NODE_NODE * 2 ^ 45 + s.f (F.EBK_REV_DEST r) * 2 ^ 36 +
        (if s.on (F.EBK_REV_NBR r) = true then 2 ^ 35 else 0)
      exec (.remoteOut r) s = .next (ks.foldl (fun t k => sendBlock t k 0x55 w) u).settled) ∧
    (s.on (F.EBK_XS_CFG_EN t) = true → s.f (F.EBK_XS_CFG_PERIOD t) ≠ 0 → s.f F.EBK_AXS_UDP_PORT ≠ 0 → s.ebk.xs.find? (fun e => e.1 == t.val) = none →
      let u := { s with ebk := { s.ebk with xs := (t.val, s.now, 1) :: s.ebk.xs.filter (fun e => e.1 != t.val) } }
      let ax := u.f (F.EBK_XS_CFG_AXIS t)
      let body := bytesLE 4 0x5841394C ++ bytesLE 1 1 ++ bytesLE 1 (u.f (F.EBK_XS_CFG_KIND t)) ++ bytesLE 1 ax ++ bytesLE 1 u.epoch ++
        bytesLE 2 (u.f F.EBK_NODE_NODE) ++ bytesLE 1 (pmState u ax) ++ bytesLE 1 0 ++ bytesLE 4 0 ++ bytesLE 8 (axisWord u ax).toNat ++
        bytesLE 8 (wrapN 64 u.tim.total) ++ bytesLE 2 u.tim.sub ++ bytesLE 6 0
      exec (.axisSampleSend t) s = .next (sendUdp u (u.f (F.EBK_XS_CFG_PORT t)) (u.rd (R.EBK_XS_DST t)).toNat (s.f F.EBK_AXS_UDP_PORT)
        (s.f F.EBK_AXS_UDP_PORT) body .none).2.settled) ∧
    (∀ m l rest, s.eth.rx = .axis m l :: rest → l.length = 40 → leAt l 0 4 = 0x5841394C → leAt l 4 1 = 1 →
      exec .axisSample s = .next (offerAll { s with eth := { s.eth with rx := rest } } ⟨2, BitVec.toFin (BitVec.ofNat 4 m),
        BitVec.toFin (BitVec.ofNat 9 (leAt l 8 2)), BitVec.toFin (BitVec.ofNat 4 (leAt l 6 1)), BitVec.ofNat 32 (leAt l 12 4),
        BitVec.ofNat 64 (leAt l 16 8), BitVec.ofNat 64 (leAt l 24 8)⟩ 0).settled)) ∧
  (∀ (n : Fin 24) (k : Fin 8) (v eq errs : Word) (eye : BitVec 16) (bits : Dword) (s : State), s.up = true →
    exec (.lnkTxeqWrite n v) s = .next (doTxeq s n v).settled ∧
    exec (.snapshot n) s = .next (doSnapshot s n).settled ∧
    exec (.unfreeze n) s = .next (laneLeft s n).settled ∧
    (laneUp s n = true → (s.lane n).marginAt + 10000000 ≤ s.now →
      let u := (s.sf (F.LNK_MARGIN_CURRENT n) eye.toNat).setLane n { s.lane n with marginAt := s.now }
      let th := u.f (F.LNK_ADAPT_CFG_MRG_THRESH n)
      ((th = 0 ∨ u.f (F.LNK_MARGIN_SNAPSHOT n) * th ≤ eye.toNat * 100) → exec (.marginCheck n eye) s = .next u.settled) ∧
      (th ≠ 0 → eye.toNat * 100 < u.f (F.LNK_MARGIN_SNAPSHOT n) * th →
        let w := u.set1 (F.LNK_L_FLAGS_MARGIN_LOW n)
        exec (.marginCheck n eye) s = .next (if (w.rd R.LNK_FREEZE_ON_LOW).getLsbD n then
          (w.wr (R.LNK_RXEQ n) (s.lane n).snap).set1 (F.LNK_L_FLAGS_FROZEN n) else w).settled)) ∧
    (laneUp s n = true → s.f (F.LNK_ADAPT_CFG_STEP_INT n) ≠ 0 → s.on (F.LNK_L_FLAGS_FROZEN n) = false →
      (s.lane n).stepAt + s.f (F.LNK_ADAPT_CFG_STEP_INT n) * 1000 ≤ s.now →
      let dfe := fun (r : RF) (hi lo : Nat) (t : State) => t.sf r (wrapN 8 (eqStep (signed 8 (t.f r)) (signed 8 (fieldOf eq hi lo))))
      let u := s.sf (F.LNK_RXEQ_CTLE n) (eqStep (s.f (F.LNK_RXEQ_CTLE n)) (fieldOf eq 31 24)).toNat
      let u := dfe (F.LNK_RXEQ_DFE3 n) 7 0 (dfe (F.LNK_RXEQ_DFE2 n) 15 8 (dfe (F.LNK_RXEQ_DFE1 n) 23 16 u))
      exec (.adaptStep n eq) s = .next (u.setLane n { s.lane n with stepAt := u.now }).settled) ∧
    (phase s k = lkTest → prbsOf s k ≠ 0 → exec (.prbsCheckerLock k errs bits) s = .next
      ((s.bumpBy (F.EBK_PRBS_ERR_ERRORS k) errs.toNat).incrPair (R.EBK_PRBS_BITS_LO k) (R.EBK_PRBS_BITS_HI k) bits.toNat).settled))

/-! ### Faults, the two-wire target, register commands -/

/-- Faults and warm restarts: each is logged with its class and unit, a warm restart begins where one is allowed and ends by starting the
parcels' cores, the thermal trip holds the part and its end starts it, the software watchdog acts as its ACTION says, and CLEAR empties
the log. Rules: R7, R45, R139, R315, R372, R389, R412, R414, R426, R427, R428, R429, R431, R432. -/
def Obligations.RasCommands : Prop :=
  ∀ (c : CoreNo) (part : Fin 7) (r : Fin 256) (p : Fin 4) (quad : Fin 6) (stack : Bool) (tj : BitVec 16) (s : State),
    (s.held = false →
      (s.ras.warm = none → s.boot.asleep = false → s.lockdown = false →
        let u := beginWarm ({ s with ras := { s.ras with stopped := false } }.clr F.RAS_STAT_HALTED) 0 false
        (coreMay s c.val 25 = true → exec (.warm (.core c)) s = .next u.settled) ∧
        (s.lifecycle ≤ 1 → exec (.warm .host) s = .next u.settled)) ∧
      (let u := s.logFault 0x0C 2 quad.val 0 0
       let mine := fun l : Nat => l / 4 == quad.val
       let u := (List.range 16).foldl (fun t m => if (portLanes t m).any mine then portDown t m else t) u
       exec (.reflLoss quad) s = .next ((List.range 8).foldl (fun t k =>
        if phase t k != lkOff && mine (t.f (F.EBK_CFG_LANE k)) then toPhase t k lkHunt else t) u).settled) ∧
      (let u := s.sf F.PWR_TJ_TJ tj.toNat
       exec (.thermWarn tj) s = .next (if (u.f F.RAS_CFG_THERM_WARN : Int) * 16 ≤ tj16 tj then
        (u.logFault 0x0E 0 0xFFFF 0 0).set1 F.RAS_STAT_THERM_WARN else u).settled) ∧
      (s.boot.trip = false → 2000 ≤ tj16 tj → let u := s.logFault 0x0F 3 0xFFFF 0 0
        u.held = false → exec (.thermalTrip tj) s = .next
          (((resetCore { u with boot := { u.boot with trip := true } }).sf F.PWR_TJ_TJ tj.toNat).emit (.pin .thermtripN false)).settled) ∧
      (s.boot.asleep = false → s.on F.RAS_SWD_LOAD = true → swdCount s = 0 →
        let u := fun sev => (doSwdKick (s.logFault 0x10 sev 0xFFFF 0 0)).set1 F.RAS_STAT_SWD_EXP
        (s.f F.RAS_SWD_ACTION = 0 → exec .swdExpiry s = .next (u 2).settled) ∧
        (s.f F.RAS_SWD_ACTION = 1 → s.ras.warm = none → exec .swdExpiry s = .next (faultWarm (u 3) 0x10 false true).settled) ∧
        (1 < s.f F.RAS_SWD_ACTION → s.ras.warm = none → (u 3).lockdown = false → exec .swdExpiry s = .next (doFullReset (u 3)).settled)) ∧
      exec .rasSwdKick s = .next { s with ras := { s.ras with swdFrom := s.now } }.settled ∧
      exec .logClear s = .next { s with ras := { s.ras with log := [] } }.settled) ∧
    (s.boot.trip = true → tj16 tj < 1600 → exec (.thermalTripEnd tj) s = .next (startBoot
      (({ s with boot := { s.boot with trip := false } }.sf F.PWR_TJ_TJ tj.toNat).emit (.pin .thermtripN true))).settled) ∧
    (∀ code, s.ras.warm = some code →
      let w := allCores.foldl (fun t c => if (t.core c).grant.start && (t.core c).activeId != 0 then startCore t c else t) s
      let u := { w with ras := { w.ras with warm := none, again := false } }.clr F.RAS_STAT_WARM_BUSY
      let u := (u.set1 F.RAS_STAT_WARM_DONE).bump F.RAS_WARM_CNT_COUNT
      w.ras.again = false →
        (code = 0 → exec .warmDone s = .next u.settled) ∧
        (code ≠ 0 → w.ras.stuck = false → exec .warmDone s = .next (u.clr F.RAS_STAT_FATAL).settled)) ∧
    (s.up = true →
      exec (.uncorrectableControlState part) s = .next (fatalWarm s 0x06 0xFFFF (decide (part.val ≤ 1))).settled ∧
      exec .stallFault s = .next (fatalWarm s 0x0A 0xFFFF false).settled ∧
      (s.boot.pll = true → exec (.pllLockLoss p) s =
        .next (fatalWarm (if p.val = 0 then s.clr F.TIM_STAT_LOCKED else s) 0x0B p.val false).settled) ∧
      (s.boot.hbm = true → exec (.hbmFailure stack) s = .next (haltAcq (s.logFault 0x0D 3 (if stack then 1 else 0) 0 0)).settled) ∧
      (let u := s.logFault 0x07 2 r.val 0 0
       let x := u.ring r
       let gone := x.placed.filterMap (·.u) ++ x.waiting ++ x.held
       inTransfer u r = false →
        let w := disableRing { u with signQ := u.signQ.filter (· != r.val) } r
        let w := gone.foldl (fun t u => releaseSource t u.src false) w
        exec (.uncorrectableFrankingState r) s = .next (w.setRing r { w.ring r with
          wanted := w.on (F.DLV_R_POLICY_EN r) && w.f (F.DLV_R_POLICY_MODE r) != 0 }).settled))

/-- The two-wire target: its address begins a transaction and wakes a sleeping part that TWI may wake, the first byte sets the pointer,
further bytes at the log selector are taken at level 3, a byte read moves the pointer on, and STOP, errors and timeouts end it. Rules: R9,
R52, R438, R439, R440, R443, R444, R445, R446. -/
def Obligations.TwoWireTarget : Prop :=
  ∀ (read : Bool) (b : Byte) (s : State), s.held = false →
    (s.twi.stretch = none →
      (let u := twiEnd s
       twiAddr u < 128 → (u.boot.asleep && u.on F.PWR_WAKE_EN_TWI) = false →
        exec (.twiAddress (BitVec.ofNat 7 (twiAddr u)) read) s = .next (twiAck { u with twi := { u.twi with
          busy := true, read := read, ptrSet := false, sel := [], ptr0 := u.twi.ptr, logSel0 := u.twi.logSel } }).settled) ∧
      (s.twi.busy = true → s.twi.read = false → s.twi.hold = none →
        (s.twi.ptrSet = false → exec (.twiWriteByte b) s =
          .next (twiAck { s with twi := { s.twi with ptr := b.toNat, ptrSet := true } }).settled) ∧
        (s.twi.ptrSet = true → s.twi.ptr = 0x84 → twiLevel s = 3 → s.twi.sel.length = 3 → exec (.twiWriteByte b) s =
          .next (twiAck { s with twi := { s.twi with
            sel := s.twi.sel ++ [b], logSel := BitVec.ofNat 32 (ofLE (s.twi.sel ++ [b])) } }).settled) ∧
        (s.twi.ptrSet = true → s.twi.ptr ≠ 0x84 → exec (.twiWriteByte b) s = .next (s.bump F.TWI_ERR_WRITE_REJ).settled)) ∧
      (s.twi.busy = true → s.twi.read = true → s.twi.hold = none →
        let p := s.twi.ptr
        (p % 4 = 0 → p ≠ 0x08 →
          let r := viewAt s p
          let v : Byte := BitVec.ofNat 8 r.1.toNat
          let u := r.2.setLatch .twi (viewLatch p) r.1
          exec .twiReadByte s = .next ({ u with twi := { u.twi with
            ptr := (p + 1) % 256, hold := if v = 0xFF then none else some u.now } }.emit (.twiByte v)).settled) ∧
        (∀ w, p % 4 ≠ 0 → s.latched .twi (viewLatch (p / 4 * 4)) = some w →
          let v : Byte := BitVec.ofNat 8 (w.toNat / 256 ^ (p % 4))
          exec .twiReadByte s = .next ({ s with twi := { s.twi with
            ptr := (p + 1) % 256, hold := if v = 0xFF then none else some s.now } }.emit (.twiByte v)).settled)) ∧
      exec .twiStop s = .next (twiEnd s).settled ∧
      (s.twi.busy = false → exec .twiBusError s = .next ((s.bump F.TWI_ERR_BUS_ERR).set1 F.TWI_STAT_BUS_ERR).settled) ∧
      (s.twi.busy = true → exec .twiBusError s = .next (((twiIdle { s with twi := { s.twi with
        ptr := s.twi.ptr0, logSel := s.twi.logSel0 } }).bump F.TWI_ERR_BUS_ERR).set1 F.TWI_STAT_BUS_ERR).settled) ∧
      (∀ t, s.twi.hold = some t → t + s.f F.TWI_CFG_HOLD_TMO * 1000000 ≤ s.now →
        exec .holdTmo s = .next (((twiIdle s).bump F.TWI_ERR_STUCK).set1 F.TWI_STAT_STUCK).settled)) ∧
    (∀ t, s.twi.stretch = some t → s.on F.TWI_CFG_UNLIMITED = false → t + s.f F.TWI_CFG_STRETCH_TMO * 1000000 ≤ s.now →
      exec .stretchTmo s = .next (((twiIdle (freeScl s)).bump F.TWI_ERR_STRETCH).set1 F.TWI_STAT_STRETCH_TMO).settled) ∧
    (s.boot.asleep = false → exec .twiWakeRelease s = .next (freeScl s).settled)

/-- Register commands of a core whose grant reaches the register: a read clears what reading clears and takes the latches of its pair, a write
has the register's own effect; one that its grant does not reach takes exception 3 with reason 1. Rules: R6, R7, R9, R12. -/
def Obligations.RegisterCommands : Prop :=
  ∀ (c : CoreNo) (a : BitVec 34) (v : Word) (s : State), s.up = true → (s.core c).run = .running → a.toNat % 4 = 0 →
    (coreReaches s c a.toNat true = true → hostSideAway s a.toNat = false →
      exec (.registerWrite (.core c) a v) s = .next (regWrite s (.core c) false a.toNat v).settled ∧
      (halfAt a.toNat = .hi → writable a.toNat = true →
        exec (.hiWrite (.core c) a v) s = .next (regWrite s (.core c) false a.toNat v).settled)) ∧
    (coreReaches s c a.toNat true = false → exec (.registerWrite (.core c) a v) s = .next (takeExc s c 3 1 a.toNat).settled) ∧
    (coreReaches s c a.toNat false = true → hostSideAway s a.toNat = false → mailboxAt a.toNat = none →
      (latchesOf a.toNat ≠ [] → exec (.loRead (.core c) a) s = .next (regRead s (.core c) a.toNat).2.settled) ∧
      (∀ x y i, lookup a.toNat = some (x, y, i) → (∃ f ∈ i.fields, f.ty = .rc) →
        exec (.rcRead (.core c) a) s = .next (regRead s (.core c) a.toNat).2.settled))

/-! ### The machine as a whole -/

/-- A step with a command at the front of the queue is that command's effect on the state with the queue's rest; with no command waiting a
TIME cycle passes (the idle step is the model's choice, log entry 1). -/
def Obligations.StepTakesTheFrontCommand : Prop :=
  ∀ (c : Instr) (rest : List Instr) (s : State),
    (s.pending = c :: rest → step s = exec c { s with pending := rest }) ∧
    (s.pending = [] → step s = .next (tick s).settled)

/-- The machine after reset: no command waits, every memory lists nothing, no core has started, the clock stands at 0 s, 0 ns, epoch 0, rate
trim 0, unlocked (R43); every register holds its reset value, the memories are canonical, and the invariant that every step keeps holds. -/
def Obligations.ResetState : Prop :=
  State.reset.pending = [] ∧ State.reset.lmem = [] ∧ State.reset.cmem = [] ∧ State.reset.dmem = [] ∧
  State.reset.tim.clk = 0 ∧ State.reset.epoch = 0 ∧ State.reset.rd R.TIM_RATE = 0 ∧ State.reset.on F.TIM_STAT_LOCKED = false ∧
  (∀ c, State.reset.core c = {}) ∧ (∀ a, State.reset.rd a = resetWord a) ∧ State.reset.out = [] ∧
  Inv State.reset ∧ MemoriesCanonical State.reset

/-- Every command answers with a next state, in every state, and that state is settled: the mode of R406 stands in DEV_MODE and ALERT_N is
driven as R436 says. No command ends a run (the spec gives every row of its table an effect). -/
def Obligations.EveryCommandAnswers : Prop :=
  ∀ (i : Instr) (s : State), ∃ u : State, exec i s = .next u.settled

/-- Every step keeps the mode of R406 in DEV_MODE and ALERT_N as R436 drives it: from any state whatever a step leads to one where both hold. -/
def Obligations.StepKeepsInvariant : Prop :=
  ∀ (s t : State), Inv s → step s = .next t → Inv t

/-! ### Cores -/

/-- The words of the Urelm instructions (R69 to R71): a word decodes to an instruction on a core exactly when it is the word that encodes that
instruction there, with every field at every value, the reserved ones among them; so no two instructions share a word, and no bit of a
word is lost. -/
def Obligations.WordsOfInstructions : Prop :=
  ∀ (c : CoreNo) (w : Word) (i : Instr), decodeUrelm c w = some i ↔ encodeUrelm i = some (c, w)

/-- The registers with a fixed role (R61): s0 reads as zero and p0 as all ones, writes to them are discarded; every other scalar or predicate
register gives what was written last; jal and jalr write the return address to whichever register they name. -/
def Obligations.HardwiredRegisters : Prop :=
  (∀ (k : CoreSt) (w : Word) (d : Dword), k.rs 0 = 0 ∧ k.rp 0 = BitVec.allOnes 64 ∧ k.ws 0 w = k ∧ k.wp 0 d = k) ∧
  (∀ (k : CoreSt) (n m : Nat) (w : Word), n ≠ 0 → (k.ws n w).rs m = if m = n then w else k.rs m) ∧
  (∀ (k : CoreSt) (n m : Nat) (d : Dword), n ≠ 0 → (k.wp n d).rp m = if m = n then d else k.rp m) ∧
  (∀ (c : CoreNo) (rd rs1 : RegNo) (imm : BitVec 12) (j : BitVec 20) (s : State), Ready s c false → rd.val ≠ 0 →
    ((s.core c).pc.toNat % 4 = 0 → ∃ t, exec (.jal c rd false j) s = .next t ∧ (t.core c).rs rd = (s.core c).pc + 4) ∧
    (memAddr (s.core c) rs1 imm % 4 = 0 → ∃ t, exec (.jalr c rd rs1 imm) s = .next t ∧ (t.core c).rs rd = (s.core c).pc + 4))

/-- A core at its start (R62): s1 to s31, v0 to v31 and p1 to p7 are zero, STATUS is zero, pc is 0 in the program bank in use; every other
core is as it was. -/
def Obligations.CoreStart : Prop :=
  ∀ (c : CoreNo) (s : State),
    let k := (startCore s c).core c
    (∀ n, 1 ≤ n → n ≤ 31 → k.rs n = 0) ∧ (∀ n, n ≤ 31 → k.rv n = 0) ∧ (∀ n, 1 ≤ n → n ≤ 7 → k.rp n = 0) ∧
    k.exc = false ∧ k.tmo = false ∧ k.range = false ∧ k.pc = 0 ∧ k.bank = (s.core c).bank ∧ k.run = .running ∧
    OtherCoresSame s (startCore s c) c

/-- An exception outside a handler sets EPC, ECAUSE and EADDR, sets STATUS.EXC and continues at the vector (R87); one that arises while
STATUS.EXC is set halts the core and raises its core fault event, ECAUSE, EADDR and EPC keep the first exception's values, the second is
recorded in the error log (R90), and the halted core executes nothing more. -/
def Obligations.Exceptions : Prop :=
  ∀ (c : CoreNo) (cause detail a : Nat) (s : State),
    let k := s.core c
    let t := takeExc s c cause detail a
    (k.exc = false → OtherCoresSame s t c ∧ t.core c = { k with
      epc := k.pc, cause := cause, detail := detail, eaddr := BitVec.ofNat 32 a, exc := true, wait := .none,
      pc := BitVec.ofNat 32 (cause * 16) }) ∧
    (k.exc = true →
      OtherCoresSame s t c ∧ (t.core c).run = .fault ∧ (t.core c).epc = k.epc ∧ (t.core c).cause = k.cause ∧
      (t.core c).detail = k.detail ∧ (t.core c).eaddr = k.eaddr ∧ (∃ e ∈ t.evq, e.prod = prodCoreFault c) ∧
      (t.ras.log.head?).map (fun r => (r.code, r.unit)) = some (0x08, targetOf c) ∧
      (∀ v legal body, issue t c v legal body = t))

/-- What the spec says of an instruction that names a resource the core's manifest does not grant (R72): arm or disarm a slot, evraise a
producer, evwait or evpoll an input, rpost a ring: the core raises the access-window violation with EADDR the index and DETAIL the kind, 2
slot, 3 producer, 4 input, 5 ring, and the instruction has no effect. A misaligned record address comes first (R88). -/
def Obligations.ResourceViolations : Prop :=
  ∀ (c : CoreNo) (rd rs1 rs2 : RegNo) (idx : BitVec 11) (s : State), Ready s c false → (s.core c).exc = false →
    let k := s.core c
    let violation := fun (detail index : Nat) => Host.Outcome.next (σ := State) (φ := Fault) (ρ := Refusal) (s.coreNext c { k with
      epc := k.pc, cause := 3, detail := detail, eaddr := BitVec.ofNat 32 index, exc := true, wait := .none, pc := 48 })
    (granted k.grant.slots (idx.toNat % 256) = false →
      ((k.rs rs1).toNat % 32 = 0 → exec (.arm c rd rs1 rs2 idx) s = violation 2 (idx.toNat % 256)) ∧
      exec (.disarm c rd rs1 rs2 idx) s = violation 2 (idx.toNat % 256)) ∧
    (granted k.grant.producers (idx.toNat % 1024) = false → exec (.evraise c rd rs1 rs2 idx) s = violation 3 (idx.toNat % 1024)) ∧
    (granted k.grant.inputs (idx.toNat % 512) = false →
      exec (.evwait c rd rs1 rs2 idx) s = violation 4 (idx.toNat % 512) ∧
      exec (.evpoll c rd rs1 rs2 idx) s = violation 4 (idx.toNat % 512)) ∧
    (granted k.grant.rings (idx.toNat % 256) = false → isTc c = true → (k.rs rs1).toNat % 64 = 0 →
      exec (.rpost c rd rs1 rs2 idx) s = violation 5 (idx.toNat % 256))

/-- What an instruction of a core that works on registers alone leaves of the rest (R71): outside a handler, whether it completes or takes an
exception, every other core, every memory, every event, and every register of the part but DEV_MODE, which R406 decides, stay as they
were. -/
def Obligations.CoreInstructionFrame : Prop :=
  ∀ (c : CoreNo) (rd rs1 rs2 : RegNo) (imm : BitVec 12) (off : BitVec 14) (u : BitVec 20) (res : Bool) (view : Fin 4) (pred : Fin 8)
    (i : Instr) (s t : State), (s.core c).exc = false →
    i ∈ [Instr.add c rd rs1 rs2, .sub c rd rs1 rs2, .and c rd rs1 rs2, .or c rd rs1 rs2, .xor c rd rs1 rs2, .sll c rd rs1 rs2,
      .srl c rd rs1 rs2, .sra c rd rs1 rs2, .ror c rd rs1 rs2, .slt c rd rs1 rs2, .sltu c rd rs1 rs2, .min c rd rs1 rs2,
      .max c rd rs1 rs2, .minu c rd rs1 rs2, .maxu c rd rs1 rs2, .pdiff c rd rs1 rs2, .clz c rd rs1 rs2, .ctz c rd rs1 rs2,
      .popc c rd rs1 rs2, .mul c rd rs1 rs2, .mulh c rd rs1 rs2, .mulhu c rd rs1 rs2, .div c rd rs1 rs2, .divu c rd rs1 rs2,
      .rem c rd rs1 rs2, .remu c rd rs1 rs2, .addi c rd rs1 imm, .andi c rd rs1 imm, .ori c rd rs1 imm, .xori c rd rs1 imm,
      .slti c rd rs1 imm, .sltiu c rd rs1 imm, .slli c rd rs1 imm, .srli c rd rs1 imm, .srai c rd rs1 imm, .lui c rd res u,
      .auipc c rd res u, .jal c rd res u, .jalr c rd rs1 imm, .beq c rs1 rs2 off, .bne c rs1 rs2 off, .blt c rs1 rs2 off,
      .bge c rs1 rs2 off, .bltu c rs1 rs2 off, .bgeu c rs1 rs2 off, .eret c rd rs1 rs2, .vadd c rd rs1 rs2 view pred,
      .vsub c rd rs1 rs2 view pred, .vmul c rd rs1 rs2 view pred, .vsll c rd rs1 rs2 view pred, .vcmpeq c rd rs1 rs2 view pred,
      .vcmplt c rd rs1 rs2 view pred, .vsel c rd rs1 rs2 view pred, .vredadd c rd rs1 rs2 view pred, .pand c rd rs1 rs2 view pred,
      .pcnt c rd rs1 rs2 view pred] →
    exec i s = .next t →
    SameRest s t ∧ OtherCoresSame s t c ∧ t.lmem = s.lmem ∧ t.cmem = s.cmem ∧ t.dmem = s.dmem ∧ t.evq = s.evq ∧
    (∀ a, a ≠ R.DEV_MODE → t.rd a = s.rd a)

/-- Where a core's stores can reach (R66, R98): a store of any width, an atomic or a vector store by core c, outside register space, changes a
byte of device memory only inside a window of its grant that is not read-only, changes no register but DEV_MODE outside a handler while no
unit of device memory is poisoned (an atomic that meets one counts it), and keeps the memories' canonical form. -/
def Obligations.StoresStayInWindows : Prop :=
  ∀ (c : CoreNo) (rt base rs2 : RegNo) (off : BitVec 12) (view : Fin 4) (pred : Fin 8) (i : Instr) (s t : State),
    i ∈ [Instr.sb c rt base off, .sh c rt base off, .sw c rt base off, .amoadd c rt base rs2, .amoswap c rt base rs2,
      .amoand c rt base rs2, .amoor c rt base rs2, .amomin c rt base rs2, .amomax c rt base rs2, .amocas c rt base rs2,
      .vst c rt base rs2 view pred] →
    (memAddr (s.core c) base off < 0x20000000 ∨ 0x30000000 ≤ memAddr (s.core c) base off) → exec i s = .next t →
    (∀ a, t.dread a 1 ≠ s.dread a 1 → MayWrite s c a) ∧
    ((s.core c).exc = false → s.poison = [] → ∀ a, a ≠ R.DEV_MODE → t.rd a = s.rd a) ∧
    (MemoriesCanonical s → MemoriesCanonical t)

/-- What a load gives after a store (R82, R71): a word that sw stores and that lies in the core's local, cluster or device memory and has no
error is what the next lw from the same base and offset reads. -/
def Obligations.StoreThenLoad : Prop :=
  ∀ (c : CoreNo) (rt base rd : RegNo) (off : BitVec 12) (p : Place) (s : State), Ready s c false → rd.val ≠ 0 →
    scalarPlace (s.core c) c (memAddr (s.core c) base off) 4 true true = .ok p → (∀ a, p ≠ .reg a) → s.poison = [] →
    ∃ t u, exec (.sw c rt base off) s = .next t ∧
      (Ready t c false → exec (.lw c rd base off) t = .next u ∧ (u.core c).rs rd = (s.core c).rs rt)

/-! ### Events, registers, the clock and the fuses -/

/-- An arrival counted at a consumer input, at the end of its TIME cycle (R129): below 255 the pending count rises by one; at 255 it stays,
LOST counts it, OVERRUN is set for the input and in EVR_STAT, and producer 0x225 is raised only when the input's OVERRUN was 0. The count
never passes 255. -/
def Obligations.EventPendingBound : Prop :=
  ∀ (i hop origin : Nat) (s : State), i < 512 →
    let x := (s.input i).pend
    let t := countPending s i (hop, origin)
    (x.length < 255 → (t.input i).pend = x ++ [(hop, origin)] ∧ t.evq = s.evq ∧ ∀ a, t.rd a = s.rd a) ∧
    (255 ≤ x.length → (t.input i).pend = x ∧ t.on (F.EVR_IN_STAT_OVERRUN i) = true ∧ t.on F.EVR_STAT_OVERRUN = true ∧
      (s.on (F.EVR_IN_STAT_OVERRUN i) = true → t.evq = s.evq) ∧
      (s.on (F.EVR_IN_STAT_OVERRUN i) = false → t.evq.map (·.prod) = s.evq.map (·.prod) ++ [0x225])) ∧
    (x.length ≤ 255 → (t.input i).pend.length ≤ 255)

/-- A read of TIM_NS latches TIM_SEC_LO, TIM_SEC_HI and TIM_SUBNS for the same requester (R59): later reads of the three by that requester
give what stood at the read of TIM_NS, whatever the clock has become, and another requester's latches are as they were. -/
def Obligations.TimeLatch : Prop :=
  ∀ (r : Requester) (s : State) (m : TimSt),
    let u := (regRead s r R.TIM_NS).2
    let v : State := { u with tim := m }
    (regRead v r R.TIM_SEC_LO).1 = (regLive s R.TIM_SEC_LO).1 ∧
    (regRead v r R.TIM_SEC_HI).1 = (regLive s R.TIM_SEC_HI).1 ∧
    (regRead v r R.TIM_SUBNS).1 = (regLive s R.TIM_SUBNS).1 ∧
    (∀ q a, q ≠ r → a < 2 ^ 40 → u.latched q a = s.latched q a)

/-- The trim's limits (R44): a write of TIM_RATE within plus or minus 2,147,484 is stored, one outside is stored as the nearer limit and sets
TIM_STAT.RANGE; nothing else of the registers changes but DEV_MODE. While TIM_STAT.HOLDOVER is set the write changes nothing (R51). -/
def Obligations.TimRateLimits : Prop :=
  ∀ (v : Word) (s : State), s.up = true →
    ∃ t, exec (.timRateWrite v) s = .next t ∧
      (s.on F.TIM_STAT_HOLDOVER = true → t.rd R.TIM_RATE = s.rd R.TIM_RATE) ∧
      (s.on F.TIM_STAT_HOLDOVER = false →
        (-2147484 ≤ v.toInt → v.toInt ≤ 2147484 → t.rd R.TIM_RATE = v ∧ t.on F.TIM_STAT_RANGE = s.on F.TIM_STAT_RANGE) ∧
        (v.toInt < -2147484 → (t.rd R.TIM_RATE).toInt = -2147484 ∧ t.on F.TIM_STAT_RANGE = true) ∧
        (2147484 < v.toInt → (t.rd R.TIM_RATE).toInt = 2147484 ∧ t.on F.TIM_STAT_RANGE = true))

/-- A TIME cycle in which no offset was submitted never takes the clock back (R47): with the trim within its limits and the slew as the clock
has run it so far, the clock rises by at least 1 - 0.001 ns (rounded down to 2^-32 ns) in a cycle in which it runs, stands in one in which
it does not, and its epoch stays. -/
def Obligations.ClockNeverGoesBack : Prop :=
  ∀ (s : State), s.pending = [] → s.tim.adj = [] → -2147484 ≤ rateNow s →
    (∀ w, s.tim.slew = some w → w.done = slewDone w w.cycles ∧ (if w.neg then w.total ≤ 0 else 0 ≤ w.total)) →
    ∃ t, step s = .next t ∧ t.epoch = s.epoch ∧ (clockRuns s = false → t.tim.clk = s.tim.clk) ∧
      (clockRuns s = true → s.tim.clk + 2 ^ 32 - 4294968 ≤ t.tim.clk)

/-- While the host side is in reset (R25), a core's read of a DLV, DMA or PCI register that its grant reaches gives zero and its write has no
effect; neither raises an exception: the core goes on behind the lw or sw, and nothing else of the part changes. -/
def Obligations.HostSideAbsent : Prop :=
  ∀ (c : CoreNo) (rt base : RegNo) (off : BitVec 12) (s : State), Ready s c false → s.pci.rst.isSome = true →
    let a := memAddr (s.core c) base off
    a % 4 = 0 → (blockBit a = 19 ∨ blockBit a = 20 ∨ blockBit a = 21) →
    (coreReaches s c a false = true → exec (.lw c rt base off) s = .next (s.writes c rt 0)) ∧
    (coreReaches s c a true = true → exec (.sw c rt base off) s = .next (s.coreNext c (s.core c).retire))

/-- The letters that blow fuses only add (R357, R359): SET_OWNER_KEY, SET_POLICY, ADVANCE, REVOKE and COMMIT_VERSION leave no fuse bit that
was 1 at 0, whether they are answered OK or DENIED, and whether or not a bit sticks. -/
def Obligations.FuseLettersOnlyAdd : Prop :=
  ∀ (m : Fin 4) (vpp : Bool) (stuck : Option (Fin 4096)) (i : Instr) (s t : State),
    i ∈ [Instr.setOwnerKey m vpp stuck, .setPolicy m vpp stuck, .advance m vpp stuck, .revoke m vpp stuck, .commitVersion m vpp stuck] →
    exec i s = .next t → ∀ b, fuseBit s b = true → fuseBit t b = true
end

