-- ==== Sys2Proof/Laws/Maps.lean ====
section
/-! SUPPORT. Laws/Maps.lean: the sparse map: what a read gives after a write, an erasure or a reset of a range, and that each of them
keeps the canonical form. -/

namespace Sys2Proof.Machine

variable {α : Type} {d : Nat → α}

@[simp] theorem mget_nil (k : Nat) : mget d [] k = d k := rfl

theorem mget_cons (a : Nat) (v : α) (m : SMap α) (k : Nat) : mget d ((a, v) :: m) k = if a = k then v else mget d m k := rfl

@[simp] theorem mget_merase_self (m : SMap α) (k : Nat) : mget d (merase m k) k = d k := by
  induction m with
  | nil => rfl
  | cons e r ih =>
    obtain ⟨a, v⟩ := e
    by_cases h : a = k <;> simp [merase, mget_cons, h, ih]

theorem mget_merase_ne (m : SMap α) {k j : Nat} (h : k ≠ j) : mget d (merase m k) j = mget d m j := by
  induction m with
  | nil => rfl
  | cons e r ih =>
    obtain ⟨a, v⟩ := e
    by_cases ha : a = k
    · subst ha; simp [merase, mget_cons, h, ih]
    · simp [merase, mget_cons, ha, ih]

@[simp] theorem mget_minsert_self (m : SMap α) (k : Nat) (v : α) : mget d (minsert m k v) k = v := by
  induction m with
  | nil => simp [minsert, mget_cons]
  | cons e r ih =>
    obtain ⟨a, w⟩ := e
    by_cases h1 : k < a
    · simp [minsert, h1, mget_cons]
    · by_cases h2 : a = k
      · simp [minsert, h2, mget_cons]
      · simp [minsert, h1, h2, mget_cons, ih]

theorem mget_minsert_ne (m : SMap α) {k j : Nat} (v : α) (h : k ≠ j) : mget d (minsert m k v) j = mget d m j := by
  induction m with
  | nil => simp [minsert, mget_cons, h]
  | cons e r ih =>
    obtain ⟨a, w⟩ := e
    by_cases h1 : k < a
    · simp [minsert, h1, mget_cons, h]
    · by_cases h2 : a = k
      · subst h2; simp [minsert, mget_cons, h]
      · simp [minsert, h1, h2, mget_cons, ih]

variable [DecidableEq α]

/-- A read gives what was last written at its key. -/
@[simp] theorem mget_mset_self (m : SMap α) (k : Nat) (v : α) : mget d (mset d m k v) k = v := by
  unfold mset
  split <;> simp_all

/-- A write leaves every other key alone. -/
theorem mget_mset_ne (m : SMap α) {k j : Nat} (v : α) (h : k ≠ j) : mget d (mset d m k v) j = mget d m j := by
  unfold mset
  split
  · exact mget_merase_ne m h
  · exact mget_minsert_ne m v h

theorem mget_mset (m : SMap α) (k j : Nat) (v : α) : mget d (mset d m k v) j = if k = j then v else mget d m j := by
  by_cases h : k = j
  · subst h; simp
  · simp [h, mget_mset_ne m v h]

omit [DecidableEq α] in
/-- Keeping the keys a test names: they read as before, the others as their defaults. -/
theorem mget_filter (m : SMap α) (p : Nat → Bool) (k : Nat) :
    mget d (m.filter (fun e => p e.1)) k = if p k then mget d m k else d k := by
  induction m with
  | nil => simp
  | cons e r ih =>
    obtain ⟨a, v⟩ := e
    rw [List.filter_cons]
    by_cases hk : a = k
    · subst hk; by_cases h : p a <;> simp [h, mget_cons] at ih ⊢; exact ih
    · by_cases h : p a <;> simp [h, mget_cons, hk, ih]

omit [DecidableEq α] in
/-- A key of a range that was dropped reads as its default; every other key reads as before. -/
theorem mget_mdropRange (m : SMap α) (lo hi k : Nat) :
    mget d (mdropRange m lo hi) k = if lo ≤ k ∧ k < hi then d k else mget d m k := by
  unfold mdropRange
  rw [mget_filter m (fun a => !(decide (lo ≤ a) && decide (a < hi)))]
  by_cases h : lo ≤ k ∧ k < hi <;> simp [h]

/-! ### The canonical form -/

/-- The keys of a map all lie above a bound. -/
def above (b : Nat) (m : SMap α) : Prop := ∀ e ∈ m, b < e.1

theorem mwf_cons (k : Nat) (v : α) (m : SMap α) :
    mwf d ((k, v) :: m) = true ↔ v ≠ d k ∧ above k m ∧ mwf d m = true := by
  induction m generalizing k v with
  | nil => simp [mwf, above]
  | cons e r ih =>
    obtain ⟨k', v'⟩ := e
    have hb : mwf d ((k, v) :: (k', v') :: r) = (decide (v ≠ d k) && decide (k < k') && mwf d ((k', v') :: r)) := rfl
    rw [hb]
    simp only [Bool.and_eq_true, decide_eq_true_eq]
    constructor
    · rintro ⟨⟨h1, h2⟩, h3⟩
      refine ⟨h1, ?_, h3⟩
      intro e he
      rcases List.mem_cons.1 he with rfl | he
      · exact h2
      · exact Nat.lt_trans h2 (((ih k' v').1 h3).2.1 e he)
    · rintro ⟨h1, h2, h3⟩
      exact ⟨⟨h1, h2 (k', v') (List.mem_cons_self ..)⟩, h3⟩

omit [DecidableEq α] in
theorem above_merase {b : Nat} {m : SMap α} (k : Nat) (h : above b m) : above b (merase m k) := by
  induction m with
  | nil => exact h
  | cons e r ih =>
    obtain ⟨a, v⟩ := e
    have hr : above b r := fun e he => h e (List.mem_cons_of_mem _ he)
    unfold merase
    split
    · exact ih hr
    · intro e he
      rcases List.mem_cons.1 he with rfl | he
      · exact h _ (List.mem_cons_self ..)
      · exact ih hr e he

theorem mwf_merase {m : SMap α} (k : Nat) (h : mwf d m = true) : mwf d (merase m k) = true := by
  induction m with
  | nil => exact h
  | cons e r ih =>
    obtain ⟨a, v⟩ := e
    obtain ⟨h1, h2, h3⟩ := (mwf_cons a v r).1 h
    unfold merase
    split
    · exact ih h3
    · exact (mwf_cons _ _ _).2 ⟨h1, above_merase k h2, ih h3⟩

omit [DecidableEq α] in
theorem above_minsert {b k : Nat} {v : α} {m : SMap α} (hk : b < k) (h : above b m) : above b (minsert m k v) := by
  induction m with
  | nil => intro e he; simp [minsert] at he; subst he; exact hk
  | cons e r ih =>
    obtain ⟨a, w⟩ := e
    have hr : above b r := fun e he => h e (List.mem_cons_of_mem _ he)
    unfold minsert
    split
    · intro e he
      rcases List.mem_cons.1 he with rfl | he
      · exact hk
      · exact h e he
    · split
      · intro e he
        rcases List.mem_cons.1 he with rfl | he
        · exact hk
        · exact hr e he
      · intro e he
        rcases List.mem_cons.1 he with rfl | he
        · exact h _ (List.mem_cons_self ..)
        · exact ih hr e he

theorem mwf_minsert {m : SMap α} {k : Nat} {v : α} (hv : v ≠ d k) (h : mwf d m = true) : mwf d (minsert m k v) = true := by
  induction m with
  | nil => simp [minsert, mwf, hv]
  | cons e r ih =>
    obtain ⟨a, w⟩ := e
    obtain ⟨h1, h2, h3⟩ := (mwf_cons a w r).1 h
    unfold minsert
    split
    · rename_i hlt
      refine (mwf_cons _ _ _).2 ⟨hv, ?_, h⟩
      intro e he
      rcases List.mem_cons.1 he with rfl | he
      · exact hlt
      · exact Nat.lt_trans hlt (h2 e he)
    · split
      · rename_i heq
        subst heq
        exact (mwf_cons _ _ _).2 ⟨hv, h2, h3⟩
      · rename_i h4 h5
        exact (mwf_cons _ _ _).2 ⟨h1, above_minsert (by omega) h2, ih h3⟩

/-- A write keeps the canonical form. -/
theorem mwf_mset {m : SMap α} (k : Nat) (v : α) (h : mwf d m = true) : mwf d (mset d m k v) = true := by
  unfold mset
  split
  · exact mwf_merase k h
  · rename_i hv
    exact mwf_minsert hv h

theorem mwf_filter {m : SMap α} (p : Nat × α → Bool) (h : mwf d m = true) : mwf d (m.filter p) = true := by
  induction m with
  | nil => exact h
  | cons e r ih =>
    obtain ⟨a, v⟩ := e
    obtain ⟨h1, h2, h3⟩ := (mwf_cons a v r).1 h
    rw [List.filter_cons]
    split
    · exact (mwf_cons _ _ _).2 ⟨h1, fun e he => h2 e (List.mem_of_mem_filter he), ih h3⟩
    · exact ih h3

/-- Dropping a range keeps the canonical form. -/
theorem mwf_mdropRange {m : SMap α} (lo hi : Nat) (h : mwf d m = true) : mwf d (mdropRange m lo hi) = true :=
  mwf_filter _ h

end Sys2Proof.Machine
end

