-- ==== Sys2Proof/Laws/State.lean ====
section
/-! SUPPORT. Laws/State.lean: what each named update leaves alone, one lemma for each field of the state, so that no proof opens a record. The
other updates of registers (set1, clr, put, bump, incr) are stores of a field and come down to that. -/

namespace Sys2Proof.Machine
open Sys2Proof

@[simp] theorem State.set1_eq (s : State) (r : RF) : s.set1 r = s.sf r 1 := rfl
@[simp] theorem State.clr_eq (s : State) (r : RF) : s.clr r = s.sf r 0 := rfl
@[simp] theorem State.put_eq (s : State) (r : RF) (b : Bool) : s.put r b = s.sf r (if b then 1 else 0) := rfl
@[simp] theorem State.bump_eq (s : State) (r : RF) : s.bump r = s.bumpBy r 1 := rfl
@[simp] theorem State.bumpBy_eq (s : State) (r : RF) (n : Nat) :
    s.bumpBy r n = s.sf r (satAdd (2 ^ (r.hi + 1 - r.lo) - 1) (s.f r) n) := rfl
@[simp] theorem State.incr_eq (s : State) (r : RF) (n : Nat) : s.incr r n = s.sf r (s.f r + n) := rfl
@[simp] theorem State.setPair_eq (s : State) (lo hi v : Nat) :
    s.setPair lo hi v = (s.wr lo (BitVec.ofNat 32 v)).wr hi (BitVec.ofNat 32 (v / 2 ^ 32)) := rfl
@[simp] theorem State.incrPair_eq (s : State) (lo hi n : Nat) : s.incrPair lo hi n = s.setPair lo hi (s.pair lo hi + n) := rfl
@[simp] theorem State.raise_eq (s : State) (p : Nat) : s.raise p = s.raiseEv p 0 p := rfl

/-! #### wr -/
@[simp] theorem State.wr_now (s : State) (a : Nat) (w : Word) : (s.wr a w).now = s.now := rfl
@[simp] theorem State.wr_pending (s : State) (a : Nat) (w : Word) : (s.wr a w).pending = s.pending := rfl
@[simp] theorem State.wr_live (s : State) (a : Nat) (w : Word) : (s.wr a w).live = s.live := rfl
@[simp] theorem State.wr_latch (s : State) (a : Nat) (w : Word) : (s.wr a w).latch = s.latch := rfl
@[simp] theorem State.wr_pendLo (s : State) (a : Nat) (w : Word) : (s.wr a w).pendLo = s.pendLo := rfl
@[simp] theorem State.wr_bufs (s : State) (a : Nat) (w : Word) : (s.wr a w).bufs = s.bufs := rfl
@[simp] theorem State.wr_lmem (s : State) (a : Nat) (w : Word) : (s.wr a w).lmem = s.lmem := rfl
@[simp] theorem State.wr_cmem (s : State) (a : Nat) (w : Word) : (s.wr a w).cmem = s.cmem := rfl
@[simp] theorem State.wr_dmem (s : State) (a : Nat) (w : Word) : (s.wr a w).dmem = s.dmem := rfl
@[simp] theorem State.wr_tim (s : State) (a : Nat) (w : Word) : (s.wr a w).tim = s.tim := rfl
@[simp] theorem State.wr_axes (s : State) (a : Nat) (w : Word) : (s.wr a w).axes = s.axes := rfl
@[simp] theorem State.wr_chans (s : State) (a : Nat) (w : Word) : (s.wr a w).chans = s.chans := rfl
@[simp] theorem State.wr_slots (s : State) (a : Nat) (w : Word) : (s.wr a w).slots = s.slots := rfl
@[simp] theorem State.wr_evq (s : State) (a : Nat) (w : Word) : (s.wr a w).evq = s.evq := rfl
@[simp] theorem State.wr_inputs (s : State) (a : Nat) (w : Word) : (s.wr a w).inputs = s.inputs := rfl
@[simp] theorem State.wr_grpOn (s : State) (a : Nat) (w : Word) : (s.wr a w).grpOn = s.grpOn := rfl
@[simp] theorem State.wr_grpOff (s : State) (a : Nat) (w : Word) : (s.wr a w).grpOff = s.grpOff := rfl
@[simp] theorem State.wr_cores (s : State) (a : Nat) (w : Word) : (s.wr a w).cores = s.cores := rfl
@[simp] theorem State.wr_loader (s : State) (a : Nat) (w : Word) : (s.wr a w).loader = s.loader := rfl
@[simp] theorem State.wr_mboxes (s : State) (a : Nat) (w : Word) : (s.wr a w).mboxes = s.mboxes := rfl
@[simp] theorem State.wr_ras (s : State) (a : Nat) (w : Word) : (s.wr a w).ras = s.ras := rfl
@[simp] theorem State.wr_freeCtr (s : State) (a : Nat) (w : Word) : (s.wr a w).freeCtr = s.freeCtr := rfl
@[simp] theorem State.wr_boot (s : State) (a : Nat) (w : Word) : (s.wr a w).boot = s.boot := rfl
@[simp] theorem State.wr_sigs (s : State) (a : Nat) (w : Word) : (s.wr a w).sigs = s.sigs := rfl
@[simp] theorem State.wr_out (s : State) (a : Nat) (w : Word) : (s.wr a w).out = s.out := rfl
@[simp] theorem State.wr_poison (s : State) (a : Nat) (w : Word) : (s.wr a w).poison = s.poison := rfl
@[simp] theorem State.wr_lpoison (s : State) (a : Nat) (w : Word) : (s.wr a w).lpoison = s.lpoison := rfl
@[simp] theorem State.wr_cpoison (s : State) (a : Nat) (w : Word) : (s.wr a w).cpoison = s.cpoison := rfl
@[simp] theorem State.wr_streams (s : State) (a : Nat) (w : Word) : (s.wr a w).streams = s.streams := rfl
@[simp] theorem State.wr_eth (s : State) (a : Nat) (w : Word) : (s.wr a w).eth = s.eth := rfl
@[simp] theorem State.wr_toMill (s : State) (a : Nat) (w : Word) : (s.wr a w).toMill = s.toMill := rfl
@[simp] theorem State.wr_pars (s : State) (a : Nat) (w : Word) : (s.wr a w).pars = s.pars := rfl
@[simp] theorem State.wr_trigs (s : State) (a : Nat) (w : Word) : (s.wr a w).trigs = s.trigs := rfl
@[simp] theorem State.wr_gpios (s : State) (a : Nat) (w : Word) : (s.wr a w).gpios = s.gpios := rfl
@[simp] theorem State.wr_mills (s : State) (a : Nat) (w : Word) : (s.wr a w).mills = s.mills := rfl
@[simp] theorem State.wr_millLast (s : State) (a : Nat) (w : Word) : (s.wr a w).millLast = s.millLast := rfl
@[simp] theorem State.wr_millPos (s : State) (a : Nat) (w : Word) : (s.wr a w).millPos = s.millPos := rfl
@[simp] theorem State.wr_toCol (s : State) (a : Nat) (w : Word) : (s.wr a w).toCol = s.toCol := rfl
@[simp] theorem State.wr_toTap (s : State) (a : Nat) (w : Word) : (s.wr a w).toTap = s.toTap := rfl
@[simp] theorem State.wr_seqs (s : State) (a : Nat) (w : Word) : (s.wr a w).seqs = s.seqs := rfl
@[simp] theorem State.wr_members (s : State) (a : Nat) (w : Word) : (s.wr a w).members = s.members := rfl
@[simp] theorem State.wr_toLink (s : State) (a : Nat) (w : Word) : (s.wr a w).toLink = s.toLink := rfl
@[simp] theorem State.wr_strips (s : State) (a : Nat) (w : Word) : (s.wr a w).strips = s.strips := rfl
@[simp] theorem State.wr_hedQ (s : State) (a : Nat) (w : Word) : (s.wr a w).hedQ = s.hedQ := rfl
@[simp] theorem State.wr_hunits (s : State) (a : Nat) (w : Word) : (s.wr a w).hunits = s.hunits := rfl
@[simp] theorem State.wr_outs (s : State) (a : Nat) (w : Word) : (s.wr a w).outs = s.outs := rfl
@[simp] theorem State.wr_sheafHeads (s : State) (a : Nat) (w : Word) : (s.wr a w).sheafHeads = s.sheafHeads := rfl
@[simp] theorem State.wr_hunitNo (s : State) (a : Nat) (w : Word) : (s.wr a w).hunitNo = s.hunitNo := rfl
@[simp] theorem State.wr_boxes (s : State) (a : Nat) (w : Word) : (s.wr a w).boxes = s.boxes := rfl
@[simp] theorem State.wr_thr (s : State) (a : Nat) (w : Word) : (s.wr a w).thr = s.thr := rfl
@[simp] theorem State.wr_gran (s : State) (a : Nat) (w : Word) : (s.wr a w).gran = s.gran := rfl
@[simp] theorem State.wr_offers (s : State) (a : Nat) (w : Word) : (s.wr a w).offers = s.offers := rfl
@[simp] theorem State.wr_rings (s : State) (a : Nat) (w : Word) : (s.wr a w).rings = s.rings := rfl
@[simp] theorem State.wr_cqs (s : State) (a : Nat) (w : Word) : (s.wr a w).cqs = s.cqs := rfl
@[simp] theorem State.wr_dmas (s : State) (a : Nat) (w : Word) : (s.wr a w).dmas = s.dmas := rfl
@[simp] theorem State.wr_reads (s : State) (a : Nat) (w : Word) : (s.wr a w).reads = s.reads := rfl
@[simp] theorem State.wr_signQ (s : State) (a : Nat) (w : Word) : (s.wr a w).signQ = s.signQ := rfl
@[simp] theorem State.wr_fuses (s : State) (a : Nat) (w : Word) : (s.wr a w).fuses = s.fuses := rfl
@[simp] theorem State.wr_pci (s : State) (a : Nat) (w : Word) : (s.wr a w).pci = s.pci := rfl
@[simp] theorem State.wr_sched (s : State) (a : Nat) (w : Word) : (s.wr a w).sched = s.sched := rfl
@[simp] theorem State.wr_spdm (s : State) (a : Nat) (w : Word) : (s.wr a w).spdm = s.spdm := rfl
@[simp] theorem State.wr_ebk (s : State) (a : Nat) (w : Word) : (s.wr a w).ebk = s.ebk := rfl
@[simp] theorem State.wr_rpl (s : State) (a : Nat) (w : Word) : (s.wr a w).rpl = s.rpl := rfl
@[simp] theorem State.wr_twi (s : State) (a : Nat) (w : Word) : (s.wr a w).twi = s.twi := rfl

/-! #### sf -/
@[simp] theorem State.sf_now (s : State) (r : RF) (v : Nat) : (s.sf r v).now = s.now := rfl
@[simp] theorem State.sf_pending (s : State) (r : RF) (v : Nat) : (s.sf r v).pending = s.pending := rfl
@[simp] theorem State.sf_live (s : State) (r : RF) (v : Nat) : (s.sf r v).live = s.live := rfl
@[simp] theorem State.sf_latch (s : State) (r : RF) (v : Nat) : (s.sf r v).latch = s.latch := rfl
@[simp] theorem State.sf_pendLo (s : State) (r : RF) (v : Nat) : (s.sf r v).pendLo = s.pendLo := rfl
@[simp] theorem State.sf_bufs (s : State) (r : RF) (v : Nat) : (s.sf r v).bufs = s.bufs := rfl
@[simp] theorem State.sf_lmem (s : State) (r : RF) (v : Nat) : (s.sf r v).lmem = s.lmem := rfl
@[simp] theorem State.sf_cmem (s : State) (r : RF) (v : Nat) : (s.sf r v).cmem = s.cmem := rfl
@[simp] theorem State.sf_dmem (s : State) (r : RF) (v : Nat) : (s.sf r v).dmem = s.dmem := rfl
@[simp] theorem State.sf_tim (s : State) (r : RF) (v : Nat) : (s.sf r v).tim = s.tim := rfl
@[simp] theorem State.sf_axes (s : State) (r : RF) (v : Nat) : (s.sf r v).axes = s.axes := rfl
@[simp] theorem State.sf_chans (s : State) (r : RF) (v : Nat) : (s.sf r v).chans = s.chans := rfl
@[simp] theorem State.sf_slots (s : State) (r : RF) (v : Nat) : (s.sf r v).slots = s.slots := rfl
@[simp] theorem State.sf_evq (s : State) (r : RF) (v : Nat) : (s.sf r v).evq = s.evq := rfl
@[simp] theorem State.sf_inputs (s : State) (r : RF) (v : Nat) : (s.sf r v).inputs = s.inputs := rfl
@[simp] theorem State.sf_grpOn (s : State) (r : RF) (v : Nat) : (s.sf r v).grpOn = s.grpOn := rfl
@[simp] theorem State.sf_grpOff (s : State) (r : RF) (v : Nat) : (s.sf r v).grpOff = s.grpOff := rfl
@[simp] theorem State.sf_cores (s : State) (r : RF) (v : Nat) : (s.sf r v).cores = s.cores := rfl
@[simp] theorem State.sf_loader (s : State) (r : RF) (v : Nat) : (s.sf r v).loader = s.loader := rfl
@[simp] theorem State.sf_mboxes (s : State) (r : RF) (v : Nat) : (s.sf r v).mboxes = s.mboxes := rfl
@[simp] theorem State.sf_ras (s : State) (r : RF) (v : Nat) : (s.sf r v).ras = s.ras := rfl
@[simp] theorem State.sf_freeCtr (s : State) (r : RF) (v : Nat) : (s.sf r v).freeCtr = s.freeCtr := rfl
@[simp] theorem State.sf_boot (s : State) (r : RF) (v : Nat) : (s.sf r v).boot = s.boot := rfl
@[simp] theorem State.sf_sigs (s : State) (r : RF) (v : Nat) : (s.sf r v).sigs = s.sigs := rfl
@[simp] theorem State.sf_out (s : State) (r : RF) (v : Nat) : (s.sf r v).out = s.out := rfl
@[simp] theorem State.sf_poison (s : State) (r : RF) (v : Nat) : (s.sf r v).poison = s.poison := rfl
@[simp] theorem State.sf_lpoison (s : State) (r : RF) (v : Nat) : (s.sf r v).lpoison = s.lpoison := rfl
@[simp] theorem State.sf_cpoison (s : State) (r : RF) (v : Nat) : (s.sf r v).cpoison = s.cpoison := rfl
@[simp] theorem State.sf_streams (s : State) (r : RF) (v : Nat) : (s.sf r v).streams = s.streams := rfl
@[simp] theorem State.sf_eth (s : State) (r : RF) (v : Nat) : (s.sf r v).eth = s.eth := rfl
@[simp] theorem State.sf_toMill (s : State) (r : RF) (v : Nat) : (s.sf r v).toMill = s.toMill := rfl
@[simp] theorem State.sf_pars (s : State) (r : RF) (v : Nat) : (s.sf r v).pars = s.pars := rfl
@[simp] theorem State.sf_trigs (s : State) (r : RF) (v : Nat) : (s.sf r v).trigs = s.trigs := rfl
@[simp] theorem State.sf_gpios (s : State) (r : RF) (v : Nat) : (s.sf r v).gpios = s.gpios := rfl
@[simp] theorem State.sf_mills (s : State) (r : RF) (v : Nat) : (s.sf r v).mills = s.mills := rfl
@[simp] theorem State.sf_millLast (s : State) (r : RF) (v : Nat) : (s.sf r v).millLast = s.millLast := rfl
@[simp] theorem State.sf_millPos (s : State) (r : RF) (v : Nat) : (s.sf r v).millPos = s.millPos := rfl
@[simp] theorem State.sf_toCol (s : State) (r : RF) (v : Nat) : (s.sf r v).toCol = s.toCol := rfl
@[simp] theorem State.sf_toTap (s : State) (r : RF) (v : Nat) : (s.sf r v).toTap = s.toTap := rfl
@[simp] theorem State.sf_seqs (s : State) (r : RF) (v : Nat) : (s.sf r v).seqs = s.seqs := rfl
@[simp] theorem State.sf_members (s : State) (r : RF) (v : Nat) : (s.sf r v).members = s.members := rfl
@[simp] theorem State.sf_toLink (s : State) (r : RF) (v : Nat) : (s.sf r v).toLink = s.toLink := rfl
@[simp] theorem State.sf_strips (s : State) (r : RF) (v : Nat) : (s.sf r v).strips = s.strips := rfl
@[simp] theorem State.sf_hedQ (s : State) (r : RF) (v : Nat) : (s.sf r v).hedQ = s.hedQ := rfl
@[simp] theorem State.sf_hunits (s : State) (r : RF) (v : Nat) : (s.sf r v).hunits = s.hunits := rfl
@[simp] theorem State.sf_outs (s : State) (r : RF) (v : Nat) : (s.sf r v).outs = s.outs := rfl
@[simp] theorem State.sf_sheafHeads (s : State) (r : RF) (v : Nat) : (s.sf r v).sheafHeads = s.sheafHeads := rfl
@[simp] theorem State.sf_hunitNo (s : State) (r : RF) (v : Nat) : (s.sf r v).hunitNo = s.hunitNo := rfl
@[simp] theorem State.sf_boxes (s : State) (r : RF) (v : Nat) : (s.sf r v).boxes = s.boxes := rfl
@[simp] theorem State.sf_thr (s : State) (r : RF) (v : Nat) : (s.sf r v).thr = s.thr := rfl
@[simp] theorem State.sf_gran (s : State) (r : RF) (v : Nat) : (s.sf r v).gran = s.gran := rfl
@[simp] theorem State.sf_offers (s : State) (r : RF) (v : Nat) : (s.sf r v).offers = s.offers := rfl
@[simp] theorem State.sf_rings (s : State) (r : RF) (v : Nat) : (s.sf r v).rings = s.rings := rfl
@[simp] theorem State.sf_cqs (s : State) (r : RF) (v : Nat) : (s.sf r v).cqs = s.cqs := rfl
@[simp] theorem State.sf_dmas (s : State) (r : RF) (v : Nat) : (s.sf r v).dmas = s.dmas := rfl
@[simp] theorem State.sf_reads (s : State) (r : RF) (v : Nat) : (s.sf r v).reads = s.reads := rfl
@[simp] theorem State.sf_signQ (s : State) (r : RF) (v : Nat) : (s.sf r v).signQ = s.signQ := rfl
@[simp] theorem State.sf_fuses (s : State) (r : RF) (v : Nat) : (s.sf r v).fuses = s.fuses := rfl
@[simp] theorem State.sf_pci (s : State) (r : RF) (v : Nat) : (s.sf r v).pci = s.pci := rfl
@[simp] theorem State.sf_sched (s : State) (r : RF) (v : Nat) : (s.sf r v).sched = s.sched := rfl
@[simp] theorem State.sf_spdm (s : State) (r : RF) (v : Nat) : (s.sf r v).spdm = s.spdm := rfl
@[simp] theorem State.sf_ebk (s : State) (r : RF) (v : Nat) : (s.sf r v).ebk = s.ebk := rfl
@[simp] theorem State.sf_rpl (s : State) (r : RF) (v : Nat) : (s.sf r v).rpl = s.rpl := rfl
@[simp] theorem State.sf_twi (s : State) (r : RF) (v : Nat) : (s.sf r v).twi = s.twi := rfl

/-! #### emit -/
@[simp] theorem State.emit_now (s : State) (o : Out) : (s.emit o).now = s.now := rfl
@[simp] theorem State.emit_pending (s : State) (o : Out) : (s.emit o).pending = s.pending := rfl
@[simp] theorem State.emit_regs (s : State) (o : Out) : (s.emit o).regs = s.regs := rfl
@[simp] theorem State.emit_live (s : State) (o : Out) : (s.emit o).live = s.live := rfl
@[simp] theorem State.emit_latch (s : State) (o : Out) : (s.emit o).latch = s.latch := rfl
@[simp] theorem State.emit_pendLo (s : State) (o : Out) : (s.emit o).pendLo = s.pendLo := rfl
@[simp] theorem State.emit_bufs (s : State) (o : Out) : (s.emit o).bufs = s.bufs := rfl
@[simp] theorem State.emit_lmem (s : State) (o : Out) : (s.emit o).lmem = s.lmem := rfl
@[simp] theorem State.emit_cmem (s : State) (o : Out) : (s.emit o).cmem = s.cmem := rfl
@[simp] theorem State.emit_dmem (s : State) (o : Out) : (s.emit o).dmem = s.dmem := rfl
@[simp] theorem State.emit_tim (s : State) (o : Out) : (s.emit o).tim = s.tim := rfl
@[simp] theorem State.emit_axes (s : State) (o : Out) : (s.emit o).axes = s.axes := rfl
@[simp] theorem State.emit_chans (s : State) (o : Out) : (s.emit o).chans = s.chans := rfl
@[simp] theorem State.emit_slots (s : State) (o : Out) : (s.emit o).slots = s.slots := rfl
@[simp] theorem State.emit_evq (s : State) (o : Out) : (s.emit o).evq = s.evq := rfl
@[simp] theorem State.emit_inputs (s : State) (o : Out) : (s.emit o).inputs = s.inputs := rfl
@[simp] theorem State.emit_grpOn (s : State) (o : Out) : (s.emit o).grpOn = s.grpOn := rfl
@[simp] theorem State.emit_grpOff (s : State) (o : Out) : (s.emit o).grpOff = s.grpOff := rfl
@[simp] theorem State.emit_cores (s : State) (o : Out) : (s.emit o).cores = s.cores := rfl
@[simp] theorem State.emit_loader (s : State) (o : Out) : (s.emit o).loader = s.loader := rfl
@[simp] theorem State.emit_mboxes (s : State) (o : Out) : (s.emit o).mboxes = s.mboxes := rfl
@[simp] theorem State.emit_ras (s : State) (o : Out) : (s.emit o).ras = s.ras := rfl
@[simp] theorem State.emit_freeCtr (s : State) (o : Out) : (s.emit o).freeCtr = s.freeCtr := rfl
@[simp] theorem State.emit_boot (s : State) (o : Out) : (s.emit o).boot = s.boot := rfl
@[simp] theorem State.emit_sigs (s : State) (o : Out) : (s.emit o).sigs = s.sigs := rfl
@[simp] theorem State.emit_poison (s : State) (o : Out) : (s.emit o).poison = s.poison := rfl
@[simp] theorem State.emit_lpoison (s : State) (o : Out) : (s.emit o).lpoison = s.lpoison := rfl
@[simp] theorem State.emit_cpoison (s : State) (o : Out) : (s.emit o).cpoison = s.cpoison := rfl
@[simp] theorem State.emit_streams (s : State) (o : Out) : (s.emit o).streams = s.streams := rfl
@[simp] theorem State.emit_eth (s : State) (o : Out) : (s.emit o).eth = s.eth := rfl
@[simp] theorem State.emit_toMill (s : State) (o : Out) : (s.emit o).toMill = s.toMill := rfl
@[simp] theorem State.emit_pars (s : State) (o : Out) : (s.emit o).pars = s.pars := rfl
@[simp] theorem State.emit_trigs (s : State) (o : Out) : (s.emit o).trigs = s.trigs := rfl
@[simp] theorem State.emit_gpios (s : State) (o : Out) : (s.emit o).gpios = s.gpios := rfl
@[simp] theorem State.emit_mills (s : State) (o : Out) : (s.emit o).mills = s.mills := rfl
@[simp] theorem State.emit_millLast (s : State) (o : Out) : (s.emit o).millLast = s.millLast := rfl
@[simp] theorem State.emit_millPos (s : State) (o : Out) : (s.emit o).millPos = s.millPos := rfl
@[simp] theorem State.emit_toCol (s : State) (o : Out) : (s.emit o).toCol = s.toCol := rfl
@[simp] theorem State.emit_toTap (s : State) (o : Out) : (s.emit o).toTap = s.toTap := rfl
@[simp] theorem State.emit_seqs (s : State) (o : Out) : (s.emit o).seqs = s.seqs := rfl
@[simp] theorem State.emit_members (s : State) (o : Out) : (s.emit o).members = s.members := rfl
@[simp] theorem State.emit_toLink (s : State) (o : Out) : (s.emit o).toLink = s.toLink := rfl
@[simp] theorem State.emit_strips (s : State) (o : Out) : (s.emit o).strips = s.strips := rfl
@[simp] theorem State.emit_hedQ (s : State) (o : Out) : (s.emit o).hedQ = s.hedQ := rfl
@[simp] theorem State.emit_hunits (s : State) (o : Out) : (s.emit o).hunits = s.hunits := rfl
@[simp] theorem State.emit_outs (s : State) (o : Out) : (s.emit o).outs = s.outs := rfl
@[simp] theorem State.emit_sheafHeads (s : State) (o : Out) : (s.emit o).sheafHeads = s.sheafHeads := rfl
@[simp] theorem State.emit_hunitNo (s : State) (o : Out) : (s.emit o).hunitNo = s.hunitNo := rfl
@[simp] theorem State.emit_boxes (s : State) (o : Out) : (s.emit o).boxes = s.boxes := rfl
@[simp] theorem State.emit_thr (s : State) (o : Out) : (s.emit o).thr = s.thr := rfl
@[simp] theorem State.emit_gran (s : State) (o : Out) : (s.emit o).gran = s.gran := rfl
@[simp] theorem State.emit_offers (s : State) (o : Out) : (s.emit o).offers = s.offers := rfl
@[simp] theorem State.emit_rings (s : State) (o : Out) : (s.emit o).rings = s.rings := rfl
@[simp] theorem State.emit_cqs (s : State) (o : Out) : (s.emit o).cqs = s.cqs := rfl
@[simp] theorem State.emit_dmas (s : State) (o : Out) : (s.emit o).dmas = s.dmas := rfl
@[simp] theorem State.emit_reads (s : State) (o : Out) : (s.emit o).reads = s.reads := rfl
@[simp] theorem State.emit_signQ (s : State) (o : Out) : (s.emit o).signQ = s.signQ := rfl
@[simp] theorem State.emit_fuses (s : State) (o : Out) : (s.emit o).fuses = s.fuses := rfl
@[simp] theorem State.emit_pci (s : State) (o : Out) : (s.emit o).pci = s.pci := rfl
@[simp] theorem State.emit_sched (s : State) (o : Out) : (s.emit o).sched = s.sched := rfl
@[simp] theorem State.emit_spdm (s : State) (o : Out) : (s.emit o).spdm = s.spdm := rfl
@[simp] theorem State.emit_ebk (s : State) (o : Out) : (s.emit o).ebk = s.ebk := rfl
@[simp] theorem State.emit_rpl (s : State) (o : Out) : (s.emit o).rpl = s.rpl := rfl
@[simp] theorem State.emit_twi (s : State) (o : Out) : (s.emit o).twi = s.twi := rfl

/-! #### signal -/
@[simp] theorem State.signal_now (s : State) (v : Nat) : (s.signal v).now = s.now := rfl
@[simp] theorem State.signal_pending (s : State) (v : Nat) : (s.signal v).pending = s.pending := rfl
@[simp] theorem State.signal_regs (s : State) (v : Nat) : (s.signal v).regs = s.regs := rfl
@[simp] theorem State.signal_live (s : State) (v : Nat) : (s.signal v).live = s.live := rfl
@[simp] theorem State.signal_latch (s : State) (v : Nat) : (s.signal v).latch = s.latch := rfl
@[simp] theorem State.signal_pendLo (s : State) (v : Nat) : (s.signal v).pendLo = s.pendLo := rfl
@[simp] theorem State.signal_bufs (s : State) (v : Nat) : (s.signal v).bufs = s.bufs := rfl
@[simp] theorem State.signal_lmem (s : State) (v : Nat) : (s.signal v).lmem = s.lmem := rfl
@[simp] theorem State.signal_cmem (s : State) (v : Nat) : (s.signal v).cmem = s.cmem := rfl
@[simp] theorem State.signal_dmem (s : State) (v : Nat) : (s.signal v).dmem = s.dmem := rfl
@[simp] theorem State.signal_tim (s : State) (v : Nat) : (s.signal v).tim = s.tim := rfl
@[simp] theorem State.signal_axes (s : State) (v : Nat) : (s.signal v).axes = s.axes := rfl
@[simp] theorem State.signal_chans (s : State) (v : Nat) : (s.signal v).chans = s.chans := rfl
@[simp] theorem State.signal_slots (s : State) (v : Nat) : (s.signal v).slots = s.slots := rfl
@[simp] theorem State.signal_evq (s : State) (v : Nat) : (s.signal v).evq = s.evq := rfl
@[simp] theorem State.signal_inputs (s : State) (v : Nat) : (s.signal v).inputs = s.inputs := rfl
@[simp] theorem State.signal_grpOn (s : State) (v : Nat) : (s.signal v).grpOn = s.grpOn := rfl
@[simp] theorem State.signal_grpOff (s : State) (v : Nat) : (s.signal v).grpOff = s.grpOff := rfl
@[simp] theorem State.signal_cores (s : State) (v : Nat) : (s.signal v).cores = s.cores := rfl
@[simp] theorem State.signal_loader (s : State) (v : Nat) : (s.signal v).loader = s.loader := rfl
@[simp] theorem State.signal_mboxes (s : State) (v : Nat) : (s.signal v).mboxes = s.mboxes := rfl
@[simp] theorem State.signal_ras (s : State) (v : Nat) : (s.signal v).ras = s.ras := rfl
@[simp] theorem State.signal_freeCtr (s : State) (v : Nat) : (s.signal v).freeCtr = s.freeCtr := rfl
@[simp] theorem State.signal_boot (s : State) (v : Nat) : (s.signal v).boot = s.boot := rfl
@[simp] theorem State.signal_out (s : State) (v : Nat) : (s.signal v).out = s.out := rfl
@[simp] theorem State.signal_poison (s : State) (v : Nat) : (s.signal v).poison = s.poison := rfl
@[simp] theorem State.signal_lpoison (s : State) (v : Nat) : (s.signal v).lpoison = s.lpoison := rfl
@[simp] theorem State.signal_cpoison (s : State) (v : Nat) : (s.signal v).cpoison = s.cpoison := rfl
@[simp] theorem State.signal_streams (s : State) (v : Nat) : (s.signal v).streams = s.streams := rfl
@[simp] theorem State.signal_eth (s : State) (v : Nat) : (s.signal v).eth = s.eth := rfl
@[simp] theorem State.signal_toMill (s : State) (v : Nat) : (s.signal v).toMill = s.toMill := rfl
@[simp] theorem State.signal_pars (s : State) (v : Nat) : (s.signal v).pars = s.pars := rfl
@[simp] theorem State.signal_trigs (s : State) (v : Nat) : (s.signal v).trigs = s.trigs := rfl
@[simp] theorem State.signal_gpios (s : State) (v : Nat) : (s.signal v).gpios = s.gpios := rfl
@[simp] theorem State.signal_mills (s : State) (v : Nat) : (s.signal v).mills = s.mills := rfl
@[simp] theorem State.signal_millLast (s : State) (v : Nat) : (s.signal v).millLast = s.millLast := rfl
@[simp] theorem State.signal_millPos (s : State) (v : Nat) : (s.signal v).millPos = s.millPos := rfl
@[simp] theorem State.signal_toCol (s : State) (v : Nat) : (s.signal v).toCol = s.toCol := rfl
@[simp] theorem State.signal_toTap (s : State) (v : Nat) : (s.signal v).toTap = s.toTap := rfl
@[simp] theorem State.signal_seqs (s : State) (v : Nat) : (s.signal v).seqs = s.seqs := rfl
@[simp] theorem State.signal_members (s : State) (v : Nat) : (s.signal v).members = s.members := rfl
@[simp] theorem State.signal_toLink (s : State) (v : Nat) : (s.signal v).toLink = s.toLink := rfl
@[simp] theorem State.signal_strips (s : State) (v : Nat) : (s.signal v).strips = s.strips := rfl
@[simp] theorem State.signal_hedQ (s : State) (v : Nat) : (s.signal v).hedQ = s.hedQ := rfl
@[simp] theorem State.signal_hunits (s : State) (v : Nat) : (s.signal v).hunits = s.hunits := rfl
@[simp] theorem State.signal_outs (s : State) (v : Nat) : (s.signal v).outs = s.outs := rfl
@[simp] theorem State.signal_sheafHeads (s : State) (v : Nat) : (s.signal v).sheafHeads = s.sheafHeads := rfl
@[simp] theorem State.signal_hunitNo (s : State) (v : Nat) : (s.signal v).hunitNo = s.hunitNo := rfl
@[simp] theorem State.signal_boxes (s : State) (v : Nat) : (s.signal v).boxes = s.boxes := rfl
@[simp] theorem State.signal_thr (s : State) (v : Nat) : (s.signal v).thr = s.thr := rfl
@[simp] theorem State.signal_gran (s : State) (v : Nat) : (s.signal v).gran = s.gran := rfl
@[simp] theorem State.signal_offers (s : State) (v : Nat) : (s.signal v).offers = s.offers := rfl
@[simp] theorem State.signal_rings (s : State) (v : Nat) : (s.signal v).rings = s.rings := rfl
@[simp] theorem State.signal_cqs (s : State) (v : Nat) : (s.signal v).cqs = s.cqs := rfl
@[simp] theorem State.signal_dmas (s : State) (v : Nat) : (s.signal v).dmas = s.dmas := rfl
@[simp] theorem State.signal_reads (s : State) (v : Nat) : (s.signal v).reads = s.reads := rfl
@[simp] theorem State.signal_signQ (s : State) (v : Nat) : (s.signal v).signQ = s.signQ := rfl
@[simp] theorem State.signal_fuses (s : State) (v : Nat) : (s.signal v).fuses = s.fuses := rfl
@[simp] theorem State.signal_pci (s : State) (v : Nat) : (s.signal v).pci = s.pci := rfl
@[simp] theorem State.signal_sched (s : State) (v : Nat) : (s.signal v).sched = s.sched := rfl
@[simp] theorem State.signal_spdm (s : State) (v : Nat) : (s.signal v).spdm = s.spdm := rfl
@[simp] theorem State.signal_ebk (s : State) (v : Nat) : (s.signal v).ebk = s.ebk := rfl
@[simp] theorem State.signal_rpl (s : State) (v : Nat) : (s.signal v).rpl = s.rpl := rfl
@[simp] theorem State.signal_twi (s : State) (v : Nat) : (s.signal v).twi = s.twi := rfl

/-! #### raiseEv -/
@[simp] theorem State.raiseEv_now (s : State) (p h o : Nat) : (s.raiseEv p h o).now = s.now := rfl
@[simp] theorem State.raiseEv_pending (s : State) (p h o : Nat) : (s.raiseEv p h o).pending = s.pending := rfl
@[simp] theorem State.raiseEv_regs (s : State) (p h o : Nat) : (s.raiseEv p h o).regs = s.regs := rfl
@[simp] theorem State.raiseEv_live (s : State) (p h o : Nat) : (s.raiseEv p h o).live = s.live := rfl
@[simp] theorem State.raiseEv_latch (s : State) (p h o : Nat) : (s.raiseEv p h o).latch = s.latch := rfl
@[simp] theorem State.raiseEv_pendLo (s : State) (p h o : Nat) : (s.raiseEv p h o).pendLo = s.pendLo := rfl
@[simp] theorem State.raiseEv_bufs (s : State) (p h o : Nat) : (s.raiseEv p h o).bufs = s.bufs := rfl
@[simp] theorem State.raiseEv_lmem (s : State) (p h o : Nat) : (s.raiseEv p h o).lmem = s.lmem := rfl
@[simp] theorem State.raiseEv_cmem (s : State) (p h o : Nat) : (s.raiseEv p h o).cmem = s.cmem := rfl
@[simp] theorem State.raiseEv_dmem (s : State) (p h o : Nat) : (s.raiseEv p h o).dmem = s.dmem := rfl
@[simp] theorem State.raiseEv_tim (s : State) (p h o : Nat) : (s.raiseEv p h o).tim = s.tim := rfl
@[simp] theorem State.raiseEv_axes (s : State) (p h o : Nat) : (s.raiseEv p h o).axes = s.axes := rfl
@[simp] theorem State.raiseEv_chans (s : State) (p h o : Nat) : (s.raiseEv p h o).chans = s.chans := rfl
@[simp] theorem State.raiseEv_slots (s : State) (p h o : Nat) : (s.raiseEv p h o).slots = s.slots := rfl
@[simp] theorem State.raiseEv_inputs (s : State) (p h o : Nat) : (s.raiseEv p h o).inputs = s.inputs := rfl
@[simp] theorem State.raiseEv_grpOn (s : State) (p h o : Nat) : (s.raiseEv p h o).grpOn = s.grpOn := rfl
@[simp] theorem State.raiseEv_grpOff (s : State) (p h o : Nat) : (s.raiseEv p h o).grpOff = s.grpOff := rfl
@[simp] theorem State.raiseEv_cores (s : State) (p h o : Nat) : (s.raiseEv p h o).cores = s.cores := rfl
@[simp] theorem State.raiseEv_loader (s : State) (p h o : Nat) : (s.raiseEv p h o).loader = s.loader := rfl
@[simp] theorem State.raiseEv_mboxes (s : State) (p h o : Nat) : (s.raiseEv p h o).mboxes = s.mboxes := rfl
@[simp] theorem State.raiseEv_ras (s : State) (p h o : Nat) : (s.raiseEv p h o).ras = s.ras := rfl
@[simp] theorem State.raiseEv_freeCtr (s : State) (p h o : Nat) : (s.raiseEv p h o).freeCtr = s.freeCtr := rfl
@[simp] theorem State.raiseEv_boot (s : State) (p h o : Nat) : (s.raiseEv p h o).boot = s.boot := rfl
@[simp] theorem State.raiseEv_sigs (s : State) (p h o : Nat) : (s.raiseEv p h o).sigs = s.sigs := rfl
@[simp] theorem State.raiseEv_out (s : State) (p h o : Nat) : (s.raiseEv p h o).out = s.out := rfl
@[simp] theorem State.raiseEv_poison (s : State) (p h o : Nat) : (s.raiseEv p h o).poison = s.poison := rfl
@[simp] theorem State.raiseEv_lpoison (s : State) (p h o : Nat) : (s.raiseEv p h o).lpoison = s.lpoison := rfl
@[simp] theorem State.raiseEv_cpoison (s : State) (p h o : Nat) : (s.raiseEv p h o).cpoison = s.cpoison := rfl
@[simp] theorem State.raiseEv_streams (s : State) (p h o : Nat) : (s.raiseEv p h o).streams = s.streams := rfl
@[simp] theorem State.raiseEv_eth (s : State) (p h o : Nat) : (s.raiseEv p h o).eth = s.eth := rfl
@[simp] theorem State.raiseEv_toMill (s : State) (p h o : Nat) : (s.raiseEv p h o).toMill = s.toMill := rfl
@[simp] theorem State.raiseEv_pars (s : State) (p h o : Nat) : (s.raiseEv p h o).pars = s.pars := rfl
@[simp] theorem State.raiseEv_trigs (s : State) (p h o : Nat) : (s.raiseEv p h o).trigs = s.trigs := rfl
@[simp] theorem State.raiseEv_gpios (s : State) (p h o : Nat) : (s.raiseEv p h o).gpios = s.gpios := rfl
@[simp] theorem State.raiseEv_mills (s : State) (p h o : Nat) : (s.raiseEv p h o).mills = s.mills := rfl
@[simp] theorem State.raiseEv_millLast (s : State) (p h o : Nat) : (s.raiseEv p h o).millLast = s.millLast := rfl
@[simp] theorem State.raiseEv_millPos (s : State) (p h o : Nat) : (s.raiseEv p h o).millPos = s.millPos := rfl
@[simp] theorem State.raiseEv_toCol (s : State) (p h o : Nat) : (s.raiseEv p h o).toCol = s.toCol := rfl
@[simp] theorem State.raiseEv_toTap (s : State) (p h o : Nat) : (s.raiseEv p h o).toTap = s.toTap := rfl
@[simp] theorem State.raiseEv_seqs (s : State) (p h o : Nat) : (s.raiseEv p h o).seqs = s.seqs := rfl
@[simp] theorem State.raiseEv_members (s : State) (p h o : Nat) : (s.raiseEv p h o).members = s.members := rfl
@[simp] theorem State.raiseEv_toLink (s : State) (p h o : Nat) : (s.raiseEv p h o).toLink = s.toLink := rfl
@[simp] theorem State.raiseEv_strips (s : State) (p h o : Nat) : (s.raiseEv p h o).strips = s.strips := rfl
@[simp] theorem State.raiseEv_hedQ (s : State) (p h o : Nat) : (s.raiseEv p h o).hedQ = s.hedQ := rfl
@[simp] theorem State.raiseEv_hunits (s : State) (p h o : Nat) : (s.raiseEv p h o).hunits = s.hunits := rfl
@[simp] theorem State.raiseEv_outs (s : State) (p h o : Nat) : (s.raiseEv p h o).outs = s.outs := rfl
@[simp] theorem State.raiseEv_sheafHeads (s : State) (p h o : Nat) : (s.raiseEv p h o).sheafHeads = s.sheafHeads := rfl
@[simp] theorem State.raiseEv_hunitNo (s : State) (p h o : Nat) : (s.raiseEv p h o).hunitNo = s.hunitNo := rfl
@[simp] theorem State.raiseEv_boxes (s : State) (p h o : Nat) : (s.raiseEv p h o).boxes = s.boxes := rfl
@[simp] theorem State.raiseEv_thr (s : State) (p h o : Nat) : (s.raiseEv p h o).thr = s.thr := rfl
@[simp] theorem State.raiseEv_gran (s : State) (p h o : Nat) : (s.raiseEv p h o).gran = s.gran := rfl
@[simp] theorem State.raiseEv_offers (s : State) (p h o : Nat) : (s.raiseEv p h o).offers = s.offers := rfl
@[simp] theorem State.raiseEv_rings (s : State) (p h o : Nat) : (s.raiseEv p h o).rings = s.rings := rfl
@[simp] theorem State.raiseEv_cqs (s : State) (p h o : Nat) : (s.raiseEv p h o).cqs = s.cqs := rfl
@[simp] theorem State.raiseEv_dmas (s : State) (p h o : Nat) : (s.raiseEv p h o).dmas = s.dmas := rfl
@[simp] theorem State.raiseEv_reads (s : State) (p h o : Nat) : (s.raiseEv p h o).reads = s.reads := rfl
@[simp] theorem State.raiseEv_signQ (s : State) (p h o : Nat) : (s.raiseEv p h o).signQ = s.signQ := rfl
@[simp] theorem State.raiseEv_fuses (s : State) (p h o : Nat) : (s.raiseEv p h o).fuses = s.fuses := rfl
@[simp] theorem State.raiseEv_pci (s : State) (p h o : Nat) : (s.raiseEv p h o).pci = s.pci := rfl
@[simp] theorem State.raiseEv_sched (s : State) (p h o : Nat) : (s.raiseEv p h o).sched = s.sched := rfl
@[simp] theorem State.raiseEv_spdm (s : State) (p h o : Nat) : (s.raiseEv p h o).spdm = s.spdm := rfl
@[simp] theorem State.raiseEv_ebk (s : State) (p h o : Nat) : (s.raiseEv p h o).ebk = s.ebk := rfl
@[simp] theorem State.raiseEv_rpl (s : State) (p h o : Nat) : (s.raiseEv p h o).rpl = s.rpl := rfl
@[simp] theorem State.raiseEv_twi (s : State) (p h o : Nat) : (s.raiseEv p h o).twi = s.twi := rfl

/-! #### setLatch -/
@[simp] theorem State.setLatch_now (s : State) (r : Requester) (a : Nat) (w : Word) : (s.setLatch r a w).now = s.now := rfl
@[simp] theorem State.setLatch_pending (s : State) (r : Requester) (a : Nat) (w : Word) : (s.setLatch r a w).pending = s.pending := rfl
@[simp] theorem State.setLatch_regs (s : State) (r : Requester) (a : Nat) (w : Word) : (s.setLatch r a w).regs = s.regs := rfl
@[simp] theorem State.setLatch_live (s : State) (r : Requester) (a : Nat) (w : Word) : (s.setLatch r a w).live = s.live := rfl
@[simp] theorem State.setLatch_pendLo (s : State) (r : Requester) (a : Nat) (w : Word) : (s.setLatch r a w).pendLo = s.pendLo := rfl
@[simp] theorem State.setLatch_bufs (s : State) (r : Requester) (a : Nat) (w : Word) : (s.setLatch r a w).bufs = s.bufs := rfl
@[simp] theorem State.setLatch_lmem (s : State) (r : Requester) (a : Nat) (w : Word) : (s.setLatch r a w).lmem = s.lmem := rfl
@[simp] theorem State.setLatch_cmem (s : State) (r : Requester) (a : Nat) (w : Word) : (s.setLatch r a w).cmem = s.cmem := rfl
@[simp] theorem State.setLatch_dmem (s : State) (r : Requester) (a : Nat) (w : Word) : (s.setLatch r a w).dmem = s.dmem := rfl
@[simp] theorem State.setLatch_tim (s : State) (r : Requester) (a : Nat) (w : Word) : (s.setLatch r a w).tim = s.tim := rfl
@[simp] theorem State.setLatch_axes (s : State) (r : Requester) (a : Nat) (w : Word) : (s.setLatch r a w).axes = s.axes := rfl
@[simp] theorem State.setLatch_chans (s : State) (r : Requester) (a : Nat) (w : Word) : (s.setLatch r a w).chans = s.chans := rfl
@[simp] theorem State.setLatch_slots (s : State) (r : Requester) (a : Nat) (w : Word) : (s.setLatch r a w).slots = s.slots := rfl
@[simp] theorem State.setLatch_evq (s : State) (r : Requester) (a : Nat) (w : Word) : (s.setLatch r a w).evq = s.evq := rfl
@[simp] theorem State.setLatch_inputs (s : State) (r : Requester) (a : Nat) (w : Word) : (s.setLatch r a w).inputs = s.inputs := rfl
@[simp] theorem State.setLatch_grpOn (s : State) (r : Requester) (a : Nat) (w : Word) : (s.setLatch r a w).grpOn = s.grpOn := rfl
@[simp] theorem State.setLatch_grpOff (s : State) (r : Requester) (a : Nat) (w : Word) : (s.setLatch r a w).grpOff = s.grpOff := rfl
@[simp] theorem State.setLatch_cores (s : State) (r : Requester) (a : Nat) (w : Word) : (s.setLatch r a w).cores = s.cores := rfl
@[simp] theorem State.setLatch_loader (s : State) (r : Requester) (a : Nat) (w : Word) : (s.setLatch r a w).loader = s.loader := rfl
@[simp] theorem State.setLatch_mboxes (s : State) (r : Requester) (a : Nat) (w : Word) : (s.setLatch r a w).mboxes = s.mboxes := rfl
@[simp] theorem State.setLatch_ras (s : State) (r : Requester) (a : Nat) (w : Word) : (s.setLatch r a w).ras = s.ras := rfl
@[simp] theorem State.setLatch_freeCtr (s : State) (r : Requester) (a : Nat) (w : Word) : (s.setLatch r a w).freeCtr = s.freeCtr := rfl
@[simp] theorem State.setLatch_boot (s : State) (r : Requester) (a : Nat) (w : Word) : (s.setLatch r a w).boot = s.boot := rfl
@[simp] theorem State.setLatch_sigs (s : State) (r : Requester) (a : Nat) (w : Word) : (s.setLatch r a w).sigs = s.sigs := rfl
@[simp] theorem State.setLatch_out (s : State) (r : Requester) (a : Nat) (w : Word) : (s.setLatch r a w).out = s.out := rfl
@[simp] theorem State.setLatch_poison (s : State) (r : Requester) (a : Nat) (w : Word) : (s.setLatch r a w).poison = s.poison := rfl
@[simp] theorem State.setLatch_lpoison (s : State) (r : Requester) (a : Nat) (w : Word) : (s.setLatch r a w).lpoison = s.lpoison := rfl
@[simp] theorem State.setLatch_cpoison (s : State) (r : Requester) (a : Nat) (w : Word) : (s.setLatch r a w).cpoison = s.cpoison := rfl
@[simp] theorem State.setLatch_streams (s : State) (r : Requester) (a : Nat) (w : Word) : (s.setLatch r a w).streams = s.streams := rfl
@[simp] theorem State.setLatch_eth (s : State) (r : Requester) (a : Nat) (w : Word) : (s.setLatch r a w).eth = s.eth := rfl
@[simp] theorem State.setLatch_toMill (s : State) (r : Requester) (a : Nat) (w : Word) : (s.setLatch r a w).toMill = s.toMill := rfl
@[simp] theorem State.setLatch_pars (s : State) (r : Requester) (a : Nat) (w : Word) : (s.setLatch r a w).pars = s.pars := rfl
@[simp] theorem State.setLatch_trigs (s : State) (r : Requester) (a : Nat) (w : Word) : (s.setLatch r a w).trigs = s.trigs := rfl
@[simp] theorem State.setLatch_gpios (s : State) (r : Requester) (a : Nat) (w : Word) : (s.setLatch r a w).gpios = s.gpios := rfl
@[simp] theorem State.setLatch_mills (s : State) (r : Requester) (a : Nat) (w : Word) : (s.setLatch r a w).mills = s.mills := rfl
@[simp] theorem State.setLatch_millLast (s : State) (r : Requester) (a : Nat) (w : Word) : (s.setLatch r a w).millLast = s.millLast := rfl
@[simp] theorem State.setLatch_millPos (s : State) (r : Requester) (a : Nat) (w : Word) : (s.setLatch r a w).millPos = s.millPos := rfl
@[simp] theorem State.setLatch_toCol (s : State) (r : Requester) (a : Nat) (w : Word) : (s.setLatch r a w).toCol = s.toCol := rfl
@[simp] theorem State.setLatch_toTap (s : State) (r : Requester) (a : Nat) (w : Word) : (s.setLatch r a w).toTap = s.toTap := rfl
@[simp] theorem State.setLatch_seqs (s : State) (r : Requester) (a : Nat) (w : Word) : (s.setLatch r a w).seqs = s.seqs := rfl
@[simp] theorem State.setLatch_members (s : State) (r : Requester) (a : Nat) (w : Word) : (s.setLatch r a w).members = s.members := rfl
@[simp] theorem State.setLatch_toLink (s : State) (r : Requester) (a : Nat) (w : Word) : (s.setLatch r a w).toLink = s.toLink := rfl
@[simp] theorem State.setLatch_strips (s : State) (r : Requester) (a : Nat) (w : Word) : (s.setLatch r a w).strips = s.strips := rfl
@[simp] theorem State.setLatch_hedQ (s : State) (r : Requester) (a : Nat) (w : Word) : (s.setLatch r a w).hedQ = s.hedQ := rfl
@[simp] theorem State.setLatch_hunits (s : State) (r : Requester) (a : Nat) (w : Word) : (s.setLatch r a w).hunits = s.hunits := rfl
@[simp] theorem State.setLatch_outs (s : State) (r : Requester) (a : Nat) (w : Word) : (s.setLatch r a w).outs = s.outs := rfl
@[simp] theorem State.setLatch_sheafHeads (s : State) (r : Requester) (a : Nat) (w : Word) : (s.setLatch r a w).sheafHeads = s.sheafHeads := rfl
@[simp] theorem State.setLatch_hunitNo (s : State) (r : Requester) (a : Nat) (w : Word) : (s.setLatch r a w).hunitNo = s.hunitNo := rfl
@[simp] theorem State.setLatch_boxes (s : State) (r : Requester) (a : Nat) (w : Word) : (s.setLatch r a w).boxes = s.boxes := rfl
@[simp] theorem State.setLatch_thr (s : State) (r : Requester) (a : Nat) (w : Word) : (s.setLatch r a w).thr = s.thr := rfl
@[simp] theorem State.setLatch_gran (s : State) (r : Requester) (a : Nat) (w : Word) : (s.setLatch r a w).gran = s.gran := rfl
@[simp] theorem State.setLatch_offers (s : State) (r : Requester) (a : Nat) (w : Word) : (s.setLatch r a w).offers = s.offers := rfl
@[simp] theorem State.setLatch_rings (s : State) (r : Requester) (a : Nat) (w : Word) : (s.setLatch r a w).rings = s.rings := rfl
@[simp] theorem State.setLatch_cqs (s : State) (r : Requester) (a : Nat) (w : Word) : (s.setLatch r a w).cqs = s.cqs := rfl
@[simp] theorem State.setLatch_dmas (s : State) (r : Requester) (a : Nat) (w : Word) : (s.setLatch r a w).dmas = s.dmas := rfl
@[simp] theorem State.setLatch_reads (s : State) (r : Requester) (a : Nat) (w : Word) : (s.setLatch r a w).reads = s.reads := rfl
@[simp] theorem State.setLatch_signQ (s : State) (r : Requester) (a : Nat) (w : Word) : (s.setLatch r a w).signQ = s.signQ := rfl
@[simp] theorem State.setLatch_fuses (s : State) (r : Requester) (a : Nat) (w : Word) : (s.setLatch r a w).fuses = s.fuses := rfl
@[simp] theorem State.setLatch_pci (s : State) (r : Requester) (a : Nat) (w : Word) : (s.setLatch r a w).pci = s.pci := rfl
@[simp] theorem State.setLatch_sched (s : State) (r : Requester) (a : Nat) (w : Word) : (s.setLatch r a w).sched = s.sched := rfl
@[simp] theorem State.setLatch_spdm (s : State) (r : Requester) (a : Nat) (w : Word) : (s.setLatch r a w).spdm = s.spdm := rfl
@[simp] theorem State.setLatch_ebk (s : State) (r : Requester) (a : Nat) (w : Word) : (s.setLatch r a w).ebk = s.ebk := rfl
@[simp] theorem State.setLatch_rpl (s : State) (r : Requester) (a : Nat) (w : Word) : (s.setLatch r a w).rpl = s.rpl := rfl
@[simp] theorem State.setLatch_twi (s : State) (r : Requester) (a : Nat) (w : Word) : (s.setLatch r a w).twi = s.twi := rfl

/-! #### setPendLo -/
@[simp] theorem State.setPendLo_now (s : State) (r : Requester) (a : Nat) (w : Word) : (s.setPendLo r a w).now = s.now := rfl
@[simp] theorem State.setPendLo_pending (s : State) (r : Requester) (a : Nat) (w : Word) : (s.setPendLo r a w).pending = s.pending := rfl
@[simp] theorem State.setPendLo_regs (s : State) (r : Requester) (a : Nat) (w : Word) : (s.setPendLo r a w).regs = s.regs := rfl
@[simp] theorem State.setPendLo_live (s : State) (r : Requester) (a : Nat) (w : Word) : (s.setPendLo r a w).live = s.live := rfl
@[simp] theorem State.setPendLo_latch (s : State) (r : Requester) (a : Nat) (w : Word) : (s.setPendLo r a w).latch = s.latch := rfl
@[simp] theorem State.setPendLo_bufs (s : State) (r : Requester) (a : Nat) (w : Word) : (s.setPendLo r a w).bufs = s.bufs := rfl
@[simp] theorem State.setPendLo_lmem (s : State) (r : Requester) (a : Nat) (w : Word) : (s.setPendLo r a w).lmem = s.lmem := rfl
@[simp] theorem State.setPendLo_cmem (s : State) (r : Requester) (a : Nat) (w : Word) : (s.setPendLo r a w).cmem = s.cmem := rfl
@[simp] theorem State.setPendLo_dmem (s : State) (r : Requester) (a : Nat) (w : Word) : (s.setPendLo r a w).dmem = s.dmem := rfl
@[simp] theorem State.setPendLo_tim (s : State) (r : Requester) (a : Nat) (w : Word) : (s.setPendLo r a w).tim = s.tim := rfl
@[simp] theorem State.setPendLo_axes (s : State) (r : Requester) (a : Nat) (w : Word) : (s.setPendLo r a w).axes = s.axes := rfl
@[simp] theorem State.setPendLo_chans (s : State) (r : Requester) (a : Nat) (w : Word) : (s.setPendLo r a w).chans = s.chans := rfl
@[simp] theorem State.setPendLo_slots (s : State) (r : Requester) (a : Nat) (w : Word) : (s.setPendLo r a w).slots = s.slots := rfl
@[simp] theorem State.setPendLo_evq (s : State) (r : Requester) (a : Nat) (w : Word) : (s.setPendLo r a w).evq = s.evq := rfl
@[simp] theorem State.setPendLo_inputs (s : State) (r : Requester) (a : Nat) (w : Word) : (s.setPendLo r a w).inputs = s.inputs := rfl
@[simp] theorem State.setPendLo_grpOn (s : State) (r : Requester) (a : Nat) (w : Word) : (s.setPendLo r a w).grpOn = s.grpOn := rfl
@[simp] theorem State.setPendLo_grpOff (s : State) (r : Requester) (a : Nat) (w : Word) : (s.setPendLo r a w).grpOff = s.grpOff := rfl
@[simp] theorem State.setPendLo_cores (s : State) (r : Requester) (a : Nat) (w : Word) : (s.setPendLo r a w).cores = s.cores := rfl
@[simp] theorem State.setPendLo_loader (s : State) (r : Requester) (a : Nat) (w : Word) : (s.setPendLo r a w).loader = s.loader := rfl
@[simp] theorem State.setPendLo_mboxes (s : State) (r : Requester) (a : Nat) (w : Word) : (s.setPendLo r a w).mboxes = s.mboxes := rfl
@[simp] theorem State.setPendLo_ras (s : State) (r : Requester) (a : Nat) (w : Word) : (s.setPendLo r a w).ras = s.ras := rfl
@[simp] theorem State.setPendLo_freeCtr (s : State) (r : Requester) (a : Nat) (w : Word) : (s.setPendLo r a w).freeCtr = s.freeCtr := rfl
@[simp] theorem State.setPendLo_boot (s : State) (r : Requester) (a : Nat) (w : Word) : (s.setPendLo r a w).boot = s.boot := rfl
@[simp] theorem State.setPendLo_sigs (s : State) (r : Requester) (a : Nat) (w : Word) : (s.setPendLo r a w).sigs = s.sigs := rfl
@[simp] theorem State.setPendLo_out (s : State) (r : Requester) (a : Nat) (w : Word) : (s.setPendLo r a w).out = s.out := rfl
@[simp] theorem State.setPendLo_poison (s : State) (r : Requester) (a : Nat) (w : Word) : (s.setPendLo r a w).poison = s.poison := rfl
@[simp] theorem State.setPendLo_lpoison (s : State) (r : Requester) (a : Nat) (w : Word) : (s.setPendLo r a w).lpoison = s.lpoison := rfl
@[simp] theorem State.setPendLo_cpoison (s : State) (r : Requester) (a : Nat) (w : Word) : (s.setPendLo r a w).cpoison = s.cpoison := rfl
@[simp] theorem State.setPendLo_streams (s : State) (r : Requester) (a : Nat) (w : Word) : (s.setPendLo r a w).streams = s.streams := rfl
@[simp] theorem State.setPendLo_eth (s : State) (r : Requester) (a : Nat) (w : Word) : (s.setPendLo r a w).eth = s.eth := rfl
@[simp] theorem State.setPendLo_toMill (s : State) (r : Requester) (a : Nat) (w : Word) : (s.setPendLo r a w).toMill = s.toMill := rfl
@[simp] theorem State.setPendLo_pars (s : State) (r : Requester) (a : Nat) (w : Word) : (s.setPendLo r a w).pars = s.pars := rfl
@[simp] theorem State.setPendLo_trigs (s : State) (r : Requester) (a : Nat) (w : Word) : (s.setPendLo r a w).trigs = s.trigs := rfl
@[simp] theorem State.setPendLo_gpios (s : State) (r : Requester) (a : Nat) (w : Word) : (s.setPendLo r a w).gpios = s.gpios := rfl
@[simp] theorem State.setPendLo_mills (s : State) (r : Requester) (a : Nat) (w : Word) : (s.setPendLo r a w).mills = s.mills := rfl
@[simp] theorem State.setPendLo_millLast (s : State) (r : Requester) (a : Nat) (w : Word) : (s.setPendLo r a w).millLast = s.millLast := rfl
@[simp] theorem State.setPendLo_millPos (s : State) (r : Requester) (a : Nat) (w : Word) : (s.setPendLo r a w).millPos = s.millPos := rfl
@[simp] theorem State.setPendLo_toCol (s : State) (r : Requester) (a : Nat) (w : Word) : (s.setPendLo r a w).toCol = s.toCol := rfl
@[simp] theorem State.setPendLo_toTap (s : State) (r : Requester) (a : Nat) (w : Word) : (s.setPendLo r a w).toTap = s.toTap := rfl
@[simp] theorem State.setPendLo_seqs (s : State) (r : Requester) (a : Nat) (w : Word) : (s.setPendLo r a w).seqs = s.seqs := rfl
@[simp] theorem State.setPendLo_members (s : State) (r : Requester) (a : Nat) (w : Word) : (s.setPendLo r a w).members = s.members := rfl
@[simp] theorem State.setPendLo_toLink (s : State) (r : Requester) (a : Nat) (w : Word) : (s.setPendLo r a w).toLink = s.toLink := rfl
@[simp] theorem State.setPendLo_strips (s : State) (r : Requester) (a : Nat) (w : Word) : (s.setPendLo r a w).strips = s.strips := rfl
@[simp] theorem State.setPendLo_hedQ (s : State) (r : Requester) (a : Nat) (w : Word) : (s.setPendLo r a w).hedQ = s.hedQ := rfl
@[simp] theorem State.setPendLo_hunits (s : State) (r : Requester) (a : Nat) (w : Word) : (s.setPendLo r a w).hunits = s.hunits := rfl
@[simp] theorem State.setPendLo_outs (s : State) (r : Requester) (a : Nat) (w : Word) : (s.setPendLo r a w).outs = s.outs := rfl
@[simp] theorem State.setPendLo_sheafHeads (s : State) (r : Requester) (a : Nat) (w : Word) : (s.setPendLo r a w).sheafHeads = s.sheafHeads := rfl
@[simp] theorem State.setPendLo_hunitNo (s : State) (r : Requester) (a : Nat) (w : Word) : (s.setPendLo r a w).hunitNo = s.hunitNo := rfl
@[simp] theorem State.setPendLo_boxes (s : State) (r : Requester) (a : Nat) (w : Word) : (s.setPendLo r a w).boxes = s.boxes := rfl
@[simp] theorem State.setPendLo_thr (s : State) (r : Requester) (a : Nat) (w : Word) : (s.setPendLo r a w).thr = s.thr := rfl
@[simp] theorem State.setPendLo_gran (s : State) (r : Requester) (a : Nat) (w : Word) : (s.setPendLo r a w).gran = s.gran := rfl
@[simp] theorem State.setPendLo_offers (s : State) (r : Requester) (a : Nat) (w : Word) : (s.setPendLo r a w).offers = s.offers := rfl
@[simp] theorem State.setPendLo_rings (s : State) (r : Requester) (a : Nat) (w : Word) : (s.setPendLo r a w).rings = s.rings := rfl
@[simp] theorem State.setPendLo_cqs (s : State) (r : Requester) (a : Nat) (w : Word) : (s.setPendLo r a w).cqs = s.cqs := rfl
@[simp] theorem State.setPendLo_dmas (s : State) (r : Requester) (a : Nat) (w : Word) : (s.setPendLo r a w).dmas = s.dmas := rfl
@[simp] theorem State.setPendLo_reads (s : State) (r : Requester) (a : Nat) (w : Word) : (s.setPendLo r a w).reads = s.reads := rfl
@[simp] theorem State.setPendLo_signQ (s : State) (r : Requester) (a : Nat) (w : Word) : (s.setPendLo r a w).signQ = s.signQ := rfl
@[simp] theorem State.setPendLo_fuses (s : State) (r : Requester) (a : Nat) (w : Word) : (s.setPendLo r a w).fuses = s.fuses := rfl
@[simp] theorem State.setPendLo_pci (s : State) (r : Requester) (a : Nat) (w : Word) : (s.setPendLo r a w).pci = s.pci := rfl
@[simp] theorem State.setPendLo_sched (s : State) (r : Requester) (a : Nat) (w : Word) : (s.setPendLo r a w).sched = s.sched := rfl
@[simp] theorem State.setPendLo_spdm (s : State) (r : Requester) (a : Nat) (w : Word) : (s.setPendLo r a w).spdm = s.spdm := rfl
@[simp] theorem State.setPendLo_ebk (s : State) (r : Requester) (a : Nat) (w : Word) : (s.setPendLo r a w).ebk = s.ebk := rfl
@[simp] theorem State.setPendLo_rpl (s : State) (r : Requester) (a : Nat) (w : Word) : (s.setPendLo r a w).rpl = s.rpl := rfl
@[simp] theorem State.setPendLo_twi (s : State) (r : Requester) (a : Nat) (w : Word) : (s.setPendLo r a w).twi = s.twi := rfl

/-! #### dropPendLo -/
@[simp] theorem State.dropPendLo_now (s : State) (r : Requester) (a : Nat) : (s.dropPendLo r a).now = s.now := rfl
@[simp] theorem State.dropPendLo_pending (s : State) (r : Requester) (a : Nat) : (s.dropPendLo r a).pending = s.pending := rfl
@[simp] theorem State.dropPendLo_regs (s : State) (r : Requester) (a : Nat) : (s.dropPendLo r a).regs = s.regs := rfl
@[simp] theorem State.dropPendLo_live (s : State) (r : Requester) (a : Nat) : (s.dropPendLo r a).live = s.live := rfl
@[simp] theorem State.dropPendLo_latch (s : State) (r : Requester) (a : Nat) : (s.dropPendLo r a).latch = s.latch := rfl
@[simp] theorem State.dropPendLo_bufs (s : State) (r : Requester) (a : Nat) : (s.dropPendLo r a).bufs = s.bufs := rfl
@[simp] theorem State.dropPendLo_lmem (s : State) (r : Requester) (a : Nat) : (s.dropPendLo r a).lmem = s.lmem := rfl
@[simp] theorem State.dropPendLo_cmem (s : State) (r : Requester) (a : Nat) : (s.dropPendLo r a).cmem = s.cmem := rfl
@[simp] theorem State.dropPendLo_dmem (s : State) (r : Requester) (a : Nat) : (s.dropPendLo r a).dmem = s.dmem := rfl
@[simp] theorem State.dropPendLo_tim (s : State) (r : Requester) (a : Nat) : (s.dropPendLo r a).tim = s.tim := rfl
@[simp] theorem State.dropPendLo_axes (s : State) (r : Requester) (a : Nat) : (s.dropPendLo r a).axes = s.axes := rfl
@[simp] theorem State.dropPendLo_chans (s : State) (r : Requester) (a : Nat) : (s.dropPendLo r a).chans = s.chans := rfl
@[simp] theorem State.dropPendLo_slots (s : State) (r : Requester) (a : Nat) : (s.dropPendLo r a).slots = s.slots := rfl
@[simp] theorem State.dropPendLo_evq (s : State) (r : Requester) (a : Nat) : (s.dropPendLo r a).evq = s.evq := rfl
@[simp] theorem State.dropPendLo_inputs (s : State) (r : Requester) (a : Nat) : (s.dropPendLo r a).inputs = s.inputs := rfl
@[simp] theorem State.dropPendLo_grpOn (s : State) (r : Requester) (a : Nat) : (s.dropPendLo r a).grpOn = s.grpOn := rfl
@[simp] theorem State.dropPendLo_grpOff (s : State) (r : Requester) (a : Nat) : (s.dropPendLo r a).grpOff = s.grpOff := rfl
@[simp] theorem State.dropPendLo_cores (s : State) (r : Requester) (a : Nat) : (s.dropPendLo r a).cores = s.cores := rfl
@[simp] theorem State.dropPendLo_loader (s : State) (r : Requester) (a : Nat) : (s.dropPendLo r a).loader = s.loader := rfl
@[simp] theorem State.dropPendLo_mboxes (s : State) (r : Requester) (a : Nat) : (s.dropPendLo r a).mboxes = s.mboxes := rfl
@[simp] theorem State.dropPendLo_ras (s : State) (r : Requester) (a : Nat) : (s.dropPendLo r a).ras = s.ras := rfl
@[simp] theorem State.dropPendLo_freeCtr (s : State) (r : Requester) (a : Nat) : (s.dropPendLo r a).freeCtr = s.freeCtr := rfl
@[simp] theorem State.dropPendLo_boot (s : State) (r : Requester) (a : Nat) : (s.dropPendLo r a).boot = s.boot := rfl
@[simp] theorem State.dropPendLo_sigs (s : State) (r : Requester) (a : Nat) : (s.dropPendLo r a).sigs = s.sigs := rfl
@[simp] theorem State.dropPendLo_out (s : State) (r : Requester) (a : Nat) : (s.dropPendLo r a).out = s.out := rfl
@[simp] theorem State.dropPendLo_poison (s : State) (r : Requester) (a : Nat) : (s.dropPendLo r a).poison = s.poison := rfl
@[simp] theorem State.dropPendLo_lpoison (s : State) (r : Requester) (a : Nat) : (s.dropPendLo r a).lpoison = s.lpoison := rfl
@[simp] theorem State.dropPendLo_cpoison (s : State) (r : Requester) (a : Nat) : (s.dropPendLo r a).cpoison = s.cpoison := rfl
@[simp] theorem State.dropPendLo_streams (s : State) (r : Requester) (a : Nat) : (s.dropPendLo r a).streams = s.streams := rfl
@[simp] theorem State.dropPendLo_eth (s : State) (r : Requester) (a : Nat) : (s.dropPendLo r a).eth = s.eth := rfl
@[simp] theorem State.dropPendLo_toMill (s : State) (r : Requester) (a : Nat) : (s.dropPendLo r a).toMill = s.toMill := rfl
@[simp] theorem State.dropPendLo_pars (s : State) (r : Requester) (a : Nat) : (s.dropPendLo r a).pars = s.pars := rfl
@[simp] theorem State.dropPendLo_trigs (s : State) (r : Requester) (a : Nat) : (s.dropPendLo r a).trigs = s.trigs := rfl
@[simp] theorem State.dropPendLo_gpios (s : State) (r : Requester) (a : Nat) : (s.dropPendLo r a).gpios = s.gpios := rfl
@[simp] theorem State.dropPendLo_mills (s : State) (r : Requester) (a : Nat) : (s.dropPendLo r a).mills = s.mills := rfl
@[simp] theorem State.dropPendLo_millLast (s : State) (r : Requester) (a : Nat) : (s.dropPendLo r a).millLast = s.millLast := rfl
@[simp] theorem State.dropPendLo_millPos (s : State) (r : Requester) (a : Nat) : (s.dropPendLo r a).millPos = s.millPos := rfl
@[simp] theorem State.dropPendLo_toCol (s : State) (r : Requester) (a : Nat) : (s.dropPendLo r a).toCol = s.toCol := rfl
@[simp] theorem State.dropPendLo_toTap (s : State) (r : Requester) (a : Nat) : (s.dropPendLo r a).toTap = s.toTap := rfl
@[simp] theorem State.dropPendLo_seqs (s : State) (r : Requester) (a : Nat) : (s.dropPendLo r a).seqs = s.seqs := rfl
@[simp] theorem State.dropPendLo_members (s : State) (r : Requester) (a : Nat) : (s.dropPendLo r a).members = s.members := rfl
@[simp] theorem State.dropPendLo_toLink (s : State) (r : Requester) (a : Nat) : (s.dropPendLo r a).toLink = s.toLink := rfl
@[simp] theorem State.dropPendLo_strips (s : State) (r : Requester) (a : Nat) : (s.dropPendLo r a).strips = s.strips := rfl
@[simp] theorem State.dropPendLo_hedQ (s : State) (r : Requester) (a : Nat) : (s.dropPendLo r a).hedQ = s.hedQ := rfl
@[simp] theorem State.dropPendLo_hunits (s : State) (r : Requester) (a : Nat) : (s.dropPendLo r a).hunits = s.hunits := rfl
@[simp] theorem State.dropPendLo_outs (s : State) (r : Requester) (a : Nat) : (s.dropPendLo r a).outs = s.outs := rfl
@[simp] theorem State.dropPendLo_sheafHeads (s : State) (r : Requester) (a : Nat) : (s.dropPendLo r a).sheafHeads = s.sheafHeads := rfl
@[simp] theorem State.dropPendLo_hunitNo (s : State) (r : Requester) (a : Nat) : (s.dropPendLo r a).hunitNo = s.hunitNo := rfl
@[simp] theorem State.dropPendLo_boxes (s : State) (r : Requester) (a : Nat) : (s.dropPendLo r a).boxes = s.boxes := rfl
@[simp] theorem State.dropPendLo_thr (s : State) (r : Requester) (a : Nat) : (s.dropPendLo r a).thr = s.thr := rfl
@[simp] theorem State.dropPendLo_gran (s : State) (r : Requester) (a : Nat) : (s.dropPendLo r a).gran = s.gran := rfl
@[simp] theorem State.dropPendLo_offers (s : State) (r : Requester) (a : Nat) : (s.dropPendLo r a).offers = s.offers := rfl
@[simp] theorem State.dropPendLo_rings (s : State) (r : Requester) (a : Nat) : (s.dropPendLo r a).rings = s.rings := rfl
@[simp] theorem State.dropPendLo_cqs (s : State) (r : Requester) (a : Nat) : (s.dropPendLo r a).cqs = s.cqs := rfl
@[simp] theorem State.dropPendLo_dmas (s : State) (r : Requester) (a : Nat) : (s.dropPendLo r a).dmas = s.dmas := rfl
@[simp] theorem State.dropPendLo_reads (s : State) (r : Requester) (a : Nat) : (s.dropPendLo r a).reads = s.reads := rfl
@[simp] theorem State.dropPendLo_signQ (s : State) (r : Requester) (a : Nat) : (s.dropPendLo r a).signQ = s.signQ := rfl
@[simp] theorem State.dropPendLo_fuses (s : State) (r : Requester) (a : Nat) : (s.dropPendLo r a).fuses = s.fuses := rfl
@[simp] theorem State.dropPendLo_pci (s : State) (r : Requester) (a : Nat) : (s.dropPendLo r a).pci = s.pci := rfl
@[simp] theorem State.dropPendLo_sched (s : State) (r : Requester) (a : Nat) : (s.dropPendLo r a).sched = s.sched := rfl
@[simp] theorem State.dropPendLo_spdm (s : State) (r : Requester) (a : Nat) : (s.dropPendLo r a).spdm = s.spdm := rfl
@[simp] theorem State.dropPendLo_ebk (s : State) (r : Requester) (a : Nat) : (s.dropPendLo r a).ebk = s.ebk := rfl
@[simp] theorem State.dropPendLo_rpl (s : State) (r : Requester) (a : Nat) : (s.dropPendLo r a).rpl = s.rpl := rfl
@[simp] theorem State.dropPendLo_twi (s : State) (r : Requester) (a : Nat) : (s.dropPendLo r a).twi = s.twi := rfl

/-! #### bwrite -/
@[simp] theorem State.bwrite_now (s : State) (a : Nat) (l : List (BitVec 8)) : (s.bwrite a l).now = s.now := rfl
@[simp] theorem State.bwrite_pending (s : State) (a : Nat) (l : List (BitVec 8)) : (s.bwrite a l).pending = s.pending := rfl
@[simp] theorem State.bwrite_regs (s : State) (a : Nat) (l : List (BitVec 8)) : (s.bwrite a l).regs = s.regs := rfl
@[simp] theorem State.bwrite_live (s : State) (a : Nat) (l : List (BitVec 8)) : (s.bwrite a l).live = s.live := rfl
@[simp] theorem State.bwrite_latch (s : State) (a : Nat) (l : List (BitVec 8)) : (s.bwrite a l).latch = s.latch := rfl
@[simp] theorem State.bwrite_pendLo (s : State) (a : Nat) (l : List (BitVec 8)) : (s.bwrite a l).pendLo = s.pendLo := rfl
@[simp] theorem State.bwrite_lmem (s : State) (a : Nat) (l : List (BitVec 8)) : (s.bwrite a l).lmem = s.lmem := rfl
@[simp] theorem State.bwrite_cmem (s : State) (a : Nat) (l : List (BitVec 8)) : (s.bwrite a l).cmem = s.cmem := rfl
@[simp] theorem State.bwrite_dmem (s : State) (a : Nat) (l : List (BitVec 8)) : (s.bwrite a l).dmem = s.dmem := rfl
@[simp] theorem State.bwrite_tim (s : State) (a : Nat) (l : List (BitVec 8)) : (s.bwrite a l).tim = s.tim := rfl
@[simp] theorem State.bwrite_axes (s : State) (a : Nat) (l : List (BitVec 8)) : (s.bwrite a l).axes = s.axes := rfl
@[simp] theorem State.bwrite_chans (s : State) (a : Nat) (l : List (BitVec 8)) : (s.bwrite a l).chans = s.chans := rfl
@[simp] theorem State.bwrite_slots (s : State) (a : Nat) (l : List (BitVec 8)) : (s.bwrite a l).slots = s.slots := rfl
@[simp] theorem State.bwrite_evq (s : State) (a : Nat) (l : List (BitVec 8)) : (s.bwrite a l).evq = s.evq := rfl
@[simp] theorem State.bwrite_inputs (s : State) (a : Nat) (l : List (BitVec 8)) : (s.bwrite a l).inputs = s.inputs := rfl
@[simp] theorem State.bwrite_grpOn (s : State) (a : Nat) (l : List (BitVec 8)) : (s.bwrite a l).grpOn = s.grpOn := rfl
@[simp] theorem State.bwrite_grpOff (s : State) (a : Nat) (l : List (BitVec 8)) : (s.bwrite a l).grpOff = s.grpOff := rfl
@[simp] theorem State.bwrite_cores (s : State) (a : Nat) (l : List (BitVec 8)) : (s.bwrite a l).cores = s.cores := rfl
@[simp] theorem State.bwrite_loader (s : State) (a : Nat) (l : List (BitVec 8)) : (s.bwrite a l).loader = s.loader := rfl
@[simp] theorem State.bwrite_mboxes (s : State) (a : Nat) (l : List (BitVec 8)) : (s.bwrite a l).mboxes = s.mboxes := rfl
@[simp] theorem State.bwrite_ras (s : State) (a : Nat) (l : List (BitVec 8)) : (s.bwrite a l).ras = s.ras := rfl
@[simp] theorem State.bwrite_freeCtr (s : State) (a : Nat) (l : List (BitVec 8)) : (s.bwrite a l).freeCtr = s.freeCtr := rfl
@[simp] theorem State.bwrite_boot (s : State) (a : Nat) (l : List (BitVec 8)) : (s.bwrite a l).boot = s.boot := rfl
@[simp] theorem State.bwrite_sigs (s : State) (a : Nat) (l : List (BitVec 8)) : (s.bwrite a l).sigs = s.sigs := rfl
@[simp] theorem State.bwrite_out (s : State) (a : Nat) (l : List (BitVec 8)) : (s.bwrite a l).out = s.out := rfl
@[simp] theorem State.bwrite_poison (s : State) (a : Nat) (l : List (BitVec 8)) : (s.bwrite a l).poison = s.poison := rfl
@[simp] theorem State.bwrite_lpoison (s : State) (a : Nat) (l : List (BitVec 8)) : (s.bwrite a l).lpoison = s.lpoison := rfl
@[simp] theorem State.bwrite_cpoison (s : State) (a : Nat) (l : List (BitVec 8)) : (s.bwrite a l).cpoison = s.cpoison := rfl
@[simp] theorem State.bwrite_streams (s : State) (a : Nat) (l : List (BitVec 8)) : (s.bwrite a l).streams = s.streams := rfl
@[simp] theorem State.bwrite_eth (s : State) (a : Nat) (l : List (BitVec 8)) : (s.bwrite a l).eth = s.eth := rfl
@[simp] theorem State.bwrite_toMill (s : State) (a : Nat) (l : List (BitVec 8)) : (s.bwrite a l).toMill = s.toMill := rfl
@[simp] theorem State.bwrite_pars (s : State) (a : Nat) (l : List (BitVec 8)) : (s.bwrite a l).pars = s.pars := rfl
@[simp] theorem State.bwrite_trigs (s : State) (a : Nat) (l : List (BitVec 8)) : (s.bwrite a l).trigs = s.trigs := rfl
@[simp] theorem State.bwrite_gpios (s : State) (a : Nat) (l : List (BitVec 8)) : (s.bwrite a l).gpios = s.gpios := rfl
@[simp] theorem State.bwrite_mills (s : State) (a : Nat) (l : List (BitVec 8)) : (s.bwrite a l).mills = s.mills := rfl
@[simp] theorem State.bwrite_millLast (s : State) (a : Nat) (l : List (BitVec 8)) : (s.bwrite a l).millLast = s.millLast := rfl
@[simp] theorem State.bwrite_millPos (s : State) (a : Nat) (l : List (BitVec 8)) : (s.bwrite a l).millPos = s.millPos := rfl
@[simp] theorem State.bwrite_toCol (s : State) (a : Nat) (l : List (BitVec 8)) : (s.bwrite a l).toCol = s.toCol := rfl
@[simp] theorem State.bwrite_toTap (s : State) (a : Nat) (l : List (BitVec 8)) : (s.bwrite a l).toTap = s.toTap := rfl
@[simp] theorem State.bwrite_seqs (s : State) (a : Nat) (l : List (BitVec 8)) : (s.bwrite a l).seqs = s.seqs := rfl
@[simp] theorem State.bwrite_members (s : State) (a : Nat) (l : List (BitVec 8)) : (s.bwrite a l).members = s.members := rfl
@[simp] theorem State.bwrite_toLink (s : State) (a : Nat) (l : List (BitVec 8)) : (s.bwrite a l).toLink = s.toLink := rfl
@[simp] theorem State.bwrite_strips (s : State) (a : Nat) (l : List (BitVec 8)) : (s.bwrite a l).strips = s.strips := rfl
@[simp] theorem State.bwrite_hedQ (s : State) (a : Nat) (l : List (BitVec 8)) : (s.bwrite a l).hedQ = s.hedQ := rfl
@[simp] theorem State.bwrite_hunits (s : State) (a : Nat) (l : List (BitVec 8)) : (s.bwrite a l).hunits = s.hunits := rfl
@[simp] theorem State.bwrite_outs (s : State) (a : Nat) (l : List (BitVec 8)) : (s.bwrite a l).outs = s.outs := rfl
@[simp] theorem State.bwrite_sheafHeads (s : State) (a : Nat) (l : List (BitVec 8)) : (s.bwrite a l).sheafHeads = s.sheafHeads := rfl
@[simp] theorem State.bwrite_hunitNo (s : State) (a : Nat) (l : List (BitVec 8)) : (s.bwrite a l).hunitNo = s.hunitNo := rfl
@[simp] theorem State.bwrite_boxes (s : State) (a : Nat) (l : List (BitVec 8)) : (s.bwrite a l).boxes = s.boxes := rfl
@[simp] theorem State.bwrite_thr (s : State) (a : Nat) (l : List (BitVec 8)) : (s.bwrite a l).thr = s.thr := rfl
@[simp] theorem State.bwrite_gran (s : State) (a : Nat) (l : List (BitVec 8)) : (s.bwrite a l).gran = s.gran := rfl
@[simp] theorem State.bwrite_offers (s : State) (a : Nat) (l : List (BitVec 8)) : (s.bwrite a l).offers = s.offers := rfl
@[simp] theorem State.bwrite_rings (s : State) (a : Nat) (l : List (BitVec 8)) : (s.bwrite a l).rings = s.rings := rfl
@[simp] theorem State.bwrite_cqs (s : State) (a : Nat) (l : List (BitVec 8)) : (s.bwrite a l).cqs = s.cqs := rfl
@[simp] theorem State.bwrite_dmas (s : State) (a : Nat) (l : List (BitVec 8)) : (s.bwrite a l).dmas = s.dmas := rfl
@[simp] theorem State.bwrite_reads (s : State) (a : Nat) (l : List (BitVec 8)) : (s.bwrite a l).reads = s.reads := rfl
@[simp] theorem State.bwrite_signQ (s : State) (a : Nat) (l : List (BitVec 8)) : (s.bwrite a l).signQ = s.signQ := rfl
@[simp] theorem State.bwrite_fuses (s : State) (a : Nat) (l : List (BitVec 8)) : (s.bwrite a l).fuses = s.fuses := rfl
@[simp] theorem State.bwrite_pci (s : State) (a : Nat) (l : List (BitVec 8)) : (s.bwrite a l).pci = s.pci := rfl
@[simp] theorem State.bwrite_sched (s : State) (a : Nat) (l : List (BitVec 8)) : (s.bwrite a l).sched = s.sched := rfl
@[simp] theorem State.bwrite_spdm (s : State) (a : Nat) (l : List (BitVec 8)) : (s.bwrite a l).spdm = s.spdm := rfl
@[simp] theorem State.bwrite_ebk (s : State) (a : Nat) (l : List (BitVec 8)) : (s.bwrite a l).ebk = s.ebk := rfl
@[simp] theorem State.bwrite_rpl (s : State) (a : Nat) (l : List (BitVec 8)) : (s.bwrite a l).rpl = s.rpl := rfl
@[simp] theorem State.bwrite_twi (s : State) (a : Nat) (l : List (BitVec 8)) : (s.bwrite a l).twi = s.twi := rfl

/-! #### setAxis -/
@[simp] theorem State.setAxis_now (s : State) (n : Nat) (x : AxisSt) : (s.setAxis n x).now = s.now := rfl
@[simp] theorem State.setAxis_pending (s : State) (n : Nat) (x : AxisSt) : (s.setAxis n x).pending = s.pending := rfl
@[simp] theorem State.setAxis_regs (s : State) (n : Nat) (x : AxisSt) : (s.setAxis n x).regs = s.regs := rfl
@[simp] theorem State.setAxis_live (s : State) (n : Nat) (x : AxisSt) : (s.setAxis n x).live = s.live := rfl
@[simp] theorem State.setAxis_latch (s : State) (n : Nat) (x : AxisSt) : (s.setAxis n x).latch = s.latch := rfl
@[simp] theorem State.setAxis_pendLo (s : State) (n : Nat) (x : AxisSt) : (s.setAxis n x).pendLo = s.pendLo := rfl
@[simp] theorem State.setAxis_bufs (s : State) (n : Nat) (x : AxisSt) : (s.setAxis n x).bufs = s.bufs := rfl
@[simp] theorem State.setAxis_lmem (s : State) (n : Nat) (x : AxisSt) : (s.setAxis n x).lmem = s.lmem := rfl
@[simp] theorem State.setAxis_cmem (s : State) (n : Nat) (x : AxisSt) : (s.setAxis n x).cmem = s.cmem := rfl
@[simp] theorem State.setAxis_dmem (s : State) (n : Nat) (x : AxisSt) : (s.setAxis n x).dmem = s.dmem := rfl
@[simp] theorem State.setAxis_tim (s : State) (n : Nat) (x : AxisSt) : (s.setAxis n x).tim = s.tim := rfl
@[simp] theorem State.setAxis_chans (s : State) (n : Nat) (x : AxisSt) : (s.setAxis n x).chans = s.chans := rfl
@[simp] theorem State.setAxis_slots (s : State) (n : Nat) (x : AxisSt) : (s.setAxis n x).slots = s.slots := rfl
@[simp] theorem State.setAxis_evq (s : State) (n : Nat) (x : AxisSt) : (s.setAxis n x).evq = s.evq := rfl
@[simp] theorem State.setAxis_inputs (s : State) (n : Nat) (x : AxisSt) : (s.setAxis n x).inputs = s.inputs := rfl
@[simp] theorem State.setAxis_grpOn (s : State) (n : Nat) (x : AxisSt) : (s.setAxis n x).grpOn = s.grpOn := rfl
@[simp] theorem State.setAxis_grpOff (s : State) (n : Nat) (x : AxisSt) : (s.setAxis n x).grpOff = s.grpOff := rfl
@[simp] theorem State.setAxis_cores (s : State) (n : Nat) (x : AxisSt) : (s.setAxis n x).cores = s.cores := rfl
@[simp] theorem State.setAxis_loader (s : State) (n : Nat) (x : AxisSt) : (s.setAxis n x).loader = s.loader := rfl
@[simp] theorem State.setAxis_mboxes (s : State) (n : Nat) (x : AxisSt) : (s.setAxis n x).mboxes = s.mboxes := rfl
@[simp] theorem State.setAxis_ras (s : State) (n : Nat) (x : AxisSt) : (s.setAxis n x).ras = s.ras := rfl
@[simp] theorem State.setAxis_freeCtr (s : State) (n : Nat) (x : AxisSt) : (s.setAxis n x).freeCtr = s.freeCtr := rfl
@[simp] theorem State.setAxis_boot (s : State) (n : Nat) (x : AxisSt) : (s.setAxis n x).boot = s.boot := rfl
@[simp] theorem State.setAxis_sigs (s : State) (n : Nat) (x : AxisSt) : (s.setAxis n x).sigs = s.sigs := rfl
@[simp] theorem State.setAxis_out (s : State) (n : Nat) (x : AxisSt) : (s.setAxis n x).out = s.out := rfl
@[simp] theorem State.setAxis_poison (s : State) (n : Nat) (x : AxisSt) : (s.setAxis n x).poison = s.poison := rfl
@[simp] theorem State.setAxis_lpoison (s : State) (n : Nat) (x : AxisSt) : (s.setAxis n x).lpoison = s.lpoison := rfl
@[simp] theorem State.setAxis_cpoison (s : State) (n : Nat) (x : AxisSt) : (s.setAxis n x).cpoison = s.cpoison := rfl
@[simp] theorem State.setAxis_streams (s : State) (n : Nat) (x : AxisSt) : (s.setAxis n x).streams = s.streams := rfl
@[simp] theorem State.setAxis_eth (s : State) (n : Nat) (x : AxisSt) : (s.setAxis n x).eth = s.eth := rfl
@[simp] theorem State.setAxis_toMill (s : State) (n : Nat) (x : AxisSt) : (s.setAxis n x).toMill = s.toMill := rfl
@[simp] theorem State.setAxis_pars (s : State) (n : Nat) (x : AxisSt) : (s.setAxis n x).pars = s.pars := rfl
@[simp] theorem State.setAxis_trigs (s : State) (n : Nat) (x : AxisSt) : (s.setAxis n x).trigs = s.trigs := rfl
@[simp] theorem State.setAxis_gpios (s : State) (n : Nat) (x : AxisSt) : (s.setAxis n x).gpios = s.gpios := rfl
@[simp] theorem State.setAxis_mills (s : State) (n : Nat) (x : AxisSt) : (s.setAxis n x).mills = s.mills := rfl
@[simp] theorem State.setAxis_millLast (s : State) (n : Nat) (x : AxisSt) : (s.setAxis n x).millLast = s.millLast := rfl
@[simp] theorem State.setAxis_millPos (s : State) (n : Nat) (x : AxisSt) : (s.setAxis n x).millPos = s.millPos := rfl
@[simp] theorem State.setAxis_toCol (s : State) (n : Nat) (x : AxisSt) : (s.setAxis n x).toCol = s.toCol := rfl
@[simp] theorem State.setAxis_toTap (s : State) (n : Nat) (x : AxisSt) : (s.setAxis n x).toTap = s.toTap := rfl
@[simp] theorem State.setAxis_seqs (s : State) (n : Nat) (x : AxisSt) : (s.setAxis n x).seqs = s.seqs := rfl
@[simp] theorem State.setAxis_members (s : State) (n : Nat) (x : AxisSt) : (s.setAxis n x).members = s.members := rfl
@[simp] theorem State.setAxis_toLink (s : State) (n : Nat) (x : AxisSt) : (s.setAxis n x).toLink = s.toLink := rfl
@[simp] theorem State.setAxis_strips (s : State) (n : Nat) (x : AxisSt) : (s.setAxis n x).strips = s.strips := rfl
@[simp] theorem State.setAxis_hedQ (s : State) (n : Nat) (x : AxisSt) : (s.setAxis n x).hedQ = s.hedQ := rfl
@[simp] theorem State.setAxis_hunits (s : State) (n : Nat) (x : AxisSt) : (s.setAxis n x).hunits = s.hunits := rfl
@[simp] theorem State.setAxis_outs (s : State) (n : Nat) (x : AxisSt) : (s.setAxis n x).outs = s.outs := rfl
@[simp] theorem State.setAxis_sheafHeads (s : State) (n : Nat) (x : AxisSt) : (s.setAxis n x).sheafHeads = s.sheafHeads := rfl
@[simp] theorem State.setAxis_hunitNo (s : State) (n : Nat) (x : AxisSt) : (s.setAxis n x).hunitNo = s.hunitNo := rfl
@[simp] theorem State.setAxis_boxes (s : State) (n : Nat) (x : AxisSt) : (s.setAxis n x).boxes = s.boxes := rfl
@[simp] theorem State.setAxis_thr (s : State) (n : Nat) (x : AxisSt) : (s.setAxis n x).thr = s.thr := rfl
@[simp] theorem State.setAxis_gran (s : State) (n : Nat) (x : AxisSt) : (s.setAxis n x).gran = s.gran := rfl
@[simp] theorem State.setAxis_offers (s : State) (n : Nat) (x : AxisSt) : (s.setAxis n x).offers = s.offers := rfl
@[simp] theorem State.setAxis_rings (s : State) (n : Nat) (x : AxisSt) : (s.setAxis n x).rings = s.rings := rfl
@[simp] theorem State.setAxis_cqs (s : State) (n : Nat) (x : AxisSt) : (s.setAxis n x).cqs = s.cqs := rfl
@[simp] theorem State.setAxis_dmas (s : State) (n : Nat) (x : AxisSt) : (s.setAxis n x).dmas = s.dmas := rfl
@[simp] theorem State.setAxis_reads (s : State) (n : Nat) (x : AxisSt) : (s.setAxis n x).reads = s.reads := rfl
@[simp] theorem State.setAxis_signQ (s : State) (n : Nat) (x : AxisSt) : (s.setAxis n x).signQ = s.signQ := rfl
@[simp] theorem State.setAxis_fuses (s : State) (n : Nat) (x : AxisSt) : (s.setAxis n x).fuses = s.fuses := rfl
@[simp] theorem State.setAxis_pci (s : State) (n : Nat) (x : AxisSt) : (s.setAxis n x).pci = s.pci := rfl
@[simp] theorem State.setAxis_sched (s : State) (n : Nat) (x : AxisSt) : (s.setAxis n x).sched = s.sched := rfl
@[simp] theorem State.setAxis_spdm (s : State) (n : Nat) (x : AxisSt) : (s.setAxis n x).spdm = s.spdm := rfl
@[simp] theorem State.setAxis_ebk (s : State) (n : Nat) (x : AxisSt) : (s.setAxis n x).ebk = s.ebk := rfl
@[simp] theorem State.setAxis_rpl (s : State) (n : Nat) (x : AxisSt) : (s.setAxis n x).rpl = s.rpl := rfl
@[simp] theorem State.setAxis_twi (s : State) (n : Nat) (x : AxisSt) : (s.setAxis n x).twi = s.twi := rfl

/-! #### setChan -/
@[simp] theorem State.setChan_now (s : State) (n : Nat) (x : ChanSt) : (s.setChan n x).now = s.now := rfl
@[simp] theorem State.setChan_pending (s : State) (n : Nat) (x : ChanSt) : (s.setChan n x).pending = s.pending := rfl
@[simp] theorem State.setChan_regs (s : State) (n : Nat) (x : ChanSt) : (s.setChan n x).regs = s.regs := rfl
@[simp] theorem State.setChan_live (s : State) (n : Nat) (x : ChanSt) : (s.setChan n x).live = s.live := rfl
@[simp] theorem State.setChan_latch (s : State) (n : Nat) (x : ChanSt) : (s.setChan n x).latch = s.latch := rfl
@[simp] theorem State.setChan_pendLo (s : State) (n : Nat) (x : ChanSt) : (s.setChan n x).pendLo = s.pendLo := rfl
@[simp] theorem State.setChan_bufs (s : State) (n : Nat) (x : ChanSt) : (s.setChan n x).bufs = s.bufs := rfl
@[simp] theorem State.setChan_lmem (s : State) (n : Nat) (x : ChanSt) : (s.setChan n x).lmem = s.lmem := rfl
@[simp] theorem State.setChan_cmem (s : State) (n : Nat) (x : ChanSt) : (s.setChan n x).cmem = s.cmem := rfl
@[simp] theorem State.setChan_dmem (s : State) (n : Nat) (x : ChanSt) : (s.setChan n x).dmem = s.dmem := rfl
@[simp] theorem State.setChan_tim (s : State) (n : Nat) (x : ChanSt) : (s.setChan n x).tim = s.tim := rfl
@[simp] theorem State.setChan_axes (s : State) (n : Nat) (x : ChanSt) : (s.setChan n x).axes = s.axes := rfl
@[simp] theorem State.setChan_slots (s : State) (n : Nat) (x : ChanSt) : (s.setChan n x).slots = s.slots := rfl
@[simp] theorem State.setChan_evq (s : State) (n : Nat) (x : ChanSt) : (s.setChan n x).evq = s.evq := rfl
@[simp] theorem State.setChan_inputs (s : State) (n : Nat) (x : ChanSt) : (s.setChan n x).inputs = s.inputs := rfl
@[simp] theorem State.setChan_grpOn (s : State) (n : Nat) (x : ChanSt) : (s.setChan n x).grpOn = s.grpOn := rfl
@[simp] theorem State.setChan_grpOff (s : State) (n : Nat) (x : ChanSt) : (s.setChan n x).grpOff = s.grpOff := rfl
@[simp] theorem State.setChan_cores (s : State) (n : Nat) (x : ChanSt) : (s.setChan n x).cores = s.cores := rfl
@[simp] theorem State.setChan_loader (s : State) (n : Nat) (x : ChanSt) : (s.setChan n x).loader = s.loader := rfl
@[simp] theorem State.setChan_mboxes (s : State) (n : Nat) (x : ChanSt) : (s.setChan n x).mboxes = s.mboxes := rfl
@[simp] theorem State.setChan_ras (s : State) (n : Nat) (x : ChanSt) : (s.setChan n x).ras = s.ras := rfl
@[simp] theorem State.setChan_freeCtr (s : State) (n : Nat) (x : ChanSt) : (s.setChan n x).freeCtr = s.freeCtr := rfl
@[simp] theorem State.setChan_boot (s : State) (n : Nat) (x : ChanSt) : (s.setChan n x).boot = s.boot := rfl
@[simp] theorem State.setChan_sigs (s : State) (n : Nat) (x : ChanSt) : (s.setChan n x).sigs = s.sigs := rfl
@[simp] theorem State.setChan_out (s : State) (n : Nat) (x : ChanSt) : (s.setChan n x).out = s.out := rfl
@[simp] theorem State.setChan_poison (s : State) (n : Nat) (x : ChanSt) : (s.setChan n x).poison = s.poison := rfl
@[simp] theorem State.setChan_lpoison (s : State) (n : Nat) (x : ChanSt) : (s.setChan n x).lpoison = s.lpoison := rfl
@[simp] theorem State.setChan_cpoison (s : State) (n : Nat) (x : ChanSt) : (s.setChan n x).cpoison = s.cpoison := rfl
@[simp] theorem State.setChan_streams (s : State) (n : Nat) (x : ChanSt) : (s.setChan n x).streams = s.streams := rfl
@[simp] theorem State.setChan_eth (s : State) (n : Nat) (x : ChanSt) : (s.setChan n x).eth = s.eth := rfl
@[simp] theorem State.setChan_toMill (s : State) (n : Nat) (x : ChanSt) : (s.setChan n x).toMill = s.toMill := rfl
@[simp] theorem State.setChan_pars (s : State) (n : Nat) (x : ChanSt) : (s.setChan n x).pars = s.pars := rfl
@[simp] theorem State.setChan_trigs (s : State) (n : Nat) (x : ChanSt) : (s.setChan n x).trigs = s.trigs := rfl
@[simp] theorem State.setChan_gpios (s : State) (n : Nat) (x : ChanSt) : (s.setChan n x).gpios = s.gpios := rfl
@[simp] theorem State.setChan_mills (s : State) (n : Nat) (x : ChanSt) : (s.setChan n x).mills = s.mills := rfl
@[simp] theorem State.setChan_millLast (s : State) (n : Nat) (x : ChanSt) : (s.setChan n x).millLast = s.millLast := rfl
@[simp] theorem State.setChan_millPos (s : State) (n : Nat) (x : ChanSt) : (s.setChan n x).millPos = s.millPos := rfl
@[simp] theorem State.setChan_toCol (s : State) (n : Nat) (x : ChanSt) : (s.setChan n x).toCol = s.toCol := rfl
@[simp] theorem State.setChan_toTap (s : State) (n : Nat) (x : ChanSt) : (s.setChan n x).toTap = s.toTap := rfl
@[simp] theorem State.setChan_seqs (s : State) (n : Nat) (x : ChanSt) : (s.setChan n x).seqs = s.seqs := rfl
@[simp] theorem State.setChan_members (s : State) (n : Nat) (x : ChanSt) : (s.setChan n x).members = s.members := rfl
@[simp] theorem State.setChan_toLink (s : State) (n : Nat) (x : ChanSt) : (s.setChan n x).toLink = s.toLink := rfl
@[simp] theorem State.setChan_strips (s : State) (n : Nat) (x : ChanSt) : (s.setChan n x).strips = s.strips := rfl
@[simp] theorem State.setChan_hedQ (s : State) (n : Nat) (x : ChanSt) : (s.setChan n x).hedQ = s.hedQ := rfl
@[simp] theorem State.setChan_hunits (s : State) (n : Nat) (x : ChanSt) : (s.setChan n x).hunits = s.hunits := rfl
@[simp] theorem State.setChan_outs (s : State) (n : Nat) (x : ChanSt) : (s.setChan n x).outs = s.outs := rfl
@[simp] theorem State.setChan_sheafHeads (s : State) (n : Nat) (x : ChanSt) : (s.setChan n x).sheafHeads = s.sheafHeads := rfl
@[simp] theorem State.setChan_hunitNo (s : State) (n : Nat) (x : ChanSt) : (s.setChan n x).hunitNo = s.hunitNo := rfl
@[simp] theorem State.setChan_boxes (s : State) (n : Nat) (x : ChanSt) : (s.setChan n x).boxes = s.boxes := rfl
@[simp] theorem State.setChan_thr (s : State) (n : Nat) (x : ChanSt) : (s.setChan n x).thr = s.thr := rfl
@[simp] theorem State.setChan_gran (s : State) (n : Nat) (x : ChanSt) : (s.setChan n x).gran = s.gran := rfl
@[simp] theorem State.setChan_offers (s : State) (n : Nat) (x : ChanSt) : (s.setChan n x).offers = s.offers := rfl
@[simp] theorem State.setChan_rings (s : State) (n : Nat) (x : ChanSt) : (s.setChan n x).rings = s.rings := rfl
@[simp] theorem State.setChan_cqs (s : State) (n : Nat) (x : ChanSt) : (s.setChan n x).cqs = s.cqs := rfl
@[simp] theorem State.setChan_dmas (s : State) (n : Nat) (x : ChanSt) : (s.setChan n x).dmas = s.dmas := rfl
@[simp] theorem State.setChan_reads (s : State) (n : Nat) (x : ChanSt) : (s.setChan n x).reads = s.reads := rfl
@[simp] theorem State.setChan_signQ (s : State) (n : Nat) (x : ChanSt) : (s.setChan n x).signQ = s.signQ := rfl
@[simp] theorem State.setChan_fuses (s : State) (n : Nat) (x : ChanSt) : (s.setChan n x).fuses = s.fuses := rfl
@[simp] theorem State.setChan_pci (s : State) (n : Nat) (x : ChanSt) : (s.setChan n x).pci = s.pci := rfl
@[simp] theorem State.setChan_sched (s : State) (n : Nat) (x : ChanSt) : (s.setChan n x).sched = s.sched := rfl
@[simp] theorem State.setChan_spdm (s : State) (n : Nat) (x : ChanSt) : (s.setChan n x).spdm = s.spdm := rfl
@[simp] theorem State.setChan_ebk (s : State) (n : Nat) (x : ChanSt) : (s.setChan n x).ebk = s.ebk := rfl
@[simp] theorem State.setChan_rpl (s : State) (n : Nat) (x : ChanSt) : (s.setChan n x).rpl = s.rpl := rfl
@[simp] theorem State.setChan_twi (s : State) (n : Nat) (x : ChanSt) : (s.setChan n x).twi = s.twi := rfl

/-! #### setSlot -/
@[simp] theorem State.setSlot_now (s : State) (n : Nat) (x : SlotSt) : (s.setSlot n x).now = s.now := rfl
@[simp] theorem State.setSlot_pending (s : State) (n : Nat) (x : SlotSt) : (s.setSlot n x).pending = s.pending := rfl
@[simp] theorem State.setSlot_regs (s : State) (n : Nat) (x : SlotSt) : (s.setSlot n x).regs = s.regs := rfl
@[simp] theorem State.setSlot_live (s : State) (n : Nat) (x : SlotSt) : (s.setSlot n x).live = s.live := rfl
@[simp] theorem State.setSlot_latch (s : State) (n : Nat) (x : SlotSt) : (s.setSlot n x).latch = s.latch := rfl
@[simp] theorem State.setSlot_pendLo (s : State) (n : Nat) (x : SlotSt) : (s.setSlot n x).pendLo = s.pendLo := rfl
@[simp] theorem State.setSlot_bufs (s : State) (n : Nat) (x : SlotSt) : (s.setSlot n x).bufs = s.bufs := rfl
@[simp] theorem State.setSlot_lmem (s : State) (n : Nat) (x : SlotSt) : (s.setSlot n x).lmem = s.lmem := rfl
@[simp] theorem State.setSlot_cmem (s : State) (n : Nat) (x : SlotSt) : (s.setSlot n x).cmem = s.cmem := rfl
@[simp] theorem State.setSlot_dmem (s : State) (n : Nat) (x : SlotSt) : (s.setSlot n x).dmem = s.dmem := rfl
@[simp] theorem State.setSlot_tim (s : State) (n : Nat) (x : SlotSt) : (s.setSlot n x).tim = s.tim := rfl
@[simp] theorem State.setSlot_axes (s : State) (n : Nat) (x : SlotSt) : (s.setSlot n x).axes = s.axes := rfl
@[simp] theorem State.setSlot_chans (s : State) (n : Nat) (x : SlotSt) : (s.setSlot n x).chans = s.chans := rfl
@[simp] theorem State.setSlot_evq (s : State) (n : Nat) (x : SlotSt) : (s.setSlot n x).evq = s.evq := rfl
@[simp] theorem State.setSlot_inputs (s : State) (n : Nat) (x : SlotSt) : (s.setSlot n x).inputs = s.inputs := rfl
@[simp] theorem State.setSlot_grpOn (s : State) (n : Nat) (x : SlotSt) : (s.setSlot n x).grpOn = s.grpOn := rfl
@[simp] theorem State.setSlot_grpOff (s : State) (n : Nat) (x : SlotSt) : (s.setSlot n x).grpOff = s.grpOff := rfl
@[simp] theorem State.setSlot_cores (s : State) (n : Nat) (x : SlotSt) : (s.setSlot n x).cores = s.cores := rfl
@[simp] theorem State.setSlot_loader (s : State) (n : Nat) (x : SlotSt) : (s.setSlot n x).loader = s.loader := rfl
@[simp] theorem State.setSlot_mboxes (s : State) (n : Nat) (x : SlotSt) : (s.setSlot n x).mboxes = s.mboxes := rfl
@[simp] theorem State.setSlot_ras (s : State) (n : Nat) (x : SlotSt) : (s.setSlot n x).ras = s.ras := rfl
@[simp] theorem State.setSlot_freeCtr (s : State) (n : Nat) (x : SlotSt) : (s.setSlot n x).freeCtr = s.freeCtr := rfl
@[simp] theorem State.setSlot_boot (s : State) (n : Nat) (x : SlotSt) : (s.setSlot n x).boot = s.boot := rfl
@[simp] theorem State.setSlot_sigs (s : State) (n : Nat) (x : SlotSt) : (s.setSlot n x).sigs = s.sigs := rfl
@[simp] theorem State.setSlot_out (s : State) (n : Nat) (x : SlotSt) : (s.setSlot n x).out = s.out := rfl
@[simp] theorem State.setSlot_poison (s : State) (n : Nat) (x : SlotSt) : (s.setSlot n x).poison = s.poison := rfl
@[simp] theorem State.setSlot_lpoison (s : State) (n : Nat) (x : SlotSt) : (s.setSlot n x).lpoison = s.lpoison := rfl
@[simp] theorem State.setSlot_cpoison (s : State) (n : Nat) (x : SlotSt) : (s.setSlot n x).cpoison = s.cpoison := rfl
@[simp] theorem State.setSlot_streams (s : State) (n : Nat) (x : SlotSt) : (s.setSlot n x).streams = s.streams := rfl
@[simp] theorem State.setSlot_eth (s : State) (n : Nat) (x : SlotSt) : (s.setSlot n x).eth = s.eth := rfl
@[simp] theorem State.setSlot_toMill (s : State) (n : Nat) (x : SlotSt) : (s.setSlot n x).toMill = s.toMill := rfl
@[simp] theorem State.setSlot_pars (s : State) (n : Nat) (x : SlotSt) : (s.setSlot n x).pars = s.pars := rfl
@[simp] theorem State.setSlot_trigs (s : State) (n : Nat) (x : SlotSt) : (s.setSlot n x).trigs = s.trigs := rfl
@[simp] theorem State.setSlot_gpios (s : State) (n : Nat) (x : SlotSt) : (s.setSlot n x).gpios = s.gpios := rfl
@[simp] theorem State.setSlot_mills (s : State) (n : Nat) (x : SlotSt) : (s.setSlot n x).mills = s.mills := rfl
@[simp] theorem State.setSlot_millLast (s : State) (n : Nat) (x : SlotSt) : (s.setSlot n x).millLast = s.millLast := rfl
@[simp] theorem State.setSlot_millPos (s : State) (n : Nat) (x : SlotSt) : (s.setSlot n x).millPos = s.millPos := rfl
@[simp] theorem State.setSlot_toCol (s : State) (n : Nat) (x : SlotSt) : (s.setSlot n x).toCol = s.toCol := rfl
@[simp] theorem State.setSlot_toTap (s : State) (n : Nat) (x : SlotSt) : (s.setSlot n x).toTap = s.toTap := rfl
@[simp] theorem State.setSlot_seqs (s : State) (n : Nat) (x : SlotSt) : (s.setSlot n x).seqs = s.seqs := rfl
@[simp] theorem State.setSlot_members (s : State) (n : Nat) (x : SlotSt) : (s.setSlot n x).members = s.members := rfl
@[simp] theorem State.setSlot_toLink (s : State) (n : Nat) (x : SlotSt) : (s.setSlot n x).toLink = s.toLink := rfl
@[simp] theorem State.setSlot_strips (s : State) (n : Nat) (x : SlotSt) : (s.setSlot n x).strips = s.strips := rfl
@[simp] theorem State.setSlot_hedQ (s : State) (n : Nat) (x : SlotSt) : (s.setSlot n x).hedQ = s.hedQ := rfl
@[simp] theorem State.setSlot_hunits (s : State) (n : Nat) (x : SlotSt) : (s.setSlot n x).hunits = s.hunits := rfl
@[simp] theorem State.setSlot_outs (s : State) (n : Nat) (x : SlotSt) : (s.setSlot n x).outs = s.outs := rfl
@[simp] theorem State.setSlot_sheafHeads (s : State) (n : Nat) (x : SlotSt) : (s.setSlot n x).sheafHeads = s.sheafHeads := rfl
@[simp] theorem State.setSlot_hunitNo (s : State) (n : Nat) (x : SlotSt) : (s.setSlot n x).hunitNo = s.hunitNo := rfl
@[simp] theorem State.setSlot_boxes (s : State) (n : Nat) (x : SlotSt) : (s.setSlot n x).boxes = s.boxes := rfl
@[simp] theorem State.setSlot_thr (s : State) (n : Nat) (x : SlotSt) : (s.setSlot n x).thr = s.thr := rfl
@[simp] theorem State.setSlot_gran (s : State) (n : Nat) (x : SlotSt) : (s.setSlot n x).gran = s.gran := rfl
@[simp] theorem State.setSlot_offers (s : State) (n : Nat) (x : SlotSt) : (s.setSlot n x).offers = s.offers := rfl
@[simp] theorem State.setSlot_rings (s : State) (n : Nat) (x : SlotSt) : (s.setSlot n x).rings = s.rings := rfl
@[simp] theorem State.setSlot_cqs (s : State) (n : Nat) (x : SlotSt) : (s.setSlot n x).cqs = s.cqs := rfl
@[simp] theorem State.setSlot_dmas (s : State) (n : Nat) (x : SlotSt) : (s.setSlot n x).dmas = s.dmas := rfl
@[simp] theorem State.setSlot_reads (s : State) (n : Nat) (x : SlotSt) : (s.setSlot n x).reads = s.reads := rfl
@[simp] theorem State.setSlot_signQ (s : State) (n : Nat) (x : SlotSt) : (s.setSlot n x).signQ = s.signQ := rfl
@[simp] theorem State.setSlot_fuses (s : State) (n : Nat) (x : SlotSt) : (s.setSlot n x).fuses = s.fuses := rfl
@[simp] theorem State.setSlot_pci (s : State) (n : Nat) (x : SlotSt) : (s.setSlot n x).pci = s.pci := rfl
@[simp] theorem State.setSlot_sched (s : State) (n : Nat) (x : SlotSt) : (s.setSlot n x).sched = s.sched := rfl
@[simp] theorem State.setSlot_spdm (s : State) (n : Nat) (x : SlotSt) : (s.setSlot n x).spdm = s.spdm := rfl
@[simp] theorem State.setSlot_ebk (s : State) (n : Nat) (x : SlotSt) : (s.setSlot n x).ebk = s.ebk := rfl
@[simp] theorem State.setSlot_rpl (s : State) (n : Nat) (x : SlotSt) : (s.setSlot n x).rpl = s.rpl := rfl
@[simp] theorem State.setSlot_twi (s : State) (n : Nat) (x : SlotSt) : (s.setSlot n x).twi = s.twi := rfl

/-! #### setInput -/
@[simp] theorem State.setInput_now (s : State) (n : Nat) (x : InputSt) : (s.setInput n x).now = s.now := rfl
@[simp] theorem State.setInput_pending (s : State) (n : Nat) (x : InputSt) : (s.setInput n x).pending = s.pending := rfl
@[simp] theorem State.setInput_regs (s : State) (n : Nat) (x : InputSt) : (s.setInput n x).regs = s.regs := rfl
@[simp] theorem State.setInput_live (s : State) (n : Nat) (x : InputSt) : (s.setInput n x).live = s.live := rfl
@[simp] theorem State.setInput_latch (s : State) (n : Nat) (x : InputSt) : (s.setInput n x).latch = s.latch := rfl
@[simp] theorem State.setInput_pendLo (s : State) (n : Nat) (x : InputSt) : (s.setInput n x).pendLo = s.pendLo := rfl
@[simp] theorem State.setInput_bufs (s : State) (n : Nat) (x : InputSt) : (s.setInput n x).bufs = s.bufs := rfl
@[simp] theorem State.setInput_lmem (s : State) (n : Nat) (x : InputSt) : (s.setInput n x).lmem = s.lmem := rfl
@[simp] theorem State.setInput_cmem (s : State) (n : Nat) (x : InputSt) : (s.setInput n x).cmem = s.cmem := rfl
@[simp] theorem State.setInput_dmem (s : State) (n : Nat) (x : InputSt) : (s.setInput n x).dmem = s.dmem := rfl
@[simp] theorem State.setInput_tim (s : State) (n : Nat) (x : InputSt) : (s.setInput n x).tim = s.tim := rfl
@[simp] theorem State.setInput_axes (s : State) (n : Nat) (x : InputSt) : (s.setInput n x).axes = s.axes := rfl
@[simp] theorem State.setInput_chans (s : State) (n : Nat) (x : InputSt) : (s.setInput n x).chans = s.chans := rfl
@[simp] theorem State.setInput_slots (s : State) (n : Nat) (x : InputSt) : (s.setInput n x).slots = s.slots := rfl
@[simp] theorem State.setInput_evq (s : State) (n : Nat) (x : InputSt) : (s.setInput n x).evq = s.evq := rfl
@[simp] theorem State.setInput_grpOn (s : State) (n : Nat) (x : InputSt) : (s.setInput n x).grpOn = s.grpOn := rfl
@[simp] theorem State.setInput_grpOff (s : State) (n : Nat) (x : InputSt) : (s.setInput n x).grpOff = s.grpOff := rfl
@[simp] theorem State.setInput_cores (s : State) (n : Nat) (x : InputSt) : (s.setInput n x).cores = s.cores := rfl
@[simp] theorem State.setInput_loader (s : State) (n : Nat) (x : InputSt) : (s.setInput n x).loader = s.loader := rfl
@[simp] theorem State.setInput_mboxes (s : State) (n : Nat) (x : InputSt) : (s.setInput n x).mboxes = s.mboxes := rfl
@[simp] theorem State.setInput_ras (s : State) (n : Nat) (x : InputSt) : (s.setInput n x).ras = s.ras := rfl
@[simp] theorem State.setInput_freeCtr (s : State) (n : Nat) (x : InputSt) : (s.setInput n x).freeCtr = s.freeCtr := rfl
@[simp] theorem State.setInput_boot (s : State) (n : Nat) (x : InputSt) : (s.setInput n x).boot = s.boot := rfl
@[simp] theorem State.setInput_sigs (s : State) (n : Nat) (x : InputSt) : (s.setInput n x).sigs = s.sigs := rfl
@[simp] theorem State.setInput_out (s : State) (n : Nat) (x : InputSt) : (s.setInput n x).out = s.out := rfl
@[simp] theorem State.setInput_poison (s : State) (n : Nat) (x : InputSt) : (s.setInput n x).poison = s.poison := rfl
@[simp] theorem State.setInput_lpoison (s : State) (n : Nat) (x : InputSt) : (s.setInput n x).lpoison = s.lpoison := rfl
@[simp] theorem State.setInput_cpoison (s : State) (n : Nat) (x : InputSt) : (s.setInput n x).cpoison = s.cpoison := rfl
@[simp] theorem State.setInput_streams (s : State) (n : Nat) (x : InputSt) : (s.setInput n x).streams = s.streams := rfl
@[simp] theorem State.setInput_eth (s : State) (n : Nat) (x : InputSt) : (s.setInput n x).eth = s.eth := rfl
@[simp] theorem State.setInput_toMill (s : State) (n : Nat) (x : InputSt) : (s.setInput n x).toMill = s.toMill := rfl
@[simp] theorem State.setInput_pars (s : State) (n : Nat) (x : InputSt) : (s.setInput n x).pars = s.pars := rfl
@[simp] theorem State.setInput_trigs (s : State) (n : Nat) (x : InputSt) : (s.setInput n x).trigs = s.trigs := rfl
@[simp] theorem State.setInput_gpios (s : State) (n : Nat) (x : InputSt) : (s.setInput n x).gpios = s.gpios := rfl
@[simp] theorem State.setInput_mills (s : State) (n : Nat) (x : InputSt) : (s.setInput n x).mills = s.mills := rfl
@[simp] theorem State.setInput_millLast (s : State) (n : Nat) (x : InputSt) : (s.setInput n x).millLast = s.millLast := rfl
@[simp] theorem State.setInput_millPos (s : State) (n : Nat) (x : InputSt) : (s.setInput n x).millPos = s.millPos := rfl
@[simp] theorem State.setInput_toCol (s : State) (n : Nat) (x : InputSt) : (s.setInput n x).toCol = s.toCol := rfl
@[simp] theorem State.setInput_toTap (s : State) (n : Nat) (x : InputSt) : (s.setInput n x).toTap = s.toTap := rfl
@[simp] theorem State.setInput_seqs (s : State) (n : Nat) (x : InputSt) : (s.setInput n x).seqs = s.seqs := rfl
@[simp] theorem State.setInput_members (s : State) (n : Nat) (x : InputSt) : (s.setInput n x).members = s.members := rfl
@[simp] theorem State.setInput_toLink (s : State) (n : Nat) (x : InputSt) : (s.setInput n x).toLink = s.toLink := rfl
@[simp] theorem State.setInput_strips (s : State) (n : Nat) (x : InputSt) : (s.setInput n x).strips = s.strips := rfl
@[simp] theorem State.setInput_hedQ (s : State) (n : Nat) (x : InputSt) : (s.setInput n x).hedQ = s.hedQ := rfl
@[simp] theorem State.setInput_hunits (s : State) (n : Nat) (x : InputSt) : (s.setInput n x).hunits = s.hunits := rfl
@[simp] theorem State.setInput_outs (s : State) (n : Nat) (x : InputSt) : (s.setInput n x).outs = s.outs := rfl
@[simp] theorem State.setInput_sheafHeads (s : State) (n : Nat) (x : InputSt) : (s.setInput n x).sheafHeads = s.sheafHeads := rfl
@[simp] theorem State.setInput_hunitNo (s : State) (n : Nat) (x : InputSt) : (s.setInput n x).hunitNo = s.hunitNo := rfl
@[simp] theorem State.setInput_boxes (s : State) (n : Nat) (x : InputSt) : (s.setInput n x).boxes = s.boxes := rfl
@[simp] theorem State.setInput_thr (s : State) (n : Nat) (x : InputSt) : (s.setInput n x).thr = s.thr := rfl
@[simp] theorem State.setInput_gran (s : State) (n : Nat) (x : InputSt) : (s.setInput n x).gran = s.gran := rfl
@[simp] theorem State.setInput_offers (s : State) (n : Nat) (x : InputSt) : (s.setInput n x).offers = s.offers := rfl
@[simp] theorem State.setInput_rings (s : State) (n : Nat) (x : InputSt) : (s.setInput n x).rings = s.rings := rfl
@[simp] theorem State.setInput_cqs (s : State) (n : Nat) (x : InputSt) : (s.setInput n x).cqs = s.cqs := rfl
@[simp] theorem State.setInput_dmas (s : State) (n : Nat) (x : InputSt) : (s.setInput n x).dmas = s.dmas := rfl
@[simp] theorem State.setInput_reads (s : State) (n : Nat) (x : InputSt) : (s.setInput n x).reads = s.reads := rfl
@[simp] theorem State.setInput_signQ (s : State) (n : Nat) (x : InputSt) : (s.setInput n x).signQ = s.signQ := rfl
@[simp] theorem State.setInput_fuses (s : State) (n : Nat) (x : InputSt) : (s.setInput n x).fuses = s.fuses := rfl
@[simp] theorem State.setInput_pci (s : State) (n : Nat) (x : InputSt) : (s.setInput n x).pci = s.pci := rfl
@[simp] theorem State.setInput_sched (s : State) (n : Nat) (x : InputSt) : (s.setInput n x).sched = s.sched := rfl
@[simp] theorem State.setInput_spdm (s : State) (n : Nat) (x : InputSt) : (s.setInput n x).spdm = s.spdm := rfl
@[simp] theorem State.setInput_ebk (s : State) (n : Nat) (x : InputSt) : (s.setInput n x).ebk = s.ebk := rfl
@[simp] theorem State.setInput_rpl (s : State) (n : Nat) (x : InputSt) : (s.setInput n x).rpl = s.rpl := rfl
@[simp] theorem State.setInput_twi (s : State) (n : Nat) (x : InputSt) : (s.setInput n x).twi = s.twi := rfl

/-! #### setCore -/
@[simp] theorem State.setCore_now (s : State) (n : Nat) (x : CoreSt) : (s.setCore n x).now = s.now := rfl
@[simp] theorem State.setCore_pending (s : State) (n : Nat) (x : CoreSt) : (s.setCore n x).pending = s.pending := rfl
@[simp] theorem State.setCore_regs (s : State) (n : Nat) (x : CoreSt) : (s.setCore n x).regs = s.regs := rfl
@[simp] theorem State.setCore_live (s : State) (n : Nat) (x : CoreSt) : (s.setCore n x).live = s.live := rfl
@[simp] theorem State.setCore_latch (s : State) (n : Nat) (x : CoreSt) : (s.setCore n x).latch = s.latch := rfl
@[simp] theorem State.setCore_pendLo (s : State) (n : Nat) (x : CoreSt) : (s.setCore n x).pendLo = s.pendLo := rfl
@[simp] theorem State.setCore_bufs (s : State) (n : Nat) (x : CoreSt) : (s.setCore n x).bufs = s.bufs := rfl
@[simp] theorem State.setCore_lmem (s : State) (n : Nat) (x : CoreSt) : (s.setCore n x).lmem = s.lmem := rfl
@[simp] theorem State.setCore_cmem (s : State) (n : Nat) (x : CoreSt) : (s.setCore n x).cmem = s.cmem := rfl
@[simp] theorem State.setCore_dmem (s : State) (n : Nat) (x : CoreSt) : (s.setCore n x).dmem = s.dmem := rfl
@[simp] theorem State.setCore_tim (s : State) (n : Nat) (x : CoreSt) : (s.setCore n x).tim = s.tim := rfl
@[simp] theorem State.setCore_axes (s : State) (n : Nat) (x : CoreSt) : (s.setCore n x).axes = s.axes := rfl
@[simp] theorem State.setCore_chans (s : State) (n : Nat) (x : CoreSt) : (s.setCore n x).chans = s.chans := rfl
@[simp] theorem State.setCore_slots (s : State) (n : Nat) (x : CoreSt) : (s.setCore n x).slots = s.slots := rfl
@[simp] theorem State.setCore_evq (s : State) (n : Nat) (x : CoreSt) : (s.setCore n x).evq = s.evq := rfl
@[simp] theorem State.setCore_inputs (s : State) (n : Nat) (x : CoreSt) : (s.setCore n x).inputs = s.inputs := rfl
@[simp] theorem State.setCore_grpOn (s : State) (n : Nat) (x : CoreSt) : (s.setCore n x).grpOn = s.grpOn := rfl
@[simp] theorem State.setCore_grpOff (s : State) (n : Nat) (x : CoreSt) : (s.setCore n x).grpOff = s.grpOff := rfl
@[simp] theorem State.setCore_loader (s : State) (n : Nat) (x : CoreSt) : (s.setCore n x).loader = s.loader := rfl
@[simp] theorem State.setCore_mboxes (s : State) (n : Nat) (x : CoreSt) : (s.setCore n x).mboxes = s.mboxes := rfl
@[simp] theorem State.setCore_ras (s : State) (n : Nat) (x : CoreSt) : (s.setCore n x).ras = s.ras := rfl
@[simp] theorem State.setCore_freeCtr (s : State) (n : Nat) (x : CoreSt) : (s.setCore n x).freeCtr = s.freeCtr := rfl
@[simp] theorem State.setCore_boot (s : State) (n : Nat) (x : CoreSt) : (s.setCore n x).boot = s.boot := rfl
@[simp] theorem State.setCore_sigs (s : State) (n : Nat) (x : CoreSt) : (s.setCore n x).sigs = s.sigs := rfl
@[simp] theorem State.setCore_out (s : State) (n : Nat) (x : CoreSt) : (s.setCore n x).out = s.out := rfl
@[simp] theorem State.setCore_poison (s : State) (n : Nat) (x : CoreSt) : (s.setCore n x).poison = s.poison := rfl
@[simp] theorem State.setCore_lpoison (s : State) (n : Nat) (x : CoreSt) : (s.setCore n x).lpoison = s.lpoison := rfl
@[simp] theorem State.setCore_cpoison (s : State) (n : Nat) (x : CoreSt) : (s.setCore n x).cpoison = s.cpoison := rfl
@[simp] theorem State.setCore_streams (s : State) (n : Nat) (x : CoreSt) : (s.setCore n x).streams = s.streams := rfl
@[simp] theorem State.setCore_eth (s : State) (n : Nat) (x : CoreSt) : (s.setCore n x).eth = s.eth := rfl
@[simp] theorem State.setCore_toMill (s : State) (n : Nat) (x : CoreSt) : (s.setCore n x).toMill = s.toMill := rfl
@[simp] theorem State.setCore_pars (s : State) (n : Nat) (x : CoreSt) : (s.setCore n x).pars = s.pars := rfl
@[simp] theorem State.setCore_trigs (s : State) (n : Nat) (x : CoreSt) : (s.setCore n x).trigs = s.trigs := rfl
@[simp] theorem State.setCore_gpios (s : State) (n : Nat) (x : CoreSt) : (s.setCore n x).gpios = s.gpios := rfl
@[simp] theorem State.setCore_mills (s : State) (n : Nat) (x : CoreSt) : (s.setCore n x).mills = s.mills := rfl
@[simp] theorem State.setCore_millLast (s : State) (n : Nat) (x : CoreSt) : (s.setCore n x).millLast = s.millLast := rfl
@[simp] theorem State.setCore_millPos (s : State) (n : Nat) (x : CoreSt) : (s.setCore n x).millPos = s.millPos := rfl
@[simp] theorem State.setCore_toCol (s : State) (n : Nat) (x : CoreSt) : (s.setCore n x).toCol = s.toCol := rfl
@[simp] theorem State.setCore_toTap (s : State) (n : Nat) (x : CoreSt) : (s.setCore n x).toTap = s.toTap := rfl
@[simp] theorem State.setCore_seqs (s : State) (n : Nat) (x : CoreSt) : (s.setCore n x).seqs = s.seqs := rfl
@[simp] theorem State.setCore_members (s : State) (n : Nat) (x : CoreSt) : (s.setCore n x).members = s.members := rfl
@[simp] theorem State.setCore_toLink (s : State) (n : Nat) (x : CoreSt) : (s.setCore n x).toLink = s.toLink := rfl
@[simp] theorem State.setCore_strips (s : State) (n : Nat) (x : CoreSt) : (s.setCore n x).strips = s.strips := rfl
@[simp] theorem State.setCore_hedQ (s : State) (n : Nat) (x : CoreSt) : (s.setCore n x).hedQ = s.hedQ := rfl
@[simp] theorem State.setCore_hunits (s : State) (n : Nat) (x : CoreSt) : (s.setCore n x).hunits = s.hunits := rfl
@[simp] theorem State.setCore_outs (s : State) (n : Nat) (x : CoreSt) : (s.setCore n x).outs = s.outs := rfl
@[simp] theorem State.setCore_sheafHeads (s : State) (n : Nat) (x : CoreSt) : (s.setCore n x).sheafHeads = s.sheafHeads := rfl
@[simp] theorem State.setCore_hunitNo (s : State) (n : Nat) (x : CoreSt) : (s.setCore n x).hunitNo = s.hunitNo := rfl
@[simp] theorem State.setCore_boxes (s : State) (n : Nat) (x : CoreSt) : (s.setCore n x).boxes = s.boxes := rfl
@[simp] theorem State.setCore_thr (s : State) (n : Nat) (x : CoreSt) : (s.setCore n x).thr = s.thr := rfl
@[simp] theorem State.setCore_gran (s : State) (n : Nat) (x : CoreSt) : (s.setCore n x).gran = s.gran := rfl
@[simp] theorem State.setCore_offers (s : State) (n : Nat) (x : CoreSt) : (s.setCore n x).offers = s.offers := rfl
@[simp] theorem State.setCore_rings (s : State) (n : Nat) (x : CoreSt) : (s.setCore n x).rings = s.rings := rfl
@[simp] theorem State.setCore_cqs (s : State) (n : Nat) (x : CoreSt) : (s.setCore n x).cqs = s.cqs := rfl
@[simp] theorem State.setCore_dmas (s : State) (n : Nat) (x : CoreSt) : (s.setCore n x).dmas = s.dmas := rfl
@[simp] theorem State.setCore_reads (s : State) (n : Nat) (x : CoreSt) : (s.setCore n x).reads = s.reads := rfl
@[simp] theorem State.setCore_signQ (s : State) (n : Nat) (x : CoreSt) : (s.setCore n x).signQ = s.signQ := rfl
@[simp] theorem State.setCore_fuses (s : State) (n : Nat) (x : CoreSt) : (s.setCore n x).fuses = s.fuses := rfl
@[simp] theorem State.setCore_pci (s : State) (n : Nat) (x : CoreSt) : (s.setCore n x).pci = s.pci := rfl
@[simp] theorem State.setCore_sched (s : State) (n : Nat) (x : CoreSt) : (s.setCore n x).sched = s.sched := rfl
@[simp] theorem State.setCore_spdm (s : State) (n : Nat) (x : CoreSt) : (s.setCore n x).spdm = s.spdm := rfl
@[simp] theorem State.setCore_ebk (s : State) (n : Nat) (x : CoreSt) : (s.setCore n x).ebk = s.ebk := rfl
@[simp] theorem State.setCore_rpl (s : State) (n : Nat) (x : CoreSt) : (s.setCore n x).rpl = s.rpl := rfl
@[simp] theorem State.setCore_twi (s : State) (n : Nat) (x : CoreSt) : (s.setCore n x).twi = s.twi := rfl

/-! #### setMbox -/
@[simp] theorem State.setMbox_now (s : State) (n : Nat) (x : MboxSt) : (s.setMbox n x).now = s.now := rfl
@[simp] theorem State.setMbox_pending (s : State) (n : Nat) (x : MboxSt) : (s.setMbox n x).pending = s.pending := rfl
@[simp] theorem State.setMbox_regs (s : State) (n : Nat) (x : MboxSt) : (s.setMbox n x).regs = s.regs := rfl
@[simp] theorem State.setMbox_live (s : State) (n : Nat) (x : MboxSt) : (s.setMbox n x).live = s.live := rfl
@[simp] theorem State.setMbox_latch (s : State) (n : Nat) (x : MboxSt) : (s.setMbox n x).latch = s.latch := rfl
@[simp] theorem State.setMbox_pendLo (s : State) (n : Nat) (x : MboxSt) : (s.setMbox n x).pendLo = s.pendLo := rfl
@[simp] theorem State.setMbox_bufs (s : State) (n : Nat) (x : MboxSt) : (s.setMbox n x).bufs = s.bufs := rfl
@[simp] theorem State.setMbox_lmem (s : State) (n : Nat) (x : MboxSt) : (s.setMbox n x).lmem = s.lmem := rfl
@[simp] theorem State.setMbox_cmem (s : State) (n : Nat) (x : MboxSt) : (s.setMbox n x).cmem = s.cmem := rfl
@[simp] theorem State.setMbox_dmem (s : State) (n : Nat) (x : MboxSt) : (s.setMbox n x).dmem = s.dmem := rfl
@[simp] theorem State.setMbox_tim (s : State) (n : Nat) (x : MboxSt) : (s.setMbox n x).tim = s.tim := rfl
@[simp] theorem State.setMbox_axes (s : State) (n : Nat) (x : MboxSt) : (s.setMbox n x).axes = s.axes := rfl
@[simp] theorem State.setMbox_chans (s : State) (n : Nat) (x : MboxSt) : (s.setMbox n x).chans = s.chans := rfl
@[simp] theorem State.setMbox_slots (s : State) (n : Nat) (x : MboxSt) : (s.setMbox n x).slots = s.slots := rfl
@[simp] theorem State.setMbox_evq (s : State) (n : Nat) (x : MboxSt) : (s.setMbox n x).evq = s.evq := rfl
@[simp] theorem State.setMbox_inputs (s : State) (n : Nat) (x : MboxSt) : (s.setMbox n x).inputs = s.inputs := rfl
@[simp] theorem State.setMbox_grpOn (s : State) (n : Nat) (x : MboxSt) : (s.setMbox n x).grpOn = s.grpOn := rfl
@[simp] theorem State.setMbox_grpOff (s : State) (n : Nat) (x : MboxSt) : (s.setMbox n x).grpOff = s.grpOff := rfl
@[simp] theorem State.setMbox_cores (s : State) (n : Nat) (x : MboxSt) : (s.setMbox n x).cores = s.cores := rfl
@[simp] theorem State.setMbox_loader (s : State) (n : Nat) (x : MboxSt) : (s.setMbox n x).loader = s.loader := rfl
@[simp] theorem State.setMbox_ras (s : State) (n : Nat) (x : MboxSt) : (s.setMbox n x).ras = s.ras := rfl
@[simp] theorem State.setMbox_freeCtr (s : State) (n : Nat) (x : MboxSt) : (s.setMbox n x).freeCtr = s.freeCtr := rfl
@[simp] theorem State.setMbox_boot (s : State) (n : Nat) (x : MboxSt) : (s.setMbox n x).boot = s.boot := rfl
@[simp] theorem State.setMbox_sigs (s : State) (n : Nat) (x : MboxSt) : (s.setMbox n x).sigs = s.sigs := rfl
@[simp] theorem State.setMbox_out (s : State) (n : Nat) (x : MboxSt) : (s.setMbox n x).out = s.out := rfl
@[simp] theorem State.setMbox_poison (s : State) (n : Nat) (x : MboxSt) : (s.setMbox n x).poison = s.poison := rfl
@[simp] theorem State.setMbox_lpoison (s : State) (n : Nat) (x : MboxSt) : (s.setMbox n x).lpoison = s.lpoison := rfl
@[simp] theorem State.setMbox_cpoison (s : State) (n : Nat) (x : MboxSt) : (s.setMbox n x).cpoison = s.cpoison := rfl
@[simp] theorem State.setMbox_streams (s : State) (n : Nat) (x : MboxSt) : (s.setMbox n x).streams = s.streams := rfl
@[simp] theorem State.setMbox_eth (s : State) (n : Nat) (x : MboxSt) : (s.setMbox n x).eth = s.eth := rfl
@[simp] theorem State.setMbox_toMill (s : State) (n : Nat) (x : MboxSt) : (s.setMbox n x).toMill = s.toMill := rfl
@[simp] theorem State.setMbox_pars (s : State) (n : Nat) (x : MboxSt) : (s.setMbox n x).pars = s.pars := rfl
@[simp] theorem State.setMbox_trigs (s : State) (n : Nat) (x : MboxSt) : (s.setMbox n x).trigs = s.trigs := rfl
@[simp] theorem State.setMbox_gpios (s : State) (n : Nat) (x : MboxSt) : (s.setMbox n x).gpios = s.gpios := rfl
@[simp] theorem State.setMbox_mills (s : State) (n : Nat) (x : MboxSt) : (s.setMbox n x).mills = s.mills := rfl
@[simp] theorem State.setMbox_millLast (s : State) (n : Nat) (x : MboxSt) : (s.setMbox n x).millLast = s.millLast := rfl
@[simp] theorem State.setMbox_millPos (s : State) (n : Nat) (x : MboxSt) : (s.setMbox n x).millPos = s.millPos := rfl
@[simp] theorem State.setMbox_toCol (s : State) (n : Nat) (x : MboxSt) : (s.setMbox n x).toCol = s.toCol := rfl
@[simp] theorem State.setMbox_toTap (s : State) (n : Nat) (x : MboxSt) : (s.setMbox n x).toTap = s.toTap := rfl
@[simp] theorem State.setMbox_seqs (s : State) (n : Nat) (x : MboxSt) : (s.setMbox n x).seqs = s.seqs := rfl
@[simp] theorem State.setMbox_members (s : State) (n : Nat) (x : MboxSt) : (s.setMbox n x).members = s.members := rfl
@[simp] theorem State.setMbox_toLink (s : State) (n : Nat) (x : MboxSt) : (s.setMbox n x).toLink = s.toLink := rfl
@[simp] theorem State.setMbox_strips (s : State) (n : Nat) (x : MboxSt) : (s.setMbox n x).strips = s.strips := rfl
@[simp] theorem State.setMbox_hedQ (s : State) (n : Nat) (x : MboxSt) : (s.setMbox n x).hedQ = s.hedQ := rfl
@[simp] theorem State.setMbox_hunits (s : State) (n : Nat) (x : MboxSt) : (s.setMbox n x).hunits = s.hunits := rfl
@[simp] theorem State.setMbox_outs (s : State) (n : Nat) (x : MboxSt) : (s.setMbox n x).outs = s.outs := rfl
@[simp] theorem State.setMbox_sheafHeads (s : State) (n : Nat) (x : MboxSt) : (s.setMbox n x).sheafHeads = s.sheafHeads := rfl
@[simp] theorem State.setMbox_hunitNo (s : State) (n : Nat) (x : MboxSt) : (s.setMbox n x).hunitNo = s.hunitNo := rfl
@[simp] theorem State.setMbox_boxes (s : State) (n : Nat) (x : MboxSt) : (s.setMbox n x).boxes = s.boxes := rfl
@[simp] theorem State.setMbox_thr (s : State) (n : Nat) (x : MboxSt) : (s.setMbox n x).thr = s.thr := rfl
@[simp] theorem State.setMbox_gran (s : State) (n : Nat) (x : MboxSt) : (s.setMbox n x).gran = s.gran := rfl
@[simp] theorem State.setMbox_offers (s : State) (n : Nat) (x : MboxSt) : (s.setMbox n x).offers = s.offers := rfl
@[simp] theorem State.setMbox_rings (s : State) (n : Nat) (x : MboxSt) : (s.setMbox n x).rings = s.rings := rfl
@[simp] theorem State.setMbox_cqs (s : State) (n : Nat) (x : MboxSt) : (s.setMbox n x).cqs = s.cqs := rfl
@[simp] theorem State.setMbox_dmas (s : State) (n : Nat) (x : MboxSt) : (s.setMbox n x).dmas = s.dmas := rfl
@[simp] theorem State.setMbox_reads (s : State) (n : Nat) (x : MboxSt) : (s.setMbox n x).reads = s.reads := rfl
@[simp] theorem State.setMbox_signQ (s : State) (n : Nat) (x : MboxSt) : (s.setMbox n x).signQ = s.signQ := rfl
@[simp] theorem State.setMbox_fuses (s : State) (n : Nat) (x : MboxSt) : (s.setMbox n x).fuses = s.fuses := rfl
@[simp] theorem State.setMbox_pci (s : State) (n : Nat) (x : MboxSt) : (s.setMbox n x).pci = s.pci := rfl
@[simp] theorem State.setMbox_sched (s : State) (n : Nat) (x : MboxSt) : (s.setMbox n x).sched = s.sched := rfl
@[simp] theorem State.setMbox_spdm (s : State) (n : Nat) (x : MboxSt) : (s.setMbox n x).spdm = s.spdm := rfl
@[simp] theorem State.setMbox_ebk (s : State) (n : Nat) (x : MboxSt) : (s.setMbox n x).ebk = s.ebk := rfl
@[simp] theorem State.setMbox_rpl (s : State) (n : Nat) (x : MboxSt) : (s.setMbox n x).rpl = s.rpl := rfl
@[simp] theorem State.setMbox_twi (s : State) (n : Nat) (x : MboxSt) : (s.setMbox n x).twi = s.twi := rfl

/-! #### setStrm -/
@[simp] theorem State.setStrm_now (s : State) (n : Nat) (x : StreamSt) : (s.setStrm n x).now = s.now := rfl
@[simp] theorem State.setStrm_pending (s : State) (n : Nat) (x : StreamSt) : (s.setStrm n x).pending = s.pending := rfl
@[simp] theorem State.setStrm_regs (s : State) (n : Nat) (x : StreamSt) : (s.setStrm n x).regs = s.regs := rfl
@[simp] theorem State.setStrm_live (s : State) (n : Nat) (x : StreamSt) : (s.setStrm n x).live = s.live := rfl
@[simp] theorem State.setStrm_latch (s : State) (n : Nat) (x : StreamSt) : (s.setStrm n x).latch = s.latch := rfl
@[simp] theorem State.setStrm_pendLo (s : State) (n : Nat) (x : StreamSt) : (s.setStrm n x).pendLo = s.pendLo := rfl
@[simp] theorem State.setStrm_bufs (s : State) (n : Nat) (x : StreamSt) : (s.setStrm n x).bufs = s.bufs := rfl
@[simp] theorem State.setStrm_lmem (s : State) (n : Nat) (x : StreamSt) : (s.setStrm n x).lmem = s.lmem := rfl
@[simp] theorem State.setStrm_cmem (s : State) (n : Nat) (x : StreamSt) : (s.setStrm n x).cmem = s.cmem := rfl
@[simp] theorem State.setStrm_dmem (s : State) (n : Nat) (x : StreamSt) : (s.setStrm n x).dmem = s.dmem := rfl
@[simp] theorem State.setStrm_tim (s : State) (n : Nat) (x : StreamSt) : (s.setStrm n x).tim = s.tim := rfl
@[simp] theorem State.setStrm_axes (s : State) (n : Nat) (x : StreamSt) : (s.setStrm n x).axes = s.axes := rfl
@[simp] theorem State.setStrm_chans (s : State) (n : Nat) (x : StreamSt) : (s.setStrm n x).chans = s.chans := rfl
@[simp] theorem State.setStrm_slots (s : State) (n : Nat) (x : StreamSt) : (s.setStrm n x).slots = s.slots := rfl
@[simp] theorem State.setStrm_evq (s : State) (n : Nat) (x : StreamSt) : (s.setStrm n x).evq = s.evq := rfl
@[simp] theorem State.setStrm_inputs (s : State) (n : Nat) (x : StreamSt) : (s.setStrm n x).inputs = s.inputs := rfl
@[simp] theorem State.setStrm_grpOn (s : State) (n : Nat) (x : StreamSt) : (s.setStrm n x).grpOn = s.grpOn := rfl
@[simp] theorem State.setStrm_grpOff (s : State) (n : Nat) (x : StreamSt) : (s.setStrm n x).grpOff = s.grpOff := rfl
@[simp] theorem State.setStrm_cores (s : State) (n : Nat) (x : StreamSt) : (s.setStrm n x).cores = s.cores := rfl
@[simp] theorem State.setStrm_loader (s : State) (n : Nat) (x : StreamSt) : (s.setStrm n x).loader = s.loader := rfl
@[simp] theorem State.setStrm_mboxes (s : State) (n : Nat) (x : StreamSt) : (s.setStrm n x).mboxes = s.mboxes := rfl
@[simp] theorem State.setStrm_ras (s : State) (n : Nat) (x : StreamSt) : (s.setStrm n x).ras = s.ras := rfl
@[simp] theorem State.setStrm_freeCtr (s : State) (n : Nat) (x : StreamSt) : (s.setStrm n x).freeCtr = s.freeCtr := rfl
@[simp] theorem State.setStrm_boot (s : State) (n : Nat) (x : StreamSt) : (s.setStrm n x).boot = s.boot := rfl
@[simp] theorem State.setStrm_sigs (s : State) (n : Nat) (x : StreamSt) : (s.setStrm n x).sigs = s.sigs := rfl
@[simp] theorem State.setStrm_out (s : State) (n : Nat) (x : StreamSt) : (s.setStrm n x).out = s.out := rfl
@[simp] theorem State.setStrm_poison (s : State) (n : Nat) (x : StreamSt) : (s.setStrm n x).poison = s.poison := rfl
@[simp] theorem State.setStrm_lpoison (s : State) (n : Nat) (x : StreamSt) : (s.setStrm n x).lpoison = s.lpoison := rfl
@[simp] theorem State.setStrm_cpoison (s : State) (n : Nat) (x : StreamSt) : (s.setStrm n x).cpoison = s.cpoison := rfl
@[simp] theorem State.setStrm_eth (s : State) (n : Nat) (x : StreamSt) : (s.setStrm n x).eth = s.eth := rfl
@[simp] theorem State.setStrm_toMill (s : State) (n : Nat) (x : StreamSt) : (s.setStrm n x).toMill = s.toMill := rfl
@[simp] theorem State.setStrm_pars (s : State) (n : Nat) (x : StreamSt) : (s.setStrm n x).pars = s.pars := rfl
@[simp] theorem State.setStrm_trigs (s : State) (n : Nat) (x : StreamSt) : (s.setStrm n x).trigs = s.trigs := rfl
@[simp] theorem State.setStrm_gpios (s : State) (n : Nat) (x : StreamSt) : (s.setStrm n x).gpios = s.gpios := rfl
@[simp] theorem State.setStrm_mills (s : State) (n : Nat) (x : StreamSt) : (s.setStrm n x).mills = s.mills := rfl
@[simp] theorem State.setStrm_millLast (s : State) (n : Nat) (x : StreamSt) : (s.setStrm n x).millLast = s.millLast := rfl
@[simp] theorem State.setStrm_millPos (s : State) (n : Nat) (x : StreamSt) : (s.setStrm n x).millPos = s.millPos := rfl
@[simp] theorem State.setStrm_toCol (s : State) (n : Nat) (x : StreamSt) : (s.setStrm n x).toCol = s.toCol := rfl
@[simp] theorem State.setStrm_toTap (s : State) (n : Nat) (x : StreamSt) : (s.setStrm n x).toTap = s.toTap := rfl
@[simp] theorem State.setStrm_seqs (s : State) (n : Nat) (x : StreamSt) : (s.setStrm n x).seqs = s.seqs := rfl
@[simp] theorem State.setStrm_members (s : State) (n : Nat) (x : StreamSt) : (s.setStrm n x).members = s.members := rfl
@[simp] theorem State.setStrm_toLink (s : State) (n : Nat) (x : StreamSt) : (s.setStrm n x).toLink = s.toLink := rfl
@[simp] theorem State.setStrm_strips (s : State) (n : Nat) (x : StreamSt) : (s.setStrm n x).strips = s.strips := rfl
@[simp] theorem State.setStrm_hedQ (s : State) (n : Nat) (x : StreamSt) : (s.setStrm n x).hedQ = s.hedQ := rfl
@[simp] theorem State.setStrm_hunits (s : State) (n : Nat) (x : StreamSt) : (s.setStrm n x).hunits = s.hunits := rfl
@[simp] theorem State.setStrm_outs (s : State) (n : Nat) (x : StreamSt) : (s.setStrm n x).outs = s.outs := rfl
@[simp] theorem State.setStrm_sheafHeads (s : State) (n : Nat) (x : StreamSt) : (s.setStrm n x).sheafHeads = s.sheafHeads := rfl
@[simp] theorem State.setStrm_hunitNo (s : State) (n : Nat) (x : StreamSt) : (s.setStrm n x).hunitNo = s.hunitNo := rfl
@[simp] theorem State.setStrm_boxes (s : State) (n : Nat) (x : StreamSt) : (s.setStrm n x).boxes = s.boxes := rfl
@[simp] theorem State.setStrm_thr (s : State) (n : Nat) (x : StreamSt) : (s.setStrm n x).thr = s.thr := rfl
@[simp] theorem State.setStrm_gran (s : State) (n : Nat) (x : StreamSt) : (s.setStrm n x).gran = s.gran := rfl
@[simp] theorem State.setStrm_offers (s : State) (n : Nat) (x : StreamSt) : (s.setStrm n x).offers = s.offers := rfl
@[simp] theorem State.setStrm_rings (s : State) (n : Nat) (x : StreamSt) : (s.setStrm n x).rings = s.rings := rfl
@[simp] theorem State.setStrm_cqs (s : State) (n : Nat) (x : StreamSt) : (s.setStrm n x).cqs = s.cqs := rfl
@[simp] theorem State.setStrm_dmas (s : State) (n : Nat) (x : StreamSt) : (s.setStrm n x).dmas = s.dmas := rfl
@[simp] theorem State.setStrm_reads (s : State) (n : Nat) (x : StreamSt) : (s.setStrm n x).reads = s.reads := rfl
@[simp] theorem State.setStrm_signQ (s : State) (n : Nat) (x : StreamSt) : (s.setStrm n x).signQ = s.signQ := rfl
@[simp] theorem State.setStrm_fuses (s : State) (n : Nat) (x : StreamSt) : (s.setStrm n x).fuses = s.fuses := rfl
@[simp] theorem State.setStrm_pci (s : State) (n : Nat) (x : StreamSt) : (s.setStrm n x).pci = s.pci := rfl
@[simp] theorem State.setStrm_sched (s : State) (n : Nat) (x : StreamSt) : (s.setStrm n x).sched = s.sched := rfl
@[simp] theorem State.setStrm_spdm (s : State) (n : Nat) (x : StreamSt) : (s.setStrm n x).spdm = s.spdm := rfl
@[simp] theorem State.setStrm_ebk (s : State) (n : Nat) (x : StreamSt) : (s.setStrm n x).ebk = s.ebk := rfl
@[simp] theorem State.setStrm_rpl (s : State) (n : Nat) (x : StreamSt) : (s.setStrm n x).rpl = s.rpl := rfl
@[simp] theorem State.setStrm_twi (s : State) (n : Nat) (x : StreamSt) : (s.setStrm n x).twi = s.twi := rfl

/-! #### setPar -/
@[simp] theorem State.setPar_now (s : State) (n : Nat) (x : ParSt) : (s.setPar n x).now = s.now := rfl
@[simp] theorem State.setPar_pending (s : State) (n : Nat) (x : ParSt) : (s.setPar n x).pending = s.pending := rfl
@[simp] theorem State.setPar_regs (s : State) (n : Nat) (x : ParSt) : (s.setPar n x).regs = s.regs := rfl
@[simp] theorem State.setPar_live (s : State) (n : Nat) (x : ParSt) : (s.setPar n x).live = s.live := rfl
@[simp] theorem State.setPar_latch (s : State) (n : Nat) (x : ParSt) : (s.setPar n x).latch = s.latch := rfl
@[simp] theorem State.setPar_pendLo (s : State) (n : Nat) (x : ParSt) : (s.setPar n x).pendLo = s.pendLo := rfl
@[simp] theorem State.setPar_bufs (s : State) (n : Nat) (x : ParSt) : (s.setPar n x).bufs = s.bufs := rfl
@[simp] theorem State.setPar_lmem (s : State) (n : Nat) (x : ParSt) : (s.setPar n x).lmem = s.lmem := rfl
@[simp] theorem State.setPar_cmem (s : State) (n : Nat) (x : ParSt) : (s.setPar n x).cmem = s.cmem := rfl
@[simp] theorem State.setPar_dmem (s : State) (n : Nat) (x : ParSt) : (s.setPar n x).dmem = s.dmem := rfl
@[simp] theorem State.setPar_tim (s : State) (n : Nat) (x : ParSt) : (s.setPar n x).tim = s.tim := rfl
@[simp] theorem State.setPar_axes (s : State) (n : Nat) (x : ParSt) : (s.setPar n x).axes = s.axes := rfl
@[simp] theorem State.setPar_chans (s : State) (n : Nat) (x : ParSt) : (s.setPar n x).chans = s.chans := rfl
@[simp] theorem State.setPar_slots (s : State) (n : Nat) (x : ParSt) : (s.setPar n x).slots = s.slots := rfl
@[simp] theorem State.setPar_evq (s : State) (n : Nat) (x : ParSt) : (s.setPar n x).evq = s.evq := rfl
@[simp] theorem State.setPar_inputs (s : State) (n : Nat) (x : ParSt) : (s.setPar n x).inputs = s.inputs := rfl
@[simp] theorem State.setPar_grpOn (s : State) (n : Nat) (x : ParSt) : (s.setPar n x).grpOn = s.grpOn := rfl
@[simp] theorem State.setPar_grpOff (s : State) (n : Nat) (x : ParSt) : (s.setPar n x).grpOff = s.grpOff := rfl
@[simp] theorem State.setPar_cores (s : State) (n : Nat) (x : ParSt) : (s.setPar n x).cores = s.cores := rfl
@[simp] theorem State.setPar_loader (s : State) (n : Nat) (x : ParSt) : (s.setPar n x).loader = s.loader := rfl
@[simp] theorem State.setPar_mboxes (s : State) (n : Nat) (x : ParSt) : (s.setPar n x).mboxes = s.mboxes := rfl
@[simp] theorem State.setPar_ras (s : State) (n : Nat) (x : ParSt) : (s.setPar n x).ras = s.ras := rfl
@[simp] theorem State.setPar_freeCtr (s : State) (n : Nat) (x : ParSt) : (s.setPar n x).freeCtr = s.freeCtr := rfl
@[simp] theorem State.setPar_boot (s : State) (n : Nat) (x : ParSt) : (s.setPar n x).boot = s.boot := rfl
@[simp] theorem State.setPar_sigs (s : State) (n : Nat) (x : ParSt) : (s.setPar n x).sigs = s.sigs := rfl
@[simp] theorem State.setPar_out (s : State) (n : Nat) (x : ParSt) : (s.setPar n x).out = s.out := rfl
@[simp] theorem State.setPar_poison (s : State) (n : Nat) (x : ParSt) : (s.setPar n x).poison = s.poison := rfl
@[simp] theorem State.setPar_lpoison (s : State) (n : Nat) (x : ParSt) : (s.setPar n x).lpoison = s.lpoison := rfl
@[simp] theorem State.setPar_cpoison (s : State) (n : Nat) (x : ParSt) : (s.setPar n x).cpoison = s.cpoison := rfl
@[simp] theorem State.setPar_streams (s : State) (n : Nat) (x : ParSt) : (s.setPar n x).streams = s.streams := rfl
@[simp] theorem State.setPar_eth (s : State) (n : Nat) (x : ParSt) : (s.setPar n x).eth = s.eth := rfl
@[simp] theorem State.setPar_toMill (s : State) (n : Nat) (x : ParSt) : (s.setPar n x).toMill = s.toMill := rfl
@[simp] theorem State.setPar_trigs (s : State) (n : Nat) (x : ParSt) : (s.setPar n x).trigs = s.trigs := rfl
@[simp] theorem State.setPar_gpios (s : State) (n : Nat) (x : ParSt) : (s.setPar n x).gpios = s.gpios := rfl
@[simp] theorem State.setPar_mills (s : State) (n : Nat) (x : ParSt) : (s.setPar n x).mills = s.mills := rfl
@[simp] theorem State.setPar_millLast (s : State) (n : Nat) (x : ParSt) : (s.setPar n x).millLast = s.millLast := rfl
@[simp] theorem State.setPar_millPos (s : State) (n : Nat) (x : ParSt) : (s.setPar n x).millPos = s.millPos := rfl
@[simp] theorem State.setPar_toCol (s : State) (n : Nat) (x : ParSt) : (s.setPar n x).toCol = s.toCol := rfl
@[simp] theorem State.setPar_toTap (s : State) (n : Nat) (x : ParSt) : (s.setPar n x).toTap = s.toTap := rfl
@[simp] theorem State.setPar_seqs (s : State) (n : Nat) (x : ParSt) : (s.setPar n x).seqs = s.seqs := rfl
@[simp] theorem State.setPar_members (s : State) (n : Nat) (x : ParSt) : (s.setPar n x).members = s.members := rfl
@[simp] theorem State.setPar_toLink (s : State) (n : Nat) (x : ParSt) : (s.setPar n x).toLink = s.toLink := rfl
@[simp] theorem State.setPar_strips (s : State) (n : Nat) (x : ParSt) : (s.setPar n x).strips = s.strips := rfl
@[simp] theorem State.setPar_hedQ (s : State) (n : Nat) (x : ParSt) : (s.setPar n x).hedQ = s.hedQ := rfl
@[simp] theorem State.setPar_hunits (s : State) (n : Nat) (x : ParSt) : (s.setPar n x).hunits = s.hunits := rfl
@[simp] theorem State.setPar_outs (s : State) (n : Nat) (x : ParSt) : (s.setPar n x).outs = s.outs := rfl
@[simp] theorem State.setPar_sheafHeads (s : State) (n : Nat) (x : ParSt) : (s.setPar n x).sheafHeads = s.sheafHeads := rfl
@[simp] theorem State.setPar_hunitNo (s : State) (n : Nat) (x : ParSt) : (s.setPar n x).hunitNo = s.hunitNo := rfl
@[simp] theorem State.setPar_boxes (s : State) (n : Nat) (x : ParSt) : (s.setPar n x).boxes = s.boxes := rfl
@[simp] theorem State.setPar_thr (s : State) (n : Nat) (x : ParSt) : (s.setPar n x).thr = s.thr := rfl
@[simp] theorem State.setPar_gran (s : State) (n : Nat) (x : ParSt) : (s.setPar n x).gran = s.gran := rfl
@[simp] theorem State.setPar_offers (s : State) (n : Nat) (x : ParSt) : (s.setPar n x).offers = s.offers := rfl
@[simp] theorem State.setPar_rings (s : State) (n : Nat) (x : ParSt) : (s.setPar n x).rings = s.rings := rfl
@[simp] theorem State.setPar_cqs (s : State) (n : Nat) (x : ParSt) : (s.setPar n x).cqs = s.cqs := rfl
@[simp] theorem State.setPar_dmas (s : State) (n : Nat) (x : ParSt) : (s.setPar n x).dmas = s.dmas := rfl
@[simp] theorem State.setPar_reads (s : State) (n : Nat) (x : ParSt) : (s.setPar n x).reads = s.reads := rfl
@[simp] theorem State.setPar_signQ (s : State) (n : Nat) (x : ParSt) : (s.setPar n x).signQ = s.signQ := rfl
@[simp] theorem State.setPar_fuses (s : State) (n : Nat) (x : ParSt) : (s.setPar n x).fuses = s.fuses := rfl
@[simp] theorem State.setPar_pci (s : State) (n : Nat) (x : ParSt) : (s.setPar n x).pci = s.pci := rfl
@[simp] theorem State.setPar_sched (s : State) (n : Nat) (x : ParSt) : (s.setPar n x).sched = s.sched := rfl
@[simp] theorem State.setPar_spdm (s : State) (n : Nat) (x : ParSt) : (s.setPar n x).spdm = s.spdm := rfl
@[simp] theorem State.setPar_ebk (s : State) (n : Nat) (x : ParSt) : (s.setPar n x).ebk = s.ebk := rfl
@[simp] theorem State.setPar_rpl (s : State) (n : Nat) (x : ParSt) : (s.setPar n x).rpl = s.rpl := rfl
@[simp] theorem State.setPar_twi (s : State) (n : Nat) (x : ParSt) : (s.setPar n x).twi = s.twi := rfl

/-! #### setTrig -/
@[simp] theorem State.setTrig_now (s : State) (n : Nat) (x : TrigSt) : (s.setTrig n x).now = s.now := rfl
@[simp] theorem State.setTrig_pending (s : State) (n : Nat) (x : TrigSt) : (s.setTrig n x).pending = s.pending := rfl
@[simp] theorem State.setTrig_regs (s : State) (n : Nat) (x : TrigSt) : (s.setTrig n x).regs = s.regs := rfl
@[simp] theorem State.setTrig_live (s : State) (n : Nat) (x : TrigSt) : (s.setTrig n x).live = s.live := rfl
@[simp] theorem State.setTrig_latch (s : State) (n : Nat) (x : TrigSt) : (s.setTrig n x).latch = s.latch := rfl
@[simp] theorem State.setTrig_pendLo (s : State) (n : Nat) (x : TrigSt) : (s.setTrig n x).pendLo = s.pendLo := rfl
@[simp] theorem State.setTrig_bufs (s : State) (n : Nat) (x : TrigSt) : (s.setTrig n x).bufs = s.bufs := rfl
@[simp] theorem State.setTrig_lmem (s : State) (n : Nat) (x : TrigSt) : (s.setTrig n x).lmem = s.lmem := rfl
@[simp] theorem State.setTrig_cmem (s : State) (n : Nat) (x : TrigSt) : (s.setTrig n x).cmem = s.cmem := rfl
@[simp] theorem State.setTrig_dmem (s : State) (n : Nat) (x : TrigSt) : (s.setTrig n x).dmem = s.dmem := rfl
@[simp] theorem State.setTrig_tim (s : State) (n : Nat) (x : TrigSt) : (s.setTrig n x).tim = s.tim := rfl
@[simp] theorem State.setTrig_axes (s : State) (n : Nat) (x : TrigSt) : (s.setTrig n x).axes = s.axes := rfl
@[simp] theorem State.setTrig_chans (s : State) (n : Nat) (x : TrigSt) : (s.setTrig n x).chans = s.chans := rfl
@[simp] theorem State.setTrig_slots (s : State) (n : Nat) (x : TrigSt) : (s.setTrig n x).slots = s.slots := rfl
@[simp] theorem State.setTrig_evq (s : State) (n : Nat) (x : TrigSt) : (s.setTrig n x).evq = s.evq := rfl
@[simp] theorem State.setTrig_inputs (s : State) (n : Nat) (x : TrigSt) : (s.setTrig n x).inputs = s.inputs := rfl
@[simp] theorem State.setTrig_grpOn (s : State) (n : Nat) (x : TrigSt) : (s.setTrig n x).grpOn = s.grpOn := rfl
@[simp] theorem State.setTrig_grpOff (s : State) (n : Nat) (x : TrigSt) : (s.setTrig n x).grpOff = s.grpOff := rfl
@[simp] theorem State.setTrig_cores (s : State) (n : Nat) (x : TrigSt) : (s.setTrig n x).cores = s.cores := rfl
@[simp] theorem State.setTrig_loader (s : State) (n : Nat) (x : TrigSt) : (s.setTrig n x).loader = s.loader := rfl
@[simp] theorem State.setTrig_mboxes (s : State) (n : Nat) (x : TrigSt) : (s.setTrig n x).mboxes = s.mboxes := rfl
@[simp] theorem State.setTrig_ras (s : State) (n : Nat) (x : TrigSt) : (s.setTrig n x).ras = s.ras := rfl
@[simp] theorem State.setTrig_freeCtr (s : State) (n : Nat) (x : TrigSt) : (s.setTrig n x).freeCtr = s.freeCtr := rfl
@[simp] theorem State.setTrig_boot (s : State) (n : Nat) (x : TrigSt) : (s.setTrig n x).boot = s.boot := rfl
@[simp] theorem State.setTrig_sigs (s : State) (n : Nat) (x : TrigSt) : (s.setTrig n x).sigs = s.sigs := rfl
@[simp] theorem State.setTrig_out (s : State) (n : Nat) (x : TrigSt) : (s.setTrig n x).out = s.out := rfl
@[simp] theorem State.setTrig_poison (s : State) (n : Nat) (x : TrigSt) : (s.setTrig n x).poison = s.poison := rfl
@[simp] theorem State.setTrig_lpoison (s : State) (n : Nat) (x : TrigSt) : (s.setTrig n x).lpoison = s.lpoison := rfl
@[simp] theorem State.setTrig_cpoison (s : State) (n : Nat) (x : TrigSt) : (s.setTrig n x).cpoison = s.cpoison := rfl
@[simp] theorem State.setTrig_streams (s : State) (n : Nat) (x : TrigSt) : (s.setTrig n x).streams = s.streams := rfl
@[simp] theorem State.setTrig_eth (s : State) (n : Nat) (x : TrigSt) : (s.setTrig n x).eth = s.eth := rfl
@[simp] theorem State.setTrig_toMill (s : State) (n : Nat) (x : TrigSt) : (s.setTrig n x).toMill = s.toMill := rfl
@[simp] theorem State.setTrig_pars (s : State) (n : Nat) (x : TrigSt) : (s.setTrig n x).pars = s.pars := rfl
@[simp] theorem State.setTrig_gpios (s : State) (n : Nat) (x : TrigSt) : (s.setTrig n x).gpios = s.gpios := rfl
@[simp] theorem State.setTrig_mills (s : State) (n : Nat) (x : TrigSt) : (s.setTrig n x).mills = s.mills := rfl
@[simp] theorem State.setTrig_millLast (s : State) (n : Nat) (x : TrigSt) : (s.setTrig n x).millLast = s.millLast := rfl
@[simp] theorem State.setTrig_millPos (s : State) (n : Nat) (x : TrigSt) : (s.setTrig n x).millPos = s.millPos := rfl
@[simp] theorem State.setTrig_toCol (s : State) (n : Nat) (x : TrigSt) : (s.setTrig n x).toCol = s.toCol := rfl
@[simp] theorem State.setTrig_toTap (s : State) (n : Nat) (x : TrigSt) : (s.setTrig n x).toTap = s.toTap := rfl
@[simp] theorem State.setTrig_seqs (s : State) (n : Nat) (x : TrigSt) : (s.setTrig n x).seqs = s.seqs := rfl
@[simp] theorem State.setTrig_members (s : State) (n : Nat) (x : TrigSt) : (s.setTrig n x).members = s.members := rfl
@[simp] theorem State.setTrig_toLink (s : State) (n : Nat) (x : TrigSt) : (s.setTrig n x).toLink = s.toLink := rfl
@[simp] theorem State.setTrig_strips (s : State) (n : Nat) (x : TrigSt) : (s.setTrig n x).strips = s.strips := rfl
@[simp] theorem State.setTrig_hedQ (s : State) (n : Nat) (x : TrigSt) : (s.setTrig n x).hedQ = s.hedQ := rfl
@[simp] theorem State.setTrig_hunits (s : State) (n : Nat) (x : TrigSt) : (s.setTrig n x).hunits = s.hunits := rfl
@[simp] theorem State.setTrig_outs (s : State) (n : Nat) (x : TrigSt) : (s.setTrig n x).outs = s.outs := rfl
@[simp] theorem State.setTrig_sheafHeads (s : State) (n : Nat) (x : TrigSt) : (s.setTrig n x).sheafHeads = s.sheafHeads := rfl
@[simp] theorem State.setTrig_hunitNo (s : State) (n : Nat) (x : TrigSt) : (s.setTrig n x).hunitNo = s.hunitNo := rfl
@[simp] theorem State.setTrig_boxes (s : State) (n : Nat) (x : TrigSt) : (s.setTrig n x).boxes = s.boxes := rfl
@[simp] theorem State.setTrig_thr (s : State) (n : Nat) (x : TrigSt) : (s.setTrig n x).thr = s.thr := rfl
@[simp] theorem State.setTrig_gran (s : State) (n : Nat) (x : TrigSt) : (s.setTrig n x).gran = s.gran := rfl
@[simp] theorem State.setTrig_offers (s : State) (n : Nat) (x : TrigSt) : (s.setTrig n x).offers = s.offers := rfl
@[simp] theorem State.setTrig_rings (s : State) (n : Nat) (x : TrigSt) : (s.setTrig n x).rings = s.rings := rfl
@[simp] theorem State.setTrig_cqs (s : State) (n : Nat) (x : TrigSt) : (s.setTrig n x).cqs = s.cqs := rfl
@[simp] theorem State.setTrig_dmas (s : State) (n : Nat) (x : TrigSt) : (s.setTrig n x).dmas = s.dmas := rfl
@[simp] theorem State.setTrig_reads (s : State) (n : Nat) (x : TrigSt) : (s.setTrig n x).reads = s.reads := rfl
@[simp] theorem State.setTrig_signQ (s : State) (n : Nat) (x : TrigSt) : (s.setTrig n x).signQ = s.signQ := rfl
@[simp] theorem State.setTrig_fuses (s : State) (n : Nat) (x : TrigSt) : (s.setTrig n x).fuses = s.fuses := rfl
@[simp] theorem State.setTrig_pci (s : State) (n : Nat) (x : TrigSt) : (s.setTrig n x).pci = s.pci := rfl
@[simp] theorem State.setTrig_sched (s : State) (n : Nat) (x : TrigSt) : (s.setTrig n x).sched = s.sched := rfl
@[simp] theorem State.setTrig_spdm (s : State) (n : Nat) (x : TrigSt) : (s.setTrig n x).spdm = s.spdm := rfl
@[simp] theorem State.setTrig_ebk (s : State) (n : Nat) (x : TrigSt) : (s.setTrig n x).ebk = s.ebk := rfl
@[simp] theorem State.setTrig_rpl (s : State) (n : Nat) (x : TrigSt) : (s.setTrig n x).rpl = s.rpl := rfl
@[simp] theorem State.setTrig_twi (s : State) (n : Nat) (x : TrigSt) : (s.setTrig n x).twi = s.twi := rfl

/-! #### setGpio -/
@[simp] theorem State.setGpio_now (s : State) (n : Nat) (x : GpioSt) : (s.setGpio n x).now = s.now := rfl
@[simp] theorem State.setGpio_pending (s : State) (n : Nat) (x : GpioSt) : (s.setGpio n x).pending = s.pending := rfl
@[simp] theorem State.setGpio_regs (s : State) (n : Nat) (x : GpioSt) : (s.setGpio n x).regs = s.regs := rfl
@[simp] theorem State.setGpio_live (s : State) (n : Nat) (x : GpioSt) : (s.setGpio n x).live = s.live := rfl
@[simp] theorem State.setGpio_latch (s : State) (n : Nat) (x : GpioSt) : (s.setGpio n x).latch = s.latch := rfl
@[simp] theorem State.setGpio_pendLo (s : State) (n : Nat) (x : GpioSt) : (s.setGpio n x).pendLo = s.pendLo := rfl
@[simp] theorem State.setGpio_bufs (s : State) (n : Nat) (x : GpioSt) : (s.setGpio n x).bufs = s.bufs := rfl
@[simp] theorem State.setGpio_lmem (s : State) (n : Nat) (x : GpioSt) : (s.setGpio n x).lmem = s.lmem := rfl
@[simp] theorem State.setGpio_cmem (s : State) (n : Nat) (x : GpioSt) : (s.setGpio n x).cmem = s.cmem := rfl
@[simp] theorem State.setGpio_dmem (s : State) (n : Nat) (x : GpioSt) : (s.setGpio n x).dmem = s.dmem := rfl
@[simp] theorem State.setGpio_tim (s : State) (n : Nat) (x : GpioSt) : (s.setGpio n x).tim = s.tim := rfl
@[simp] theorem State.setGpio_axes (s : State) (n : Nat) (x : GpioSt) : (s.setGpio n x).axes = s.axes := rfl
@[simp] theorem State.setGpio_chans (s : State) (n : Nat) (x : GpioSt) : (s.setGpio n x).chans = s.chans := rfl
@[simp] theorem State.setGpio_slots (s : State) (n : Nat) (x : GpioSt) : (s.setGpio n x).slots = s.slots := rfl
@[simp] theorem State.setGpio_evq (s : State) (n : Nat) (x : GpioSt) : (s.setGpio n x).evq = s.evq := rfl
@[simp] theorem State.setGpio_inputs (s : State) (n : Nat) (x : GpioSt) : (s.setGpio n x).inputs = s.inputs := rfl
@[simp] theorem State.setGpio_grpOn (s : State) (n : Nat) (x : GpioSt) : (s.setGpio n x).grpOn = s.grpOn := rfl
@[simp] theorem State.setGpio_grpOff (s : State) (n : Nat) (x : GpioSt) : (s.setGpio n x).grpOff = s.grpOff := rfl
@[simp] theorem State.setGpio_cores (s : State) (n : Nat) (x : GpioSt) : (s.setGpio n x).cores = s.cores := rfl
@[simp] theorem State.setGpio_loader (s : State) (n : Nat) (x : GpioSt) : (s.setGpio n x).loader = s.loader := rfl
@[simp] theorem State.setGpio_mboxes (s : State) (n : Nat) (x : GpioSt) : (s.setGpio n x).mboxes = s.mboxes := rfl
@[simp] theorem State.setGpio_ras (s : State) (n : Nat) (x : GpioSt) : (s.setGpio n x).ras = s.ras := rfl
@[simp] theorem State.setGpio_freeCtr (s : State) (n : Nat) (x : GpioSt) : (s.setGpio n x).freeCtr = s.freeCtr := rfl
@[simp] theorem State.setGpio_boot (s : State) (n : Nat) (x : GpioSt) : (s.setGpio n x).boot = s.boot := rfl
@[simp] theorem State.setGpio_sigs (s : State) (n : Nat) (x : GpioSt) : (s.setGpio n x).sigs = s.sigs := rfl
@[simp] theorem State.setGpio_out (s : State) (n : Nat) (x : GpioSt) : (s.setGpio n x).out = s.out := rfl
@[simp] theorem State.setGpio_poison (s : State) (n : Nat) (x : GpioSt) : (s.setGpio n x).poison = s.poison := rfl
@[simp] theorem State.setGpio_lpoison (s : State) (n : Nat) (x : GpioSt) : (s.setGpio n x).lpoison = s.lpoison := rfl
@[simp] theorem State.setGpio_cpoison (s : State) (n : Nat) (x : GpioSt) : (s.setGpio n x).cpoison = s.cpoison := rfl
@[simp] theorem State.setGpio_streams (s : State) (n : Nat) (x : GpioSt) : (s.setGpio n x).streams = s.streams := rfl
@[simp] theorem State.setGpio_eth (s : State) (n : Nat) (x : GpioSt) : (s.setGpio n x).eth = s.eth := rfl
@[simp] theorem State.setGpio_toMill (s : State) (n : Nat) (x : GpioSt) : (s.setGpio n x).toMill = s.toMill := rfl
@[simp] theorem State.setGpio_pars (s : State) (n : Nat) (x : GpioSt) : (s.setGpio n x).pars = s.pars := rfl
@[simp] theorem State.setGpio_trigs (s : State) (n : Nat) (x : GpioSt) : (s.setGpio n x).trigs = s.trigs := rfl
@[simp] theorem State.setGpio_mills (s : State) (n : Nat) (x : GpioSt) : (s.setGpio n x).mills = s.mills := rfl
@[simp] theorem State.setGpio_millLast (s : State) (n : Nat) (x : GpioSt) : (s.setGpio n x).millLast = s.millLast := rfl
@[simp] theorem State.setGpio_millPos (s : State) (n : Nat) (x : GpioSt) : (s.setGpio n x).millPos = s.millPos := rfl
@[simp] theorem State.setGpio_toCol (s : State) (n : Nat) (x : GpioSt) : (s.setGpio n x).toCol = s.toCol := rfl
@[simp] theorem State.setGpio_toTap (s : State) (n : Nat) (x : GpioSt) : (s.setGpio n x).toTap = s.toTap := rfl
@[simp] theorem State.setGpio_seqs (s : State) (n : Nat) (x : GpioSt) : (s.setGpio n x).seqs = s.seqs := rfl
@[simp] theorem State.setGpio_members (s : State) (n : Nat) (x : GpioSt) : (s.setGpio n x).members = s.members := rfl
@[simp] theorem State.setGpio_toLink (s : State) (n : Nat) (x : GpioSt) : (s.setGpio n x).toLink = s.toLink := rfl
@[simp] theorem State.setGpio_strips (s : State) (n : Nat) (x : GpioSt) : (s.setGpio n x).strips = s.strips := rfl
@[simp] theorem State.setGpio_hedQ (s : State) (n : Nat) (x : GpioSt) : (s.setGpio n x).hedQ = s.hedQ := rfl
@[simp] theorem State.setGpio_hunits (s : State) (n : Nat) (x : GpioSt) : (s.setGpio n x).hunits = s.hunits := rfl
@[simp] theorem State.setGpio_outs (s : State) (n : Nat) (x : GpioSt) : (s.setGpio n x).outs = s.outs := rfl
@[simp] theorem State.setGpio_sheafHeads (s : State) (n : Nat) (x : GpioSt) : (s.setGpio n x).sheafHeads = s.sheafHeads := rfl
@[simp] theorem State.setGpio_hunitNo (s : State) (n : Nat) (x : GpioSt) : (s.setGpio n x).hunitNo = s.hunitNo := rfl
@[simp] theorem State.setGpio_boxes (s : State) (n : Nat) (x : GpioSt) : (s.setGpio n x).boxes = s.boxes := rfl
@[simp] theorem State.setGpio_thr (s : State) (n : Nat) (x : GpioSt) : (s.setGpio n x).thr = s.thr := rfl
@[simp] theorem State.setGpio_gran (s : State) (n : Nat) (x : GpioSt) : (s.setGpio n x).gran = s.gran := rfl
@[simp] theorem State.setGpio_offers (s : State) (n : Nat) (x : GpioSt) : (s.setGpio n x).offers = s.offers := rfl
@[simp] theorem State.setGpio_rings (s : State) (n : Nat) (x : GpioSt) : (s.setGpio n x).rings = s.rings := rfl
@[simp] theorem State.setGpio_cqs (s : State) (n : Nat) (x : GpioSt) : (s.setGpio n x).cqs = s.cqs := rfl
@[simp] theorem State.setGpio_dmas (s : State) (n : Nat) (x : GpioSt) : (s.setGpio n x).dmas = s.dmas := rfl
@[simp] theorem State.setGpio_reads (s : State) (n : Nat) (x : GpioSt) : (s.setGpio n x).reads = s.reads := rfl
@[simp] theorem State.setGpio_signQ (s : State) (n : Nat) (x : GpioSt) : (s.setGpio n x).signQ = s.signQ := rfl
@[simp] theorem State.setGpio_fuses (s : State) (n : Nat) (x : GpioSt) : (s.setGpio n x).fuses = s.fuses := rfl
@[simp] theorem State.setGpio_pci (s : State) (n : Nat) (x : GpioSt) : (s.setGpio n x).pci = s.pci := rfl
@[simp] theorem State.setGpio_sched (s : State) (n : Nat) (x : GpioSt) : (s.setGpio n x).sched = s.sched := rfl
@[simp] theorem State.setGpio_spdm (s : State) (n : Nat) (x : GpioSt) : (s.setGpio n x).spdm = s.spdm := rfl
@[simp] theorem State.setGpio_ebk (s : State) (n : Nat) (x : GpioSt) : (s.setGpio n x).ebk = s.ebk := rfl
@[simp] theorem State.setGpio_rpl (s : State) (n : Nat) (x : GpioSt) : (s.setGpio n x).rpl = s.rpl := rfl
@[simp] theorem State.setGpio_twi (s : State) (n : Nat) (x : GpioSt) : (s.setGpio n x).twi = s.twi := rfl

/-! #### setMill -/
@[simp] theorem State.setMill_now (s : State) (n : Nat) (x : MillSt) : (s.setMill n x).now = s.now := rfl
@[simp] theorem State.setMill_pending (s : State) (n : Nat) (x : MillSt) : (s.setMill n x).pending = s.pending := rfl
@[simp] theorem State.setMill_regs (s : State) (n : Nat) (x : MillSt) : (s.setMill n x).regs = s.regs := rfl
@[simp] theorem State.setMill_live (s : State) (n : Nat) (x : MillSt) : (s.setMill n x).live = s.live := rfl
@[simp] theorem State.setMill_latch (s : State) (n : Nat) (x : MillSt) : (s.setMill n x).latch = s.latch := rfl
@[simp] theorem State.setMill_pendLo (s : State) (n : Nat) (x : MillSt) : (s.setMill n x).pendLo = s.pendLo := rfl
@[simp] theorem State.setMill_bufs (s : State) (n : Nat) (x : MillSt) : (s.setMill n x).bufs = s.bufs := rfl
@[simp] theorem State.setMill_lmem (s : State) (n : Nat) (x : MillSt) : (s.setMill n x).lmem = s.lmem := rfl
@[simp] theorem State.setMill_cmem (s : State) (n : Nat) (x : MillSt) : (s.setMill n x).cmem = s.cmem := rfl
@[simp] theorem State.setMill_dmem (s : State) (n : Nat) (x : MillSt) : (s.setMill n x).dmem = s.dmem := rfl
@[simp] theorem State.setMill_tim (s : State) (n : Nat) (x : MillSt) : (s.setMill n x).tim = s.tim := rfl
@[simp] theorem State.setMill_axes (s : State) (n : Nat) (x : MillSt) : (s.setMill n x).axes = s.axes := rfl
@[simp] theorem State.setMill_chans (s : State) (n : Nat) (x : MillSt) : (s.setMill n x).chans = s.chans := rfl
@[simp] theorem State.setMill_slots (s : State) (n : Nat) (x : MillSt) : (s.setMill n x).slots = s.slots := rfl
@[simp] theorem State.setMill_evq (s : State) (n : Nat) (x : MillSt) : (s.setMill n x).evq = s.evq := rfl
@[simp] theorem State.setMill_inputs (s : State) (n : Nat) (x : MillSt) : (s.setMill n x).inputs = s.inputs := rfl
@[simp] theorem State.setMill_grpOn (s : State) (n : Nat) (x : MillSt) : (s.setMill n x).grpOn = s.grpOn := rfl
@[simp] theorem State.setMill_grpOff (s : State) (n : Nat) (x : MillSt) : (s.setMill n x).grpOff = s.grpOff := rfl
@[simp] theorem State.setMill_cores (s : State) (n : Nat) (x : MillSt) : (s.setMill n x).cores = s.cores := rfl
@[simp] theorem State.setMill_loader (s : State) (n : Nat) (x : MillSt) : (s.setMill n x).loader = s.loader := rfl
@[simp] theorem State.setMill_mboxes (s : State) (n : Nat) (x : MillSt) : (s.setMill n x).mboxes = s.mboxes := rfl
@[simp] theorem State.setMill_ras (s : State) (n : Nat) (x : MillSt) : (s.setMill n x).ras = s.ras := rfl
@[simp] theorem State.setMill_freeCtr (s : State) (n : Nat) (x : MillSt) : (s.setMill n x).freeCtr = s.freeCtr := rfl
@[simp] theorem State.setMill_boot (s : State) (n : Nat) (x : MillSt) : (s.setMill n x).boot = s.boot := rfl
@[simp] theorem State.setMill_sigs (s : State) (n : Nat) (x : MillSt) : (s.setMill n x).sigs = s.sigs := rfl
@[simp] theorem State.setMill_out (s : State) (n : Nat) (x : MillSt) : (s.setMill n x).out = s.out := rfl
@[simp] theorem State.setMill_poison (s : State) (n : Nat) (x : MillSt) : (s.setMill n x).poison = s.poison := rfl
@[simp] theorem State.setMill_lpoison (s : State) (n : Nat) (x : MillSt) : (s.setMill n x).lpoison = s.lpoison := rfl
@[simp] theorem State.setMill_cpoison (s : State) (n : Nat) (x : MillSt) : (s.setMill n x).cpoison = s.cpoison := rfl
@[simp] theorem State.setMill_streams (s : State) (n : Nat) (x : MillSt) : (s.setMill n x).streams = s.streams := rfl
@[simp] theorem State.setMill_eth (s : State) (n : Nat) (x : MillSt) : (s.setMill n x).eth = s.eth := rfl
@[simp] theorem State.setMill_toMill (s : State) (n : Nat) (x : MillSt) : (s.setMill n x).toMill = s.toMill := rfl
@[simp] theorem State.setMill_pars (s : State) (n : Nat) (x : MillSt) : (s.setMill n x).pars = s.pars := rfl
@[simp] theorem State.setMill_trigs (s : State) (n : Nat) (x : MillSt) : (s.setMill n x).trigs = s.trigs := rfl
@[simp] theorem State.setMill_gpios (s : State) (n : Nat) (x : MillSt) : (s.setMill n x).gpios = s.gpios := rfl
@[simp] theorem State.setMill_millLast (s : State) (n : Nat) (x : MillSt) : (s.setMill n x).millLast = s.millLast := rfl
@[simp] theorem State.setMill_millPos (s : State) (n : Nat) (x : MillSt) : (s.setMill n x).millPos = s.millPos := rfl
@[simp] theorem State.setMill_toCol (s : State) (n : Nat) (x : MillSt) : (s.setMill n x).toCol = s.toCol := rfl
@[simp] theorem State.setMill_toTap (s : State) (n : Nat) (x : MillSt) : (s.setMill n x).toTap = s.toTap := rfl
@[simp] theorem State.setMill_seqs (s : State) (n : Nat) (x : MillSt) : (s.setMill n x).seqs = s.seqs := rfl
@[simp] theorem State.setMill_members (s : State) (n : Nat) (x : MillSt) : (s.setMill n x).members = s.members := rfl
@[simp] theorem State.setMill_toLink (s : State) (n : Nat) (x : MillSt) : (s.setMill n x).toLink = s.toLink := rfl
@[simp] theorem State.setMill_strips (s : State) (n : Nat) (x : MillSt) : (s.setMill n x).strips = s.strips := rfl
@[simp] theorem State.setMill_hedQ (s : State) (n : Nat) (x : MillSt) : (s.setMill n x).hedQ = s.hedQ := rfl
@[simp] theorem State.setMill_hunits (s : State) (n : Nat) (x : MillSt) : (s.setMill n x).hunits = s.hunits := rfl
@[simp] theorem State.setMill_outs (s : State) (n : Nat) (x : MillSt) : (s.setMill n x).outs = s.outs := rfl
@[simp] theorem State.setMill_sheafHeads (s : State) (n : Nat) (x : MillSt) : (s.setMill n x).sheafHeads = s.sheafHeads := rfl
@[simp] theorem State.setMill_hunitNo (s : State) (n : Nat) (x : MillSt) : (s.setMill n x).hunitNo = s.hunitNo := rfl
@[simp] theorem State.setMill_boxes (s : State) (n : Nat) (x : MillSt) : (s.setMill n x).boxes = s.boxes := rfl
@[simp] theorem State.setMill_thr (s : State) (n : Nat) (x : MillSt) : (s.setMill n x).thr = s.thr := rfl
@[simp] theorem State.setMill_gran (s : State) (n : Nat) (x : MillSt) : (s.setMill n x).gran = s.gran := rfl
@[simp] theorem State.setMill_offers (s : State) (n : Nat) (x : MillSt) : (s.setMill n x).offers = s.offers := rfl
@[simp] theorem State.setMill_rings (s : State) (n : Nat) (x : MillSt) : (s.setMill n x).rings = s.rings := rfl
@[simp] theorem State.setMill_cqs (s : State) (n : Nat) (x : MillSt) : (s.setMill n x).cqs = s.cqs := rfl
@[simp] theorem State.setMill_dmas (s : State) (n : Nat) (x : MillSt) : (s.setMill n x).dmas = s.dmas := rfl
@[simp] theorem State.setMill_reads (s : State) (n : Nat) (x : MillSt) : (s.setMill n x).reads = s.reads := rfl
@[simp] theorem State.setMill_signQ (s : State) (n : Nat) (x : MillSt) : (s.setMill n x).signQ = s.signQ := rfl
@[simp] theorem State.setMill_fuses (s : State) (n : Nat) (x : MillSt) : (s.setMill n x).fuses = s.fuses := rfl
@[simp] theorem State.setMill_pci (s : State) (n : Nat) (x : MillSt) : (s.setMill n x).pci = s.pci := rfl
@[simp] theorem State.setMill_sched (s : State) (n : Nat) (x : MillSt) : (s.setMill n x).sched = s.sched := rfl
@[simp] theorem State.setMill_spdm (s : State) (n : Nat) (x : MillSt) : (s.setMill n x).spdm = s.spdm := rfl
@[simp] theorem State.setMill_ebk (s : State) (n : Nat) (x : MillSt) : (s.setMill n x).ebk = s.ebk := rfl
@[simp] theorem State.setMill_rpl (s : State) (n : Nat) (x : MillSt) : (s.setMill n x).rpl = s.rpl := rfl
@[simp] theorem State.setMill_twi (s : State) (n : Nat) (x : MillSt) : (s.setMill n x).twi = s.twi := rfl

/-! #### setSeq -/
@[simp] theorem State.setSeq_now (s : State) (n : Nat) (x : SeqSt) : (s.setSeq n x).now = s.now := rfl
@[simp] theorem State.setSeq_pending (s : State) (n : Nat) (x : SeqSt) : (s.setSeq n x).pending = s.pending := rfl
@[simp] theorem State.setSeq_regs (s : State) (n : Nat) (x : SeqSt) : (s.setSeq n x).regs = s.regs := rfl
@[simp] theorem State.setSeq_live (s : State) (n : Nat) (x : SeqSt) : (s.setSeq n x).live = s.live := rfl
@[simp] theorem State.setSeq_latch (s : State) (n : Nat) (x : SeqSt) : (s.setSeq n x).latch = s.latch := rfl
@[simp] theorem State.setSeq_pendLo (s : State) (n : Nat) (x : SeqSt) : (s.setSeq n x).pendLo = s.pendLo := rfl
@[simp] theorem State.setSeq_bufs (s : State) (n : Nat) (x : SeqSt) : (s.setSeq n x).bufs = s.bufs := rfl
@[simp] theorem State.setSeq_lmem (s : State) (n : Nat) (x : SeqSt) : (s.setSeq n x).lmem = s.lmem := rfl
@[simp] theorem State.setSeq_cmem (s : State) (n : Nat) (x : SeqSt) : (s.setSeq n x).cmem = s.cmem := rfl
@[simp] theorem State.setSeq_dmem (s : State) (n : Nat) (x : SeqSt) : (s.setSeq n x).dmem = s.dmem := rfl
@[simp] theorem State.setSeq_tim (s : State) (n : Nat) (x : SeqSt) : (s.setSeq n x).tim = s.tim := rfl
@[simp] theorem State.setSeq_axes (s : State) (n : Nat) (x : SeqSt) : (s.setSeq n x).axes = s.axes := rfl
@[simp] theorem State.setSeq_chans (s : State) (n : Nat) (x : SeqSt) : (s.setSeq n x).chans = s.chans := rfl
@[simp] theorem State.setSeq_slots (s : State) (n : Nat) (x : SeqSt) : (s.setSeq n x).slots = s.slots := rfl
@[simp] theorem State.setSeq_evq (s : State) (n : Nat) (x : SeqSt) : (s.setSeq n x).evq = s.evq := rfl
@[simp] theorem State.setSeq_inputs (s : State) (n : Nat) (x : SeqSt) : (s.setSeq n x).inputs = s.inputs := rfl
@[simp] theorem State.setSeq_grpOn (s : State) (n : Nat) (x : SeqSt) : (s.setSeq n x).grpOn = s.grpOn := rfl
@[simp] theorem State.setSeq_grpOff (s : State) (n : Nat) (x : SeqSt) : (s.setSeq n x).grpOff = s.grpOff := rfl
@[simp] theorem State.setSeq_cores (s : State) (n : Nat) (x : SeqSt) : (s.setSeq n x).cores = s.cores := rfl
@[simp] theorem State.setSeq_loader (s : State) (n : Nat) (x : SeqSt) : (s.setSeq n x).loader = s.loader := rfl
@[simp] theorem State.setSeq_mboxes (s : State) (n : Nat) (x : SeqSt) : (s.setSeq n x).mboxes = s.mboxes := rfl
@[simp] theorem State.setSeq_ras (s : State) (n : Nat) (x : SeqSt) : (s.setSeq n x).ras = s.ras := rfl
@[simp] theorem State.setSeq_freeCtr (s : State) (n : Nat) (x : SeqSt) : (s.setSeq n x).freeCtr = s.freeCtr := rfl
@[simp] theorem State.setSeq_boot (s : State) (n : Nat) (x : SeqSt) : (s.setSeq n x).boot = s.boot := rfl
@[simp] theorem State.setSeq_sigs (s : State) (n : Nat) (x : SeqSt) : (s.setSeq n x).sigs = s.sigs := rfl
@[simp] theorem State.setSeq_out (s : State) (n : Nat) (x : SeqSt) : (s.setSeq n x).out = s.out := rfl
@[simp] theorem State.setSeq_poison (s : State) (n : Nat) (x : SeqSt) : (s.setSeq n x).poison = s.poison := rfl
@[simp] theorem State.setSeq_lpoison (s : State) (n : Nat) (x : SeqSt) : (s.setSeq n x).lpoison = s.lpoison := rfl
@[simp] theorem State.setSeq_cpoison (s : State) (n : Nat) (x : SeqSt) : (s.setSeq n x).cpoison = s.cpoison := rfl
@[simp] theorem State.setSeq_streams (s : State) (n : Nat) (x : SeqSt) : (s.setSeq n x).streams = s.streams := rfl
@[simp] theorem State.setSeq_eth (s : State) (n : Nat) (x : SeqSt) : (s.setSeq n x).eth = s.eth := rfl
@[simp] theorem State.setSeq_toMill (s : State) (n : Nat) (x : SeqSt) : (s.setSeq n x).toMill = s.toMill := rfl
@[simp] theorem State.setSeq_pars (s : State) (n : Nat) (x : SeqSt) : (s.setSeq n x).pars = s.pars := rfl
@[simp] theorem State.setSeq_trigs (s : State) (n : Nat) (x : SeqSt) : (s.setSeq n x).trigs = s.trigs := rfl
@[simp] theorem State.setSeq_gpios (s : State) (n : Nat) (x : SeqSt) : (s.setSeq n x).gpios = s.gpios := rfl
@[simp] theorem State.setSeq_mills (s : State) (n : Nat) (x : SeqSt) : (s.setSeq n x).mills = s.mills := rfl
@[simp] theorem State.setSeq_millLast (s : State) (n : Nat) (x : SeqSt) : (s.setSeq n x).millLast = s.millLast := rfl
@[simp] theorem State.setSeq_millPos (s : State) (n : Nat) (x : SeqSt) : (s.setSeq n x).millPos = s.millPos := rfl
@[simp] theorem State.setSeq_toCol (s : State) (n : Nat) (x : SeqSt) : (s.setSeq n x).toCol = s.toCol := rfl
@[simp] theorem State.setSeq_toTap (s : State) (n : Nat) (x : SeqSt) : (s.setSeq n x).toTap = s.toTap := rfl
@[simp] theorem State.setSeq_members (s : State) (n : Nat) (x : SeqSt) : (s.setSeq n x).members = s.members := rfl
@[simp] theorem State.setSeq_toLink (s : State) (n : Nat) (x : SeqSt) : (s.setSeq n x).toLink = s.toLink := rfl
@[simp] theorem State.setSeq_strips (s : State) (n : Nat) (x : SeqSt) : (s.setSeq n x).strips = s.strips := rfl
@[simp] theorem State.setSeq_hedQ (s : State) (n : Nat) (x : SeqSt) : (s.setSeq n x).hedQ = s.hedQ := rfl
@[simp] theorem State.setSeq_hunits (s : State) (n : Nat) (x : SeqSt) : (s.setSeq n x).hunits = s.hunits := rfl
@[simp] theorem State.setSeq_outs (s : State) (n : Nat) (x : SeqSt) : (s.setSeq n x).outs = s.outs := rfl
@[simp] theorem State.setSeq_sheafHeads (s : State) (n : Nat) (x : SeqSt) : (s.setSeq n x).sheafHeads = s.sheafHeads := rfl
@[simp] theorem State.setSeq_hunitNo (s : State) (n : Nat) (x : SeqSt) : (s.setSeq n x).hunitNo = s.hunitNo := rfl
@[simp] theorem State.setSeq_boxes (s : State) (n : Nat) (x : SeqSt) : (s.setSeq n x).boxes = s.boxes := rfl
@[simp] theorem State.setSeq_thr (s : State) (n : Nat) (x : SeqSt) : (s.setSeq n x).thr = s.thr := rfl
@[simp] theorem State.setSeq_gran (s : State) (n : Nat) (x : SeqSt) : (s.setSeq n x).gran = s.gran := rfl
@[simp] theorem State.setSeq_offers (s : State) (n : Nat) (x : SeqSt) : (s.setSeq n x).offers = s.offers := rfl
@[simp] theorem State.setSeq_rings (s : State) (n : Nat) (x : SeqSt) : (s.setSeq n x).rings = s.rings := rfl
@[simp] theorem State.setSeq_cqs (s : State) (n : Nat) (x : SeqSt) : (s.setSeq n x).cqs = s.cqs := rfl
@[simp] theorem State.setSeq_dmas (s : State) (n : Nat) (x : SeqSt) : (s.setSeq n x).dmas = s.dmas := rfl
@[simp] theorem State.setSeq_reads (s : State) (n : Nat) (x : SeqSt) : (s.setSeq n x).reads = s.reads := rfl
@[simp] theorem State.setSeq_signQ (s : State) (n : Nat) (x : SeqSt) : (s.setSeq n x).signQ = s.signQ := rfl
@[simp] theorem State.setSeq_fuses (s : State) (n : Nat) (x : SeqSt) : (s.setSeq n x).fuses = s.fuses := rfl
@[simp] theorem State.setSeq_pci (s : State) (n : Nat) (x : SeqSt) : (s.setSeq n x).pci = s.pci := rfl
@[simp] theorem State.setSeq_sched (s : State) (n : Nat) (x : SeqSt) : (s.setSeq n x).sched = s.sched := rfl
@[simp] theorem State.setSeq_spdm (s : State) (n : Nat) (x : SeqSt) : (s.setSeq n x).spdm = s.spdm := rfl
@[simp] theorem State.setSeq_ebk (s : State) (n : Nat) (x : SeqSt) : (s.setSeq n x).ebk = s.ebk := rfl
@[simp] theorem State.setSeq_rpl (s : State) (n : Nat) (x : SeqSt) : (s.setSeq n x).rpl = s.rpl := rfl
@[simp] theorem State.setSeq_twi (s : State) (n : Nat) (x : SeqSt) : (s.setSeq n x).twi = s.twi := rfl

/-! #### setMember -/
@[simp] theorem State.setMember_now (s : State) (n : Nat) (x : MemberSt) : (s.setMember n x).now = s.now := rfl
@[simp] theorem State.setMember_pending (s : State) (n : Nat) (x : MemberSt) : (s.setMember n x).pending = s.pending := rfl
@[simp] theorem State.setMember_regs (s : State) (n : Nat) (x : MemberSt) : (s.setMember n x).regs = s.regs := rfl
@[simp] theorem State.setMember_live (s : State) (n : Nat) (x : MemberSt) : (s.setMember n x).live = s.live := rfl
@[simp] theorem State.setMember_latch (s : State) (n : Nat) (x : MemberSt) : (s.setMember n x).latch = s.latch := rfl
@[simp] theorem State.setMember_pendLo (s : State) (n : Nat) (x : MemberSt) : (s.setMember n x).pendLo = s.pendLo := rfl
@[simp] theorem State.setMember_bufs (s : State) (n : Nat) (x : MemberSt) : (s.setMember n x).bufs = s.bufs := rfl
@[simp] theorem State.setMember_lmem (s : State) (n : Nat) (x : MemberSt) : (s.setMember n x).lmem = s.lmem := rfl
@[simp] theorem State.setMember_cmem (s : State) (n : Nat) (x : MemberSt) : (s.setMember n x).cmem = s.cmem := rfl
@[simp] theorem State.setMember_dmem (s : State) (n : Nat) (x : MemberSt) : (s.setMember n x).dmem = s.dmem := rfl
@[simp] theorem State.setMember_tim (s : State) (n : Nat) (x : MemberSt) : (s.setMember n x).tim = s.tim := rfl
@[simp] theorem State.setMember_axes (s : State) (n : Nat) (x : MemberSt) : (s.setMember n x).axes = s.axes := rfl
@[simp] theorem State.setMember_chans (s : State) (n : Nat) (x : MemberSt) : (s.setMember n x).chans = s.chans := rfl
@[simp] theorem State.setMember_slots (s : State) (n : Nat) (x : MemberSt) : (s.setMember n x).slots = s.slots := rfl
@[simp] theorem State.setMember_evq (s : State) (n : Nat) (x : MemberSt) : (s.setMember n x).evq = s.evq := rfl
@[simp] theorem State.setMember_inputs (s : State) (n : Nat) (x : MemberSt) : (s.setMember n x).inputs = s.inputs := rfl
@[simp] theorem State.setMember_grpOn (s : State) (n : Nat) (x : MemberSt) : (s.setMember n x).grpOn = s.grpOn := rfl
@[simp] theorem State.setMember_grpOff (s : State) (n : Nat) (x : MemberSt) : (s.setMember n x).grpOff = s.grpOff := rfl
@[simp] theorem State.setMember_cores (s : State) (n : Nat) (x : MemberSt) : (s.setMember n x).cores = s.cores := rfl
@[simp] theorem State.setMember_loader (s : State) (n : Nat) (x : MemberSt) : (s.setMember n x).loader = s.loader := rfl
@[simp] theorem State.setMember_mboxes (s : State) (n : Nat) (x : MemberSt) : (s.setMember n x).mboxes = s.mboxes := rfl
@[simp] theorem State.setMember_ras (s : State) (n : Nat) (x : MemberSt) : (s.setMember n x).ras = s.ras := rfl
@[simp] theorem State.setMember_freeCtr (s : State) (n : Nat) (x : MemberSt) : (s.setMember n x).freeCtr = s.freeCtr := rfl
@[simp] theorem State.setMember_boot (s : State) (n : Nat) (x : MemberSt) : (s.setMember n x).boot = s.boot := rfl
@[simp] theorem State.setMember_sigs (s : State) (n : Nat) (x : MemberSt) : (s.setMember n x).sigs = s.sigs := rfl
@[simp] theorem State.setMember_out (s : State) (n : Nat) (x : MemberSt) : (s.setMember n x).out = s.out := rfl
@[simp] theorem State.setMember_poison (s : State) (n : Nat) (x : MemberSt) : (s.setMember n x).poison = s.poison := rfl
@[simp] theorem State.setMember_lpoison (s : State) (n : Nat) (x : MemberSt) : (s.setMember n x).lpoison = s.lpoison := rfl
@[simp] theorem State.setMember_cpoison (s : State) (n : Nat) (x : MemberSt) : (s.setMember n x).cpoison = s.cpoison := rfl
@[simp] theorem State.setMember_streams (s : State) (n : Nat) (x : MemberSt) : (s.setMember n x).streams = s.streams := rfl
@[simp] theorem State.setMember_eth (s : State) (n : Nat) (x : MemberSt) : (s.setMember n x).eth = s.eth := rfl
@[simp] theorem State.setMember_toMill (s : State) (n : Nat) (x : MemberSt) : (s.setMember n x).toMill = s.toMill := rfl
@[simp] theorem State.setMember_pars (s : State) (n : Nat) (x : MemberSt) : (s.setMember n x).pars = s.pars := rfl
@[simp] theorem State.setMember_trigs (s : State) (n : Nat) (x : MemberSt) : (s.setMember n x).trigs = s.trigs := rfl
@[simp] theorem State.setMember_gpios (s : State) (n : Nat) (x : MemberSt) : (s.setMember n x).gpios = s.gpios := rfl
@[simp] theorem State.setMember_mills (s : State) (n : Nat) (x : MemberSt) : (s.setMember n x).mills = s.mills := rfl
@[simp] theorem State.setMember_millLast (s : State) (n : Nat) (x : MemberSt) : (s.setMember n x).millLast = s.millLast := rfl
@[simp] theorem State.setMember_millPos (s : State) (n : Nat) (x : MemberSt) : (s.setMember n x).millPos = s.millPos := rfl
@[simp] theorem State.setMember_toCol (s : State) (n : Nat) (x : MemberSt) : (s.setMember n x).toCol = s.toCol := rfl
@[simp] theorem State.setMember_toTap (s : State) (n : Nat) (x : MemberSt) : (s.setMember n x).toTap = s.toTap := rfl
@[simp] theorem State.setMember_seqs (s : State) (n : Nat) (x : MemberSt) : (s.setMember n x).seqs = s.seqs := rfl
@[simp] theorem State.setMember_toLink (s : State) (n : Nat) (x : MemberSt) : (s.setMember n x).toLink = s.toLink := rfl
@[simp] theorem State.setMember_strips (s : State) (n : Nat) (x : MemberSt) : (s.setMember n x).strips = s.strips := rfl
@[simp] theorem State.setMember_hedQ (s : State) (n : Nat) (x : MemberSt) : (s.setMember n x).hedQ = s.hedQ := rfl
@[simp] theorem State.setMember_hunits (s : State) (n : Nat) (x : MemberSt) : (s.setMember n x).hunits = s.hunits := rfl
@[simp] theorem State.setMember_outs (s : State) (n : Nat) (x : MemberSt) : (s.setMember n x).outs = s.outs := rfl
@[simp] theorem State.setMember_sheafHeads (s : State) (n : Nat) (x : MemberSt) : (s.setMember n x).sheafHeads = s.sheafHeads := rfl
@[simp] theorem State.setMember_hunitNo (s : State) (n : Nat) (x : MemberSt) : (s.setMember n x).hunitNo = s.hunitNo := rfl
@[simp] theorem State.setMember_boxes (s : State) (n : Nat) (x : MemberSt) : (s.setMember n x).boxes = s.boxes := rfl
@[simp] theorem State.setMember_thr (s : State) (n : Nat) (x : MemberSt) : (s.setMember n x).thr = s.thr := rfl
@[simp] theorem State.setMember_gran (s : State) (n : Nat) (x : MemberSt) : (s.setMember n x).gran = s.gran := rfl
@[simp] theorem State.setMember_offers (s : State) (n : Nat) (x : MemberSt) : (s.setMember n x).offers = s.offers := rfl
@[simp] theorem State.setMember_rings (s : State) (n : Nat) (x : MemberSt) : (s.setMember n x).rings = s.rings := rfl
@[simp] theorem State.setMember_cqs (s : State) (n : Nat) (x : MemberSt) : (s.setMember n x).cqs = s.cqs := rfl
@[simp] theorem State.setMember_dmas (s : State) (n : Nat) (x : MemberSt) : (s.setMember n x).dmas = s.dmas := rfl
@[simp] theorem State.setMember_reads (s : State) (n : Nat) (x : MemberSt) : (s.setMember n x).reads = s.reads := rfl
@[simp] theorem State.setMember_signQ (s : State) (n : Nat) (x : MemberSt) : (s.setMember n x).signQ = s.signQ := rfl
@[simp] theorem State.setMember_fuses (s : State) (n : Nat) (x : MemberSt) : (s.setMember n x).fuses = s.fuses := rfl
@[simp] theorem State.setMember_pci (s : State) (n : Nat) (x : MemberSt) : (s.setMember n x).pci = s.pci := rfl
@[simp] theorem State.setMember_sched (s : State) (n : Nat) (x : MemberSt) : (s.setMember n x).sched = s.sched := rfl
@[simp] theorem State.setMember_spdm (s : State) (n : Nat) (x : MemberSt) : (s.setMember n x).spdm = s.spdm := rfl
@[simp] theorem State.setMember_ebk (s : State) (n : Nat) (x : MemberSt) : (s.setMember n x).ebk = s.ebk := rfl
@[simp] theorem State.setMember_rpl (s : State) (n : Nat) (x : MemberSt) : (s.setMember n x).rpl = s.rpl := rfl
@[simp] theorem State.setMember_twi (s : State) (n : Nat) (x : MemberSt) : (s.setMember n x).twi = s.twi := rfl

/-! #### setHout -/
@[simp] theorem State.setHout_now (s : State) (n : Nat) (x : OutSt) : (s.setHout n x).now = s.now := rfl
@[simp] theorem State.setHout_pending (s : State) (n : Nat) (x : OutSt) : (s.setHout n x).pending = s.pending := rfl
@[simp] theorem State.setHout_regs (s : State) (n : Nat) (x : OutSt) : (s.setHout n x).regs = s.regs := rfl
@[simp] theorem State.setHout_live (s : State) (n : Nat) (x : OutSt) : (s.setHout n x).live = s.live := rfl
@[simp] theorem State.setHout_latch (s : State) (n : Nat) (x : OutSt) : (s.setHout n x).latch = s.latch := rfl
@[simp] theorem State.setHout_pendLo (s : State) (n : Nat) (x : OutSt) : (s.setHout n x).pendLo = s.pendLo := rfl
@[simp] theorem State.setHout_bufs (s : State) (n : Nat) (x : OutSt) : (s.setHout n x).bufs = s.bufs := rfl
@[simp] theorem State.setHout_lmem (s : State) (n : Nat) (x : OutSt) : (s.setHout n x).lmem = s.lmem := rfl
@[simp] theorem State.setHout_cmem (s : State) (n : Nat) (x : OutSt) : (s.setHout n x).cmem = s.cmem := rfl
@[simp] theorem State.setHout_dmem (s : State) (n : Nat) (x : OutSt) : (s.setHout n x).dmem = s.dmem := rfl
@[simp] theorem State.setHout_tim (s : State) (n : Nat) (x : OutSt) : (s.setHout n x).tim = s.tim := rfl
@[simp] theorem State.setHout_axes (s : State) (n : Nat) (x : OutSt) : (s.setHout n x).axes = s.axes := rfl
@[simp] theorem State.setHout_chans (s : State) (n : Nat) (x : OutSt) : (s.setHout n x).chans = s.chans := rfl
@[simp] theorem State.setHout_slots (s : State) (n : Nat) (x : OutSt) : (s.setHout n x).slots = s.slots := rfl
@[simp] theorem State.setHout_evq (s : State) (n : Nat) (x : OutSt) : (s.setHout n x).evq = s.evq := rfl
@[simp] theorem State.setHout_inputs (s : State) (n : Nat) (x : OutSt) : (s.setHout n x).inputs = s.inputs := rfl
@[simp] theorem State.setHout_grpOn (s : State) (n : Nat) (x : OutSt) : (s.setHout n x).grpOn = s.grpOn := rfl
@[simp] theorem State.setHout_grpOff (s : State) (n : Nat) (x : OutSt) : (s.setHout n x).grpOff = s.grpOff := rfl
@[simp] theorem State.setHout_cores (s : State) (n : Nat) (x : OutSt) : (s.setHout n x).cores = s.cores := rfl
@[simp] theorem State.setHout_loader (s : State) (n : Nat) (x : OutSt) : (s.setHout n x).loader = s.loader := rfl
@[simp] theorem State.setHout_mboxes (s : State) (n : Nat) (x : OutSt) : (s.setHout n x).mboxes = s.mboxes := rfl
@[simp] theorem State.setHout_ras (s : State) (n : Nat) (x : OutSt) : (s.setHout n x).ras = s.ras := rfl
@[simp] theorem State.setHout_freeCtr (s : State) (n : Nat) (x : OutSt) : (s.setHout n x).freeCtr = s.freeCtr := rfl
@[simp] theorem State.setHout_boot (s : State) (n : Nat) (x : OutSt) : (s.setHout n x).boot = s.boot := rfl
@[simp] theorem State.setHout_sigs (s : State) (n : Nat) (x : OutSt) : (s.setHout n x).sigs = s.sigs := rfl
@[simp] theorem State.setHout_out (s : State) (n : Nat) (x : OutSt) : (s.setHout n x).out = s.out := rfl
@[simp] theorem State.setHout_poison (s : State) (n : Nat) (x : OutSt) : (s.setHout n x).poison = s.poison := rfl
@[simp] theorem State.setHout_lpoison (s : State) (n : Nat) (x : OutSt) : (s.setHout n x).lpoison = s.lpoison := rfl
@[simp] theorem State.setHout_cpoison (s : State) (n : Nat) (x : OutSt) : (s.setHout n x).cpoison = s.cpoison := rfl
@[simp] theorem State.setHout_streams (s : State) (n : Nat) (x : OutSt) : (s.setHout n x).streams = s.streams := rfl
@[simp] theorem State.setHout_eth (s : State) (n : Nat) (x : OutSt) : (s.setHout n x).eth = s.eth := rfl
@[simp] theorem State.setHout_toMill (s : State) (n : Nat) (x : OutSt) : (s.setHout n x).toMill = s.toMill := rfl
@[simp] theorem State.setHout_pars (s : State) (n : Nat) (x : OutSt) : (s.setHout n x).pars = s.pars := rfl
@[simp] theorem State.setHout_trigs (s : State) (n : Nat) (x : OutSt) : (s.setHout n x).trigs = s.trigs := rfl
@[simp] theorem State.setHout_gpios (s : State) (n : Nat) (x : OutSt) : (s.setHout n x).gpios = s.gpios := rfl
@[simp] theorem State.setHout_mills (s : State) (n : Nat) (x : OutSt) : (s.setHout n x).mills = s.mills := rfl
@[simp] theorem State.setHout_millLast (s : State) (n : Nat) (x : OutSt) : (s.setHout n x).millLast = s.millLast := rfl
@[simp] theorem State.setHout_millPos (s : State) (n : Nat) (x : OutSt) : (s.setHout n x).millPos = s.millPos := rfl
@[simp] theorem State.setHout_toCol (s : State) (n : Nat) (x : OutSt) : (s.setHout n x).toCol = s.toCol := rfl
@[simp] theorem State.setHout_toTap (s : State) (n : Nat) (x : OutSt) : (s.setHout n x).toTap = s.toTap := rfl
@[simp] theorem State.setHout_seqs (s : State) (n : Nat) (x : OutSt) : (s.setHout n x).seqs = s.seqs := rfl
@[simp] theorem State.setHout_members (s : State) (n : Nat) (x : OutSt) : (s.setHout n x).members = s.members := rfl
@[simp] theorem State.setHout_toLink (s : State) (n : Nat) (x : OutSt) : (s.setHout n x).toLink = s.toLink := rfl
@[simp] theorem State.setHout_strips (s : State) (n : Nat) (x : OutSt) : (s.setHout n x).strips = s.strips := rfl
@[simp] theorem State.setHout_hedQ (s : State) (n : Nat) (x : OutSt) : (s.setHout n x).hedQ = s.hedQ := rfl
@[simp] theorem State.setHout_hunits (s : State) (n : Nat) (x : OutSt) : (s.setHout n x).hunits = s.hunits := rfl
@[simp] theorem State.setHout_sheafHeads (s : State) (n : Nat) (x : OutSt) : (s.setHout n x).sheafHeads = s.sheafHeads := rfl
@[simp] theorem State.setHout_hunitNo (s : State) (n : Nat) (x : OutSt) : (s.setHout n x).hunitNo = s.hunitNo := rfl
@[simp] theorem State.setHout_boxes (s : State) (n : Nat) (x : OutSt) : (s.setHout n x).boxes = s.boxes := rfl
@[simp] theorem State.setHout_thr (s : State) (n : Nat) (x : OutSt) : (s.setHout n x).thr = s.thr := rfl
@[simp] theorem State.setHout_gran (s : State) (n : Nat) (x : OutSt) : (s.setHout n x).gran = s.gran := rfl
@[simp] theorem State.setHout_offers (s : State) (n : Nat) (x : OutSt) : (s.setHout n x).offers = s.offers := rfl
@[simp] theorem State.setHout_rings (s : State) (n : Nat) (x : OutSt) : (s.setHout n x).rings = s.rings := rfl
@[simp] theorem State.setHout_cqs (s : State) (n : Nat) (x : OutSt) : (s.setHout n x).cqs = s.cqs := rfl
@[simp] theorem State.setHout_dmas (s : State) (n : Nat) (x : OutSt) : (s.setHout n x).dmas = s.dmas := rfl
@[simp] theorem State.setHout_reads (s : State) (n : Nat) (x : OutSt) : (s.setHout n x).reads = s.reads := rfl
@[simp] theorem State.setHout_signQ (s : State) (n : Nat) (x : OutSt) : (s.setHout n x).signQ = s.signQ := rfl
@[simp] theorem State.setHout_fuses (s : State) (n : Nat) (x : OutSt) : (s.setHout n x).fuses = s.fuses := rfl
@[simp] theorem State.setHout_pci (s : State) (n : Nat) (x : OutSt) : (s.setHout n x).pci = s.pci := rfl
@[simp] theorem State.setHout_sched (s : State) (n : Nat) (x : OutSt) : (s.setHout n x).sched = s.sched := rfl
@[simp] theorem State.setHout_spdm (s : State) (n : Nat) (x : OutSt) : (s.setHout n x).spdm = s.spdm := rfl
@[simp] theorem State.setHout_ebk (s : State) (n : Nat) (x : OutSt) : (s.setHout n x).ebk = s.ebk := rfl
@[simp] theorem State.setHout_rpl (s : State) (n : Nat) (x : OutSt) : (s.setHout n x).rpl = s.rpl := rfl
@[simp] theorem State.setHout_twi (s : State) (n : Nat) (x : OutSt) : (s.setHout n x).twi = s.twi := rfl

/-! #### setRing -/
@[simp] theorem State.setRing_now (s : State) (n : Nat) (x : RingSt) : (s.setRing n x).now = s.now := rfl
@[simp] theorem State.setRing_pending (s : State) (n : Nat) (x : RingSt) : (s.setRing n x).pending = s.pending := rfl
@[simp] theorem State.setRing_regs (s : State) (n : Nat) (x : RingSt) : (s.setRing n x).regs = s.regs := rfl
@[simp] theorem State.setRing_live (s : State) (n : Nat) (x : RingSt) : (s.setRing n x).live = s.live := rfl
@[simp] theorem State.setRing_latch (s : State) (n : Nat) (x : RingSt) : (s.setRing n x).latch = s.latch := rfl
@[simp] theorem State.setRing_pendLo (s : State) (n : Nat) (x : RingSt) : (s.setRing n x).pendLo = s.pendLo := rfl
@[simp] theorem State.setRing_bufs (s : State) (n : Nat) (x : RingSt) : (s.setRing n x).bufs = s.bufs := rfl
@[simp] theorem State.setRing_lmem (s : State) (n : Nat) (x : RingSt) : (s.setRing n x).lmem = s.lmem := rfl
@[simp] theorem State.setRing_cmem (s : State) (n : Nat) (x : RingSt) : (s.setRing n x).cmem = s.cmem := rfl
@[simp] theorem State.setRing_dmem (s : State) (n : Nat) (x : RingSt) : (s.setRing n x).dmem = s.dmem := rfl
@[simp] theorem State.setRing_tim (s : State) (n : Nat) (x : RingSt) : (s.setRing n x).tim = s.tim := rfl
@[simp] theorem State.setRing_axes (s : State) (n : Nat) (x : RingSt) : (s.setRing n x).axes = s.axes := rfl
@[simp] theorem State.setRing_chans (s : State) (n : Nat) (x : RingSt) : (s.setRing n x).chans = s.chans := rfl
@[simp] theorem State.setRing_slots (s : State) (n : Nat) (x : RingSt) : (s.setRing n x).slots = s.slots := rfl
@[simp] theorem State.setRing_evq (s : State) (n : Nat) (x : RingSt) : (s.setRing n x).evq = s.evq := rfl
@[simp] theorem State.setRing_inputs (s : State) (n : Nat) (x : RingSt) : (s.setRing n x).inputs = s.inputs := rfl
@[simp] theorem State.setRing_grpOn (s : State) (n : Nat) (x : RingSt) : (s.setRing n x).grpOn = s.grpOn := rfl
@[simp] theorem State.setRing_grpOff (s : State) (n : Nat) (x : RingSt) : (s.setRing n x).grpOff = s.grpOff := rfl
@[simp] theorem State.setRing_cores (s : State) (n : Nat) (x : RingSt) : (s.setRing n x).cores = s.cores := rfl
@[simp] theorem State.setRing_loader (s : State) (n : Nat) (x : RingSt) : (s.setRing n x).loader = s.loader := rfl
@[simp] theorem State.setRing_mboxes (s : State) (n : Nat) (x : RingSt) : (s.setRing n x).mboxes = s.mboxes := rfl
@[simp] theorem State.setRing_ras (s : State) (n : Nat) (x : RingSt) : (s.setRing n x).ras = s.ras := rfl
@[simp] theorem State.setRing_freeCtr (s : State) (n : Nat) (x : RingSt) : (s.setRing n x).freeCtr = s.freeCtr := rfl
@[simp] theorem State.setRing_boot (s : State) (n : Nat) (x : RingSt) : (s.setRing n x).boot = s.boot := rfl
@[simp] theorem State.setRing_sigs (s : State) (n : Nat) (x : RingSt) : (s.setRing n x).sigs = s.sigs := rfl
@[simp] theorem State.setRing_out (s : State) (n : Nat) (x : RingSt) : (s.setRing n x).out = s.out := rfl
@[simp] theorem State.setRing_poison (s : State) (n : Nat) (x : RingSt) : (s.setRing n x).poison = s.poison := rfl
@[simp] theorem State.setRing_lpoison (s : State) (n : Nat) (x : RingSt) : (s.setRing n x).lpoison = s.lpoison := rfl
@[simp] theorem State.setRing_cpoison (s : State) (n : Nat) (x : RingSt) : (s.setRing n x).cpoison = s.cpoison := rfl
@[simp] theorem State.setRing_streams (s : State) (n : Nat) (x : RingSt) : (s.setRing n x).streams = s.streams := rfl
@[simp] theorem State.setRing_eth (s : State) (n : Nat) (x : RingSt) : (s.setRing n x).eth = s.eth := rfl
@[simp] theorem State.setRing_toMill (s : State) (n : Nat) (x : RingSt) : (s.setRing n x).toMill = s.toMill := rfl
@[simp] theorem State.setRing_pars (s : State) (n : Nat) (x : RingSt) : (s.setRing n x).pars = s.pars := rfl
@[simp] theorem State.setRing_trigs (s : State) (n : Nat) (x : RingSt) : (s.setRing n x).trigs = s.trigs := rfl
@[simp] theorem State.setRing_gpios (s : State) (n : Nat) (x : RingSt) : (s.setRing n x).gpios = s.gpios := rfl
@[simp] theorem State.setRing_mills (s : State) (n : Nat) (x : RingSt) : (s.setRing n x).mills = s.mills := rfl
@[simp] theorem State.setRing_millLast (s : State) (n : Nat) (x : RingSt) : (s.setRing n x).millLast = s.millLast := rfl
@[simp] theorem State.setRing_millPos (s : State) (n : Nat) (x : RingSt) : (s.setRing n x).millPos = s.millPos := rfl
@[simp] theorem State.setRing_toCol (s : State) (n : Nat) (x : RingSt) : (s.setRing n x).toCol = s.toCol := rfl
@[simp] theorem State.setRing_toTap (s : State) (n : Nat) (x : RingSt) : (s.setRing n x).toTap = s.toTap := rfl
@[simp] theorem State.setRing_seqs (s : State) (n : Nat) (x : RingSt) : (s.setRing n x).seqs = s.seqs := rfl
@[simp] theorem State.setRing_members (s : State) (n : Nat) (x : RingSt) : (s.setRing n x).members = s.members := rfl
@[simp] theorem State.setRing_toLink (s : State) (n : Nat) (x : RingSt) : (s.setRing n x).toLink = s.toLink := rfl
@[simp] theorem State.setRing_strips (s : State) (n : Nat) (x : RingSt) : (s.setRing n x).strips = s.strips := rfl
@[simp] theorem State.setRing_hedQ (s : State) (n : Nat) (x : RingSt) : (s.setRing n x).hedQ = s.hedQ := rfl
@[simp] theorem State.setRing_hunits (s : State) (n : Nat) (x : RingSt) : (s.setRing n x).hunits = s.hunits := rfl
@[simp] theorem State.setRing_outs (s : State) (n : Nat) (x : RingSt) : (s.setRing n x).outs = s.outs := rfl
@[simp] theorem State.setRing_sheafHeads (s : State) (n : Nat) (x : RingSt) : (s.setRing n x).sheafHeads = s.sheafHeads := rfl
@[simp] theorem State.setRing_hunitNo (s : State) (n : Nat) (x : RingSt) : (s.setRing n x).hunitNo = s.hunitNo := rfl
@[simp] theorem State.setRing_boxes (s : State) (n : Nat) (x : RingSt) : (s.setRing n x).boxes = s.boxes := rfl
@[simp] theorem State.setRing_thr (s : State) (n : Nat) (x : RingSt) : (s.setRing n x).thr = s.thr := rfl
@[simp] theorem State.setRing_gran (s : State) (n : Nat) (x : RingSt) : (s.setRing n x).gran = s.gran := rfl
@[simp] theorem State.setRing_offers (s : State) (n : Nat) (x : RingSt) : (s.setRing n x).offers = s.offers := rfl
@[simp] theorem State.setRing_cqs (s : State) (n : Nat) (x : RingSt) : (s.setRing n x).cqs = s.cqs := rfl
@[simp] theorem State.setRing_dmas (s : State) (n : Nat) (x : RingSt) : (s.setRing n x).dmas = s.dmas := rfl
@[simp] theorem State.setRing_reads (s : State) (n : Nat) (x : RingSt) : (s.setRing n x).reads = s.reads := rfl
@[simp] theorem State.setRing_signQ (s : State) (n : Nat) (x : RingSt) : (s.setRing n x).signQ = s.signQ := rfl
@[simp] theorem State.setRing_fuses (s : State) (n : Nat) (x : RingSt) : (s.setRing n x).fuses = s.fuses := rfl
@[simp] theorem State.setRing_pci (s : State) (n : Nat) (x : RingSt) : (s.setRing n x).pci = s.pci := rfl
@[simp] theorem State.setRing_sched (s : State) (n : Nat) (x : RingSt) : (s.setRing n x).sched = s.sched := rfl
@[simp] theorem State.setRing_spdm (s : State) (n : Nat) (x : RingSt) : (s.setRing n x).spdm = s.spdm := rfl
@[simp] theorem State.setRing_ebk (s : State) (n : Nat) (x : RingSt) : (s.setRing n x).ebk = s.ebk := rfl
@[simp] theorem State.setRing_rpl (s : State) (n : Nat) (x : RingSt) : (s.setRing n x).rpl = s.rpl := rfl
@[simp] theorem State.setRing_twi (s : State) (n : Nat) (x : RingSt) : (s.setRing n x).twi = s.twi := rfl

/-! #### setDma -/
@[simp] theorem State.setDma_now (s : State) (n : Nat) (x : DmaSt) : (s.setDma n x).now = s.now := rfl
@[simp] theorem State.setDma_pending (s : State) (n : Nat) (x : DmaSt) : (s.setDma n x).pending = s.pending := rfl
@[simp] theorem State.setDma_regs (s : State) (n : Nat) (x : DmaSt) : (s.setDma n x).regs = s.regs := rfl
@[simp] theorem State.setDma_live (s : State) (n : Nat) (x : DmaSt) : (s.setDma n x).live = s.live := rfl
@[simp] theorem State.setDma_latch (s : State) (n : Nat) (x : DmaSt) : (s.setDma n x).latch = s.latch := rfl
@[simp] theorem State.setDma_pendLo (s : State) (n : Nat) (x : DmaSt) : (s.setDma n x).pendLo = s.pendLo := rfl
@[simp] theorem State.setDma_bufs (s : State) (n : Nat) (x : DmaSt) : (s.setDma n x).bufs = s.bufs := rfl
@[simp] theorem State.setDma_lmem (s : State) (n : Nat) (x : DmaSt) : (s.setDma n x).lmem = s.lmem := rfl
@[simp] theorem State.setDma_cmem (s : State) (n : Nat) (x : DmaSt) : (s.setDma n x).cmem = s.cmem := rfl
@[simp] theorem State.setDma_dmem (s : State) (n : Nat) (x : DmaSt) : (s.setDma n x).dmem = s.dmem := rfl
@[simp] theorem State.setDma_tim (s : State) (n : Nat) (x : DmaSt) : (s.setDma n x).tim = s.tim := rfl
@[simp] theorem State.setDma_axes (s : State) (n : Nat) (x : DmaSt) : (s.setDma n x).axes = s.axes := rfl
@[simp] theorem State.setDma_chans (s : State) (n : Nat) (x : DmaSt) : (s.setDma n x).chans = s.chans := rfl
@[simp] theorem State.setDma_slots (s : State) (n : Nat) (x : DmaSt) : (s.setDma n x).slots = s.slots := rfl
@[simp] theorem State.setDma_evq (s : State) (n : Nat) (x : DmaSt) : (s.setDma n x).evq = s.evq := rfl
@[simp] theorem State.setDma_inputs (s : State) (n : Nat) (x : DmaSt) : (s.setDma n x).inputs = s.inputs := rfl
@[simp] theorem State.setDma_grpOn (s : State) (n : Nat) (x : DmaSt) : (s.setDma n x).grpOn = s.grpOn := rfl
@[simp] theorem State.setDma_grpOff (s : State) (n : Nat) (x : DmaSt) : (s.setDma n x).grpOff = s.grpOff := rfl
@[simp] theorem State.setDma_cores (s : State) (n : Nat) (x : DmaSt) : (s.setDma n x).cores = s.cores := rfl
@[simp] theorem State.setDma_loader (s : State) (n : Nat) (x : DmaSt) : (s.setDma n x).loader = s.loader := rfl
@[simp] theorem State.setDma_mboxes (s : State) (n : Nat) (x : DmaSt) : (s.setDma n x).mboxes = s.mboxes := rfl
@[simp] theorem State.setDma_ras (s : State) (n : Nat) (x : DmaSt) : (s.setDma n x).ras = s.ras := rfl
@[simp] theorem State.setDma_freeCtr (s : State) (n : Nat) (x : DmaSt) : (s.setDma n x).freeCtr = s.freeCtr := rfl
@[simp] theorem State.setDma_boot (s : State) (n : Nat) (x : DmaSt) : (s.setDma n x).boot = s.boot := rfl
@[simp] theorem State.setDma_sigs (s : State) (n : Nat) (x : DmaSt) : (s.setDma n x).sigs = s.sigs := rfl
@[simp] theorem State.setDma_out (s : State) (n : Nat) (x : DmaSt) : (s.setDma n x).out = s.out := rfl
@[simp] theorem State.setDma_poison (s : State) (n : Nat) (x : DmaSt) : (s.setDma n x).poison = s.poison := rfl
@[simp] theorem State.setDma_lpoison (s : State) (n : Nat) (x : DmaSt) : (s.setDma n x).lpoison = s.lpoison := rfl
@[simp] theorem State.setDma_cpoison (s : State) (n : Nat) (x : DmaSt) : (s.setDma n x).cpoison = s.cpoison := rfl
@[simp] theorem State.setDma_streams (s : State) (n : Nat) (x : DmaSt) : (s.setDma n x).streams = s.streams := rfl
@[simp] theorem State.setDma_eth (s : State) (n : Nat) (x : DmaSt) : (s.setDma n x).eth = s.eth := rfl
@[simp] theorem State.setDma_toMill (s : State) (n : Nat) (x : DmaSt) : (s.setDma n x).toMill = s.toMill := rfl
@[simp] theorem State.setDma_pars (s : State) (n : Nat) (x : DmaSt) : (s.setDma n x).pars = s.pars := rfl
@[simp] theorem State.setDma_trigs (s : State) (n : Nat) (x : DmaSt) : (s.setDma n x).trigs = s.trigs := rfl
@[simp] theorem State.setDma_gpios (s : State) (n : Nat) (x : DmaSt) : (s.setDma n x).gpios = s.gpios := rfl
@[simp] theorem State.setDma_mills (s : State) (n : Nat) (x : DmaSt) : (s.setDma n x).mills = s.mills := rfl
@[simp] theorem State.setDma_millLast (s : State) (n : Nat) (x : DmaSt) : (s.setDma n x).millLast = s.millLast := rfl
@[simp] theorem State.setDma_millPos (s : State) (n : Nat) (x : DmaSt) : (s.setDma n x).millPos = s.millPos := rfl
@[simp] theorem State.setDma_toCol (s : State) (n : Nat) (x : DmaSt) : (s.setDma n x).toCol = s.toCol := rfl
@[simp] theorem State.setDma_toTap (s : State) (n : Nat) (x : DmaSt) : (s.setDma n x).toTap = s.toTap := rfl
@[simp] theorem State.setDma_seqs (s : State) (n : Nat) (x : DmaSt) : (s.setDma n x).seqs = s.seqs := rfl
@[simp] theorem State.setDma_members (s : State) (n : Nat) (x : DmaSt) : (s.setDma n x).members = s.members := rfl
@[simp] theorem State.setDma_toLink (s : State) (n : Nat) (x : DmaSt) : (s.setDma n x).toLink = s.toLink := rfl
@[simp] theorem State.setDma_strips (s : State) (n : Nat) (x : DmaSt) : (s.setDma n x).strips = s.strips := rfl
@[simp] theorem State.setDma_hedQ (s : State) (n : Nat) (x : DmaSt) : (s.setDma n x).hedQ = s.hedQ := rfl
@[simp] theorem State.setDma_hunits (s : State) (n : Nat) (x : DmaSt) : (s.setDma n x).hunits = s.hunits := rfl
@[simp] theorem State.setDma_outs (s : State) (n : Nat) (x : DmaSt) : (s.setDma n x).outs = s.outs := rfl
@[simp] theorem State.setDma_sheafHeads (s : State) (n : Nat) (x : DmaSt) : (s.setDma n x).sheafHeads = s.sheafHeads := rfl
@[simp] theorem State.setDma_hunitNo (s : State) (n : Nat) (x : DmaSt) : (s.setDma n x).hunitNo = s.hunitNo := rfl
@[simp] theorem State.setDma_boxes (s : State) (n : Nat) (x : DmaSt) : (s.setDma n x).boxes = s.boxes := rfl
@[simp] theorem State.setDma_thr (s : State) (n : Nat) (x : DmaSt) : (s.setDma n x).thr = s.thr := rfl
@[simp] theorem State.setDma_gran (s : State) (n : Nat) (x : DmaSt) : (s.setDma n x).gran = s.gran := rfl
@[simp] theorem State.setDma_offers (s : State) (n : Nat) (x : DmaSt) : (s.setDma n x).offers = s.offers := rfl
@[simp] theorem State.setDma_rings (s : State) (n : Nat) (x : DmaSt) : (s.setDma n x).rings = s.rings := rfl
@[simp] theorem State.setDma_cqs (s : State) (n : Nat) (x : DmaSt) : (s.setDma n x).cqs = s.cqs := rfl
@[simp] theorem State.setDma_reads (s : State) (n : Nat) (x : DmaSt) : (s.setDma n x).reads = s.reads := rfl
@[simp] theorem State.setDma_signQ (s : State) (n : Nat) (x : DmaSt) : (s.setDma n x).signQ = s.signQ := rfl
@[simp] theorem State.setDma_fuses (s : State) (n : Nat) (x : DmaSt) : (s.setDma n x).fuses = s.fuses := rfl
@[simp] theorem State.setDma_pci (s : State) (n : Nat) (x : DmaSt) : (s.setDma n x).pci = s.pci := rfl
@[simp] theorem State.setDma_sched (s : State) (n : Nat) (x : DmaSt) : (s.setDma n x).sched = s.sched := rfl
@[simp] theorem State.setDma_spdm (s : State) (n : Nat) (x : DmaSt) : (s.setDma n x).spdm = s.spdm := rfl
@[simp] theorem State.setDma_ebk (s : State) (n : Nat) (x : DmaSt) : (s.setDma n x).ebk = s.ebk := rfl
@[simp] theorem State.setDma_rpl (s : State) (n : Nat) (x : DmaSt) : (s.setDma n x).rpl = s.rpl := rfl
@[simp] theorem State.setDma_twi (s : State) (n : Nat) (x : DmaSt) : (s.setDma n x).twi = s.twi := rfl

/-! #### setCq -/
@[simp] theorem State.setCq_now (s : State) (n : Nat) (x : CqSt) : (s.setCq n x).now = s.now := rfl
@[simp] theorem State.setCq_pending (s : State) (n : Nat) (x : CqSt) : (s.setCq n x).pending = s.pending := rfl
@[simp] theorem State.setCq_regs (s : State) (n : Nat) (x : CqSt) : (s.setCq n x).regs = s.regs := rfl
@[simp] theorem State.setCq_live (s : State) (n : Nat) (x : CqSt) : (s.setCq n x).live = s.live := rfl
@[simp] theorem State.setCq_latch (s : State) (n : Nat) (x : CqSt) : (s.setCq n x).latch = s.latch := rfl
@[simp] theorem State.setCq_pendLo (s : State) (n : Nat) (x : CqSt) : (s.setCq n x).pendLo = s.pendLo := rfl
@[simp] theorem State.setCq_bufs (s : State) (n : Nat) (x : CqSt) : (s.setCq n x).bufs = s.bufs := rfl
@[simp] theorem State.setCq_lmem (s : State) (n : Nat) (x : CqSt) : (s.setCq n x).lmem = s.lmem := rfl
@[simp] theorem State.setCq_cmem (s : State) (n : Nat) (x : CqSt) : (s.setCq n x).cmem = s.cmem := rfl
@[simp] theorem State.setCq_dmem (s : State) (n : Nat) (x : CqSt) : (s.setCq n x).dmem = s.dmem := rfl
@[simp] theorem State.setCq_tim (s : State) (n : Nat) (x : CqSt) : (s.setCq n x).tim = s.tim := rfl
@[simp] theorem State.setCq_axes (s : State) (n : Nat) (x : CqSt) : (s.setCq n x).axes = s.axes := rfl
@[simp] theorem State.setCq_chans (s : State) (n : Nat) (x : CqSt) : (s.setCq n x).chans = s.chans := rfl
@[simp] theorem State.setCq_slots (s : State) (n : Nat) (x : CqSt) : (s.setCq n x).slots = s.slots := rfl
@[simp] theorem State.setCq_evq (s : State) (n : Nat) (x : CqSt) : (s.setCq n x).evq = s.evq := rfl
@[simp] theorem State.setCq_inputs (s : State) (n : Nat) (x : CqSt) : (s.setCq n x).inputs = s.inputs := rfl
@[simp] theorem State.setCq_grpOn (s : State) (n : Nat) (x : CqSt) : (s.setCq n x).grpOn = s.grpOn := rfl
@[simp] theorem State.setCq_grpOff (s : State) (n : Nat) (x : CqSt) : (s.setCq n x).grpOff = s.grpOff := rfl
@[simp] theorem State.setCq_cores (s : State) (n : Nat) (x : CqSt) : (s.setCq n x).cores = s.cores := rfl
@[simp] theorem State.setCq_loader (s : State) (n : Nat) (x : CqSt) : (s.setCq n x).loader = s.loader := rfl
@[simp] theorem State.setCq_mboxes (s : State) (n : Nat) (x : CqSt) : (s.setCq n x).mboxes = s.mboxes := rfl
@[simp] theorem State.setCq_ras (s : State) (n : Nat) (x : CqSt) : (s.setCq n x).ras = s.ras := rfl
@[simp] theorem State.setCq_freeCtr (s : State) (n : Nat) (x : CqSt) : (s.setCq n x).freeCtr = s.freeCtr := rfl
@[simp] theorem State.setCq_boot (s : State) (n : Nat) (x : CqSt) : (s.setCq n x).boot = s.boot := rfl
@[simp] theorem State.setCq_sigs (s : State) (n : Nat) (x : CqSt) : (s.setCq n x).sigs = s.sigs := rfl
@[simp] theorem State.setCq_out (s : State) (n : Nat) (x : CqSt) : (s.setCq n x).out = s.out := rfl
@[simp] theorem State.setCq_poison (s : State) (n : Nat) (x : CqSt) : (s.setCq n x).poison = s.poison := rfl
@[simp] theorem State.setCq_lpoison (s : State) (n : Nat) (x : CqSt) : (s.setCq n x).lpoison = s.lpoison := rfl
@[simp] theorem State.setCq_cpoison (s : State) (n : Nat) (x : CqSt) : (s.setCq n x).cpoison = s.cpoison := rfl
@[simp] theorem State.setCq_streams (s : State) (n : Nat) (x : CqSt) : (s.setCq n x).streams = s.streams := rfl
@[simp] theorem State.setCq_eth (s : State) (n : Nat) (x : CqSt) : (s.setCq n x).eth = s.eth := rfl
@[simp] theorem State.setCq_toMill (s : State) (n : Nat) (x : CqSt) : (s.setCq n x).toMill = s.toMill := rfl
@[simp] theorem State.setCq_pars (s : State) (n : Nat) (x : CqSt) : (s.setCq n x).pars = s.pars := rfl
@[simp] theorem State.setCq_trigs (s : State) (n : Nat) (x : CqSt) : (s.setCq n x).trigs = s.trigs := rfl
@[simp] theorem State.setCq_gpios (s : State) (n : Nat) (x : CqSt) : (s.setCq n x).gpios = s.gpios := rfl
@[simp] theorem State.setCq_mills (s : State) (n : Nat) (x : CqSt) : (s.setCq n x).mills = s.mills := rfl
@[simp] theorem State.setCq_millLast (s : State) (n : Nat) (x : CqSt) : (s.setCq n x).millLast = s.millLast := rfl
@[simp] theorem State.setCq_millPos (s : State) (n : Nat) (x : CqSt) : (s.setCq n x).millPos = s.millPos := rfl
@[simp] theorem State.setCq_toCol (s : State) (n : Nat) (x : CqSt) : (s.setCq n x).toCol = s.toCol := rfl
@[simp] theorem State.setCq_toTap (s : State) (n : Nat) (x : CqSt) : (s.setCq n x).toTap = s.toTap := rfl
@[simp] theorem State.setCq_seqs (s : State) (n : Nat) (x : CqSt) : (s.setCq n x).seqs = s.seqs := rfl
@[simp] theorem State.setCq_members (s : State) (n : Nat) (x : CqSt) : (s.setCq n x).members = s.members := rfl
@[simp] theorem State.setCq_toLink (s : State) (n : Nat) (x : CqSt) : (s.setCq n x).toLink = s.toLink := rfl
@[simp] theorem State.setCq_strips (s : State) (n : Nat) (x : CqSt) : (s.setCq n x).strips = s.strips := rfl
@[simp] theorem State.setCq_hedQ (s : State) (n : Nat) (x : CqSt) : (s.setCq n x).hedQ = s.hedQ := rfl
@[simp] theorem State.setCq_hunits (s : State) (n : Nat) (x : CqSt) : (s.setCq n x).hunits = s.hunits := rfl
@[simp] theorem State.setCq_outs (s : State) (n : Nat) (x : CqSt) : (s.setCq n x).outs = s.outs := rfl
@[simp] theorem State.setCq_sheafHeads (s : State) (n : Nat) (x : CqSt) : (s.setCq n x).sheafHeads = s.sheafHeads := rfl
@[simp] theorem State.setCq_hunitNo (s : State) (n : Nat) (x : CqSt) : (s.setCq n x).hunitNo = s.hunitNo := rfl
@[simp] theorem State.setCq_boxes (s : State) (n : Nat) (x : CqSt) : (s.setCq n x).boxes = s.boxes := rfl
@[simp] theorem State.setCq_thr (s : State) (n : Nat) (x : CqSt) : (s.setCq n x).thr = s.thr := rfl
@[simp] theorem State.setCq_gran (s : State) (n : Nat) (x : CqSt) : (s.setCq n x).gran = s.gran := rfl
@[simp] theorem State.setCq_offers (s : State) (n : Nat) (x : CqSt) : (s.setCq n x).offers = s.offers := rfl
@[simp] theorem State.setCq_rings (s : State) (n : Nat) (x : CqSt) : (s.setCq n x).rings = s.rings := rfl
@[simp] theorem State.setCq_dmas (s : State) (n : Nat) (x : CqSt) : (s.setCq n x).dmas = s.dmas := rfl
@[simp] theorem State.setCq_reads (s : State) (n : Nat) (x : CqSt) : (s.setCq n x).reads = s.reads := rfl
@[simp] theorem State.setCq_signQ (s : State) (n : Nat) (x : CqSt) : (s.setCq n x).signQ = s.signQ := rfl
@[simp] theorem State.setCq_fuses (s : State) (n : Nat) (x : CqSt) : (s.setCq n x).fuses = s.fuses := rfl
@[simp] theorem State.setCq_pci (s : State) (n : Nat) (x : CqSt) : (s.setCq n x).pci = s.pci := rfl
@[simp] theorem State.setCq_sched (s : State) (n : Nat) (x : CqSt) : (s.setCq n x).sched = s.sched := rfl
@[simp] theorem State.setCq_spdm (s : State) (n : Nat) (x : CqSt) : (s.setCq n x).spdm = s.spdm := rfl
@[simp] theorem State.setCq_ebk (s : State) (n : Nat) (x : CqSt) : (s.setCq n x).ebk = s.ebk := rfl
@[simp] theorem State.setCq_rpl (s : State) (n : Nat) (x : CqSt) : (s.setCq n x).rpl = s.rpl := rfl
@[simp] theorem State.setCq_twi (s : State) (n : Nat) (x : CqSt) : (s.setCq n x).twi = s.twi := rfl

/-! #### setLink -/
@[simp] theorem State.setLink_now (s : State) (n : Nat) (x : LinkSt) : (s.setLink n x).now = s.now := rfl
@[simp] theorem State.setLink_pending (s : State) (n : Nat) (x : LinkSt) : (s.setLink n x).pending = s.pending := rfl
@[simp] theorem State.setLink_regs (s : State) (n : Nat) (x : LinkSt) : (s.setLink n x).regs = s.regs := rfl
@[simp] theorem State.setLink_live (s : State) (n : Nat) (x : LinkSt) : (s.setLink n x).live = s.live := rfl
@[simp] theorem State.setLink_latch (s : State) (n : Nat) (x : LinkSt) : (s.setLink n x).latch = s.latch := rfl
@[simp] theorem State.setLink_pendLo (s : State) (n : Nat) (x : LinkSt) : (s.setLink n x).pendLo = s.pendLo := rfl
@[simp] theorem State.setLink_bufs (s : State) (n : Nat) (x : LinkSt) : (s.setLink n x).bufs = s.bufs := rfl
@[simp] theorem State.setLink_lmem (s : State) (n : Nat) (x : LinkSt) : (s.setLink n x).lmem = s.lmem := rfl
@[simp] theorem State.setLink_cmem (s : State) (n : Nat) (x : LinkSt) : (s.setLink n x).cmem = s.cmem := rfl
@[simp] theorem State.setLink_dmem (s : State) (n : Nat) (x : LinkSt) : (s.setLink n x).dmem = s.dmem := rfl
@[simp] theorem State.setLink_tim (s : State) (n : Nat) (x : LinkSt) : (s.setLink n x).tim = s.tim := rfl
@[simp] theorem State.setLink_axes (s : State) (n : Nat) (x : LinkSt) : (s.setLink n x).axes = s.axes := rfl
@[simp] theorem State.setLink_chans (s : State) (n : Nat) (x : LinkSt) : (s.setLink n x).chans = s.chans := rfl
@[simp] theorem State.setLink_slots (s : State) (n : Nat) (x : LinkSt) : (s.setLink n x).slots = s.slots := rfl
@[simp] theorem State.setLink_evq (s : State) (n : Nat) (x : LinkSt) : (s.setLink n x).evq = s.evq := rfl
@[simp] theorem State.setLink_inputs (s : State) (n : Nat) (x : LinkSt) : (s.setLink n x).inputs = s.inputs := rfl
@[simp] theorem State.setLink_grpOn (s : State) (n : Nat) (x : LinkSt) : (s.setLink n x).grpOn = s.grpOn := rfl
@[simp] theorem State.setLink_grpOff (s : State) (n : Nat) (x : LinkSt) : (s.setLink n x).grpOff = s.grpOff := rfl
@[simp] theorem State.setLink_cores (s : State) (n : Nat) (x : LinkSt) : (s.setLink n x).cores = s.cores := rfl
@[simp] theorem State.setLink_loader (s : State) (n : Nat) (x : LinkSt) : (s.setLink n x).loader = s.loader := rfl
@[simp] theorem State.setLink_mboxes (s : State) (n : Nat) (x : LinkSt) : (s.setLink n x).mboxes = s.mboxes := rfl
@[simp] theorem State.setLink_ras (s : State) (n : Nat) (x : LinkSt) : (s.setLink n x).ras = s.ras := rfl
@[simp] theorem State.setLink_freeCtr (s : State) (n : Nat) (x : LinkSt) : (s.setLink n x).freeCtr = s.freeCtr := rfl
@[simp] theorem State.setLink_boot (s : State) (n : Nat) (x : LinkSt) : (s.setLink n x).boot = s.boot := rfl
@[simp] theorem State.setLink_sigs (s : State) (n : Nat) (x : LinkSt) : (s.setLink n x).sigs = s.sigs := rfl
@[simp] theorem State.setLink_out (s : State) (n : Nat) (x : LinkSt) : (s.setLink n x).out = s.out := rfl
@[simp] theorem State.setLink_poison (s : State) (n : Nat) (x : LinkSt) : (s.setLink n x).poison = s.poison := rfl
@[simp] theorem State.setLink_lpoison (s : State) (n : Nat) (x : LinkSt) : (s.setLink n x).lpoison = s.lpoison := rfl
@[simp] theorem State.setLink_cpoison (s : State) (n : Nat) (x : LinkSt) : (s.setLink n x).cpoison = s.cpoison := rfl
@[simp] theorem State.setLink_streams (s : State) (n : Nat) (x : LinkSt) : (s.setLink n x).streams = s.streams := rfl
@[simp] theorem State.setLink_eth (s : State) (n : Nat) (x : LinkSt) : (s.setLink n x).eth = s.eth := rfl
@[simp] theorem State.setLink_toMill (s : State) (n : Nat) (x : LinkSt) : (s.setLink n x).toMill = s.toMill := rfl
@[simp] theorem State.setLink_pars (s : State) (n : Nat) (x : LinkSt) : (s.setLink n x).pars = s.pars := rfl
@[simp] theorem State.setLink_trigs (s : State) (n : Nat) (x : LinkSt) : (s.setLink n x).trigs = s.trigs := rfl
@[simp] theorem State.setLink_gpios (s : State) (n : Nat) (x : LinkSt) : (s.setLink n x).gpios = s.gpios := rfl
@[simp] theorem State.setLink_mills (s : State) (n : Nat) (x : LinkSt) : (s.setLink n x).mills = s.mills := rfl
@[simp] theorem State.setLink_millLast (s : State) (n : Nat) (x : LinkSt) : (s.setLink n x).millLast = s.millLast := rfl
@[simp] theorem State.setLink_millPos (s : State) (n : Nat) (x : LinkSt) : (s.setLink n x).millPos = s.millPos := rfl
@[simp] theorem State.setLink_toCol (s : State) (n : Nat) (x : LinkSt) : (s.setLink n x).toCol = s.toCol := rfl
@[simp] theorem State.setLink_toTap (s : State) (n : Nat) (x : LinkSt) : (s.setLink n x).toTap = s.toTap := rfl
@[simp] theorem State.setLink_seqs (s : State) (n : Nat) (x : LinkSt) : (s.setLink n x).seqs = s.seqs := rfl
@[simp] theorem State.setLink_members (s : State) (n : Nat) (x : LinkSt) : (s.setLink n x).members = s.members := rfl
@[simp] theorem State.setLink_toLink (s : State) (n : Nat) (x : LinkSt) : (s.setLink n x).toLink = s.toLink := rfl
@[simp] theorem State.setLink_strips (s : State) (n : Nat) (x : LinkSt) : (s.setLink n x).strips = s.strips := rfl
@[simp] theorem State.setLink_hedQ (s : State) (n : Nat) (x : LinkSt) : (s.setLink n x).hedQ = s.hedQ := rfl
@[simp] theorem State.setLink_hunits (s : State) (n : Nat) (x : LinkSt) : (s.setLink n x).hunits = s.hunits := rfl
@[simp] theorem State.setLink_outs (s : State) (n : Nat) (x : LinkSt) : (s.setLink n x).outs = s.outs := rfl
@[simp] theorem State.setLink_sheafHeads (s : State) (n : Nat) (x : LinkSt) : (s.setLink n x).sheafHeads = s.sheafHeads := rfl
@[simp] theorem State.setLink_hunitNo (s : State) (n : Nat) (x : LinkSt) : (s.setLink n x).hunitNo = s.hunitNo := rfl
@[simp] theorem State.setLink_boxes (s : State) (n : Nat) (x : LinkSt) : (s.setLink n x).boxes = s.boxes := rfl
@[simp] theorem State.setLink_thr (s : State) (n : Nat) (x : LinkSt) : (s.setLink n x).thr = s.thr := rfl
@[simp] theorem State.setLink_gran (s : State) (n : Nat) (x : LinkSt) : (s.setLink n x).gran = s.gran := rfl
@[simp] theorem State.setLink_offers (s : State) (n : Nat) (x : LinkSt) : (s.setLink n x).offers = s.offers := rfl
@[simp] theorem State.setLink_rings (s : State) (n : Nat) (x : LinkSt) : (s.setLink n x).rings = s.rings := rfl
@[simp] theorem State.setLink_cqs (s : State) (n : Nat) (x : LinkSt) : (s.setLink n x).cqs = s.cqs := rfl
@[simp] theorem State.setLink_dmas (s : State) (n : Nat) (x : LinkSt) : (s.setLink n x).dmas = s.dmas := rfl
@[simp] theorem State.setLink_reads (s : State) (n : Nat) (x : LinkSt) : (s.setLink n x).reads = s.reads := rfl
@[simp] theorem State.setLink_signQ (s : State) (n : Nat) (x : LinkSt) : (s.setLink n x).signQ = s.signQ := rfl
@[simp] theorem State.setLink_fuses (s : State) (n : Nat) (x : LinkSt) : (s.setLink n x).fuses = s.fuses := rfl
@[simp] theorem State.setLink_pci (s : State) (n : Nat) (x : LinkSt) : (s.setLink n x).pci = s.pci := rfl
@[simp] theorem State.setLink_sched (s : State) (n : Nat) (x : LinkSt) : (s.setLink n x).sched = s.sched := rfl
@[simp] theorem State.setLink_spdm (s : State) (n : Nat) (x : LinkSt) : (s.setLink n x).spdm = s.spdm := rfl
@[simp] theorem State.setLink_rpl (s : State) (n : Nat) (x : LinkSt) : (s.setLink n x).rpl = s.rpl := rfl
@[simp] theorem State.setLink_twi (s : State) (n : Nat) (x : LinkSt) : (s.setLink n x).twi = s.twi := rfl

/-! #### setLane -/
@[simp] theorem State.setLane_now (s : State) (n : Nat) (x : LaneSt) : (s.setLane n x).now = s.now := rfl
@[simp] theorem State.setLane_pending (s : State) (n : Nat) (x : LaneSt) : (s.setLane n x).pending = s.pending := rfl
@[simp] theorem State.setLane_regs (s : State) (n : Nat) (x : LaneSt) : (s.setLane n x).regs = s.regs := rfl
@[simp] theorem State.setLane_live (s : State) (n : Nat) (x : LaneSt) : (s.setLane n x).live = s.live := rfl
@[simp] theorem State.setLane_latch (s : State) (n : Nat) (x : LaneSt) : (s.setLane n x).latch = s.latch := rfl
@[simp] theorem State.setLane_pendLo (s : State) (n : Nat) (x : LaneSt) : (s.setLane n x).pendLo = s.pendLo := rfl
@[simp] theorem State.setLane_bufs (s : State) (n : Nat) (x : LaneSt) : (s.setLane n x).bufs = s.bufs := rfl
@[simp] theorem State.setLane_lmem (s : State) (n : Nat) (x : LaneSt) : (s.setLane n x).lmem = s.lmem := rfl
@[simp] theorem State.setLane_cmem (s : State) (n : Nat) (x : LaneSt) : (s.setLane n x).cmem = s.cmem := rfl
@[simp] theorem State.setLane_dmem (s : State) (n : Nat) (x : LaneSt) : (s.setLane n x).dmem = s.dmem := rfl
@[simp] theorem State.setLane_tim (s : State) (n : Nat) (x : LaneSt) : (s.setLane n x).tim = s.tim := rfl
@[simp] theorem State.setLane_axes (s : State) (n : Nat) (x : LaneSt) : (s.setLane n x).axes = s.axes := rfl
@[simp] theorem State.setLane_chans (s : State) (n : Nat) (x : LaneSt) : (s.setLane n x).chans = s.chans := rfl
@[simp] theorem State.setLane_slots (s : State) (n : Nat) (x : LaneSt) : (s.setLane n x).slots = s.slots := rfl
@[simp] theorem State.setLane_evq (s : State) (n : Nat) (x : LaneSt) : (s.setLane n x).evq = s.evq := rfl
@[simp] theorem State.setLane_inputs (s : State) (n : Nat) (x : LaneSt) : (s.setLane n x).inputs = s.inputs := rfl
@[simp] theorem State.setLane_grpOn (s : State) (n : Nat) (x : LaneSt) : (s.setLane n x).grpOn = s.grpOn := rfl
@[simp] theorem State.setLane_grpOff (s : State) (n : Nat) (x : LaneSt) : (s.setLane n x).grpOff = s.grpOff := rfl
@[simp] theorem State.setLane_cores (s : State) (n : Nat) (x : LaneSt) : (s.setLane n x).cores = s.cores := rfl
@[simp] theorem State.setLane_loader (s : State) (n : Nat) (x : LaneSt) : (s.setLane n x).loader = s.loader := rfl
@[simp] theorem State.setLane_mboxes (s : State) (n : Nat) (x : LaneSt) : (s.setLane n x).mboxes = s.mboxes := rfl
@[simp] theorem State.setLane_ras (s : State) (n : Nat) (x : LaneSt) : (s.setLane n x).ras = s.ras := rfl
@[simp] theorem State.setLane_freeCtr (s : State) (n : Nat) (x : LaneSt) : (s.setLane n x).freeCtr = s.freeCtr := rfl
@[simp] theorem State.setLane_boot (s : State) (n : Nat) (x : LaneSt) : (s.setLane n x).boot = s.boot := rfl
@[simp] theorem State.setLane_sigs (s : State) (n : Nat) (x : LaneSt) : (s.setLane n x).sigs = s.sigs := rfl
@[simp] theorem State.setLane_out (s : State) (n : Nat) (x : LaneSt) : (s.setLane n x).out = s.out := rfl
@[simp] theorem State.setLane_poison (s : State) (n : Nat) (x : LaneSt) : (s.setLane n x).poison = s.poison := rfl
@[simp] theorem State.setLane_lpoison (s : State) (n : Nat) (x : LaneSt) : (s.setLane n x).lpoison = s.lpoison := rfl
@[simp] theorem State.setLane_cpoison (s : State) (n : Nat) (x : LaneSt) : (s.setLane n x).cpoison = s.cpoison := rfl
@[simp] theorem State.setLane_streams (s : State) (n : Nat) (x : LaneSt) : (s.setLane n x).streams = s.streams := rfl
@[simp] theorem State.setLane_eth (s : State) (n : Nat) (x : LaneSt) : (s.setLane n x).eth = s.eth := rfl
@[simp] theorem State.setLane_toMill (s : State) (n : Nat) (x : LaneSt) : (s.setLane n x).toMill = s.toMill := rfl
@[simp] theorem State.setLane_pars (s : State) (n : Nat) (x : LaneSt) : (s.setLane n x).pars = s.pars := rfl
@[simp] theorem State.setLane_trigs (s : State) (n : Nat) (x : LaneSt) : (s.setLane n x).trigs = s.trigs := rfl
@[simp] theorem State.setLane_gpios (s : State) (n : Nat) (x : LaneSt) : (s.setLane n x).gpios = s.gpios := rfl
@[simp] theorem State.setLane_mills (s : State) (n : Nat) (x : LaneSt) : (s.setLane n x).mills = s.mills := rfl
@[simp] theorem State.setLane_millLast (s : State) (n : Nat) (x : LaneSt) : (s.setLane n x).millLast = s.millLast := rfl
@[simp] theorem State.setLane_millPos (s : State) (n : Nat) (x : LaneSt) : (s.setLane n x).millPos = s.millPos := rfl
@[simp] theorem State.setLane_toCol (s : State) (n : Nat) (x : LaneSt) : (s.setLane n x).toCol = s.toCol := rfl
@[simp] theorem State.setLane_toTap (s : State) (n : Nat) (x : LaneSt) : (s.setLane n x).toTap = s.toTap := rfl
@[simp] theorem State.setLane_seqs (s : State) (n : Nat) (x : LaneSt) : (s.setLane n x).seqs = s.seqs := rfl
@[simp] theorem State.setLane_members (s : State) (n : Nat) (x : LaneSt) : (s.setLane n x).members = s.members := rfl
@[simp] theorem State.setLane_toLink (s : State) (n : Nat) (x : LaneSt) : (s.setLane n x).toLink = s.toLink := rfl
@[simp] theorem State.setLane_strips (s : State) (n : Nat) (x : LaneSt) : (s.setLane n x).strips = s.strips := rfl
@[simp] theorem State.setLane_hedQ (s : State) (n : Nat) (x : LaneSt) : (s.setLane n x).hedQ = s.hedQ := rfl
@[simp] theorem State.setLane_hunits (s : State) (n : Nat) (x : LaneSt) : (s.setLane n x).hunits = s.hunits := rfl
@[simp] theorem State.setLane_outs (s : State) (n : Nat) (x : LaneSt) : (s.setLane n x).outs = s.outs := rfl
@[simp] theorem State.setLane_sheafHeads (s : State) (n : Nat) (x : LaneSt) : (s.setLane n x).sheafHeads = s.sheafHeads := rfl
@[simp] theorem State.setLane_hunitNo (s : State) (n : Nat) (x : LaneSt) : (s.setLane n x).hunitNo = s.hunitNo := rfl
@[simp] theorem State.setLane_boxes (s : State) (n : Nat) (x : LaneSt) : (s.setLane n x).boxes = s.boxes := rfl
@[simp] theorem State.setLane_thr (s : State) (n : Nat) (x : LaneSt) : (s.setLane n x).thr = s.thr := rfl
@[simp] theorem State.setLane_gran (s : State) (n : Nat) (x : LaneSt) : (s.setLane n x).gran = s.gran := rfl
@[simp] theorem State.setLane_offers (s : State) (n : Nat) (x : LaneSt) : (s.setLane n x).offers = s.offers := rfl
@[simp] theorem State.setLane_rings (s : State) (n : Nat) (x : LaneSt) : (s.setLane n x).rings = s.rings := rfl
@[simp] theorem State.setLane_cqs (s : State) (n : Nat) (x : LaneSt) : (s.setLane n x).cqs = s.cqs := rfl
@[simp] theorem State.setLane_dmas (s : State) (n : Nat) (x : LaneSt) : (s.setLane n x).dmas = s.dmas := rfl
@[simp] theorem State.setLane_reads (s : State) (n : Nat) (x : LaneSt) : (s.setLane n x).reads = s.reads := rfl
@[simp] theorem State.setLane_signQ (s : State) (n : Nat) (x : LaneSt) : (s.setLane n x).signQ = s.signQ := rfl
@[simp] theorem State.setLane_fuses (s : State) (n : Nat) (x : LaneSt) : (s.setLane n x).fuses = s.fuses := rfl
@[simp] theorem State.setLane_pci (s : State) (n : Nat) (x : LaneSt) : (s.setLane n x).pci = s.pci := rfl
@[simp] theorem State.setLane_sched (s : State) (n : Nat) (x : LaneSt) : (s.setLane n x).sched = s.sched := rfl
@[simp] theorem State.setLane_spdm (s : State) (n : Nat) (x : LaneSt) : (s.setLane n x).spdm = s.spdm := rfl
@[simp] theorem State.setLane_rpl (s : State) (n : Nat) (x : LaneSt) : (s.setLane n x).rpl = s.rpl := rfl
@[simp] theorem State.setLane_twi (s : State) (n : Nat) (x : LaneSt) : (s.setLane n x).twi = s.twi := rfl

/-! #### Reads that an update does not touch -/

@[simp] theorem State.lf_wr (s : State) (a : Nat) (w : Word) (qq : RF) : (s.wr a w).lf qq = s.lf qq := rfl
@[simp] theorem State.lrd_wr (s : State) (a : Nat) (w : Word) (bb : Nat) : (s.wr a w).lrd bb = s.lrd bb := rfl
@[simp] theorem State.core_wr (s : State) (a : Nat) (w : Word) (c : Nat) : (s.wr a w).core c = s.core c := rfl
@[simp] theorem State.held_wr (s : State) (a : Nat) (w : Word) : (s.wr a w).held = s.held := rfl
@[simp] theorem State.lf_sf (s : State) (r : RF) (v : Nat) (qq : RF) : (s.sf r v).lf qq = s.lf qq := rfl
@[simp] theorem State.lrd_sf (s : State) (r : RF) (v : Nat) (bb : Nat) : (s.sf r v).lrd bb = s.lrd bb := rfl
@[simp] theorem State.core_sf (s : State) (r : RF) (v : Nat) (c : Nat) : (s.sf r v).core c = s.core c := rfl
@[simp] theorem State.held_sf (s : State) (r : RF) (v : Nat) : (s.sf r v).held = s.held := rfl
@[simp] theorem State.rd_emit (s : State) (o : Out) (bb : Nat) : (s.emit o).rd bb = s.rd bb := rfl
@[simp] theorem State.f_emit (s : State) (o : Out) (qq : RF) : (s.emit o).f qq = s.f qq := rfl
@[simp] theorem State.on_emit (s : State) (o : Out) (qq : RF) : (s.emit o).on qq = s.on qq := rfl
@[simp] theorem State.lf_emit (s : State) (o : Out) (qq : RF) : (s.emit o).lf qq = s.lf qq := rfl
@[simp] theorem State.lrd_emit (s : State) (o : Out) (bb : Nat) : (s.emit o).lrd bb = s.lrd bb := rfl
@[simp] theorem State.core_emit (s : State) (o : Out) (c : Nat) : (s.emit o).core c = s.core c := rfl
@[simp] theorem State.held_emit (s : State) (o : Out) : (s.emit o).held = s.held := rfl
@[simp] theorem State.rd_signal (s : State) (v : Nat) (bb : Nat) : (s.signal v).rd bb = s.rd bb := rfl
@[simp] theorem State.f_signal (s : State) (v : Nat) (qq : RF) : (s.signal v).f qq = s.f qq := rfl
@[simp] theorem State.on_signal (s : State) (v : Nat) (qq : RF) : (s.signal v).on qq = s.on qq := rfl
@[simp] theorem State.lf_signal (s : State) (v : Nat) (qq : RF) : (s.signal v).lf qq = s.lf qq := rfl
@[simp] theorem State.lrd_signal (s : State) (v : Nat) (bb : Nat) : (s.signal v).lrd bb = s.lrd bb := rfl
@[simp] theorem State.core_signal (s : State) (v : Nat) (c : Nat) : (s.signal v).core c = s.core c := rfl
@[simp] theorem State.held_signal (s : State) (v : Nat) : (s.signal v).held = s.held := rfl
@[simp] theorem State.rd_raiseEv (s : State) (p h o : Nat) (bb : Nat) : (s.raiseEv p h o).rd bb = s.rd bb := rfl
@[simp] theorem State.f_raiseEv (s : State) (p h o : Nat) (qq : RF) : (s.raiseEv p h o).f qq = s.f qq := rfl
@[simp] theorem State.on_raiseEv (s : State) (p h o : Nat) (qq : RF) : (s.raiseEv p h o).on qq = s.on qq := rfl
@[simp] theorem State.lf_raiseEv (s : State) (p h o : Nat) (qq : RF) : (s.raiseEv p h o).lf qq = s.lf qq := rfl
@[simp] theorem State.lrd_raiseEv (s : State) (p h o : Nat) (bb : Nat) : (s.raiseEv p h o).lrd bb = s.lrd bb := rfl
@[simp] theorem State.core_raiseEv (s : State) (p h o : Nat) (c : Nat) : (s.raiseEv p h o).core c = s.core c := rfl
@[simp] theorem State.held_raiseEv (s : State) (p h o : Nat) : (s.raiseEv p h o).held = s.held := rfl
@[simp] theorem State.rd_setLatch (s : State) (r : Requester) (a : Nat) (w : Word) (bb : Nat) : (s.setLatch r a w).rd bb = s.rd bb := rfl
@[simp] theorem State.f_setLatch (s : State) (r : Requester) (a : Nat) (w : Word) (qq : RF) : (s.setLatch r a w).f qq = s.f qq := rfl
@[simp] theorem State.on_setLatch (s : State) (r : Requester) (a : Nat) (w : Word) (qq : RF) : (s.setLatch r a w).on qq = s.on qq := rfl
@[simp] theorem State.lf_setLatch (s : State) (r : Requester) (a : Nat) (w : Word) (qq : RF) : (s.setLatch r a w).lf qq = s.lf qq := rfl
@[simp] theorem State.lrd_setLatch (s : State) (r : Requester) (a : Nat) (w : Word) (bb : Nat) : (s.setLatch r a w).lrd bb = s.lrd bb := rfl
@[simp] theorem State.core_setLatch (s : State) (r : Requester) (a : Nat) (w : Word) (c : Nat) : (s.setLatch r a w).core c = s.core c := rfl
@[simp] theorem State.held_setLatch (s : State) (r : Requester) (a : Nat) (w : Word) : (s.setLatch r a w).held = s.held := rfl
@[simp] theorem State.rd_setPendLo (s : State) (r : Requester) (a : Nat) (w : Word) (bb : Nat) : (s.setPendLo r a w).rd bb = s.rd bb := rfl
@[simp] theorem State.f_setPendLo (s : State) (r : Requester) (a : Nat) (w : Word) (qq : RF) : (s.setPendLo r a w).f qq = s.f qq := rfl
@[simp] theorem State.on_setPendLo (s : State) (r : Requester) (a : Nat) (w : Word) (qq : RF) : (s.setPendLo r a w).on qq = s.on qq := rfl
@[simp] theorem State.lf_setPendLo (s : State) (r : Requester) (a : Nat) (w : Word) (qq : RF) : (s.setPendLo r a w).lf qq = s.lf qq := rfl
@[simp] theorem State.lrd_setPendLo (s : State) (r : Requester) (a : Nat) (w : Word) (bb : Nat) : (s.setPendLo r a w).lrd bb = s.lrd bb := rfl
@[simp] theorem State.core_setPendLo (s : State) (r : Requester) (a : Nat) (w : Word) (c : Nat) : (s.setPendLo r a w).core c = s.core c := rfl
@[simp] theorem State.held_setPendLo (s : State) (r : Requester) (a : Nat) (w : Word) : (s.setPendLo r a w).held = s.held := rfl
@[simp] theorem State.rd_dropPendLo (s : State) (r : Requester) (a : Nat) (bb : Nat) : (s.dropPendLo r a).rd bb = s.rd bb := rfl
@[simp] theorem State.f_dropPendLo (s : State) (r : Requester) (a : Nat) (qq : RF) : (s.dropPendLo r a).f qq = s.f qq := rfl
@[simp] theorem State.on_dropPendLo (s : State) (r : Requester) (a : Nat) (qq : RF) : (s.dropPendLo r a).on qq = s.on qq := rfl
@[simp] theorem State.lf_dropPendLo (s : State) (r : Requester) (a : Nat) (qq : RF) : (s.dropPendLo r a).lf qq = s.lf qq := rfl
@[simp] theorem State.lrd_dropPendLo (s : State) (r : Requester) (a : Nat) (bb : Nat) : (s.dropPendLo r a).lrd bb = s.lrd bb := rfl
@[simp] theorem State.core_dropPendLo (s : State) (r : Requester) (a : Nat) (c : Nat) : (s.dropPendLo r a).core c = s.core c := rfl
@[simp] theorem State.held_dropPendLo (s : State) (r : Requester) (a : Nat) : (s.dropPendLo r a).held = s.held := rfl
@[simp] theorem State.rd_bwrite (s : State) (a : Nat) (l : List (BitVec 8)) (bb : Nat) : (s.bwrite a l).rd bb = s.rd bb := rfl
@[simp] theorem State.f_bwrite (s : State) (a : Nat) (l : List (BitVec 8)) (qq : RF) : (s.bwrite a l).f qq = s.f qq := rfl
@[simp] theorem State.on_bwrite (s : State) (a : Nat) (l : List (BitVec 8)) (qq : RF) : (s.bwrite a l).on qq = s.on qq := rfl
@[simp] theorem State.lf_bwrite (s : State) (a : Nat) (l : List (BitVec 8)) (qq : RF) : (s.bwrite a l).lf qq = s.lf qq := rfl
@[simp] theorem State.lrd_bwrite (s : State) (a : Nat) (l : List (BitVec 8)) (bb : Nat) : (s.bwrite a l).lrd bb = s.lrd bb := rfl
@[simp] theorem State.core_bwrite (s : State) (a : Nat) (l : List (BitVec 8)) (c : Nat) : (s.bwrite a l).core c = s.core c := rfl
@[simp] theorem State.held_bwrite (s : State) (a : Nat) (l : List (BitVec 8)) : (s.bwrite a l).held = s.held := rfl
@[simp] theorem State.rd_setAxis (s : State) (n : Nat) (x : AxisSt) (bb : Nat) : (s.setAxis n x).rd bb = s.rd bb := rfl
@[simp] theorem State.f_setAxis (s : State) (n : Nat) (x : AxisSt) (qq : RF) : (s.setAxis n x).f qq = s.f qq := rfl
@[simp] theorem State.on_setAxis (s : State) (n : Nat) (x : AxisSt) (qq : RF) : (s.setAxis n x).on qq = s.on qq := rfl
@[simp] theorem State.lf_setAxis (s : State) (n : Nat) (x : AxisSt) (qq : RF) : (s.setAxis n x).lf qq = s.lf qq := rfl
@[simp] theorem State.lrd_setAxis (s : State) (n : Nat) (x : AxisSt) (bb : Nat) : (s.setAxis n x).lrd bb = s.lrd bb := rfl
@[simp] theorem State.core_setAxis (s : State) (n : Nat) (x : AxisSt) (c : Nat) : (s.setAxis n x).core c = s.core c := rfl
@[simp] theorem State.held_setAxis (s : State) (n : Nat) (x : AxisSt) : (s.setAxis n x).held = s.held := rfl
@[simp] theorem State.rd_setChan (s : State) (n : Nat) (x : ChanSt) (bb : Nat) : (s.setChan n x).rd bb = s.rd bb := rfl
@[simp] theorem State.f_setChan (s : State) (n : Nat) (x : ChanSt) (qq : RF) : (s.setChan n x).f qq = s.f qq := rfl
@[simp] theorem State.on_setChan (s : State) (n : Nat) (x : ChanSt) (qq : RF) : (s.setChan n x).on qq = s.on qq := rfl
@[simp] theorem State.lf_setChan (s : State) (n : Nat) (x : ChanSt) (qq : RF) : (s.setChan n x).lf qq = s.lf qq := rfl
@[simp] theorem State.lrd_setChan (s : State) (n : Nat) (x : ChanSt) (bb : Nat) : (s.setChan n x).lrd bb = s.lrd bb := rfl
@[simp] theorem State.core_setChan (s : State) (n : Nat) (x : ChanSt) (c : Nat) : (s.setChan n x).core c = s.core c := rfl
@[simp] theorem State.held_setChan (s : State) (n : Nat) (x : ChanSt) : (s.setChan n x).held = s.held := rfl
@[simp] theorem State.rd_setSlot (s : State) (n : Nat) (x : SlotSt) (bb : Nat) : (s.setSlot n x).rd bb = s.rd bb := rfl
@[simp] theorem State.f_setSlot (s : State) (n : Nat) (x : SlotSt) (qq : RF) : (s.setSlot n x).f qq = s.f qq := rfl
@[simp] theorem State.on_setSlot (s : State) (n : Nat) (x : SlotSt) (qq : RF) : (s.setSlot n x).on qq = s.on qq := rfl
@[simp] theorem State.lf_setSlot (s : State) (n : Nat) (x : SlotSt) (qq : RF) : (s.setSlot n x).lf qq = s.lf qq := rfl
@[simp] theorem State.lrd_setSlot (s : State) (n : Nat) (x : SlotSt) (bb : Nat) : (s.setSlot n x).lrd bb = s.lrd bb := rfl
@[simp] theorem State.core_setSlot (s : State) (n : Nat) (x : SlotSt) (c : Nat) : (s.setSlot n x).core c = s.core c := rfl
@[simp] theorem State.held_setSlot (s : State) (n : Nat) (x : SlotSt) : (s.setSlot n x).held = s.held := rfl
@[simp] theorem State.rd_setInput (s : State) (n : Nat) (x : InputSt) (bb : Nat) : (s.setInput n x).rd bb = s.rd bb := rfl
@[simp] theorem State.f_setInput (s : State) (n : Nat) (x : InputSt) (qq : RF) : (s.setInput n x).f qq = s.f qq := rfl
@[simp] theorem State.on_setInput (s : State) (n : Nat) (x : InputSt) (qq : RF) : (s.setInput n x).on qq = s.on qq := rfl
@[simp] theorem State.lf_setInput (s : State) (n : Nat) (x : InputSt) (qq : RF) : (s.setInput n x).lf qq = s.lf qq := rfl
@[simp] theorem State.lrd_setInput (s : State) (n : Nat) (x : InputSt) (bb : Nat) : (s.setInput n x).lrd bb = s.lrd bb := rfl
@[simp] theorem State.core_setInput (s : State) (n : Nat) (x : InputSt) (c : Nat) : (s.setInput n x).core c = s.core c := rfl
@[simp] theorem State.held_setInput (s : State) (n : Nat) (x : InputSt) : (s.setInput n x).held = s.held := rfl
@[simp] theorem State.rd_setCore (s : State) (n : Nat) (x : CoreSt) (bb : Nat) : (s.setCore n x).rd bb = s.rd bb := rfl
@[simp] theorem State.f_setCore (s : State) (n : Nat) (x : CoreSt) (qq : RF) : (s.setCore n x).f qq = s.f qq := rfl
@[simp] theorem State.on_setCore (s : State) (n : Nat) (x : CoreSt) (qq : RF) : (s.setCore n x).on qq = s.on qq := rfl
@[simp] theorem State.lf_setCore (s : State) (n : Nat) (x : CoreSt) (qq : RF) : (s.setCore n x).lf qq = s.lf qq := rfl
@[simp] theorem State.lrd_setCore (s : State) (n : Nat) (x : CoreSt) (bb : Nat) : (s.setCore n x).lrd bb = s.lrd bb := rfl
@[simp] theorem State.held_setCore (s : State) (n : Nat) (x : CoreSt) : (s.setCore n x).held = s.held := rfl
@[simp] theorem State.rd_setMbox (s : State) (n : Nat) (x : MboxSt) (bb : Nat) : (s.setMbox n x).rd bb = s.rd bb := rfl
@[simp] theorem State.f_setMbox (s : State) (n : Nat) (x : MboxSt) (qq : RF) : (s.setMbox n x).f qq = s.f qq := rfl
@[simp] theorem State.on_setMbox (s : State) (n : Nat) (x : MboxSt) (qq : RF) : (s.setMbox n x).on qq = s.on qq := rfl
@[simp] theorem State.lf_setMbox (s : State) (n : Nat) (x : MboxSt) (qq : RF) : (s.setMbox n x).lf qq = s.lf qq := rfl
@[simp] theorem State.lrd_setMbox (s : State) (n : Nat) (x : MboxSt) (bb : Nat) : (s.setMbox n x).lrd bb = s.lrd bb := rfl
@[simp] theorem State.core_setMbox (s : State) (n : Nat) (x : MboxSt) (c : Nat) : (s.setMbox n x).core c = s.core c := rfl
@[simp] theorem State.held_setMbox (s : State) (n : Nat) (x : MboxSt) : (s.setMbox n x).held = s.held := rfl
@[simp] theorem State.rd_setStrm (s : State) (n : Nat) (x : StreamSt) (bb : Nat) : (s.setStrm n x).rd bb = s.rd bb := rfl
@[simp] theorem State.f_setStrm (s : State) (n : Nat) (x : StreamSt) (qq : RF) : (s.setStrm n x).f qq = s.f qq := rfl
@[simp] theorem State.on_setStrm (s : State) (n : Nat) (x : StreamSt) (qq : RF) : (s.setStrm n x).on qq = s.on qq := rfl
@[simp] theorem State.lf_setStrm (s : State) (n : Nat) (x : StreamSt) (qq : RF) : (s.setStrm n x).lf qq = s.lf qq := rfl
@[simp] theorem State.lrd_setStrm (s : State) (n : Nat) (x : StreamSt) (bb : Nat) : (s.setStrm n x).lrd bb = s.lrd bb := rfl
@[simp] theorem State.core_setStrm (s : State) (n : Nat) (x : StreamSt) (c : Nat) : (s.setStrm n x).core c = s.core c := rfl
@[simp] theorem State.held_setStrm (s : State) (n : Nat) (x : StreamSt) : (s.setStrm n x).held = s.held := rfl
@[simp] theorem State.rd_setPar (s : State) (n : Nat) (x : ParSt) (bb : Nat) : (s.setPar n x).rd bb = s.rd bb := rfl
@[simp] theorem State.f_setPar (s : State) (n : Nat) (x : ParSt) (qq : RF) : (s.setPar n x).f qq = s.f qq := rfl
@[simp] theorem State.on_setPar (s : State) (n : Nat) (x : ParSt) (qq : RF) : (s.setPar n x).on qq = s.on qq := rfl
@[simp] theorem State.lf_setPar (s : State) (n : Nat) (x : ParSt) (qq : RF) : (s.setPar n x).lf qq = s.lf qq := rfl
@[simp] theorem State.lrd_setPar (s : State) (n : Nat) (x : ParSt) (bb : Nat) : (s.setPar n x).lrd bb = s.lrd bb := rfl
@[simp] theorem State.core_setPar (s : State) (n : Nat) (x : ParSt) (c : Nat) : (s.setPar n x).core c = s.core c := rfl
@[simp] theorem State.held_setPar (s : State) (n : Nat) (x : ParSt) : (s.setPar n x).held = s.held := rfl
@[simp] theorem State.rd_setTrig (s : State) (n : Nat) (x : TrigSt) (bb : Nat) : (s.setTrig n x).rd bb = s.rd bb := rfl
@[simp] theorem State.f_setTrig (s : State) (n : Nat) (x : TrigSt) (qq : RF) : (s.setTrig n x).f qq = s.f qq := rfl
@[simp] theorem State.on_setTrig (s : State) (n : Nat) (x : TrigSt) (qq : RF) : (s.setTrig n x).on qq = s.on qq := rfl
@[simp] theorem State.lf_setTrig (s : State) (n : Nat) (x : TrigSt) (qq : RF) : (s.setTrig n x).lf qq = s.lf qq := rfl
@[simp] theorem State.lrd_setTrig (s : State) (n : Nat) (x : TrigSt) (bb : Nat) : (s.setTrig n x).lrd bb = s.lrd bb := rfl
@[simp] theorem State.core_setTrig (s : State) (n : Nat) (x : TrigSt) (c : Nat) : (s.setTrig n x).core c = s.core c := rfl
@[simp] theorem State.held_setTrig (s : State) (n : Nat) (x : TrigSt) : (s.setTrig n x).held = s.held := rfl
@[simp] theorem State.rd_setGpio (s : State) (n : Nat) (x : GpioSt) (bb : Nat) : (s.setGpio n x).rd bb = s.rd bb := rfl
@[simp] theorem State.f_setGpio (s : State) (n : Nat) (x : GpioSt) (qq : RF) : (s.setGpio n x).f qq = s.f qq := rfl
@[simp] theorem State.on_setGpio (s : State) (n : Nat) (x : GpioSt) (qq : RF) : (s.setGpio n x).on qq = s.on qq := rfl
@[simp] theorem State.lf_setGpio (s : State) (n : Nat) (x : GpioSt) (qq : RF) : (s.setGpio n x).lf qq = s.lf qq := rfl
@[simp] theorem State.lrd_setGpio (s : State) (n : Nat) (x : GpioSt) (bb : Nat) : (s.setGpio n x).lrd bb = s.lrd bb := rfl
@[simp] theorem State.core_setGpio (s : State) (n : Nat) (x : GpioSt) (c : Nat) : (s.setGpio n x).core c = s.core c := rfl
@[simp] theorem State.held_setGpio (s : State) (n : Nat) (x : GpioSt) : (s.setGpio n x).held = s.held := rfl
@[simp] theorem State.rd_setMill (s : State) (n : Nat) (x : MillSt) (bb : Nat) : (s.setMill n x).rd bb = s.rd bb := rfl
@[simp] theorem State.f_setMill (s : State) (n : Nat) (x : MillSt) (qq : RF) : (s.setMill n x).f qq = s.f qq := rfl
@[simp] theorem State.on_setMill (s : State) (n : Nat) (x : MillSt) (qq : RF) : (s.setMill n x).on qq = s.on qq := rfl
@[simp] theorem State.lf_setMill (s : State) (n : Nat) (x : MillSt) (qq : RF) : (s.setMill n x).lf qq = s.lf qq := rfl
@[simp] theorem State.lrd_setMill (s : State) (n : Nat) (x : MillSt) (bb : Nat) : (s.setMill n x).lrd bb = s.lrd bb := rfl
@[simp] theorem State.core_setMill (s : State) (n : Nat) (x : MillSt) (c : Nat) : (s.setMill n x).core c = s.core c := rfl
@[simp] theorem State.held_setMill (s : State) (n : Nat) (x : MillSt) : (s.setMill n x).held = s.held := rfl
@[simp] theorem State.rd_setSeq (s : State) (n : Nat) (x : SeqSt) (bb : Nat) : (s.setSeq n x).rd bb = s.rd bb := rfl
@[simp] theorem State.f_setSeq (s : State) (n : Nat) (x : SeqSt) (qq : RF) : (s.setSeq n x).f qq = s.f qq := rfl
@[simp] theorem State.on_setSeq (s : State) (n : Nat) (x : SeqSt) (qq : RF) : (s.setSeq n x).on qq = s.on qq := rfl
@[simp] theorem State.lf_setSeq (s : State) (n : Nat) (x : SeqSt) (qq : RF) : (s.setSeq n x).lf qq = s.lf qq := rfl
@[simp] theorem State.lrd_setSeq (s : State) (n : Nat) (x : SeqSt) (bb : Nat) : (s.setSeq n x).lrd bb = s.lrd bb := rfl
@[simp] theorem State.core_setSeq (s : State) (n : Nat) (x : SeqSt) (c : Nat) : (s.setSeq n x).core c = s.core c := rfl
@[simp] theorem State.held_setSeq (s : State) (n : Nat) (x : SeqSt) : (s.setSeq n x).held = s.held := rfl
@[simp] theorem State.rd_setMember (s : State) (n : Nat) (x : MemberSt) (bb : Nat) : (s.setMember n x).rd bb = s.rd bb := rfl
@[simp] theorem State.f_setMember (s : State) (n : Nat) (x : MemberSt) (qq : RF) : (s.setMember n x).f qq = s.f qq := rfl
@[simp] theorem State.on_setMember (s : State) (n : Nat) (x : MemberSt) (qq : RF) : (s.setMember n x).on qq = s.on qq := rfl
@[simp] theorem State.lf_setMember (s : State) (n : Nat) (x : MemberSt) (qq : RF) : (s.setMember n x).lf qq = s.lf qq := rfl
@[simp] theorem State.lrd_setMember (s : State) (n : Nat) (x : MemberSt) (bb : Nat) : (s.setMember n x).lrd bb = s.lrd bb := rfl
@[simp] theorem State.core_setMember (s : State) (n : Nat) (x : MemberSt) (c : Nat) : (s.setMember n x).core c = s.core c := rfl
@[simp] theorem State.held_setMember (s : State) (n : Nat) (x : MemberSt) : (s.setMember n x).held = s.held := rfl
@[simp] theorem State.rd_setHout (s : State) (n : Nat) (x : OutSt) (bb : Nat) : (s.setHout n x).rd bb = s.rd bb := rfl
@[simp] theorem State.f_setHout (s : State) (n : Nat) (x : OutSt) (qq : RF) : (s.setHout n x).f qq = s.f qq := rfl
@[simp] theorem State.on_setHout (s : State) (n : Nat) (x : OutSt) (qq : RF) : (s.setHout n x).on qq = s.on qq := rfl
@[simp] theorem State.lf_setHout (s : State) (n : Nat) (x : OutSt) (qq : RF) : (s.setHout n x).lf qq = s.lf qq := rfl
@[simp] theorem State.lrd_setHout (s : State) (n : Nat) (x : OutSt) (bb : Nat) : (s.setHout n x).lrd bb = s.lrd bb := rfl
@[simp] theorem State.core_setHout (s : State) (n : Nat) (x : OutSt) (c : Nat) : (s.setHout n x).core c = s.core c := rfl
@[simp] theorem State.held_setHout (s : State) (n : Nat) (x : OutSt) : (s.setHout n x).held = s.held := rfl
@[simp] theorem State.rd_setRing (s : State) (n : Nat) (x : RingSt) (bb : Nat) : (s.setRing n x).rd bb = s.rd bb := rfl
@[simp] theorem State.f_setRing (s : State) (n : Nat) (x : RingSt) (qq : RF) : (s.setRing n x).f qq = s.f qq := rfl
@[simp] theorem State.on_setRing (s : State) (n : Nat) (x : RingSt) (qq : RF) : (s.setRing n x).on qq = s.on qq := rfl
@[simp] theorem State.lf_setRing (s : State) (n : Nat) (x : RingSt) (qq : RF) : (s.setRing n x).lf qq = s.lf qq := rfl
@[simp] theorem State.lrd_setRing (s : State) (n : Nat) (x : RingSt) (bb : Nat) : (s.setRing n x).lrd bb = s.lrd bb := rfl
@[simp] theorem State.core_setRing (s : State) (n : Nat) (x : RingSt) (c : Nat) : (s.setRing n x).core c = s.core c := rfl
@[simp] theorem State.held_setRing (s : State) (n : Nat) (x : RingSt) : (s.setRing n x).held = s.held := rfl
@[simp] theorem State.rd_setDma (s : State) (n : Nat) (x : DmaSt) (bb : Nat) : (s.setDma n x).rd bb = s.rd bb := rfl
@[simp] theorem State.f_setDma (s : State) (n : Nat) (x : DmaSt) (qq : RF) : (s.setDma n x).f qq = s.f qq := rfl
@[simp] theorem State.on_setDma (s : State) (n : Nat) (x : DmaSt) (qq : RF) : (s.setDma n x).on qq = s.on qq := rfl
@[simp] theorem State.lf_setDma (s : State) (n : Nat) (x : DmaSt) (qq : RF) : (s.setDma n x).lf qq = s.lf qq := rfl
@[simp] theorem State.lrd_setDma (s : State) (n : Nat) (x : DmaSt) (bb : Nat) : (s.setDma n x).lrd bb = s.lrd bb := rfl
@[simp] theorem State.core_setDma (s : State) (n : Nat) (x : DmaSt) (c : Nat) : (s.setDma n x).core c = s.core c := rfl
@[simp] theorem State.held_setDma (s : State) (n : Nat) (x : DmaSt) : (s.setDma n x).held = s.held := rfl
@[simp] theorem State.rd_setCq (s : State) (n : Nat) (x : CqSt) (bb : Nat) : (s.setCq n x).rd bb = s.rd bb := rfl
@[simp] theorem State.f_setCq (s : State) (n : Nat) (x : CqSt) (qq : RF) : (s.setCq n x).f qq = s.f qq := rfl
@[simp] theorem State.on_setCq (s : State) (n : Nat) (x : CqSt) (qq : RF) : (s.setCq n x).on qq = s.on qq := rfl
@[simp] theorem State.lf_setCq (s : State) (n : Nat) (x : CqSt) (qq : RF) : (s.setCq n x).lf qq = s.lf qq := rfl
@[simp] theorem State.lrd_setCq (s : State) (n : Nat) (x : CqSt) (bb : Nat) : (s.setCq n x).lrd bb = s.lrd bb := rfl
@[simp] theorem State.core_setCq (s : State) (n : Nat) (x : CqSt) (c : Nat) : (s.setCq n x).core c = s.core c := rfl
@[simp] theorem State.held_setCq (s : State) (n : Nat) (x : CqSt) : (s.setCq n x).held = s.held := rfl
@[simp] theorem State.rd_setLink (s : State) (n : Nat) (x : LinkSt) (bb : Nat) : (s.setLink n x).rd bb = s.rd bb := rfl
@[simp] theorem State.f_setLink (s : State) (n : Nat) (x : LinkSt) (qq : RF) : (s.setLink n x).f qq = s.f qq := rfl
@[simp] theorem State.on_setLink (s : State) (n : Nat) (x : LinkSt) (qq : RF) : (s.setLink n x).on qq = s.on qq := rfl
@[simp] theorem State.lf_setLink (s : State) (n : Nat) (x : LinkSt) (qq : RF) : (s.setLink n x).lf qq = s.lf qq := rfl
@[simp] theorem State.lrd_setLink (s : State) (n : Nat) (x : LinkSt) (bb : Nat) : (s.setLink n x).lrd bb = s.lrd bb := rfl
@[simp] theorem State.core_setLink (s : State) (n : Nat) (x : LinkSt) (c : Nat) : (s.setLink n x).core c = s.core c := rfl
@[simp] theorem State.held_setLink (s : State) (n : Nat) (x : LinkSt) : (s.setLink n x).held = s.held := rfl
@[simp] theorem State.rd_setLane (s : State) (n : Nat) (x : LaneSt) (bb : Nat) : (s.setLane n x).rd bb = s.rd bb := rfl
@[simp] theorem State.f_setLane (s : State) (n : Nat) (x : LaneSt) (qq : RF) : (s.setLane n x).f qq = s.f qq := rfl
@[simp] theorem State.on_setLane (s : State) (n : Nat) (x : LaneSt) (qq : RF) : (s.setLane n x).on qq = s.on qq := rfl
@[simp] theorem State.lf_setLane (s : State) (n : Nat) (x : LaneSt) (qq : RF) : (s.setLane n x).lf qq = s.lf qq := rfl
@[simp] theorem State.lrd_setLane (s : State) (n : Nat) (x : LaneSt) (bb : Nat) : (s.setLane n x).lrd bb = s.lrd bb := rfl
@[simp] theorem State.core_setLane (s : State) (n : Nat) (x : LaneSt) (c : Nat) : (s.setLane n x).core c = s.core c := rfl
@[simp] theorem State.held_setLane (s : State) (n : Nat) (x : LaneSt) : (s.setLane n x).held = s.held := rfl

/-! #### Numbered units: what was stored is read, and the others are as before -/

@[simp] theorem State.axis_setAxis (s : State) (n : Nat) (x : AxisSt) : (s.setAxis n x).axis n = x := by simp [State.axis, State.setAxis]
theorem State.axis_setAxis_ne (s : State) (n m : Nat) (x : AxisSt) (h : n ≠ m) : (s.setAxis n x).axis m = s.axis m := by
  simp [State.axis, State.setAxis, mget_mset_ne _ _ h]
@[simp] theorem State.chan_setChan (s : State) (n : Nat) (x : ChanSt) : (s.setChan n x).chan n = x := by simp [State.chan, State.setChan]
theorem State.chan_setChan_ne (s : State) (n m : Nat) (x : ChanSt) (h : n ≠ m) : (s.setChan n x).chan m = s.chan m := by
  simp [State.chan, State.setChan, mget_mset_ne _ _ h]
@[simp] theorem State.slot_setSlot (s : State) (n : Nat) (x : SlotSt) : (s.setSlot n x).slot n = x := by simp [State.slot, State.setSlot]
theorem State.slot_setSlot_ne (s : State) (n m : Nat) (x : SlotSt) (h : n ≠ m) : (s.setSlot n x).slot m = s.slot m := by
  simp [State.slot, State.setSlot, mget_mset_ne _ _ h]
@[simp] theorem State.input_setInput (s : State) (n : Nat) (x : InputSt) : (s.setInput n x).input n = x := by simp [State.input, State.setInput]
theorem State.input_setInput_ne (s : State) (n m : Nat) (x : InputSt) (h : n ≠ m) : (s.setInput n x).input m = s.input m := by
  simp [State.input, State.setInput, mget_mset_ne _ _ h]
@[simp] theorem State.core_setCore (s : State) (n : Nat) (x : CoreSt) : (s.setCore n x).core n = x := by simp [State.core, State.setCore]
theorem State.core_setCore_ne (s : State) (n m : Nat) (x : CoreSt) (h : n ≠ m) : (s.setCore n x).core m = s.core m := by
  simp [State.core, State.setCore, mget_mset_ne _ _ h]
@[simp] theorem State.mbox_setMbox (s : State) (n : Nat) (x : MboxSt) : (s.setMbox n x).mbox n = x := by simp [State.mbox, State.setMbox]
theorem State.mbox_setMbox_ne (s : State) (n m : Nat) (x : MboxSt) (h : n ≠ m) : (s.setMbox n x).mbox m = s.mbox m := by
  simp [State.mbox, State.setMbox, mget_mset_ne _ _ h]
@[simp] theorem State.strm_setStrm (s : State) (n : Nat) (x : StreamSt) : (s.setStrm n x).strm n = x := by simp [State.strm, State.setStrm]
theorem State.strm_setStrm_ne (s : State) (n m : Nat) (x : StreamSt) (h : n ≠ m) : (s.setStrm n x).strm m = s.strm m := by
  simp [State.strm, State.setStrm, mget_mset_ne _ _ h]
@[simp] theorem State.par_setPar (s : State) (n : Nat) (x : ParSt) : (s.setPar n x).par n = x := by simp [State.par, State.setPar]
theorem State.par_setPar_ne (s : State) (n m : Nat) (x : ParSt) (h : n ≠ m) : (s.setPar n x).par m = s.par m := by
  simp [State.par, State.setPar, mget_mset_ne _ _ h]
@[simp] theorem State.trig_setTrig (s : State) (n : Nat) (x : TrigSt) : (s.setTrig n x).trig n = x := by simp [State.trig, State.setTrig]
theorem State.trig_setTrig_ne (s : State) (n m : Nat) (x : TrigSt) (h : n ≠ m) : (s.setTrig n x).trig m = s.trig m := by
  simp [State.trig, State.setTrig, mget_mset_ne _ _ h]
@[simp] theorem State.gpio_setGpio (s : State) (n : Nat) (x : GpioSt) : (s.setGpio n x).gpio n = x := by simp [State.gpio, State.setGpio]
theorem State.gpio_setGpio_ne (s : State) (n m : Nat) (x : GpioSt) (h : n ≠ m) : (s.setGpio n x).gpio m = s.gpio m := by
  simp [State.gpio, State.setGpio, mget_mset_ne _ _ h]
@[simp] theorem State.mill_setMill (s : State) (n : Nat) (x : MillSt) : (s.setMill n x).mill n = x := by simp [State.mill, State.setMill]
theorem State.mill_setMill_ne (s : State) (n m : Nat) (x : MillSt) (h : n ≠ m) : (s.setMill n x).mill m = s.mill m := by
  simp [State.mill, State.setMill, mget_mset_ne _ _ h]
@[simp] theorem State.seq_setSeq (s : State) (n : Nat) (x : SeqSt) : (s.setSeq n x).seq n = x := by simp [State.seq, State.setSeq]
theorem State.seq_setSeq_ne (s : State) (n m : Nat) (x : SeqSt) (h : n ≠ m) : (s.setSeq n x).seq m = s.seq m := by
  simp [State.seq, State.setSeq, mget_mset_ne _ _ h]
@[simp] theorem State.member_setMember (s : State) (n : Nat) (x : MemberSt) : (s.setMember n x).member n = x := by simp [State.member, State.setMember]
theorem State.member_setMember_ne (s : State) (n m : Nat) (x : MemberSt) (h : n ≠ m) : (s.setMember n x).member m = s.member m := by
  simp [State.member, State.setMember, mget_mset_ne _ _ h]
@[simp] theorem State.hout_setHout (s : State) (n : Nat) (x : OutSt) : (s.setHout n x).hout n = x := by simp [State.hout, State.setHout]
theorem State.hout_setHout_ne (s : State) (n m : Nat) (x : OutSt) (h : n ≠ m) : (s.setHout n x).hout m = s.hout m := by
  simp [State.hout, State.setHout, mget_mset_ne _ _ h]
@[simp] theorem State.ring_setRing (s : State) (n : Nat) (x : RingSt) : (s.setRing n x).ring n = x := by simp [State.ring, State.setRing]
theorem State.ring_setRing_ne (s : State) (n m : Nat) (x : RingSt) (h : n ≠ m) : (s.setRing n x).ring m = s.ring m := by
  simp [State.ring, State.setRing, mget_mset_ne _ _ h]
@[simp] theorem State.dma_setDma (s : State) (n : Nat) (x : DmaSt) : (s.setDma n x).dma n = x := by simp [State.dma, State.setDma]
theorem State.dma_setDma_ne (s : State) (n m : Nat) (x : DmaSt) (h : n ≠ m) : (s.setDma n x).dma m = s.dma m := by
  simp [State.dma, State.setDma, mget_mset_ne _ _ h]
@[simp] theorem State.cq_setCq (s : State) (n : Nat) (x : CqSt) : (s.setCq n x).cq n = x := by simp [State.cq, State.setCq]
theorem State.cq_setCq_ne (s : State) (n m : Nat) (x : CqSt) (h : n ≠ m) : (s.setCq n x).cq m = s.cq m := by
  simp [State.cq, State.setCq, mget_mset_ne _ _ h]
@[simp] theorem State.link_setLink (s : State) (n : Nat) (x : LinkSt) : (s.setLink n x).link n = x := by simp [State.link, State.setLink]
theorem State.link_setLink_ne (s : State) (n m : Nat) (x : LinkSt) (h : n ≠ m) : (s.setLink n x).link m = s.link m := by
  simp [State.link, State.setLink, mget_mset_ne _ _ h]
@[simp] theorem State.lane_setLane (s : State) (n : Nat) (x : LaneSt) : (s.setLane n x).lane n = x := by simp [State.lane, State.setLane]
theorem State.lane_setLane_ne (s : State) (n m : Nat) (x : LaneSt) (h : n ≠ m) : (s.setLane n x).lane m = s.lane m := by
  simp [State.lane, State.setLane, mget_mset_ne _ _ h]

end Sys2Proof.Machine
end

