-- ==== Sys2Proof/Laws/Memory.lean ====
section
/-! SUPPORT. Laws/Memory.lean: every memory operation keeps the canonical form, stores what it is given, and leaves every other byte
alone. -/

namespace Sys2Proof.Machine
open Sys2Proof

/-- One byte after a write of a run of bytes. -/
theorem mget_mwriteBytes (m : SMap (BitVec 8)) (a : Nat) (l : List (BitVec 8)) (k : Nat) :
    mget zeroByte (mwriteBytes m a l) k = if a ≤ k ∧ k < a + l.length then l.getD (k - a) 0 else mget zeroByte m k := by
  induction l generalizing m a with
  | nil => simp [mwriteBytes]
  | cons b r ih =>
    rw [mwriteBytes, ih]
    by_cases hk : k = a
    · subst hk
      have h1 : ¬ (k + 1 ≤ k ∧ k < k + 1 + r.length) := by omega
      have h2 : k ≤ k ∧ k < k + (b :: r).length := by simp
      rw [if_neg h1, if_pos h2]; simp
    · by_cases hr : a + 1 ≤ k ∧ k < a + 1 + r.length
      · have h2 : a ≤ k ∧ k < a + (b :: r).length := by simp; omega
        have h3 : k - a = (k - (a + 1)) + 1 := by omega
        rw [if_pos hr, if_pos h2, h3]; simp
      · have h2 : ¬ (a ≤ k ∧ k < a + (b :: r).length) := by simp; omega
        rw [if_neg hr, if_neg h2, mget_mset_ne _ _ (Ne.symm hk)]

/-- A read of a run of bytes, byte by byte. -/
theorem mreadBytes_eq (m : SMap (BitVec 8)) (a n : Nat) :
    mreadBytes m a n = (List.range n).map (fun i => mget zeroByte m (a + i)) := by
  induction n generalizing a with
  | zero => rfl
  | succ n ih =>
    rw [mreadBytes, ih, List.range_succ_eq_map]
    simp only [List.map_cons, List.map_map, Nat.add_zero]
    congr 1
    apply List.map_congr_left
    intro i _
    simp [Nat.add_assoc, Nat.add_comm 1 i]

/-- A read gives what was just written there. -/
theorem mreadBytes_mwriteBytes (m : SMap (BitVec 8)) (a : Nat) (l : List (BitVec 8)) :
    mreadBytes (mwriteBytes m a l) a l.length = l := by
  rw [mreadBytes_eq]
  apply List.ext_getElem
  · simp
  · intro i h1 h2
    have h3 : a ≤ a + i ∧ a + i < a + l.length := by omega
    simp [mget_mwriteBytes, h2]

theorem wf_mwriteBytes (m : SMap (BitVec 8)) (a : Nat) (l : List (BitVec 8)) (h : Memory.wf m = true) :
    Memory.wf (mwriteBytes m a l) = true := by
  induction l generalizing m a with
  | nil => exact h
  | cons b r ih => exact ih _ _ (mwf_mset _ _ h)

/-- A write of device memory keeps its canonical form. -/
theorem State.wf_dwrite (s : State) (a : Nat) (l : List (BitVec 8)) (h : Memory.wf s.dmem = true) :
    Memory.wf (s.dwrite a l).dmem = true := by
  unfold State.dwrite
  dsimp only
  split <;> exact wf_mwriteBytes _ _ _ h

theorem State.wf_dzero (s : State) (a n : Nat) (h : Memory.wf s.dmem = true) : Memory.wf (s.dzero a n).dmem = true :=
  mwf_mdropRange _ _ h

theorem State.wf_bwrite (s : State) (a : Nat) (l : List (BitVec 8)) (h : Memory.wf s.bufs = true) :
    Memory.wf (s.bwrite a l).bufs = true := wf_mwriteBytes _ _ _ h

/-- The bytes of device memory after a write: those that lie within its 72 GiB are stored. -/
theorem State.dmem_dwrite (s : State) (a : Nat) (l : List (BitVec 8)) :
    (s.dwrite a l).dmem = mwriteBytes s.dmem a (l.take (dmemBytes - a)) := by
  unfold State.dwrite
  dsimp only
  split <;> rfl

/-- Everything a write of device memory changes: its bytes, and the poison of the units it covers whole (R280). -/
theorem State.dwrite_frame (s : State) (a : Nat) (l : List (BitVec 8)) :
    s.dwrite a l = { s with dmem := (s.dwrite a l).dmem, poison := (s.dwrite a l).poison } := by
  unfold State.dwrite
  dsimp only
  split <;> rfl

/-- What a write over tiles that a fence has still to make visible changes: cores (R80). -/
theorem dropFed_frame (s : State) (a n : Nat) : dropFed s a n = { s with cores := (dropFed s a n).cores } := by
  unfold dropFed
  split <;> rfl

/-- A core's write at a place keeps the canonical form of the three memories. -/
theorem wf_placeWrite (s : State) (p : Place) (l : List (BitVec 8))
    (h : Memory.wf s.lmem = true ∧ Memory.wf s.cmem = true ∧ Memory.wf s.dmem = true) :
    Memory.wf (placeWrite s p l).lmem = true ∧ Memory.wf (placeWrite s p l).cmem = true ∧ Memory.wf (placeWrite s p l).dmem = true := by
  obtain ⟨h1, h2, h3⟩ := h
  cases p with
  | loc k => exact ⟨wf_mwriteBytes _ _ _ h1, h2, h3⟩
  | clu c k =>
    rw [placeWrite, dropFed_frame]
    exact ⟨h1, wf_mwriteBytes _ _ _ h2, h3⟩
  | dev a =>
    refine ⟨?_, ?_, State.wf_dwrite s a l h3⟩ <;>
    · show Memory.wf _ = true
      rw [placeWrite, State.dwrite_frame]; assumption
  | reg a => exact ⟨h1, h2, h3⟩

/-- The memories of the machine after reset are in canonical form: they list nothing. -/
theorem wf_reset : Memory.wf State.reset.lmem = true ∧ Memory.wf State.reset.cmem = true ∧ Memory.wf State.reset.dmem = true ∧
    Memory.wf State.reset.bufs = true := ⟨rfl, rfl, rfl, rfl⟩

end Sys2Proof.Machine
end

