-- ==== Sys2Proof/Laws/Fields.lean ====
section
/-! SUPPORT. Laws/Fields.lean: fields of register words (R3), and reads of a register after writes. -/

namespace Sys2Proof.Machine
open Sys2Proof

/-! ### Fields of a word -/

/-- Bit `i` of a field is bit `lo + i` of the word. -/
theorem testBit_fieldOf (w : Word) (hi lo i : Nat) :
    (fieldOf w hi lo).testBit i = (decide (i < hi + 1 - lo) && w.getLsbD (lo + i)) := by
  simp [fieldOf, Nat.testBit_mod_two_pow, Nat.testBit_shiftRight, BitVec.getLsbD]

/-- Bit `i` of a word with a field replaced. -/
theorem getLsbD_setField (w : Word) (hi lo v i : Nat) (h : hi < 32) (hl : lo ≤ hi) :
    (setField w hi lo v).getLsbD i = if lo ≤ i ∧ i ≤ hi then v.testBit (i - lo) else w.getLsbD i := by
  by_cases h32 : i < 32
  · have e : 2 ^ (hi + 1 - lo) - 1 = 2 ^ (hi + 1 - lo) - 1 := rfl
    simp only [setField, BitVec.getLsbD_or, BitVec.getLsbD_and, BitVec.getLsbD_not, BitVec.getLsbD_ofNat, Nat.testBit_shiftLeft,
      Nat.testBit_two_pow_sub_one, Nat.testBit_mod_two_pow, h32, decide_true, Bool.true_and]
    by_cases hlo : lo ≤ i
    · by_cases hh : i ≤ hi
      · have : i - lo < hi + 1 - lo := by omega
        simp [hlo, hh, this]
      · have : ¬ i - lo < hi + 1 - lo := by omega
        simp [hlo, hh, this]
    · simp [hlo]
  · have h1 : ¬ (lo ≤ i ∧ i ≤ hi) := by omega
    rw [BitVec.getLsbD_of_ge _ _ (by omega), if_neg h1, BitVec.getLsbD_of_ge _ _ (by omega)]

/-- A field reads as the value written to it, cut to its width. -/
theorem fieldOf_setField (w : Word) (hi lo v : Nat) (h : hi < 32) (hl : lo ≤ hi) :
    fieldOf (setField w hi lo v) hi lo = v % 2 ^ (hi + 1 - lo) := by
  apply Nat.eq_of_testBit_eq
  intro i
  rw [testBit_fieldOf, getLsbD_setField _ _ _ _ _ h hl, Nat.testBit_mod_two_pow]
  by_cases hi' : i < hi + 1 - lo
  · have : lo ≤ lo + i ∧ lo + i ≤ hi := by omega
    simp [hi', this]
  · simp [hi']

/-- A write of one field leaves every other field of the register alone. -/
theorem fieldOf_setField_ne (w : Word) (hi lo v hi' lo' : Nat) (h : hi < 32) (hl : lo ≤ hi) (hd : hi' < lo ∨ hi < lo') :
    fieldOf (setField w hi lo v) hi' lo' = fieldOf w hi' lo' := by
  apply Nat.eq_of_testBit_eq
  intro i
  rw [testBit_fieldOf, testBit_fieldOf, getLsbD_setField _ _ _ _ _ h hl]
  by_cases hi' : i < hi' + 1 - lo'
  · have : ¬ (lo ≤ lo' + i ∧ lo' + i ≤ hi) := by omega
    simp [hi', this]
  · simp [hi']

/-! ### Registers -/

@[simp] theorem State.rd_wr_self (s : State) (a : Nat) (w : Word) : (s.wr a w).rd a = w := by
  simp [State.rd, State.wr]

theorem State.rd_wr_ne (s : State) {a b : Nat} (w : Word) (h : a ≠ b) : (s.wr a w).rd b = s.rd b := by
  simp [State.rd, State.wr, mget_mset_ne _ _ h]

theorem State.rd_wr (s : State) (a b : Nat) (w : Word) : (s.wr a w).rd b = if a = b then w else s.rd b := by
  by_cases h : a = b
  · subst h; simp
  · simp [h, s.rd_wr_ne w h]

/-- A field is well placed: it lies in the 32 bits of its register, low bit first. -/
def RF.ok (r : RF) : Prop := r.lo ≤ r.hi ∧ r.hi < 32

/-- A field reads as the value stored, cut to its width (R3). -/
theorem State.f_sf_self (s : State) (r : RF) (v : Nat) (h : r.ok) : (s.sf r v).f r = v % 2 ^ (r.hi + 1 - r.lo) := by
  simp [State.f, State.sf, fieldOf_setField _ _ _ _ h.2 h.1]

/-- A field of another register reads as before. -/
theorem State.f_sf_addr (s : State) (r q : RF) (v : Nat) (h : r.addr ≠ q.addr) : (s.sf r v).f q = s.f q := by
  simp [State.f, State.sf, s.rd_wr_ne _ h]

/-- Another field of the same register reads as before. -/
theorem State.f_sf_bits (s : State) (r q : RF) (v : Nat) (h : r.ok) (hd : q.hi < r.lo ∨ r.hi < q.lo) :
    (s.sf r v).f q = s.f q := by
  by_cases ha : r.addr = q.addr
  · simp [State.f, State.sf, ha, fieldOf_setField_ne _ _ _ _ _ _ h.2 h.1 hd]
  · exact s.f_sf_addr r q v ha

theorem State.f_wr_ne (s : State) (a : Nat) (w : Word) (q : RF) (h : a ≠ q.addr) : (s.wr a w).f q = s.f q := by
  simp [State.f, s.rd_wr_ne w h]

theorem State.on_sf_addr (s : State) (r q : RF) (v : Nat) (h : r.addr ≠ q.addr) : (s.sf r v).on q = s.on q := by
  simp [State.on, s.f_sf_addr r q v h]

theorem State.on_sf_bits (s : State) (r q : RF) (v : Nat) (h : r.ok) (hd : q.hi < r.lo ∨ r.hi < q.lo) :
    (s.sf r v).on q = s.on q := by
  simp [State.on, s.f_sf_bits r q v h hd]

/-- A flag that was set reads as set. -/
theorem State.on_set1_self (s : State) (r : RF) (h : r.ok) : (s.set1 r).on r = true := by
  have h1 : 1 % 2 ^ (r.hi + 1 - r.lo) = 1 := Nat.mod_eq_of_lt (Nat.one_lt_two_pow (by have := h.1; omega))
  simp [State.on, State.set1, s.f_sf_self r 1 h, h1]

/-- A flag that was cleared reads as clear. -/
theorem State.on_clr_self (s : State) (r : RF) (h : r.ok) : (s.clr r).on r = false := by
  simp [State.on, State.clr, s.f_sf_self r 0 h]

end Sys2Proof.Machine
end

