-- ==== Sys2Proof/Laws/Settle.lean ====
section
/-! SUPPORT. Laws/Settle.lean: the end of every command, which decides the mode again (R406) and drives ALERT_N (R436): what it
leaves alone, and that it leaves the mode and the pin as the rules say. -/

namespace Sys2Proof.Machine
open Sys2Proof

/-- What deciding the mode does: nothing, or a new MODE with the former one in PREV. -/
theorem State.settle_cases (s : State) :
    (s.settle = s ∧ s.modeOf = s.f F.DEV_MODE_MODE) ∨
    (s.settle = (s.sf F.DEV_MODE_PREV (s.f F.DEV_MODE_MODE)).sf F.DEV_MODE_MODE s.modeOf ∧ s.modeOf ≠ s.f F.DEV_MODE_MODE) := by
  unfold State.settle
  by_cases h : s.modeOf = s.f F.DEV_MODE_MODE
  · exact .inl ⟨by simp [h], h⟩
  · exact .inr ⟨by simp [h], h⟩

/-- What driving ALERT_N does: nothing, or the new level on the pin. -/
theorem State.driveAlert_cases (s : State) :
    (s.driveAlert = s ∧ s.alertLow = s.ras.alert) ∨
    (s.driveAlert = { s with ras := { s.ras with alert := s.alertLow }, out := s.out ++ [.pin .alertN (!s.alertLow)] } ∧
      s.alertLow ≠ s.ras.alert) := by
  unfold State.driveAlert
  by_cases h : s.alertLow = s.ras.alert
  · exact .inl ⟨by simp [h], h⟩
  · exact .inr ⟨by simp [h], h⟩

@[simp] theorem State.settle_now (s : State) : s.settle.now = s.now := by
  rcases s.settle_cases with ⟨h, _⟩ | ⟨h, _⟩ <;> simp [h]
@[simp] theorem State.driveAlert_now (s : State) : s.driveAlert.now = s.now := by
  rcases s.driveAlert_cases with ⟨h, _⟩ | ⟨h, _⟩ <;> simp [h]
@[simp] theorem State.settle_pending (s : State) : s.settle.pending = s.pending := by
  rcases s.settle_cases with ⟨h, _⟩ | ⟨h, _⟩ <;> simp [h]
@[simp] theorem State.driveAlert_pending (s : State) : s.driveAlert.pending = s.pending := by
  rcases s.driveAlert_cases with ⟨h, _⟩ | ⟨h, _⟩ <;> simp [h]
@[simp] theorem State.driveAlert_regs (s : State) : s.driveAlert.regs = s.regs := by
  rcases s.driveAlert_cases with ⟨h, _⟩ | ⟨h, _⟩ <;> simp [h]
@[simp] theorem State.settle_live (s : State) : s.settle.live = s.live := by
  rcases s.settle_cases with ⟨h, _⟩ | ⟨h, _⟩ <;> simp [h]
@[simp] theorem State.driveAlert_live (s : State) : s.driveAlert.live = s.live := by
  rcases s.driveAlert_cases with ⟨h, _⟩ | ⟨h, _⟩ <;> simp [h]
@[simp] theorem State.settle_latch (s : State) : s.settle.latch = s.latch := by
  rcases s.settle_cases with ⟨h, _⟩ | ⟨h, _⟩ <;> simp [h]
@[simp] theorem State.driveAlert_latch (s : State) : s.driveAlert.latch = s.latch := by
  rcases s.driveAlert_cases with ⟨h, _⟩ | ⟨h, _⟩ <;> simp [h]
@[simp] theorem State.settle_pendLo (s : State) : s.settle.pendLo = s.pendLo := by
  rcases s.settle_cases with ⟨h, _⟩ | ⟨h, _⟩ <;> simp [h]
@[simp] theorem State.driveAlert_pendLo (s : State) : s.driveAlert.pendLo = s.pendLo := by
  rcases s.driveAlert_cases with ⟨h, _⟩ | ⟨h, _⟩ <;> simp [h]
@[simp] theorem State.settle_bufs (s : State) : s.settle.bufs = s.bufs := by
  rcases s.settle_cases with ⟨h, _⟩ | ⟨h, _⟩ <;> simp [h]
@[simp] theorem State.driveAlert_bufs (s : State) : s.driveAlert.bufs = s.bufs := by
  rcases s.driveAlert_cases with ⟨h, _⟩ | ⟨h, _⟩ <;> simp [h]
@[simp] theorem State.settle_lmem (s : State) : s.settle.lmem = s.lmem := by
  rcases s.settle_cases with ⟨h, _⟩ | ⟨h, _⟩ <;> simp [h]
@[simp] theorem State.driveAlert_lmem (s : State) : s.driveAlert.lmem = s.lmem := by
  rcases s.driveAlert_cases with ⟨h, _⟩ | ⟨h, _⟩ <;> simp [h]
@[simp] theorem State.settle_cmem (s : State) : s.settle.cmem = s.cmem := by
  rcases s.settle_cases with ⟨h, _⟩ | ⟨h, _⟩ <;> simp [h]
@[simp] theorem State.driveAlert_cmem (s : State) : s.driveAlert.cmem = s.cmem := by
  rcases s.driveAlert_cases with ⟨h, _⟩ | ⟨h, _⟩ <;> simp [h]
@[simp] theorem State.settle_dmem (s : State) : s.settle.dmem = s.dmem := by
  rcases s.settle_cases with ⟨h, _⟩ | ⟨h, _⟩ <;> simp [h]
@[simp] theorem State.driveAlert_dmem (s : State) : s.driveAlert.dmem = s.dmem := by
  rcases s.driveAlert_cases with ⟨h, _⟩ | ⟨h, _⟩ <;> simp [h]
@[simp] theorem State.settle_tim (s : State) : s.settle.tim = s.tim := by
  rcases s.settle_cases with ⟨h, _⟩ | ⟨h, _⟩ <;> simp [h]
@[simp] theorem State.driveAlert_tim (s : State) : s.driveAlert.tim = s.tim := by
  rcases s.driveAlert_cases with ⟨h, _⟩ | ⟨h, _⟩ <;> simp [h]
@[simp] theorem State.settle_axes (s : State) : s.settle.axes = s.axes := by
  rcases s.settle_cases with ⟨h, _⟩ | ⟨h, _⟩ <;> simp [h]
@[simp] theorem State.driveAlert_axes (s : State) : s.driveAlert.axes = s.axes := by
  rcases s.driveAlert_cases with ⟨h, _⟩ | ⟨h, _⟩ <;> simp [h]
@[simp] theorem State.settle_chans (s : State) : s.settle.chans = s.chans := by
  rcases s.settle_cases with ⟨h, _⟩ | ⟨h, _⟩ <;> simp [h]
@[simp] theorem State.driveAlert_chans (s : State) : s.driveAlert.chans = s.chans := by
  rcases s.driveAlert_cases with ⟨h, _⟩ | ⟨h, _⟩ <;> simp [h]
@[simp] theorem State.settle_slots (s : State) : s.settle.slots = s.slots := by
  rcases s.settle_cases with ⟨h, _⟩ | ⟨h, _⟩ <;> simp [h]
@[simp] theorem State.driveAlert_slots (s : State) : s.driveAlert.slots = s.slots := by
  rcases s.driveAlert_cases with ⟨h, _⟩ | ⟨h, _⟩ <;> simp [h]
@[simp] theorem State.settle_evq (s : State) : s.settle.evq = s.evq := by
  rcases s.settle_cases with ⟨h, _⟩ | ⟨h, _⟩ <;> simp [h]
@[simp] theorem State.driveAlert_evq (s : State) : s.driveAlert.evq = s.evq := by
  rcases s.driveAlert_cases with ⟨h, _⟩ | ⟨h, _⟩ <;> simp [h]
@[simp] theorem State.settle_inputs (s : State) : s.settle.inputs = s.inputs := by
  rcases s.settle_cases with ⟨h, _⟩ | ⟨h, _⟩ <;> simp [h]
@[simp] theorem State.driveAlert_inputs (s : State) : s.driveAlert.inputs = s.inputs := by
  rcases s.driveAlert_cases with ⟨h, _⟩ | ⟨h, _⟩ <;> simp [h]
@[simp] theorem State.settle_grpOn (s : State) : s.settle.grpOn = s.grpOn := by
  rcases s.settle_cases with ⟨h, _⟩ | ⟨h, _⟩ <;> simp [h]
@[simp] theorem State.driveAlert_grpOn (s : State) : s.driveAlert.grpOn = s.grpOn := by
  rcases s.driveAlert_cases with ⟨h, _⟩ | ⟨h, _⟩ <;> simp [h]
@[simp] theorem State.settle_grpOff (s : State) : s.settle.grpOff = s.grpOff := by
  rcases s.settle_cases with ⟨h, _⟩ | ⟨h, _⟩ <;> simp [h]
@[simp] theorem State.driveAlert_grpOff (s : State) : s.driveAlert.grpOff = s.grpOff := by
  rcases s.driveAlert_cases with ⟨h, _⟩ | ⟨h, _⟩ <;> simp [h]
@[simp] theorem State.settle_cores (s : State) : s.settle.cores = s.cores := by
  rcases s.settle_cases with ⟨h, _⟩ | ⟨h, _⟩ <;> simp [h]
@[simp] theorem State.driveAlert_cores (s : State) : s.driveAlert.cores = s.cores := by
  rcases s.driveAlert_cases with ⟨h, _⟩ | ⟨h, _⟩ <;> simp [h]
@[simp] theorem State.settle_loader (s : State) : s.settle.loader = s.loader := by
  rcases s.settle_cases with ⟨h, _⟩ | ⟨h, _⟩ <;> simp [h]
@[simp] theorem State.driveAlert_loader (s : State) : s.driveAlert.loader = s.loader := by
  rcases s.driveAlert_cases with ⟨h, _⟩ | ⟨h, _⟩ <;> simp [h]
@[simp] theorem State.settle_mboxes (s : State) : s.settle.mboxes = s.mboxes := by
  rcases s.settle_cases with ⟨h, _⟩ | ⟨h, _⟩ <;> simp [h]
@[simp] theorem State.driveAlert_mboxes (s : State) : s.driveAlert.mboxes = s.mboxes := by
  rcases s.driveAlert_cases with ⟨h, _⟩ | ⟨h, _⟩ <;> simp [h]
@[simp] theorem State.settle_ras (s : State) : s.settle.ras = s.ras := by
  rcases s.settle_cases with ⟨h, _⟩ | ⟨h, _⟩ <;> simp [h]
@[simp] theorem State.settle_freeCtr (s : State) : s.settle.freeCtr = s.freeCtr := by
  rcases s.settle_cases with ⟨h, _⟩ | ⟨h, _⟩ <;> simp [h]
@[simp] theorem State.driveAlert_freeCtr (s : State) : s.driveAlert.freeCtr = s.freeCtr := by
  rcases s.driveAlert_cases with ⟨h, _⟩ | ⟨h, _⟩ <;> simp [h]
@[simp] theorem State.settle_boot (s : State) : s.settle.boot = s.boot := by
  rcases s.settle_cases with ⟨h, _⟩ | ⟨h, _⟩ <;> simp [h]
@[simp] theorem State.driveAlert_boot (s : State) : s.driveAlert.boot = s.boot := by
  rcases s.driveAlert_cases with ⟨h, _⟩ | ⟨h, _⟩ <;> simp [h]
@[simp] theorem State.settle_sigs (s : State) : s.settle.sigs = s.sigs := by
  rcases s.settle_cases with ⟨h, _⟩ | ⟨h, _⟩ <;> simp [h]
@[simp] theorem State.driveAlert_sigs (s : State) : s.driveAlert.sigs = s.sigs := by
  rcases s.driveAlert_cases with ⟨h, _⟩ | ⟨h, _⟩ <;> simp [h]
@[simp] theorem State.settle_out (s : State) : s.settle.out = s.out := by
  rcases s.settle_cases with ⟨h, _⟩ | ⟨h, _⟩ <;> simp [h]
@[simp] theorem State.settle_poison (s : State) : s.settle.poison = s.poison := by
  rcases s.settle_cases with ⟨h, _⟩ | ⟨h, _⟩ <;> simp [h]
@[simp] theorem State.driveAlert_poison (s : State) : s.driveAlert.poison = s.poison := by
  rcases s.driveAlert_cases with ⟨h, _⟩ | ⟨h, _⟩ <;> simp [h]
@[simp] theorem State.settle_lpoison (s : State) : s.settle.lpoison = s.lpoison := by
  rcases s.settle_cases with ⟨h, _⟩ | ⟨h, _⟩ <;> simp [h]
@[simp] theorem State.driveAlert_lpoison (s : State) : s.driveAlert.lpoison = s.lpoison := by
  rcases s.driveAlert_cases with ⟨h, _⟩ | ⟨h, _⟩ <;> simp [h]
@[simp] theorem State.settle_cpoison (s : State) : s.settle.cpoison = s.cpoison := by
  rcases s.settle_cases with ⟨h, _⟩ | ⟨h, _⟩ <;> simp [h]
@[simp] theorem State.driveAlert_cpoison (s : State) : s.driveAlert.cpoison = s.cpoison := by
  rcases s.driveAlert_cases with ⟨h, _⟩ | ⟨h, _⟩ <;> simp [h]
@[simp] theorem State.settle_streams (s : State) : s.settle.streams = s.streams := by
  rcases s.settle_cases with ⟨h, _⟩ | ⟨h, _⟩ <;> simp [h]
@[simp] theorem State.driveAlert_streams (s : State) : s.driveAlert.streams = s.streams := by
  rcases s.driveAlert_cases with ⟨h, _⟩ | ⟨h, _⟩ <;> simp [h]
@[simp] theorem State.settle_eth (s : State) : s.settle.eth = s.eth := by
  rcases s.settle_cases with ⟨h, _⟩ | ⟨h, _⟩ <;> simp [h]
@[simp] theorem State.driveAlert_eth (s : State) : s.driveAlert.eth = s.eth := by
  rcases s.driveAlert_cases with ⟨h, _⟩ | ⟨h, _⟩ <;> simp [h]
@[simp] theorem State.settle_toMill (s : State) : s.settle.toMill = s.toMill := by
  rcases s.settle_cases with ⟨h, _⟩ | ⟨h, _⟩ <;> simp [h]
@[simp] theorem State.driveAlert_toMill (s : State) : s.driveAlert.toMill = s.toMill := by
  rcases s.driveAlert_cases with ⟨h, _⟩ | ⟨h, _⟩ <;> simp [h]
@[simp] theorem State.settle_pars (s : State) : s.settle.pars = s.pars := by
  rcases s.settle_cases with ⟨h, _⟩ | ⟨h, _⟩ <;> simp [h]
@[simp] theorem State.driveAlert_pars (s : State) : s.driveAlert.pars = s.pars := by
  rcases s.driveAlert_cases with ⟨h, _⟩ | ⟨h, _⟩ <;> simp [h]
@[simp] theorem State.settle_trigs (s : State) : s.settle.trigs = s.trigs := by
  rcases s.settle_cases with ⟨h, _⟩ | ⟨h, _⟩ <;> simp [h]
@[simp] theorem State.driveAlert_trigs (s : State) : s.driveAlert.trigs = s.trigs := by
  rcases s.driveAlert_cases with ⟨h, _⟩ | ⟨h, _⟩ <;> simp [h]
@[simp] theorem State.settle_gpios (s : State) : s.settle.gpios = s.gpios := by
  rcases s.settle_cases with ⟨h, _⟩ | ⟨h, _⟩ <;> simp [h]
@[simp] theorem State.driveAlert_gpios (s : State) : s.driveAlert.gpios = s.gpios := by
  rcases s.driveAlert_cases with ⟨h, _⟩ | ⟨h, _⟩ <;> simp [h]
@[simp] theorem State.settle_mills (s : State) : s.settle.mills = s.mills := by
  rcases s.settle_cases with ⟨h, _⟩ | ⟨h, _⟩ <;> simp [h]
@[simp] theorem State.driveAlert_mills (s : State) : s.driveAlert.mills = s.mills := by
  rcases s.driveAlert_cases with ⟨h, _⟩ | ⟨h, _⟩ <;> simp [h]
@[simp] theorem State.settle_millLast (s : State) : s.settle.millLast = s.millLast := by
  rcases s.settle_cases with ⟨h, _⟩ | ⟨h, _⟩ <;> simp [h]
@[simp] theorem State.driveAlert_millLast (s : State) : s.driveAlert.millLast = s.millLast := by
  rcases s.driveAlert_cases with ⟨h, _⟩ | ⟨h, _⟩ <;> simp [h]
@[simp] theorem State.settle_millPos (s : State) : s.settle.millPos = s.millPos := by
  rcases s.settle_cases with ⟨h, _⟩ | ⟨h, _⟩ <;> simp [h]
@[simp] theorem State.driveAlert_millPos (s : State) : s.driveAlert.millPos = s.millPos := by
  rcases s.driveAlert_cases with ⟨h, _⟩ | ⟨h, _⟩ <;> simp [h]
@[simp] theorem State.settle_toCol (s : State) : s.settle.toCol = s.toCol := by
  rcases s.settle_cases with ⟨h, _⟩ | ⟨h, _⟩ <;> simp [h]
@[simp] theorem State.driveAlert_toCol (s : State) : s.driveAlert.toCol = s.toCol := by
  rcases s.driveAlert_cases with ⟨h, _⟩ | ⟨h, _⟩ <;> simp [h]
@[simp] theorem State.settle_toTap (s : State) : s.settle.toTap = s.toTap := by
  rcases s.settle_cases with ⟨h, _⟩ | ⟨h, _⟩ <;> simp [h]
@[simp] theorem State.driveAlert_toTap (s : State) : s.driveAlert.toTap = s.toTap := by
  rcases s.driveAlert_cases with ⟨h, _⟩ | ⟨h, _⟩ <;> simp [h]
@[simp] theorem State.settle_seqs (s : State) : s.settle.seqs = s.seqs := by
  rcases s.settle_cases with ⟨h, _⟩ | ⟨h, _⟩ <;> simp [h]
@[simp] theorem State.driveAlert_seqs (s : State) : s.driveAlert.seqs = s.seqs := by
  rcases s.driveAlert_cases with ⟨h, _⟩ | ⟨h, _⟩ <;> simp [h]
@[simp] theorem State.settle_members (s : State) : s.settle.members = s.members := by
  rcases s.settle_cases with ⟨h, _⟩ | ⟨h, _⟩ <;> simp [h]
@[simp] theorem State.driveAlert_members (s : State) : s.driveAlert.members = s.members := by
  rcases s.driveAlert_cases with ⟨h, _⟩ | ⟨h, _⟩ <;> simp [h]
@[simp] theorem State.settle_toLink (s : State) : s.settle.toLink = s.toLink := by
  rcases s.settle_cases with ⟨h, _⟩ | ⟨h, _⟩ <;> simp [h]
@[simp] theorem State.driveAlert_toLink (s : State) : s.driveAlert.toLink = s.toLink := by
  rcases s.driveAlert_cases with ⟨h, _⟩ | ⟨h, _⟩ <;> simp [h]
@[simp] theorem State.settle_strips (s : State) : s.settle.strips = s.strips := by
  rcases s.settle_cases with ⟨h, _⟩ | ⟨h, _⟩ <;> simp [h]
@[simp] theorem State.driveAlert_strips (s : State) : s.driveAlert.strips = s.strips := by
  rcases s.driveAlert_cases with ⟨h, _⟩ | ⟨h, _⟩ <;> simp [h]
@[simp] theorem State.settle_hedQ (s : State) : s.settle.hedQ = s.hedQ := by
  rcases s.settle_cases with ⟨h, _⟩ | ⟨h, _⟩ <;> simp [h]
@[simp] theorem State.driveAlert_hedQ (s : State) : s.driveAlert.hedQ = s.hedQ := by
  rcases s.driveAlert_cases with ⟨h, _⟩ | ⟨h, _⟩ <;> simp [h]
@[simp] theorem State.settle_hunits (s : State) : s.settle.hunits = s.hunits := by
  rcases s.settle_cases with ⟨h, _⟩ | ⟨h, _⟩ <;> simp [h]
@[simp] theorem State.driveAlert_hunits (s : State) : s.driveAlert.hunits = s.hunits := by
  rcases s.driveAlert_cases with ⟨h, _⟩ | ⟨h, _⟩ <;> simp [h]
@[simp] theorem State.settle_outs (s : State) : s.settle.outs = s.outs := by
  rcases s.settle_cases with ⟨h, _⟩ | ⟨h, _⟩ <;> simp [h]
@[simp] theorem State.driveAlert_outs (s : State) : s.driveAlert.outs = s.outs := by
  rcases s.driveAlert_cases with ⟨h, _⟩ | ⟨h, _⟩ <;> simp [h]
@[simp] theorem State.settle_sheafHeads (s : State) : s.settle.sheafHeads = s.sheafHeads := by
  rcases s.settle_cases with ⟨h, _⟩ | ⟨h, _⟩ <;> simp [h]
@[simp] theorem State.driveAlert_sheafHeads (s : State) : s.driveAlert.sheafHeads = s.sheafHeads := by
  rcases s.driveAlert_cases with ⟨h, _⟩ | ⟨h, _⟩ <;> simp [h]
@[simp] theorem State.settle_hunitNo (s : State) : s.settle.hunitNo = s.hunitNo := by
  rcases s.settle_cases with ⟨h, _⟩ | ⟨h, _⟩ <;> simp [h]
@[simp] theorem State.driveAlert_hunitNo (s : State) : s.driveAlert.hunitNo = s.hunitNo := by
  rcases s.driveAlert_cases with ⟨h, _⟩ | ⟨h, _⟩ <;> simp [h]
@[simp] theorem State.settle_boxes (s : State) : s.settle.boxes = s.boxes := by
  rcases s.settle_cases with ⟨h, _⟩ | ⟨h, _⟩ <;> simp [h]
@[simp] theorem State.driveAlert_boxes (s : State) : s.driveAlert.boxes = s.boxes := by
  rcases s.driveAlert_cases with ⟨h, _⟩ | ⟨h, _⟩ <;> simp [h]
@[simp] theorem State.settle_thr (s : State) : s.settle.thr = s.thr := by
  rcases s.settle_cases with ⟨h, _⟩ | ⟨h, _⟩ <;> simp [h]
@[simp] theorem State.driveAlert_thr (s : State) : s.driveAlert.thr = s.thr := by
  rcases s.driveAlert_cases with ⟨h, _⟩ | ⟨h, _⟩ <;> simp [h]
@[simp] theorem State.settle_gran (s : State) : s.settle.gran = s.gran := by
  rcases s.settle_cases with ⟨h, _⟩ | ⟨h, _⟩ <;> simp [h]
@[simp] theorem State.driveAlert_gran (s : State) : s.driveAlert.gran = s.gran := by
  rcases s.driveAlert_cases with ⟨h, _⟩ | ⟨h, _⟩ <;> simp [h]
@[simp] theorem State.settle_offers (s : State) : s.settle.offers = s.offers := by
  rcases s.settle_cases with ⟨h, _⟩ | ⟨h, _⟩ <;> simp [h]
@[simp] theorem State.driveAlert_offers (s : State) : s.driveAlert.offers = s.offers := by
  rcases s.driveAlert_cases with ⟨h, _⟩ | ⟨h, _⟩ <;> simp [h]
@[simp] theorem State.settle_rings (s : State) : s.settle.rings = s.rings := by
  rcases s.settle_cases with ⟨h, _⟩ | ⟨h, _⟩ <;> simp [h]
@[simp] theorem State.driveAlert_rings (s : State) : s.driveAlert.rings = s.rings := by
  rcases s.driveAlert_cases with ⟨h, _⟩ | ⟨h, _⟩ <;> simp [h]
@[simp] theorem State.settle_cqs (s : State) : s.settle.cqs = s.cqs := by
  rcases s.settle_cases with ⟨h, _⟩ | ⟨h, _⟩ <;> simp [h]
@[simp] theorem State.driveAlert_cqs (s : State) : s.driveAlert.cqs = s.cqs := by
  rcases s.driveAlert_cases with ⟨h, _⟩ | ⟨h, _⟩ <;> simp [h]
@[simp] theorem State.settle_dmas (s : State) : s.settle.dmas = s.dmas := by
  rcases s.settle_cases with ⟨h, _⟩ | ⟨h, _⟩ <;> simp [h]
@[simp] theorem State.driveAlert_dmas (s : State) : s.driveAlert.dmas = s.dmas := by
  rcases s.driveAlert_cases with ⟨h, _⟩ | ⟨h, _⟩ <;> simp [h]
@[simp] theorem State.settle_reads (s : State) : s.settle.reads = s.reads := by
  rcases s.settle_cases with ⟨h, _⟩ | ⟨h, _⟩ <;> simp [h]
@[simp] theorem State.driveAlert_reads (s : State) : s.driveAlert.reads = s.reads := by
  rcases s.driveAlert_cases with ⟨h, _⟩ | ⟨h, _⟩ <;> simp [h]
@[simp] theorem State.settle_signQ (s : State) : s.settle.signQ = s.signQ := by
  rcases s.settle_cases with ⟨h, _⟩ | ⟨h, _⟩ <;> simp [h]
@[simp] theorem State.driveAlert_signQ (s : State) : s.driveAlert.signQ = s.signQ := by
  rcases s.driveAlert_cases with ⟨h, _⟩ | ⟨h, _⟩ <;> simp [h]
@[simp] theorem State.settle_fuses (s : State) : s.settle.fuses = s.fuses := by
  rcases s.settle_cases with ⟨h, _⟩ | ⟨h, _⟩ <;> simp [h]
@[simp] theorem State.driveAlert_fuses (s : State) : s.driveAlert.fuses = s.fuses := by
  rcases s.driveAlert_cases with ⟨h, _⟩ | ⟨h, _⟩ <;> simp [h]
@[simp] theorem State.settle_pci (s : State) : s.settle.pci = s.pci := by
  rcases s.settle_cases with ⟨h, _⟩ | ⟨h, _⟩ <;> simp [h]
@[simp] theorem State.driveAlert_pci (s : State) : s.driveAlert.pci = s.pci := by
  rcases s.driveAlert_cases with ⟨h, _⟩ | ⟨h, _⟩ <;> simp [h]
@[simp] theorem State.settle_sched (s : State) : s.settle.sched = s.sched := by
  rcases s.settle_cases with ⟨h, _⟩ | ⟨h, _⟩ <;> simp [h]
@[simp] theorem State.driveAlert_sched (s : State) : s.driveAlert.sched = s.sched := by
  rcases s.driveAlert_cases with ⟨h, _⟩ | ⟨h, _⟩ <;> simp [h]
@[simp] theorem State.settle_spdm (s : State) : s.settle.spdm = s.spdm := by
  rcases s.settle_cases with ⟨h, _⟩ | ⟨h, _⟩ <;> simp [h]
@[simp] theorem State.driveAlert_spdm (s : State) : s.driveAlert.spdm = s.spdm := by
  rcases s.driveAlert_cases with ⟨h, _⟩ | ⟨h, _⟩ <;> simp [h]
@[simp] theorem State.settle_ebk (s : State) : s.settle.ebk = s.ebk := by
  rcases s.settle_cases with ⟨h, _⟩ | ⟨h, _⟩ <;> simp [h]
@[simp] theorem State.driveAlert_ebk (s : State) : s.driveAlert.ebk = s.ebk := by
  rcases s.driveAlert_cases with ⟨h, _⟩ | ⟨h, _⟩ <;> simp [h]
@[simp] theorem State.settle_rpl (s : State) : s.settle.rpl = s.rpl := by
  rcases s.settle_cases with ⟨h, _⟩ | ⟨h, _⟩ <;> simp [h]
@[simp] theorem State.driveAlert_rpl (s : State) : s.driveAlert.rpl = s.rpl := by
  rcases s.driveAlert_cases with ⟨h, _⟩ | ⟨h, _⟩ <;> simp [h]
@[simp] theorem State.settle_twi (s : State) : s.settle.twi = s.twi := by
  rcases s.settle_cases with ⟨h, _⟩ | ⟨h, _⟩ <;> simp [h]
@[simp] theorem State.driveAlert_twi (s : State) : s.driveAlert.twi = s.twi := by
  rcases s.driveAlert_cases with ⟨h, _⟩ | ⟨h, _⟩ <;> simp [h]

@[simp] theorem State.driveAlert_rd (s : State) (b : Nat) : s.driveAlert.rd b = s.rd b := by simp [State.rd]
@[simp] theorem State.driveAlert_f (s : State) (q : RF) : s.driveAlert.f q = s.f q := by simp [State.f]
@[simp] theorem State.driveAlert_on (s : State) (q : RF) : s.driveAlert.on q = s.on q := by simp [State.on]
@[simp] theorem State.driveAlert_lf (s : State) (q : RF) : s.driveAlert.lf q = s.lf q := by simp [State.lf, State.lrd]
@[simp] theorem State.settle_lf (s : State) (q : RF) : s.settle.lf q = s.lf q := by simp [State.lf, State.lrd]
@[simp] theorem State.driveAlert_core (s : State) (c : Nat) : s.driveAlert.core c = s.core c := by simp [State.core]
@[simp] theorem State.settle_core (s : State) (c : Nat) : s.settle.core c = s.core c := by simp [State.core]
@[simp] theorem State.driveAlert_held (s : State) : s.driveAlert.held = s.held := by simp [State.held]
@[simp] theorem State.settle_held (s : State) : s.settle.held = s.held := by simp [State.held]

/-- Every register but DEV_MODE is as before. -/
theorem State.settle_rd (s : State) (b : Nat) (h : b ≠ R.DEV_MODE) : s.settle.rd b = s.rd b := by
  rcases s.settle_cases with ⟨e, _⟩ | ⟨e, _⟩
  · rw [e]
  · have h1 : F.DEV_MODE_MODE.addr ≠ b := fun x => h (x ▸ rfl)
    have h2 : F.DEV_MODE_PREV.addr ≠ b := fun x => h (x ▸ rfl)
    rw [e]
    simp [State.sf, State.rd_wr_ne _ _ h1, State.rd_wr_ne _ _ h2]

theorem State.settle_f (s : State) (q : RF) (h : q.addr ≠ R.DEV_MODE) : s.settle.f q = s.f q := by
  simp [State.f, s.settle_rd _ h]

theorem State.settle_on (s : State) (q : RF) (h : q.addr ≠ R.DEV_MODE) : s.settle.on q = s.on q := by
  simp [State.on, s.settle_f _ h]

/-- The fields of DEV_MODE other than MODE and PREV are as before. -/
theorem State.settle_f_mode (s : State) (q : RF) (h : q.hi < 24) : s.settle.f q = s.f q := by
  rcases s.settle_cases with ⟨e, _⟩ | ⟨e, _⟩
  · rw [e]
  · rw [e, State.f_sf_bits _ _ _ _ ⟨by decide, by decide⟩ (.inl (Nat.lt_of_lt_of_le h (by decide))),
      State.f_sf_bits _ _ _ _ ⟨by decide, by decide⟩ (.inl (Nat.lt_of_lt_of_le h (by decide)))]

/-- The mode depends on no more than this. -/
theorem State.modeOf_congr {s t : State} (hl : t.live = s.live) (hb : t.boot = s.boot) (hc : t.cores = s.cores) (hp : t.pars = s.pars)
    (hr : ∀ b, b ≠ R.DEV_MODE → t.rd b = s.rd b) (hq : t.f F.DEV_MODE_REQ = s.f F.DEV_MODE_REQ) : t.modeOf = s.modeOf := by
  have hf : ∀ q : RF, q.addr ≠ R.DEV_MODE → t.f q = s.f q := fun q h => by simp [State.f, hr _ h]
  have hon : ∀ q : RF, q.addr ≠ R.DEV_MODE → t.on q = s.on q := fun q h => by simp [State.on, hf q h]
  have hlrd : ∀ a, t.lrd a = s.lrd a := fun a => by simp [State.lrd, hl]
  have hlf : ∀ q : RF, t.lf q = s.lf q := fun q => by simp [State.lf, hlrd]
  have hlon : ∀ q : RF, t.lon q = s.lon q := fun q => by simp [State.lon, hlf]
  have hlock : t.lockdown = s.lockdown := hon _ (by decide)
  have hlc : t.lifecycle = s.lifecycle := hf _ (by decide)
  have hruns : t.coreRuns = s.coreRuns := by simp [State.coreRuns, hc]
  have hgu : ∀ n, gvsUsable t n = gvsUsable s n := fun n => by simp [gvsUsable, hlon, hlrd]
  have hga : ∀ n, gvsActive t n = gvsActive s n := fun n => by simp [gvsActive, gvsClash, hgu, hlf, hlrd]
  have hpa : ∀ p, parActive t p = parActive s p := fun p => by simp [parActive, hlon, State.par, hp]
  have heth : ∀ m, t.on (F.ETH_STAT_LINK_UP m) = s.on (F.ETH_STAT_LINK_UP m) := fun m => hon _ (by
    simp only [F.ETH_STAT_LINK_UP, R.ETH_STAT, R.DEV_MODE]; omega)
  have hpair : t.pair R.DEV_RPL_MASK_LO R.DEV_RPL_MASK_HI = s.pair R.DEV_RPL_MASK_LO R.DEV_RPL_MASK_HI := by
    simp [State.pair, hr R.DEV_RPL_MASK_LO (by decide), hr R.DEV_RPL_MASK_HI (by decide)]
  have hacq : t.acquiring = s.acquiring := by
    simp only [State.acquiring, hq, hpair, hga, heth, hlf]
    have : parActive t = parActive s := funext hpa
    rw [this]
  have hst : ∀ n, t.stale n = s.stale n := fun n => by
    have h1 : ∀ m, t.f (F.AXS_CFG_SOURCE m) = s.f (F.AXS_CFG_SOURCE m) := fun m => hf _ (by
      simp only [F.AXS_CFG_SOURCE, R.AXS_CFG, R.DEV_MODE]; omega)
    have h2 : ∀ m, t.on (F.AXS_STAT_STALE m) = s.on (F.AXS_STAT_STALE m) := fun m => hon _ (by
      simp only [F.AXS_STAT_STALE, R.AXS_STAT, R.DEV_MODE]; omega)
    simp [State.stale, h1, h2]
  have hho : t.on F.TIM_STAT_HOLDOVER = s.on F.TIM_STAT_HOLDOVER := hon _ (by decide)
  simp [State.modeOf, hlock, hlc, hruns, hb, hq, hacq, hst, hho, hlf]

/-- Deciding the mode again changes nothing. -/
theorem State.settle_modeOf (s : State) : s.settle.modeOf = s.modeOf :=
  State.modeOf_congr (by simp) (by simp) (by simp) (by simp) (fun b h => s.settle_rd b h) (s.settle_f_mode _ (by decide))

@[simp] theorem State.driveAlert_modeOf (s : State) : s.driveAlert.modeOf = s.modeOf :=
  State.modeOf_congr (by simp) (by simp) (by simp) (by simp) (fun b _ => by simp) (by simp)

/-- A mode is one of the twelve of R406. -/
theorem State.modeOf_le (s : State) : s.modeOf ≤ 11 := by
  unfold State.modeOf
  dsimp only
  repeat' split
  all_goals first | omega | skip
  all_goals simp_all <;> omega

end Sys2Proof.Machine
end

