-- ==== Sys2Proof/Laws/Core.lean ====
section
/-! SUPPORT. Laws/Core.lean: registers of a core, issue, retirement, exceptions and waits: what each can do, said once. -/

namespace Sys2Proof.Machine
open Sys2Proof

/-! ### Register files (R61) -/

@[simp] theorem CoreSt.rs_zero (k : CoreSt) : k.rs 0 = 0 := rfl
@[simp] theorem CoreSt.rp_zero (k : CoreSt) : k.rp 0 = BitVec.allOnes 64 := rfl
@[simp] theorem CoreSt.ws_zero (k : CoreSt) (w : Word) : k.ws 0 w = k := rfl
@[simp] theorem CoreSt.wp_zero (k : CoreSt) (w : Dword) : k.wp 0 w = k := rfl

/-- A scalar register after a write of one. -/
theorem CoreSt.rs_ws (k : CoreSt) (n m : Nat) (w : Word) : (k.ws n w).rs m = if m = n ∧ n ≠ 0 then w else k.rs m := by
  unfold CoreSt.ws CoreSt.rs
  by_cases hn : n = 0
  · simp [hn]
  · by_cases hm : m = 0
    · have : m ≠ n := fun h => hn (h ▸ hm)
      simp [hn, hm]; intro h; exact absurd h.symm hn
    · by_cases h : m = n
      · subst h; simp [hn]
      · simp [hn, hm, h, mget_mset_ne _ _ (Ne.symm h)]

/-- A vector register after a write of one. -/
theorem CoreSt.rv_wv (k : CoreSt) (n m : Nat) (w : BitVec 512) : (k.wv n w).rv m = if m = n then w else k.rv m := by
  unfold CoreSt.wv CoreSt.rv
  by_cases h : m = n
  · subst h; simp
  · simp [h, mget_mset_ne _ _ (Ne.symm h)]

/-- A predicate after a write of one. -/
theorem CoreSt.rp_wp (k : CoreSt) (n m : Nat) (w : Dword) : (k.wp n w).rp m = if m = n ∧ n ≠ 0 then w else k.rp m := by
  unfold CoreSt.wp CoreSt.rp
  by_cases hn : n = 0
  · simp [hn]
  · by_cases hm : m = 0
    · simp [hn, hm]; intro h; exact absurd h.symm hn
    · by_cases h : m = n
      · subst h; simp [hn]
      · simp [hn, hm, h, mget_mset_ne _ _ (Ne.symm h)]

/-- A write of a scalar register changes only the scalar registers. -/
theorem CoreSt.ws_frame (k : CoreSt) (n : Nat) (w : Word) : k.ws n w = { k with s := (k.ws n w).s } := by
  unfold CoreSt.ws; split <;> rfl
/-- A write of a predicate changes only the predicates. -/
theorem CoreSt.wp_frame (k : CoreSt) (n : Nat) (w : Dword) : k.wp n w = { k with p := (k.wp n w).p } := by
  unfold CoreSt.wp; split <;> rfl

@[simp] theorem CoreSt.ws_run (k : CoreSt) (n : Nat) (w : Word) : (k.ws n w).run = k.run := by rw [CoreSt.ws_frame]
@[simp] theorem CoreSt.ws_pc (k : CoreSt) (n : Nat) (w : Word) : (k.ws n w).pc = k.pc := by rw [CoreSt.ws_frame]
@[simp] theorem CoreSt.ws_v (k : CoreSt) (n : Nat) (w : Word) : (k.ws n w).v = k.v := by rw [CoreSt.ws_frame]
@[simp] theorem CoreSt.ws_p (k : CoreSt) (n : Nat) (w : Word) : (k.ws n w).p = k.p := by rw [CoreSt.ws_frame]
@[simp] theorem CoreSt.ws_instret (k : CoreSt) (n : Nat) (w : Word) : (k.ws n w).instret = k.instret := by rw [CoreSt.ws_frame]
@[simp] theorem CoreSt.retire_pc (k : CoreSt) : k.retire.pc = k.pc + 4 := rfl
@[simp] theorem CoreSt.retire_run (k : CoreSt) : k.retire.run = k.run := rfl
@[simp] theorem CoreSt.retire_instret (k : CoreSt) : k.retire.instret = k.instret + 1 := rfl
@[simp] theorem CoreSt.retire_rs (k : CoreSt) (n : Nat) : k.retire.rs n = k.rs n := rfl
@[simp] theorem CoreSt.retire_rv (k : CoreSt) (n : Nat) : k.retire.rv n = k.rv n := rfl
@[simp] theorem CoreSt.retire_rp (k : CoreSt) (n : Nat) : k.retire.rp n = k.rp n := rfl

/-! ### Issue -/

/-- A core that is ready takes the instruction's body. -/
theorem issue_ready {s : State} {c : Nat} {v legal : Bool} (h : Ready s c v) (hl : legal = true) (body : CoreSt → State) :
    issue s c v legal body = body (s.core c) := by
  obtain ⟨h1, h2, h3, h4, h5, h6, h7⟩ := h
  have hv : (v && !isTc c) = false := by
    cases v
    · rfl
    · simp [h7 rfl]
  simp [issue, canIssue, h1, h2, h3, h4, h5, h6, hv, hl]

/-- An instruction with a reserved field set, or of profile V on a control core, is illegal (R70). -/
theorem issue_illegal {s : State} {c : Nat} {v legal : Bool} (h : Ready s c false) (hl : legal = false ∨ (v = true ∧ isTc c = false))
    (body : CoreSt → State) : issue s c v legal body = takeExc s c 1 0 0 := by
  obtain ⟨h1, h2, h3, h4, h5, h6, _⟩ := h
  have hb : ((v && !isTc c) || !legal) = true := by
    rcases hl with hl | ⟨hv, ht⟩
    · simp [hl]
    · simp [hv, ht]
  simp [issue, canIssue, h1, h2, h3, h4, h5, h6, hb]

/-- A core that does not take an instruction leaves the machine alone. -/
theorem issue_idle {s : State} {c : Nat} {v legal : Bool} (h : canIssue s c = false) (body : CoreSt → State) :
    issue s c v legal body = s := by
  simp [issue, h]

/-- Everything an instruction's issue can do: nothing, an exception, or the body. -/
theorem issue_cases (s : State) (c : Nat) (v legal : Bool) (body : CoreSt → State) :
    issue s c v legal body = s ∨
    (∃ u cause detail a, (u = s ∨ ∃ b r, (s.core c).busErrs = b :: r ∧ u = s.setCore c { s.core c with busErrs := r }) ∧
      issue s c v legal body = takeExc u c cause detail a) ∨
    ((canIssue s c = true ∧ (s.core c).busErrs = []) ∧ issue s c v legal body = body (s.core c)) := by
  unfold issue
  split
  case isFalse => exact .inl rfl
  case isTrue hc =>
    dsimp only
    split
    · rename_i hb
      exact .inr (.inl ⟨_, _, _, _, .inr ⟨_, _, hb, rfl⟩, rfl⟩)
    · rename_i hb
      split
      · exact .inr (.inl ⟨_, _, _, _, .inl rfl, rfl⟩)
      · split
        · exact .inr (.inl ⟨_, _, _, _, .inl rfl, rfl⟩)
        · split
          · exact .inr (.inl ⟨_, _, _, _, .inl rfl, rfl⟩)
          · exact .inr (.inr ⟨⟨hc, hb⟩, rfl⟩)

/-! ### Exceptions (R87, R90) -/

/-- An exception outside a handler: EPC, ECAUSE and EADDR are set, STATUS.EXC is set, and the core goes on at the vector. -/
theorem takeExc_first {s : State} {c : Nat} (h : (s.core c).exc = false) (cause detail a : Nat) :
    takeExc s c cause detail a = s.setCore c { s.core c with
      epc := (s.core c).pc, cause := cause, detail := detail, eaddr := BitVec.ofNat 32 a, exc := true,
      wait := .none, pc := BitVec.ofNat 32 (cause * 16) } := by
  simp [takeExc, takeExcAt, h]

/-- An exception inside a handler stops the core. -/
theorem takeExc_second {s : State} {c : Nat} (h : (s.core c).exc = true) (cause detail a : Nat) :
    takeExc s c cause detail a = coreFault s c cause detail a := by
  simp [takeExc, takeExcAt, h]

/-! ### The state after a command -/

theorem exec_done_eq (s : State) : done s = .next s.settle.driveAlert := rfl

@[simp] theorem State.coreNext_core (s : State) (c : Nat) (k : CoreSt) : (s.coreNext c k).core c = k := by
  simp [State.coreNext]
theorem State.coreNext_core_ne (s : State) (c d : Nat) (k : CoreSt) (h : d ≠ c) : (s.coreNext c k).core d = s.core d := by
  simp [State.coreNext, State.core_setCore_ne _ _ _ _ (Ne.symm h)]
@[simp] theorem State.coreNext_lmem (s : State) (c : Nat) (k : CoreSt) : (s.coreNext c k).lmem = s.lmem := by simp [State.coreNext]
@[simp] theorem State.coreNext_cmem (s : State) (c : Nat) (k : CoreSt) : (s.coreNext c k).cmem = s.cmem := by simp [State.coreNext]
@[simp] theorem State.coreNext_dmem (s : State) (c : Nat) (k : CoreSt) : (s.coreNext c k).dmem = s.dmem := by simp [State.coreNext]
theorem State.coreNext_rd (s : State) (c : Nat) (k : CoreSt) (a : Nat) (h : a ≠ R.DEV_MODE) : (s.coreNext c k).rd a = s.rd a := by
  simp [State.coreNext, State.settle_rd _ _ h]

end Sys2Proof.Machine
end

