-- ==== Sys2Proof/Laws/Log.lean ====
section
/-! SUPPORT. Laws/Log.lean: what a record of the error log can change, said once. -/

namespace Sys2Proof.Machine
open Sys2Proof

/-- A record of the error log changes registers, the log itself and the signals waiting for the host, nothing else (R424, R436). -/
theorem State.logFault_frame (s : State) (code cls unit addr detail : Nat) :
    s.logFault code cls unit addr detail =
      { s with regs := (s.logFault code cls unit addr detail).regs
               ras := (s.logFault code cls unit addr detail).ras
               sigs := (s.logFault code cls unit addr detail).sigs } := by
  have enter : s.logEnter code cls unit addr detail = { s with
      regs := (s.logEnter code cls unit addr detail).regs
      ras := (s.logEnter code cls unit addr detail).ras } := by
    unfold State.logEnter
    dsimp only
    split
    · rfl
    · split <;> rfl
  unfold State.logFault State.logFatal
  dsimp only
  rw [enter]
  split <;> split <;> rfl

@[simp] theorem State.logFault_core (s : State) (code cls unit addr detail c : Nat) :
    (s.logFault code cls unit addr detail).core c = s.core c := by rw [State.logFault_frame]; rfl
@[simp] theorem State.logFault_evq (s : State) (code cls unit addr detail : Nat) :
    (s.logFault code cls unit addr detail).evq = s.evq := by rw [State.logFault_frame]
@[simp] theorem State.logFault_lmem (s : State) (code cls unit addr detail : Nat) :
    (s.logFault code cls unit addr detail).lmem = s.lmem := by rw [State.logFault_frame]
@[simp] theorem State.logFault_cmem (s : State) (code cls unit addr detail : Nat) :
    (s.logFault code cls unit addr detail).cmem = s.cmem := by rw [State.logFault_frame]
@[simp] theorem State.logFault_dmem (s : State) (code cls unit addr detail : Nat) :
    (s.logFault code cls unit addr detail).dmem = s.dmem := by rw [State.logFault_frame]
@[simp] theorem State.logFault_fuses (s : State) (code cls unit addr detail : Nat) :
    (s.logFault code cls unit addr detail).fuses = s.fuses := by rw [State.logFault_frame]

/-- The log after a fault is what entering it leaves. -/
theorem State.logFault_log (s : State) (code cls unit addr detail : Nat) :
    (s.logFault code cls unit addr detail).ras.log = (s.logEnter code cls unit addr detail).ras.log := by
  unfold State.logFault State.logFatal
  dsimp only
  repeat' split
  all_goals rfl

/-- The newest record is the fault's, whether it is new or an earlier one counted again (R424). -/
theorem State.logFault_head (s : State) (code cls unit addr detail : Nat) :
    ((s.logFault code cls unit addr detail).ras.log.head?).map (fun r => (r.code, r.unit)) = some (code, unit) := by
  rw [State.logFault_log]
  unfold State.logEnter
  split
  · rename_i h
    unfold State.logRepeats at h
    split at h
    · rename_i r rest hl
      simp only [Bool.and_eq_true, beq_iff_eq] at h
      simp [hl, countAgain, h.1.1, h.1.2]
    · cases h
  · dsimp only
    split <;> rfl

end Sys2Proof.Machine
end

