-- ==== Sys2Proof/WellFormed.lean ====
section
/-! DEFINITION. WellFormed.lean: what the operands of a command must be to be something the outside can send. The meanings are total:
a command that is not well formed still has one, which says nothing about the part. -/

namespace Sys2Proof

/-- A host memory or configuration request carries 1 to 1,024 dwords (R334, R336). -/
def reqOk (q : HostReq) : Bool := decide (1 ≤ q.dwords.length) && decide (q.dwords.length ≤ 1024)

/-- A register lies at a multiple of 4 (R5). -/
def regAddr (a : BitVec 34) : Bool := a.toNat % 4 == 0

/-- A flash image: a directory and a copy of 64 bytes each, and at most seven entries (R106). -/
def imageOk (i : FlashImage) : Bool := decide (i.dir.length ≤ 64) && decide (i.copy.length ≤ 64) && decide (i.parcels.length ≤ 7)

/-- The operands of a command are in range. -/
def WellFormed : Instr → Bool
  | .powerOnReset => true
  | .resetN => true
  | .resetNRelease _ _ _ => true
  | .pllLock _ _ _ => true
  | .selfTestsPassed => true
  | .hbmTrained => true
  | .hbmTrainingFailure _ => true
  | .directoryWritten => true
  | .flashDirectory img => imageOk img
  | .bootComplete => true
  | .perstAssert => true
  | .perstRelease => true
  | .hotReset => true
  | .initiateFlr => true
  | .hostSideReady => true
  | .linkDown => true
  | .linkUp speed width _ => decide (1 ≤ speed.val) && [1, 2, 4, 8, 16].contains width.val
  | .encoderEdge _ _ _ _ _ => true
  | .tickCount _ => true
  | .zEdge _ _ => true
  | .preset _ => true
  | .axsApply _ => true
  | .stall _ => true
  | .remoteAxisSample _ x => x.via.val == 1 || x.via.val == 2
  | .stale _ => true
  | .timAdjSubmit _ _ => true
  | .slewEnd => true
  | .authStep _ => true
  | .hold => true
  | .release => true
  | .refLost => true
  | .timRateWrite _ => true
  | .ppsInEdge _ => true
  | .ppsLost => true
  | .ppsOutPulse => true
  | .ppsOutEnd => true
  | .fullPostmarkDue _ => true
  | .add _ _ _ _ => true
  | .sub _ _ _ _ => true
  | .and _ _ _ _ => true
  | .or _ _ _ _ => true
  | .xor _ _ _ _ => true
  | .sll _ _ _ _ => true
  | .srl _ _ _ _ => true
  | .sra _ _ _ _ => true
  | .ror _ _ _ _ => true
  | .slt _ _ _ _ => true
  | .sltu _ _ _ _ => true
  | .min _ _ _ _ => true
  | .max _ _ _ _ => true
  | .minu _ _ _ _ => true
  | .maxu _ _ _ _ => true
  | .pdiff _ _ _ _ => true
  | .clz _ _ _ _ => true
  | .ctz _ _ _ _ => true
  | .popc _ _ _ _ => true
  | .mul _ _ _ _ => true
  | .mulh _ _ _ _ => true
  | .mulhu _ _ _ _ => true
  | .div _ _ _ _ => true
  | .divu _ _ _ _ => true
  | .rem _ _ _ _ => true
  | .remu _ _ _ _ => true
  | .addi _ _ _ _ => true
  | .andi _ _ _ _ => true
  | .ori _ _ _ _ => true
  | .xori _ _ _ _ => true
  | .slti _ _ _ _ => true
  | .sltiu _ _ _ _ => true
  | .slli _ _ _ _ => true
  | .srli _ _ _ _ => true
  | .srai _ _ _ _ => true
  | .lui _ _ _ _ => true
  | .auipc _ _ _ _ => true
  | .jal _ _ _ _ => true
  | .jalr _ _ _ _ => true
  | .beq _ _ _ _ => true
  | .bne _ _ _ _ => true
  | .blt _ _ _ _ => true
  | .bge _ _ _ _ => true
  | .bltu _ _ _ _ => true
  | .bgeu _ _ _ _ => true
  | .lb _ _ _ _ => true
  | .lbu _ _ _ _ => true
  | .lh _ _ _ _ => true
  | .lhu _ _ _ _ => true
  | .lw _ _ _ _ => true
  | .sb _ _ _ _ => true
  | .sh _ _ _ _ => true
  | .sw _ _ _ _ => true
  | .amoadd _ _ _ _ => true
  | .amoswap _ _ _ _ => true
  | .amoand _ _ _ _ => true
  | .amoor _ _ _ _ => true
  | .amomin _ _ _ _ => true
  | .amomax _ _ _ _ => true
  | .amocas _ _ _ _ => true
  | .fenceC _ _ _ _ => true
  | .fenceCDone _ => true
  | .fenceD _ _ _ _ => true
  | .fenceDDone _ => true
  | .eret _ _ _ _ => true
  | .halt _ _ _ _ => true
  | .xrd _ _ _ _ => true
  | .xwr _ _ _ _ => true
  | .wdtKick _ => true
  | .pget _ _ _ _ _ => true
  | .pgeth _ _ _ _ _ => true
  | .await _ _ _ _ _ => true
  | .awaitReached _ => true
  | .awaitTimeout _ => true
  | .tget _ _ _ _ _ => true
  | .arm _ _ _ _ _ => true
  | .disarm _ _ _ _ _ => true
  | .evraise _ _ _ _ _ => true
  | .evwait _ _ _ _ _ => true
  | .evwaitTake _ => true
  | .evwaitTimeout _ => true
  | .evpoll _ _ _ _ _ => true
  | .rpost _ _ _ _ _ => true
  | .tfeed _ _ _ _ _ => true
  | .tfeedCopy _ => true
  | .tfeedTimeout _ => true
  | .flpush _ _ _ _ _ => true
  | .flpushAccept _ => true
  | .vadd _ _ _ _ _ _ => true
  | .vsub _ _ _ _ _ _ => true
  | .vmul _ _ _ _ _ _ => true
  | .vmulh _ _ _ _ _ _ => true
  | .vmac _ _ _ _ _ _ => true
  | .vadds _ _ _ _ _ _ => true
  | .vsubs _ _ _ _ _ _ => true
  | .vabsd _ _ _ _ _ _ => true
  | .vmin _ _ _ _ _ _ => true
  | .vmax _ _ _ _ _ _ => true
  | .vminu _ _ _ _ _ _ => true
  | .vmaxu _ _ _ _ _ _ => true
  | .vand _ _ _ _ _ _ => true
  | .vor _ _ _ _ _ _ => true
  | .vxor _ _ _ _ _ _ => true
  | .vsll _ _ _ _ _ _ => true
  | .vsrl _ _ _ _ _ _ => true
  | .vsra _ _ _ _ _ _ => true
  | .vcmpeq _ _ _ _ _ _ => true
  | .vcmplt _ _ _ _ _ _ => true
  | .vcmpltu _ _ _ _ _ _ => true
  | .vsel _ _ _ _ _ _ => true
  | .vslide _ _ _ _ _ _ => true
  | .vbcast _ _ _ _ _ _ => true
  | .vext _ _ _ _ _ _ => true
  | .vredadd _ _ _ _ _ _ => true
  | .vredmin _ _ _ _ _ _ => true
  | .vredmax _ _ _ _ _ _ => true
  | .vxadd _ _ _ _ _ _ => true
  | .vxmul _ _ _ _ _ _ => true
  | .vxflag _ _ _ _ _ _ => true
  | .pand _ _ _ _ _ _ => true
  | .por _ _ _ _ _ _ => true
  | .pxor _ _ _ _ _ _ => true
  | .pandn _ _ _ _ _ _ => true
  | .pcnt _ _ _ _ _ _ => true
  | .vld _ _ _ _ _ _ => true
  | .vst _ _ _ _ _ _ => true
  | .busErrorPosted _ _ => true
  | .watchdog _ => true
  | .mbxSend _ => true
  | .mbxAbort _ => true
  | .ccxMbxPost _ _ => true
  | .query _ => true
  | .load _ => true
  | .parcelFetched bytes failed => !failed || bytes.isEmpty
  | .switch _ => true
  | .coreSwitch _ => true
  | .switchForced _ => true
  | .switchDone => true
  | .cancel _ => true
  | .haltLetter _ => true
  | .startLetter _ => true
  | .identity _ => true
  | .challenge _ => true
  | .setOwnerKey _ _ _ => true
  | .setPolicy _ _ _ => true
  | .advance _ _ _ => true
  | .revoke _ _ _ => true
  | .commitVersion _ _ _ => true
  | .spdmRelay _ => true
  | .selfTest _ => true
  | .disarmAll => true
  | .slotFire _ => true
  | .slotNextTarget _ => true
  | .pulseEnd _ => true
  | .widthCap _ => true
  | .eventArrival => true
  | .enableGroup _ => true
  | .disableGroup _ => true
  | .eventPulse _ => true
  | .enterHoldover => true
  | .evrGrpOn _ => true
  | .evrGrpOff _ => true
  | .flush _ => true
  | .evrSelWrite _ _ _ => true
  | .lnkLaneCfgWrite _ _ => true
  | .ethCfgWrite _ _ => true
  | .ethPortUp _ => true
  | .ethPortDown _ => true
  | .ethFrame _ bytes _ _ => decide (14 ≤ bytes.length)
  | .arpRequest => true
  | .arpReply => true
  | .arpRetry => true
  | .arpEntryExpiry => true
  | .icmpEchoRequest => true
  | .gvspLeader _ => true
  | .gvspPayload _ => true
  | .gvspTrailer _ => true
  | .gapDelay _ => true
  | .gapSend => true
  | .gapDrop => true
  | .resendWait _ => true
  | .frameWatchdog _ => true
  | .triggerEntryTimeout _ _ => true
  | .actSend _ => true
  | .ptpMessage => true
  | .ethMrqPop _ => true
  | .ethMtxSend _ _ => true
  | .relayGo _ => true
  | .gvcpAck => true
  | .ackTmo => true
  | .heartbeat _ => true
  | .heartbeatTimeout _ => true
  | .clearUnc _ => true
  | .streamApply _ => true
  | .flushTrigq _ _ => true
  | .parFrameOpen _ => true
  | .parLineOpen _ => true
  | .parLineClose _ => true
  | .parFrameClose _ => true
  | .parFrameWatchdog _ => true
  | .pclkCheck _ _ => true
  | .fire _ => true
  | .triggerOutputApply _ => true
  | .strobe _ => true
  | .strobeEnd _ => true
  | .gpioInput _ _ _ => true
  | .millLineArrive => true
  | .millSegment => true
  | .tnrReset _ => true
  | .tdiBinEmit _ => true
  | .statsRecord _ => true
  | .calStart _ => true
  | .calAbort _ => true
  | .milApply _ => true
  | .colCut _ => true
  | .colLine => true
  | .lineSettle _ => true
  | .sheafClose _ => true
  | .closeTmo _ => true
  | .stripBandSend _ => true
  | .stripBand => true
  | .colSqRel _ _ => true
  | .restart _ => true
  | .colApply => true
  | .headUnit _ => true
  | .headOffer _ => true
  | .headWaitExpiry _ => true
  | .displayFrame _ => true
  | .ovlWait _ => true
  | .hedApply => true
  | .tileDeal => true
  | .flailTile => true
  | .thrTileDone _ => true
  | .cropCut => true
  | .recordUnitClose _ => true
  | .thrApply => true
  | .memPartWrite _ _ _ => true
  | .scrub _ _ => true
  | .granaryLine => true
  | .grnXGo => true
  | .extractStart => true
  | .extractUnit => true
  | .grnXAbort => true
  | .extractTmo => true
  | .extractReport => true
  | .frank => true
  | .heldLossReport _ => true
  | .ringUnitStart _ => true
  | .ringUnitDone _ => true
  | .dlvHCons _ _ => true
  | .activate _ => true
  | .deactivate _ => true
  | .drainEnd _ => true
  | .dlvRPolicyWrite _ _ => true
  | .discard _ => true
  | .dlvCqHead _ _ => true
  | .cqEnable _ => true
  | .cqDisable _ => true
  | .modTime _ _ => true
  | .start _ => true
  | .pause _ => true
  | .resume _ => true
  | .abort _ => true
  | .doorbell _ => true
  | .dmaStartEvent _ => true
  | .descriptorRead _ => true
  | .dmaBurst _ => true
  | .readCompletion _ status data => decide (data.length ≤ 4096) && (status.val == 0 || data.isEmpty)
  | .completionTimeout _ => true
  | .lateCompletion _ => true
  | .tagQuarantineEnd _ => true
  | .dmaTransferDone _ => true
  | .bmeClear => true
  | .bar0Request q => reqOk q
  | .bar2Request q => reqOk q
  | .romRead q => reqOk q && !q.write
  | .configurationRequest q => reqOk q && q.dwords.length == 1
  | .msiXMessage => true
  | .intaChange => true
  | .correctableError _ => true
  | .uncorrectableError _ hdr => hdr.isEmpty || hdr.length == 4
  | .containRelease _ => true
  | .d3hotEntry => true
  | .pciPmeSend _ => true
  | .ltrMessage => true
  | .aspmL1Request => true
  | .getVersion _ => true
  | .getCapabilities _ => true
  | .negotiateAlgorithms _ => true
  | .getDigests _ => true
  | .getCertificate _ => true
  | .getMeasurements _ => true
  | .spdmChallenge _ => true
  | .keyExchange _ => true
  | .finish _ leaf => leaf.isEmpty || decide (96 ≤ leaf.length)
  | .heartbeatSpdm _ => true
  | .keyUpdate _ => true
  | .endSession _ => true
  | .bindRing _ => true
  | .ringStatus _ => true
  | .unbind _ => true
  | .ideKmQuery _ => true
  | .keyProg _ => true
  | .kSetGo _ => true
  | .kSetStop _ => true
  | .ideCheckFailed => true
  | .cancellationDue _ => true
  | .cancelSigned => true
  | .noiseWindow _ => true
  | .glitchDetected => true
  | .rootCoreException => true
  | .ebkCfgWrite _ _ => true
  | .ebkRestart _ => true
  | .txReady _ => true
  | .blockLock _ => true
  | .adaptEnd _ _ _ => true
  | .ident _ _ => true
  | .greetTmo _ => true
  | .probe _ _ _ => true
  | .probeSend _ => true
  | .rangeFail _ => true
  | .lost _ _ _ => true
  | .linkAbsent _ => true
  | .beaconSend _ _ => true
  | .beacon _ _ _ _ => true
  | .remoteOut _ => true
  | .event _ _ => true
  | .ack _ _ => true
  | .frame _ _ data _ => data.length % 8 == 0
  | .retryTmo _ => true
  | .ebkXGo _ _ => true
  | .transferSend => true
  | .axisSampleSend _ => true
  | .axisSample => true
  | .marginCheck _ _ => true
  | .adaptStep _ _ => true
  | .snapshot _ => true
  | .unfreeze _ => true
  | .lnkTxeqWrite _ _ => true
  | .reqReplay => true
  | .reqCalibrate => true
  | .reqDiagnose => true
  | .reqSleep => true
  | .leave => true
  | .fullReset => true
  | .replayGo => true
  | .replayAbort => true
  | .replayLine => true
  | .bistGo => true
  | .bistDone fails => decide fails.Nodup
  | .pmeTurnOff => true
  | .sleepEntryDone => true
  | .sysWakeN => true
  | .wakeTimer => true
  | .wakeAxis => true
  | .wakePerst => true
  | .wakeComplete => true
  | .clusterGate _ => true
  | .warm _ => true
  | .warmDone => true
  | .uncorrectableControlState _ => true
  | .uncorrectableFrankingState _ => true
  | .stallFault => true
  | .pllLockLoss _ => true
  | .reflLoss _ => true
  | .hbmFailure _ => true
  | .thermWarn _ => true
  | .thermalTrip _ => true
  | .thermalTripEnd _ => true
  | .swdExpiry => true
  | .rasSwdKick => true
  | .logClear => true
  | .supplyOutOfRange _ => true
  | .suppliesInRange => true
  | .twiAddress _ _ => true
  | .twiWriteByte _ => true
  | .twiReadByte => true
  | .twiStop => true
  | .twiBusError => true
  | .stretchTmo => true
  | .holdTmo => true
  | .twiWakeRelease => true
  | .updateIr _ => true
  | .rcRead _ a => regAddr a
  | .loRead _ a => regAddr a
  | .hiWrite _ a _ => regAddr a
  | .registerWrite _ a _ => regAddr a
  | .actionTimeReached => true
  | .parSample _ _ _ => true
  | .bar4Request q => reqOk q
  | .identSend _ => true
  | .prbsCheckerLock _ _ _ => true

end Sys2Proof
end

