-- ==== Sys2Proof/Tests/Slice0.lean ====
section
/-! SUPPORT. Tests/Slice0.lean: a term that each check of WellFormed refuses, a few single steps worked out from the spec's text, and
for each statement concrete states and operands that meet its hypotheses. -/

open Sys2Proof Sys2Proof.Machine

section

set_option Elab.async false
set_option maxRecDepth 20000
set_option linter.unreachableTactic false
set_option linter.unusedTactic false

/-! ### WellFormed: what each check refuses -/

/-- A host read of `n` dwords. -/
def Tests.req (write : Bool) (n : Nat) : HostReq := ⟨0, write, 0, List.replicate n (0, 15), false⟩

theorem test_wf_flash : WellFormed (.flashDirectory ⟨0x1000000, List.replicate 65 0, [], [], false, 0⟩) = false := by decide
theorem test_wf_link_speed : WellFormed (.linkUp 0 1 false) = false := by decide
theorem test_wf_link_width : WellFormed (.linkUp 1 3 false) = false := by decide
theorem test_wf_sample : WellFormed (.remoteAxisSample 0 ⟨0, 0, 0, 0, 0, 0, 0⟩) = false := by decide
theorem test_wf_parcel : WellFormed (.parcelFetched [0] true) = false := by decide
theorem test_wf_frame : WellFormed (.ethFrame 0 [0, 1] true false) = false := by decide
theorem test_wf_completion : WellFormed (.readCompletion 0 1 [0]) = false := by decide
theorem test_wf_bar0 : WellFormed (.bar0Request (Tests.req false 0)) = false := by decide
theorem test_wf_bar2 : WellFormed (.bar2Request (Tests.req false 0)) = false := by decide
theorem test_wf_bar4 : WellFormed (.bar4Request (Tests.req false 0)) = false := by decide
theorem test_wf_rom : WellFormed (.romRead (Tests.req true 1)) = false := by decide
theorem test_wf_cfg : WellFormed (.configurationRequest (Tests.req false 2)) = false := by decide
theorem test_wf_error : WellFormed (.uncorrectableError 0 [0]) = false := by decide
theorem test_wf_finish : WellFormed (.finish 0 [0]) = false := by decide
theorem test_wf_bulk : WellFormed (.frame 0 0 [0] false) = false := by decide
theorem test_wf_bist : WellFormed (.bistDone [0, 0]) = false := by decide
theorem test_wf_rc : WellFormed (.rcRead .host 1) = false := by decide
theorem test_wf_lo : WellFormed (.loRead .host 2) = false := by decide
theorem test_wf_hi : WellFormed (.hiWrite .host 3 0) = false := by decide
theorem test_wf_reg : WellFormed (.registerWrite .host 5 0) = false := by decide
theorem test_wf_good : WellFormed (.bar0Request (Tests.req false 1)) = true := by decide

/-! ### States in which things can happen -/

/-- A grant that reaches everything. -/
def Tests.grant : Grant :=
  { start := true, clockStep := true, codeKib := 64, blkRead := 0xFFFFFFFF, blkWrite := 0xFFFFFFFF, wins := [⟨1, 0x800, false⟩],
    slots := (0, 256), producers := (0, 1024), inputs := (0, 512), rings := (0, 256), mbx := 15 }
/-- A running core: s1 names a time register, s2 device memory, s3 is 1, s4 is misaligned in device memory. -/
def Tests.core : CoreSt :=
  { run := .running, grant := Tests.grant, s := [(1, 0x20110000), (2, 0x80001000), (3, 1), (4, 0x80001002), (5, 0x30000000)] }
/-- A part that is up, with CC0 and TC0 running. -/
def Tests.st : State :=
  { boot := { resetN := false, begun := true, pll := true, tests := true, hbm := true, dir := true, flash := true, done := true }
    cores := [(0, Tests.core), (4, Tests.core)] }
/-- The same part, with CC0 changed. -/
def Tests.with0 (f : CoreSt → CoreSt) : State := { Tests.st with cores := [(0, f Tests.core), (4, Tests.core)] }

/-! ### Witnesses: cores -/

theorem witness_ScalarResults : Ready Tests.st 0 false ∧ Ready Tests.st 4 false ∧ (31 : BitVec 12).toNat < 32 := by decide
theorem witness_MultiplyDivideResults : Ready Tests.st 0 false ∧ (Tests.st.core 0).rs 0 = 0 ∧ (Tests.st.core 0).rs 3 ≠ 0 := by decide
theorem witness_BitCounts : Ready Tests.st 0 false ∧ (Tests.st.core 0).rs 0 = 0 ∧ (Tests.st.core 0).rs 3 = 1 := by decide
theorem witness_JumpsAndBranches : Ready Tests.st 0 false ∧
    ((Tests.st.core 0).pc + ((1 : BitVec 20) ++ (0 : BitVec 2)).signExtend 32).toNat % 4 = 0 ∧
    ((Tests.st.core 0).rs 0 + (4 : BitVec 12).signExtend 32).toNat % 4 = 0 ∧
    ((Tests.st.core 0).rs 0 + (2 : BitVec 12).signExtend 32).toNat % 4 ≠ 0 := by decide
theorem witness_IllegalForms : Ready Tests.st 0 false ∧ Ready Tests.st 4 false ∧ (1 : RegNo) ≠ 0 ∧ 32 ≤ (32 : BitVec 12).toNat ∧
    (3 : BitVec 11).toNat % 4 = 3 ∧ isTc 0 = false ∧ (3 : Fin 4) = 3 ∧ (0 : Fin 4) ≠ 3 ∧ decodeUrelm 0 0xFFFFFFFF = none ∧
    decodeUrelm 0 0x04C00040 = some (.addi 0 6 0 64) := by decide
theorem witness_LoadResults :
    scalarPlace (Tests.st.core 4) 4 0x3FFFF 1 false false = .ok (.loc (localKey 4 0 0x3FFFF)) ∧
    placeRead Tests.st (.loc (localKey 4 0 0x3FFFF)) 1 = some [0] ∧
    scalarPlace (Tests.st.core 4) 4 0x10000000 2 false false = .ok (.clu 4 0) ∧ placeRead Tests.st (.clu 4 0) 2 = some [0, 0] ∧
    scalarPlace (Tests.st.core 4) 4 0x80001000 4 false true = .ok (.dev 0x1000) ∧ placeRead Tests.st (.dev 0x1000) 4 = some [0, 0, 0, 0] ∧
    scalarPlace (Tests.st.core 4) 4 0x20110000 4 false true = .ok (.reg 0x20110000) ∧ coreReaches Tests.st 4 0x20110000 false = true ∧
    coreReaches (Tests.with0 fun k => { k with grant := { k.grant with blkRead := 0 } }) 0 0x20110000 false = false ∧
    scalarPlace (Tests.st.core 4) 4 0x30000000 1 false false = .error (3, 0) ∧
    scalarPlace (Tests.st.core 4) 4 1 2 false false = .error (2, 0) ∧ scalarPlace (Tests.st.core 4) 4 2 4 false true = .error (2, 0) ∧
    placeRead { Tests.st with poison := [64] } (.dev 0x1000) 4 = none ∧
    placeRead { Tests.st with lpoison := [0] } (.loc 0) 1 = none ∧ placeRead { Tests.st with cpoison := [0] } (.clu 4 0) 2 = none := by and_intros <;> rfl
theorem witness_StoreResults :
    scalarPlace (Tests.st.core 4) 4 0 1 true false = .ok (.loc (localKey 4 0 0)) ∧
    scalarPlace (Tests.st.core 4) 4 0x10000000 2 true false = .ok (.clu 4 0) ∧
    scalarPlace (Tests.st.core 4) 4 0x80001000 4 true true = .ok (.dev 0x1000) ∧
    scalarPlace (Tests.st.core 4) 4 0x20110014 4 true true = .ok (.reg 0x20110014) ∧ coreReaches Tests.st 4 0x20110014 true = true ∧
    coreReaches (Tests.with0 fun k => { k with grant := { k.grant with blkWrite := 0 } }) 0 0x20110014 true = false ∧
    scalarPlace (Tests.st.core 4) 4 0x30000000 1 true false = .error (3, 0) ∧
    scalarPlace (Tests.st.core 4) 4 1 2 true false = .error (2, 0) ∧
    scalarPlace (Tests.st.core 0) 0 0 4 true true = .error (3, 7) := by and_intros <;> rfl
theorem witness_AtomicResults : Ready Tests.st 4 false ∧ (Tests.st.core 4).rs 2 = 0x80001000 ∧
    scalarPlace (Tests.st.core 4) 4 0x80001000 4 true false = .ok (.dev 0x1000) ∧
    placeRead Tests.st (.dev 0x1000) 4 = some [0, 0, 0, 0] ∧ placeRead { Tests.st with poison := [64] } (.dev 0x1000) 4 = none ∧
    scalarPlace (Tests.st.core 4) 4 0x80001002 4 true false = .error (2, 0) := by and_intros <;> first | decide | rfl
theorem witness_VectorMovesAndMemory : Ready Tests.st 4 true ∧ (0 : Fin 4) ≠ 3 ∧
    vFault (Tests.st.core 4) 4 2 0 32 (List.range 16) false = none ∧ vFault (Tests.st.core 4) 4 2 0 32 (List.range 16) true = none ∧
    (∀ i ∈ List.range 16, (placeRead Tests.st (vPlace (Tests.st.core 4) 4 (vAddr (Tests.st.core 4) 2 0 32 i) 4 false) 4).isSome) ∧
    vFault (Tests.st.core 4) 4 4 0 32 (List.range 16) false = some (2, 1, 0x80001002) ∧
    vFault (Tests.st.core 4) 4 5 0 32 (List.range 16) true = some (3, 0, 0x30000000) := by and_intros <;> first | decide | rfl
theorem witness_VectorArithmetic : Ready Tests.st 4 true ∧ (0 : Fin 4) ≠ 3 ∧ (2 : Fin 4) ≠ 3 := by decide
theorem witness_VectorComparisons : Ready Tests.st 4 true ∧ (2 : Fin 4) ≠ 3 ∧ (3 : Fin 4) = 3 ∧ (7 : RegNo).val < 8 := by decide
theorem witness_PixelArithmetic : Ready Tests.st 4 true := by decide
theorem witness_SystemInstructions : Ready Tests.st 0 false ∧ (Tests.st.core 0).epc.toNat % 4 = 0 ∧
    Waits (Tests.with0 fun k => { k with wait := .fenceC }) 0 .fenceC ∧
    Waits (Tests.with0 fun k => { k with wait := .fenceD }) 0 .fenceD ∧
    Waits (Tests.with0 fun k => { k with wait := .fenceD, busErrs := [4] }) 0 .fenceD ∧
    (Tests.st.core 0).busErrs = [] := by decide
theorem witness_CoreErrors : Tests.st.up = true ∧ (Tests.st.core 0).run = .running ∧ (Tests.st.core 0).wait = .none ∧
    (Tests.st.core 0).busErrs = [] ∧ ((Tests.with0 fun k => { k with wait := .fenceD, busErrs := [4, 8] }).core 0).busErrs = [4, 8] ∧
    ((Tests.with0 fun k => { k with wait := .fenceC }).core 0).wait = .fenceC ∧
    ((Tests.with0 fun k => { k with wdtLoad := 1 }).core 0).wdtLoad ≠ 0 := by decide
theorem witness_PositionAndTime : Ready Tests.st 0 false ∧ 0 ≤ (shortPos Tests.st 0 - 0).toInt ∧
    ¬ (0 ≤ (shortPos Tests.st 0 - (Tests.st.core 0).rs 3).toInt) ∧ (Tests.st.core 0).rs 3 ≠ 0 ∧
    Waits (Tests.with0 fun k => { k with wait := .await 0 0 5 7 }) 0 (.await 0 0 5 7) ∧
    Waits (Tests.with0 fun k => { k with wait := .await 0 1 5 7, waited := 5 }) 0 (.await 0 1 5 7) := by decide
theorem witness_SlotsAndEvents : Ready Tests.st 4 false ∧ ((Tests.st.core 4).rs 0).toNat % 32 = 0 ∧
    granted (Tests.st.core 4).grant.slots 255 = true ∧ granted (Tests.st.core 4).grant.producers 1023 = true ∧
    granted (Tests.st.core 4).grant.inputs 511 = true ∧
    nearBytes Tests.st (Tests.st.core 4) 4 0 32 = .ok (List.replicate 32 0) ∧
    ¬ evAhead Tests.st 4 511 < (Tests.st.input 511).pend.length ∧ (Tests.st.core 4).rs 0 = 0 ∧ (Tests.st.core 4).rs 3 ≠ 0 ∧
    (let s : State := { Tests.st with inputs := [(511, { pend := [(0, 1)] })] }
     evAhead s 4 511 < (s.input 511).pend.length) ∧
    granted (0, 0) 0 = false ∧
    ((Tests.st.core 4).rs 3).toNat % 32 ≠ 0 ∧
    Waits (Tests.with0 fun k => { k with wait := .evwait 511 5 7, waited := 5 }) 0 (.evwait 511 5 7) ∧
    ¬ evAhead (Tests.with0 fun k => { k with wait := .evwait 511 5 7, waited := 5 }) 0 511 < 0 ∧
    evAhead { Tests.with0 fun k => { k with wait := .evwait 511 5 7 } with inputs := [(511, { pend := [(0, 1)] })] } 0 511 < 1 := by
  and_intros <;> first | decide | rfl

/-! ### Witnesses: reset, boot, modes -/

/-- Register fields written in order. -/
def Tests.sets (s : State) (l : List (RF × Nat)) : State := l.foldl (fun t e => t.sf e.1 e.2) s
/-- A part whose boot is under way. -/
def Tests.boot (b : BootSt) : State := { boot := b }

theorem witness_ResetBootAndSleep : State.reset.boot.resetN = true ∧ Tests.st.boot.resetN = false ∧ Tests.st.held = false ∧
    Tests.st.up = true ∧ (Tests.boot { resetN := false, supply := true }).boot.supply = true ∧ tapControls .idcode = false ∧
    booting (Tests.boot { resetN := false, begun := true }) = true ∧
    booting (Tests.boot { resetN := false, begun := true, pll := true, tests := true }) = true ∧
    booting (Tests.boot { resetN := false, begun := true, pll := true, tests := true, hbm := true, dir := true }) = true ∧
    booting (Tests.boot { resetN := false, begun := true, pll := true, tests := true, hbm := true, dir := true, flash := true }) = true ∧
    (∀ fe, booting (Tests.boot { resetN := false, begun := true, pll := true, tests := true, hbm := true, dir := true, flashEn := fe }) = true) ∧
    (let s := senseFuses (Tests.boot { resetN := false, begun := true, pll := true })
     factoryCrc (s.sf F.PCI_BAR2_WIN_SIZE (if 2 ≤ s.lifecycle then 0 else 128)) =
      (fuse (s.sf F.PCI_BAR2_WIN_SIZE (if 2 ≤ s.lifecycle then 0 else 128)) 85).toNat) ∧
    Tests.st.boot.asleep = false ∧ Tests.st.ras.noise < 2 ∧ 2 ≤ ({ Tests.st with ras := { noise := 2 } } : State).ras.noise ∧
    (∀ k < 16, clusterIdle { Tests.st with cores := [] } k = true) ∧
    (wakesNow { Tests.sets Tests.st [(F.PWR_WAKE_TMR_MS, 1)] with now := 1000000 }).testBit 3 = true ∧
    (wakesNow { Tests.sets Tests.st [(F.PWR_WAKE_TICKS_TICKS, 1)] with axes := [(0, { word := 4096 })] }).testBit 4 = true ∧
    Tests.st.pci.rst = none ∧ (Tests.sets Tests.st [(F.PCI_LINK_UP, 1)]).on F.PCI_LINK_UP = true := by decide +kernel
theorem witness_ResetBootAndSleep_sleep : (Tests.boot { resetN := false, asleep := true }).boot.entered = false ∧
    (let u := (List.range 16).foldl portDown (allLinksOff (quietOutputs ((Tests.boot { resetN := false, asleep := true }).bump F.PWR_STAT_SLEEPS)))
     let w := { u with boot := { u.boot with entered := true } }
     (w.boot.wakeHeld ||| wakesNow w) &&& fieldOf (w.rd R.PWR_WAKE_EN) 4 0 = 0) ∧
    (let s := Tests.sets (Tests.boot { resetN := false, asleep := true, wakeHeld := 1 }) [(F.PWR_WAKE_EN_PIN, 1)]
     let u := (List.range 16).foldl portDown (allLinksOff (quietOutputs (s.bump F.PWR_STAT_SLEEPS)))
     let w := { u with boot := { u.boot with entered := true } }
     s.boot.asleep = true ∧ s.boot.entered = false ∧
     (w.boot.wakeHeld ||| wakesNow w) &&& fieldOf (w.rd R.PWR_WAKE_EN) 4 0 ≠ 0 ∧ w.boot.waking = false) ∧
    (Tests.boot { resetN := false, asleep := true, waking := true }).boot.wakeLock = false := by decide +kernel
theorem witness_ModesAndReplay : Tests.st.up = true ∧ Tests.st.f F.DEV_MODE_REQ = 0 ∧
    (let s := Tests.sets Tests.st [(F.FUS_LC_LIFECYCLE, 1)]; [3, 4, 5, 9].contains s.modeOf = true ∧ sleepBlocked s = false ∧
      s.on F.PCI_LINK_UP = false ∧ s.boot.wokeAt = none) ∧
    (Tests.sets Tests.st [(F.DEV_MODE_REQ, 6), (F.DEV_RPL_LEN_LEN, 1)]).f F.DEV_RPL_LEN_LEN ≠ 0 ∧
    (Tests.sets Tests.st [(F.DEV_MODE_REQ, 7)]).f F.DEV_MODE_REQ = 7 ∧
    bistAllowed (Tests.sets Tests.st [(F.FUS_LC_LIFECYCLE, 1), (F.DEV_MODE_REQ, 8)]) = true ∧
    (let s := { Tests.sets Tests.st [(F.DEV_RPL_STAT_BUSY, 1)] with rpl := { len := 64 } }
     s.on F.DEV_RPL_STAT_BUSY = true ∧ replayWaits s = false ∧ s.rpl.pos < s.rpl.len ∧
      replayWaits ({ s with rpl := { s.rpl with next := 1 } } : State) = true) ∧
    Tests.st.rpl.len ≤ Tests.st.rpl.pos ∧
    (Tests.boot { resetN := false, bistFrom := some 0 }).boot.bistMbox = none := by decide +kernel

/-! ### Witnesses: the host side -/

/-- A part whose link is up, with memory space and bus mastering enabled. -/
def Tests.linked : State := (Tests.sets Tests.st [(F.PCI_LINK_UP, 1), (F.HIF_STAT_DIR_VALID, 1)]).setCfg 0x04 6

theorem witness_HostSideResets : Tests.st.pci.perst = false ∧ endpointUp Tests.st = true ∧ Tests.st.held = false ∧
    Tests.st.boot.asleep = false ∧ Tests.linked.pci.rst = none ∧ Tests.linked.on F.PCI_LINK_UP = true ∧ bme Tests.linked = true ∧
    Tests.linked.up = true ∧ linkDownContained Tests.st = false ∧ Tests.st.on F.PCI_LINK_UP = false ∧ goodWidth 16 = true ∧ 0 < (6 : Fin 7).val ∧
    ({ Tests.st with pci := { perst := true } } : State).pci.wake = false := by decide +kernel
theorem witness_HostRequests : Tests.linked.held = false ∧ Tests.linked.boot.asleep = false ∧ Tests.linked.pci.perst = false ∧
    cfgRetry Tests.st = true ∧ cfgRetry Tests.linked = false ∧ memShut Tests.linked = false ∧ memEn Tests.linked = true ∧
    ((Tests.linked.setCfg 0x30 1).cfg 0x30).getLsbD 0 = true ∧ bar2Up Tests.linked = true ∧ Tests.linked.poison = [] ∧
    hostDenied (Tests.sets Tests.linked [(F.PCI_BAR2_WIN_SIZE, 128)]) 0 4 = none := by decide +kernel
theorem witness_PcieTraffic :
    (let s := { Tests.linked with sigs := [255] }
     s.sigs = 255 :: [] ∧ msixOn s = false ∧ s.up = true) ∧
    (let s := { (Tests.linked.setCfg 0x50 0x80000000) with pci := { cfg := (Tests.linked.setCfg 0x50 0x80000000).pci.cfg,
                                                                      table := [(16 * 255, 1), (16 * 255 + 12, 0)] } }
     msixOn s = true ∧ canSend s 255 = true ∧ canSend s 0 = false ∧ s.pci.pba.contains 255 = false) ∧
    Tests.linked.sigs = [] ∧ (intaLevel Tests.linked && !intxDis Tests.linked) = false ∧
    (intaLevel (Tests.linked.wr (R.EVT_PEND 7) 1) && !intxDis (Tests.linked.wr (R.EVT_PEND 7) 1)) = true ∧
    ltrEn (Tests.linked.setCfg 0x88 0x400) = true ∧ Tests.linked.pci.ltr ≠ some (ltrValue Tests.linked) ∧
    ((Tests.linked.setCfg 0x70 2).cfg 0x70).getLsbD 1 = true ∧ Tests.linked.reads = [] ∧
    ((logUE Tests.linked 0 false []).rd R.PCI_CONTAIN_MASK).getLsbD 0 = false ∧
    (((logUE (Tests.linked.wr R.PCI_CONTAIN_MASK 1) 0 false []).rd R.PCI_CONTAIN_MASK).getLsbD 0 = true) ∧
    pmeEn (Tests.linked.setCfg 0x44 0x103) = true ∧ inD3 (Tests.linked.setCfg 0x44 0x103) = true ∧
    contained (Tests.sets Tests.linked [(F.PCI_CONTAIN_CONTAINED, 1), (F.PCI_CONTAIN_CAUSE, 1)]) = true := by decide +kernel
theorem witness_PcieTraffic_reads :
    (let r : HRead := { tag := 1, chan := 0, addr := 0, len := 128, at_ := 0 }
     let s := { Tests.linked with reads := [r], now := 60000000000, pci := { Tests.linked.pci with quar := [(2, 5, true)] } }
     s.reads.find? (fun r => r.tag == 1) = some r ∧ s.pci.quar.any (fun e => e.1 == 2 && e.2.2) = true ∧ s.pci.quar.any (fun e => e.1 == 1 && e.2.2) = false ∧ s.on F.PCI_LINK_UP = true ∧ r.got + 128 = r.len ∧
      r.got + 64 < r.len ∧ (r.addr + (r.got + 64)) % 64 = 0 ∧ ctoNs s = some 40000000 ∧ r.at_ + 40000000 ≤ s.now ∧
      r.dead = false) := by decide +kernel

/-! ### Witnesses: axes, clock, letters -/

theorem witness_AxesAndClock_axes :
    (let s := Tests.sets Tests.st [(F.AXS_CFG_ENABLE 0, 1), (F.AXS_FILT_MIN_WIDTH 0, 8)]
     axesOn s 0 = [0] ∧ (∀ n ∈ axesOn s 0, s.f (F.AXS_FILT_MIN_WIDTH n) ≤ (8 : Word).toNat) ∧ s.f (F.AXS_FILT_STALL_TMO 0) ≠ 0 ∧
      s.on (F.AXS_STAT_STALLED 0) = false) ∧
    ({ Tests.st with axes := [(0, { ticks := [⟨0, true⟩] })] } : State).axis 0 = { ticks := [⟨0, true⟩] } ∧
    (let s := Tests.sets Tests.st [(F.AXS_CFG_ENABLE 8, 1)]
     s.on (F.AXS_CFG_APPLY_CONT 8) = false ∧ derivedValid (s.applyRange (R.AXS_RATIO_M 8) (R.AXS_OFFSET_HI 8 + 4)) 8 = true) ∧
    (let s := Tests.sets Tests.st [(F.AXS_CFG_ENABLE 12, 1), (F.AXS_REMOTE_VIA 12, 1), (F.AXS_REMOTE_STALE_TMO 12, 1)]
     sampleMatches s 12 ⟨1, 0, 0, 0, 0, 0, 0⟩ = true ∧ sampleMatches s 12 ⟨2, 0, 0, 0, 0, 0, 0⟩ = false ∧
      s.f (F.AXS_REMOTE_STALE_TMO 12) ≠ 0 ∧ s.on (F.AXS_STAT_STALE 12) = false ∧
      (({ s with now := 10000 } : State).axis 12).lastSample + s.f (F.AXS_REMOTE_STALE_TMO 12) * 10000 ≤ 10000) := by decide +kernel
theorem witness_AxesAndClock_clock : Tests.st.tim.authAt ≠ some Tests.st.now ∧
    (let s := Tests.sets Tests.st [(F.TIM_STAT_LOCKED, 1), (F.TIM_CFG_REF_TMO, 1)]
     s.on F.TIM_STAT_LOCKED = true ∧ s.on F.TIM_STAT_HOLDOVER = false ∧ s.f F.TIM_CFG_REF_TMO ≠ 0 ∧ s.tim.refLost = false ∧
      s.tim.refFrom + s.f F.TIM_CFG_REF_TMO * 100000000 ≤ 100000000) ∧
    Tests.st.on F.TIM_STAT_LOCKED = false ∧ Tests.st.tim.forced = false ∧ (Tests.st.core 0).grant.clockStep = true ∧
    -2147484 ≤ (2147484 : Word).toInt ∧ 2147484 < (2147485 : Word).toInt ∧ (BitVec.ofInt 32 (-2147485)).toInt < -2147484 ∧
    (let s := { Tests.sets Tests.st [(F.TIM_PPS_CFG_IN_EN, 1), (F.TIM_PPS_CFG_OUT_EN, 1), (F.TIM_PPS_CFG_OUT_WIDTH, 1)] with
                  tim := { clk := 1000000000 * 2 ^ 32 } }
     s.on F.TIM_PPS_CFG_IN_EN = true ∧ s.tim.ppsSec < ppsIndex s ∧ s.on F.TIM_PPS_CFG_OUT_EN = true ∧
      s.f F.TIM_PPS_CFG_OUT_WIDTH ≠ 0 ∧ s.tim.ppsEnd = none ∧ min s.tim.nsec (1000000000 - s.tim.nsec) ≤ 1000) ∧
    (({ done := 5, total := 5, cycles := 9, neg := false } : Slew).done = 5) := by decide +kernel

/-- A letter of a code and a first argument. -/
def Tests.letter (code arg : Nat) : Letter :=
  ⟨bytesLE 2 code ++ [0, 0, 0, 0, 0, 0] ++ bytesLE 4 48 ++ [0, 0, 0, 0] ++ bytesLE 4 arg ++ List.replicate 60 0⟩
/-- A part whose root core serves a letter of mailbox 0. -/
def Tests.served (code arg : Nat) : State :=
  { Tests.linked with mboxes := [(0, { letter := some (Tests.letter code arg), root := true })]
                      loader := { queue := [0] } }

theorem witness_MailboxCommands : mbxUp Tests.st = true ∧ Tests.st.on (F.MBX_STAT_BUSY 3) = false ∧ (Tests.st.mbox 3).letter = none ∧
    (Tests.sets Tests.st [(F.MBX_STAT_BUSY 3, 1)]).on (F.MBX_STAT_BUSY 3) = true ∧
    (let s := { Tests.sets (Tests.served 2 0) [(F.MBX_STAT_BUSY 0, 1)] with loader := { loading := some 0 } }
     (s.mbox 0).letter = some (Tests.letter 2 0) ∧ (s.mbox 0).next = none ∧ s.on (F.CCX_MBX_STAT_LETTER 0) = false ∧
      (Tests.letter 2 0).code = 2 ∧ s.loader.loading = some 0) ∧
    (let s := Tests.sets Tests.st [(F.CCX_MBX_STAT_LETTER 0, 1)]
     (s.core 0).grant.mbx.testBit 0 = true ∧ s.on (F.CCX_MBX_STAT_LETTER 0) = true ∧ leAt (s.bread (ccxReply 0) 32) 8 4 ≤ 4064 ∧
      (s.mbox 0).orphan = false) := by decide +kernel
theorem witness_LoaderLetters : (Tests.served 1 0).up = true ∧ rootLetter (Tests.served 1 0) 0 1 = some (Tests.letter 1 0) ∧
    (let s := Tests.served 2 0
     rootLetter s 0 2 = some (Tests.letter 2 0) ∧ loaderTurn s 0 = true ∧ s.lifecycle ≠ 3 ∧ (Tests.letter 2 0).arg 2 ≤ 0x4000000 ∧
      (Tests.letter 2 0).arg 0 % 64 = 0 ∧ canRequest s = true) ∧
    (let s := { Tests.served 3 7 with cores := [(0, { Tests.core with other := .ready, otherId := 7 })] }
     rootLetter s 0 3 = some (Tests.letter 3 7) ∧ (Tests.letter 3 7).arg 1 &&& 0x701 = (Tests.letter 3 7).arg 1 ∧
      parcelKnown s 7 = true ∧ holders s 7 ≠ [] ∧ s.lifecycle = 0 ∧ rollbackFails s [] = false) ∧
    (let w : SwitchSt := ⟨0, 7, true, 0, 0, [0], [(0, 0)], 0, 0⟩
     w.left.contains 0 = true ∧ (∃ e ∈ w.eligible, e.1 = 0 ∧ e.2 + 10000000 ≤ 10000000)) ∧
    atSwitchPoint { Tests.core with run := .halted } = true ∧
    rootLetter (Tests.served 5 7) 0 5 = some (Tests.letter 5 7) ∧ rootLetter (Tests.served 6 7) 0 6 = some (Tests.letter 6 7) ∧
    (let s := { Tests.served 4 7 with cores := [(0, { Tests.core with other := .ready, otherId := 7 })] }
     rootLetter s 0 4 = some (Tests.letter 4 7) ∧ (dropQueued s 7).loader.sw = none) := by decide +kernel
theorem witness_TrustLetters : mbxUp (Tests.served 0x10 0) = true ∧ rootLetter (Tests.served 0x10 0) 0 0x10 = some (Tests.letter 0x10 0) ∧
    (let s := Tests.served 0x12 3
     rootLetter s 0 0x12 = some (Tests.letter 0x12 3) ∧ s.lifecycle < 2 ∧ (Tests.letter 0x12 3).len = 48 ∧
      (∀ i < 12, fuse s (5 + 12 * 3 + i) = 0) ∧ (blow s true none []).1 = none) ∧
    (let s := Tests.served 0x13 0x100
     (Tests.letter 0x13 0x100).arg 0 &&& 0xFFB00 = (Tests.letter 0x13 0x100).arg 0 ∧ (blow s true none [8]).1 = none) ∧
    (let s := (Tests.served 0x14 1).wr (R.FUS_WORD 5) 1
     (Tests.letter 0x14 1).arg 0 = s.lifecycle + 1 ∧ slotUsable s 0 = true ∧ (blow s true none [0, 1]).1 = none) ∧
    (let s := Tests.sets ((Tests.served 0x15 1).wr (R.FUS_WORD 5) 1) [(F.FUS_LC_LIFECYCLE, 1)]
     s.lifecycle ≠ 0 ∧ s.lifecycle ≠ 3 ∧ otherSlot s 1 = true ∧ (blow s true none [21]).1 = none ∧ leastSecVer s = none ∧
      rollbackCount s < 64 ∧ (blow s true none ((List.range 64).map (fun i => 32 + i))).1 = none) := by decide +kernel
/-- A letter whose authorisation holds is authorised, so the clauses of ADVANCE and REVOKE that ask for it can be met on any part whose keys
sign it (whether a signature verifies is no number of the model). -/
theorem witness_TrustLetters_authorised (s : State) (m : Nat) (l : Letter) (n : List Byte) (h : s.on F.SEC_AUTH_BLOCKED = false)
    (hn : (s.mbox m).nonce = some (n, s.now))
    (ha : authOk (s.setMbox m { s.mbox m with nonce := none }) l.body l.code l.argBytes n (List.replicate 48 0) = true) :
    (authorise s m l none).1 = none := by
  rw [authorise]
  simp only [h, hn, Bool.false_eq_true, if_false, Nat.le_add_right, if_true]
  rw [ha]; rfl

/-! ### Witnesses: SPDM, schedule and events -/

/-- Register fields in force, as written and applied. -/
def Tests.lives (s : State) (l : List (RF × Nat)) : State := let t := Tests.sets s l; { t with live := t.regs }
/-- An SPDM request of transport DOE in session 1: version, code and the two parameters, then zeros. -/
def Tests.spdmReq (v code p1 p2 : Byte) (n : Nat) : SpdmReq := { via := 4, sess := some 1, msg := [v, code, p1, p2] ++ List.replicate n 0 }
/-- A vendor request of transport DOE in session 1. -/
def Tests.vendor (ven op obj b13 : Byte) (bytes : List Byte) : SpdmReq :=
  { via := 4, sess := some 1, msg := [0x12, 0xFE, 0, 0, 3, 0, 2, ven, 0, 48, 0] ++ [op, obj, b13, 0, 0, 0] ++ bytes ++ List.replicate 48 0 }
/-- The same with Novakova's vendor number. -/
def Tests.vendorN (op ring mode : Byte) : SpdmReq :=
  { via := 4, sess := some 1, msg := [0x12, 0xFE, 0, 0, 3, 0, 2, 0x4B, 0x1F, 4, 0, op, ring, mode, 0] }
/-- A part with one waiting request, a connection at a stage, and session 1 on DOE, finished or not. -/
def Tests.asked (stage : Nat) (ready : Bool) (r : SpdmReq) : State :=
  { Tests.sets Tests.linked [(F.FUS_LC_IDE, 1)] with
    spdm := { conns := [(4, { stage := stage })], reqs := [r], sessions := [{ id := 1, via := 4, ready := ready }] } }
/-- The request as its transport asks it. -/
def Tests.first (s : State) (p : List Byte → Bool) : Option SpdmReq := s.spdm.reqs.find? (fun r => r.via == 4 && p r.msg)

theorem witness_SpdmCommands : Tests.st.held = false ∧ Tests.st.boot.asleep = false ∧
    (let r : SpdmReq := { Tests.spdmReq 0x10 0x84 0 0 0 with sess := none }
     Tests.first (Tests.asked 0 false r) (isCode 0x84) = some r ∧ r.sess = none ∧ leAt r.msg 0 1 = 0x10) ∧
    (let r : SpdmReq := { Tests.spdmReq 0x12 0xE1 0 0 16 with sess := none }
     Tests.first (Tests.asked 1 false r) (isCode 0xE1) = some r ∧ (conn (Tests.asked 1 false r) 4).stage = 1 ∧ 20 ≤ r.msg.length ∧
      leAt r.msg 0 1 = 0x12) ∧
    (let r : SpdmReq := { Tests.spdmReq 0x12 0xE3 0 0 0 with sess := none }
     Tests.first (Tests.asked 2 false r) (isCode 0xE3) = some r ∧ (conn (Tests.asked 2 false r) 4).stage = 2 ∧ leAt r.msg 0 1 = 0x12) ∧
    (let r := Tests.spdmReq 0x12 0x81 0 0 0
     Tests.first (Tests.asked 3 true r) (isCode 0x81) = some r ∧ reqError (Tests.asked 3 true r) r 4 true true = none) ∧
    (let r := Tests.spdmReq 0x12 0x82 0 0 4
     Tests.first (Tests.asked 3 true r) (isCode 0x82) = some r ∧ reqError (Tests.asked 3 true r) r 8 true true = none ∧
      leAt r.msg 2 1 % 16 = 0 ∧ leAt r.msg 4 2 = 0) ∧
    (let r := Tests.spdmReq 0x12 0xE0 1 0 33
     Tests.first (Tests.asked 3 true r) (isCode 0xE0) = some r ∧
      reqError (Tests.asked 3 true r) r (if (leAt r.msg 2 1).testBit 0 then 37 else 4) true true = none) ∧
    (let r : SpdmReq := { Tests.spdmReq 0x12 0x83 0 0 32 with sess := none }
     let s := Tests.asked 3 true r
     Tests.first s (isCode 0x83) = some r ∧ reqError s r 36 true false = none ∧ noSigning s = false ∧ leAt r.msg 2 1 % 16 = 0) ∧
    (let r : SpdmReq := { Tests.spdmReq 0x12 0xE4 0 0 134 with sess := none }
     let s := Tests.asked 3 true r
     Tests.first s (isCode 0xE4) = some r ∧ reqError s r 138 true false = none ∧ leAt r.msg 3 1 = 0 ∧
      138 + leAt r.msg 136 2 ≤ r.msg.length ∧ s.spdm.sessions.length < 8) ∧
    (let r := Tests.spdmReq 0x12 0xE5 0 0 0
     let s := Tests.asked 3 false r
     Tests.first s (isCode 0xE5) = some r ∧ (r.sess.bind (sessOf s 4)).map (·.ready) = some false) ∧
    (let r := Tests.spdmReq 0x12 0xE8 0 0 0
     Tests.first (Tests.asked 3 true r) (isCode 0xE8) = some r ∧ reqError (Tests.asked 3 true r) r 4 false true = none) ∧
    (let r := Tests.spdmReq 0x12 0xE9 1 0 0
     let s := Tests.asked 3 true r
     Tests.first s (isCode 0xE9) = some r ∧ reqError s r 4 false true = none ∧ (r.sess.bind (sessOf s 4)).isSome = true ∧ leAt r.msg 2 1 = 1) ∧
    (let r := Tests.spdmReq 0x12 0xEC 0 0 0
     Tests.first (Tests.asked 3 true r) (isCode 0xEC) = some r ∧ reqError (Tests.asked 3 true r) r 4 false true = none) := by decide +kernel
theorem witness_SpdmCommands_vendor :
    (let r := Tests.vendorN 2 255 0
     Tests.first (Tests.asked 3 true r) (isVendor 0x1F4B 2) = some r ∧ reqError (Tests.asked 3 true r) r 15 true true = none ∧
      vendorOk r.msg 4 = true) ∧
    (let r := Tests.vendorN 1 255 1
     let s := Tests.sets (Tests.asked 3 true r) [(F.DLV_R_POLICY_MODE 255, 1)]
     Tests.first s (isVendor 0x1F4B 1) = some r ∧ reqError s r 15 true true = none ∧ vendorOk r.msg 4 = true ∧ s.lifecycle = 0 ∧
      ringState s 255 = rDisabled ∧ (s.ring 255).key = none ∧ leAt r.msg 12 1 = 255 ∧ leAt r.msg 13 1 = s.f (F.DLV_R_POLICY_MODE 255)) ∧
    (let r := Tests.vendorN 3 0 0
     let s := { Tests.asked 3 true r with rings := [(0, { key := some 1, session := 1 + 2 ^ 32 * (4 + 1) })] }
     Tests.first s (isVendor 0x1F4B 3) = some r ∧ reqError s r 15 true true = none ∧ (s.ring 0).key.isSome = true ∧
      (r.sess.bind (sessOf s 4)).map (fun x => x.id + 2 ^ 32 * (x.via + 1)) = some (s.ring 0).session ∧ ringState s 0 = rDisabled) ∧
    (let ide := fun (r : SpdmReq) (n : Nat) => let s := Tests.asked 3 true r
       s.on F.FUS_LC_IDE = true ∧ reqError s r 15 true true = none ∧ vendorOk r.msg 4 = true ∧
       Tests.first s (fun m => isVendor 1 0 m && leAt m 12 1 == n) = some r
     ide (Tests.vendor 1 0 0 0 []) 0 ∧
     (let r := Tests.vendor 1 0 2 0 []
      ide r 2 ∧ vendorOk r.msg 48 = true ∧ leAt r.msg 18 1 = 0 ∧ ideNamed r.msg = true) ∧
     (let r := Tests.vendor 1 0 4 0 []
      ide r 4 ∧ vendorOk r.msg 8 = true ∧ ideNamed r.msg = true ∧
       ideReady { Tests.st with spdm := { ideKeys := [(0, []), (16, []), (32, [])] } } (leAt r.msg 17 1) = true) ∧
     (let r := Tests.vendor 1 0 5 0 []
      ide r 5 ∧ vendorOk r.msg 8 = true)) ∧
    (let l : Letter := ⟨bytesLE 2 0x17 ++ List.replicate 6 0 ++ bytesLE 4 4 ++ List.replicate 20 0 ++ [0x10, 0x84, 0, 0] ++ List.replicate 60 0⟩
     let s := { Tests.linked with mboxes := [(0, { letter := some l, root := true })], loader := { queue := [0] } }
     rootLetter s 0 0x17 = some l ∧ (∀ r ∈ s.spdm.reqs, r.via ≠ 0) ∧ sessOf s 0 (leAt l.body 0 4) = none ∧ s.lockdown = false ∧
      4 ≤ l.body.length ∧ l.body.length ≤ spdmMax 0 ∧ knownCode l.body = true) ∧
    ({ Tests.linked with spdm := { ideSet := some 0 } } : State).spdm.ideSet.isSome = true := by decide +kernel

/-- A slot that is armed at its axis's position. -/
def Tests.slot (x : SlotSt) : State := { Tests.st with slots := [(255, x)] }

theorem witness_SlotsAndRouting :
    (let s := Tests.slot { armed := true, due := some 1 }
     (s.slot 255).armed = true ∧ (s.slot 255).test = false ∧ (s.slot 255).due = some 1 ∧ 1 ≤ half s + 1 ∧ (s.slot 255).acted ≠ some s.now) ∧
    (let s := fun (t : Dword) (d : Bool) => Tests.slot
       { armed := true, test := true, target := t, img := if d then [0, 0, 0, 0, 0, 0x100000] else [] }
     let diff := fun (t : Dword) (d : Bool) => slotDiff ((s t d).slot 255) (axisPos (s t d) ((s t d).slot 255).axis)
     ((s 1 false).slot 255).test = true ∧ ((s 1 false).slot 255).acted ≠ some (s 1 false).now ∧ diff 1 false < 0 ∧ 2 ^ 31 ≤ diff (BitVec.ofInt 64 (-2 ^ 31)) false ∧
      diff 0 false = 0 ∧ diff (BitVec.ofInt 64 (1 - 2 ^ 31)) true < 2 ^ 31 ∧ ((s 0 false).slot 255).dropLate = false ∧
      ((s 0 true).slot 255).dropLate = true) ∧
    (let s := Tests.sets { Tests.st with gpios := [(15, { due := [⟨1, none, 0⟩] })] } [(F.TRG_GPIO_CFG_MODE 15, 2)]
     s.f (F.TRG_GPIO_CFG_MODE 15) = 2 ∧ (s.gpio 15).due.filter (·.starts s) ≠ [] ∧ s.held = false) ∧
    (let p : Pulse := { start := 0, stop := none, at_ := some (0, 1, false), slot := none }
     let s := { Tests.st with now := 16777216, trigs := [(31, { pulses := [p] })] }
     (s.trig 31).pulses.filter (fun p => p.capped (half s + 1)) = [p]) ∧
    (let s := { Tests.st with gpios := [(15, { running := [⟨0, some 1, 0⟩] })] }
     ((s.gpio 15).running.filter (fun e => !e.over s)).length ≠ (s.gpio 15).running.length) ∧
    (let s : State := { Tests.st with evq := [⟨0x3FF, 7, 0, 1, 0⟩], now := 3 }
     s.evq = ⟨0x3FF, 7, 0, 1, 0⟩ :: [] ∧ 0 + 3 ≤ s.now) ∧
    (∀ i ∈ [inGroupOn 31, inGroupOff 31, inPulse 31, inHoldover],
      (({ Tests.st with inputs := [(i, { pend := [(7, 0)] })] } : State).input i).pend = (7, 0) :: [] ∧
      (({ Tests.st with inputs := [(i, { pend := [(7, 0)] })] } : State).input i).took ≠ some Tests.st.now) ∧
    (0x7FFFFFFF : Word).getLsbD 31 = false ∧ (0x80000000 : Word).getLsbD 31 = true ∧
    declared Tests.st 511 (fieldOf (0x80000000 : Word) 9 0) (fieldOf (0x80000000 : Word) 20 16) = false := by decide +kernel

/-! ### Witnesses: Ethernet, cameras, parallel ports -/

/-- A broadcast frame of `n` bytes with an EtherType. -/
def Tests.bcast (n ty : Nat) : List Byte := List.replicate 6 0xFF ++ List.replicate 6 0 ++ bytesBE 2 ty ++ List.replicate (n - 14) 0

theorem witness_EthernetCommands : Tests.st.held = false ∧ Tests.st.up = true ∧
    (let s := Tests.sets Tests.st [(F.ETH_CFG_ENABLE 15, 1), (F.ETH_CFG_FIRST_LANE 15, 23), (F.LNK_LANE_CFG_MODE 23, 1)]
     s.on (F.ETH_CFG_ENABLE 15) = true ∧ s.on (F.ETH_STAT_LINK_UP 15) = false ∧ placementOk s 15 = true) ∧
    (let s := Tests.sets Tests.st [(F.ETH_STAT_LINK_UP 15, 1), (F.ETH_CFG_MAX_FRAME 15, 64)]
     s.on (F.ETH_STAT_LINK_UP 15) = true ∧ 60 ≤ (Tests.bcast 60 0x0806).length ∧
      (Tests.bcast 60 0x0806).length + 4 ≤ s.f (F.ETH_CFG_MAX_FRAME 15) ∧ macTaken s 15 (beAt (Tests.bcast 60 0x0806) 0 6) = true ∧
      s.on (F.ETH_VLAN_TAGGED 15) = false ∧ beAt (Tests.bcast 60 0x0806) 12 2 = 0x0806 ∧ beAt (Tests.bcast 60 0x0800) 12 2 = 0x0800) ∧
    (∀ n ∈ [2, 3], (Tests.sets Tests.st [(F.ETH_STAT_LINK_UP 0, 1)]).on (F.ETH_STAT_LINK_UP 0) = true ∧ ({ Tests.st with now := 100000000, eth := { waits := [⟨0, 1, n, 0, []⟩] } } : State).eth.waits.find?
      (fun w => decide (w.at_ + 100000000 ≤ 100000000)) = some ⟨0, 1, n, 0, []⟩) ∧
    (takeRx { Tests.st with eth := { rx := [.arpRequest 15 2 3] } }
      (fun r => match r with | .arpRequest _ _ _ => true | _ => false)).map (·.1) = some (.arpRequest 15 2 3) ∧
    (let q := takeRx { Tests.sets Tests.st [(F.ETH_STAT_LINK_UP 15, 1)] with eth := { rx := [.arpReply 15 2 3], waits := [⟨15, 3, 1, 0, []⟩] } }
       (fun r => match r with | .arpReply _ _ _ => true | _ => false)
     q.map (·.1) = some (.arpReply 15 2 3) ∧
      (q.bind (fun q => q.2.eth.waits.find? (fun w => w.port == 15 && w.ip == 3))).isSome = true ∧
      q.map (fun q => q.2.on (F.ETH_STAT_LINK_UP 15)) = some true) ∧
    (let q := takeRx { Tests.st with eth := { rx := [.icmp 15 2 3 []] } } (fun r => match r with | .icmp _ _ _ _ => true | _ => false)
     q.map (·.1) = some (.icmp 15 2 3 []) ∧ q.map (fun q => (q.2.eth.icmp.find? (fun e => e.1 == 15)).isSome) = some false) := by
  decide +kernel

/-- A packet of block 1 of stream 63: its format, its packet ID and what follows the header. -/
def Tests.gvsp (fmt pid : Nat) (l : List Byte) : Rx := .gvsp 63 ([0, 0, 0, 1] ++ bytesBE 1 fmt ++ bytesBE 3 pid ++ l)
/-- A part in which stream 63 takes frames of four pixels by one line, and a packet waits. -/
def Tests.cam (b : List Block) (r : List Rx) : State :=
  { Tests.lives Tests.st [(F.GVS_S_CFG_ENABLE 63, 1), (F.GVS_S_FMT_PFNC 63, 0x01080001), (F.GVS_S_SIZE_SIZE_X 63, 4), (F.GVS_S_SIZE_SIZE_Y 63, 1),
      (F.GVS_S_TMO_FRAME_TMO 63, 1)] with streams := [(63, { blocks := b })], eth := { rx := r } }
/-- A leader of such a frame. -/
def Tests.leader : List Byte := [0, 0, 0, 1] ++ bytesBE 8 0 ++ bytesBE 4 0x01080001 ++ bytesBE 4 4 ++ bytesBE 4 1 ++ List.replicate 12 0
/-- Settings in a block's hands. -/
def Tests.cfg (l : List (RF × Nat)) : List (Nat × Word) := (Tests.sets Tests.st l).regs
/-- An open block. -/
def Tests.block : Block := { id := 1, frame := 0, cfg := Tests.cfg [(F.GVS_S_TMO_FRAME_TMO 63, 1)], arr := {}, sizeY := 4 }

theorem witness_CameraPortCommands_packets :
    (let s := Tests.cam [] [Tests.gvsp 1 0 Tests.leader]
     let p := takePacket s 63 1
     let t := p.2
     let o := newBlock t 63 1
     let w := openMark o.2 (.net 63) o.1.cfg o.1.arr (beAt Tests.leader 4 8)
     p.1 = some (1, 0, Tests.leader) ∧ (openBlock t 63 1).isNone = true ∧ opensFrames t = true ∧ gvsActive t 63 = true ∧ idAfter t 63 1 = true ∧
      beAt Tests.leader 2 2 = 1 ∧ beAt Tests.leader 12 4 = cfgF t.live (F.GVS_S_FMT_PFNC 63) ∧
      beAt Tests.leader 16 4 = cfgF t.live (F.GVS_S_SIZE_SIZE_X 63) ∧ cfgMode o.1.cfg (.net 63) = 0 ∧
      w.2.2.on (F.GVS_S_STAT_EXPO_UNCERTAIN 63) = false) ∧
    (∀ pid ∈ [1, 5],
      let p := takePacket (Tests.cam [Tests.block] [Tests.gvsp 3 pid [9, 9]]) 63 3
      p.1 = some (1, pid, [9, 9]) ∧ openBlock p.2 63 1 = some Tests.block ∧ pid ≠ 0 ∧ pid ≤ 1 + max Tests.block.sizeY (Tests.block.sy 63) ∧
        (∀ p ∈ Tests.block.pkts, p.1 ≠ pid)) ∧
    (let wait := fun n => { Tests.block with cfg := Tests.cfg [(F.GVS_S_RESEND_WAIT 63, n)] }
     ∀ b ∈ [{ Tests.block with pm := some {}, sizeY := 0 }, wait 0, wait 1],
      let p := takePacket (Tests.cam [b] [Tests.gvsp 2 1 [0, 0, 0, 1, 0, 0, 0, 1]]) 63 2
      p.1 = some (1, 1, [0, 0, 0, 1, 0, 0, 0, 1]) ∧ openBlock p.2 63 1 = some b ∧ 1 ≤ 1 + max b.sizeY (b.sy 63) ∧ b.trailer = none ∧
        ({ noteGap p.2 b 1 with trailer := some (1, 1) }.complete 63 = b.pm.isSome) ∧
        (b.pm.isSome ∨ cfgF b.cfg (F.GVS_S_RESEND_WAIT 63) = 0 ∨ cfgF b.cfg (F.GVS_S_RESEND_WAIT 63) = 1)) ∧
    (let b := { Tests.block with gaps := [⟨1, 3, 0⟩], chunks := true }
     let s := { Tests.cam [b] [] with now := 10 ^ 12 }
     (s.strm 63).blocks.find? (fun b => b.closed.isNone && b.gaps.any
       (fun g => decide (g.found + cfgF b.cfg (F.GVS_S_RESEND_GAP_DELAY 63) * 1000 ≤ s.now))) = some b ∧
      b.gaps.find? (fun g => decide (g.found + cfgF b.cfg (F.GVS_S_RESEND_GAP_DELAY 63) * 1000 ≤ s.now)) = some ⟨1, 3, 0⟩) ∧
    (let b := { Tests.block with waitFrom := some 0, wdFrom := some 0 }
     let s := { Tests.cam [b] [] with now := 10 ^ 12, tim := { clk := 1000000000 * 2 ^ 32 } }
     (s.strm 63).blocks.find? (fun b => b.closed.isNone && (match b.waitFrom with
        | some w => decide (w + cfgF b.cfg (F.GVS_S_RESEND_WAIT 63) * 100000 ≤ s.now) | none => false)) = some b ∧
      (s.strm 63).blocks.find? (fun b => b.closed.isNone && cfgF b.cfg (F.GVS_S_TMO_FRAME_TMO 63) != 0 && (match b.wdFrom with
        | some w => decide (w + (cfgF b.cfg (F.GVS_S_TMO_FRAME_TMO 63) : Nat) * 1000 ≤ s.tim.total) | none => false)) = some b) ∧
    ({ Tests.st with eth := { gapq := [⟨0, 1, 1, 1⟩] } } : State).eth.gapq ≠ [] := by decide +kernel
theorem witness_CameraPortCommands_feeds :
    (let e : TrigEntry := ⟨0, 0, 0, 0, none, 0, none⟩
     let s := { Tests.cam [] [] with streams := [(63, { m := { queue := [e] } })], tim := { clk := 1000000000 * 2 ^ 32 } }
     (feedM s (.net 63)).queue = e :: [] ∧ feedTmo s (.net 63) ≠ 0 ∧ e.edge + feedTmo s (.net 63) * 1000 ≤ s.tim.total) ∧
    (let e : TrigEntry := ⟨0, 0, 0, 0, none, 0, none⟩
     let s := { Tests.lives Tests.st [(F.PAR_TMO_FRAME_TMO 3, 1)] with
                  pars := [(3, { m := { queue := [e] } })], tim := { clk := 1000000000 * 2 ^ 32 } }
     (feedM s (.par 3)).queue = e :: [] ∧ feedTmo s (.par 3) ≠ 0 ∧ e.edge + feedTmo s (.par 3) * 1000 ≤ s.tim.total) ∧
    (Tests.sets Tests.st [(F.GVS_ACT_CFG_VALID 15, 1)]).on (F.GVS_ACT_CFG_VALID 15) = true ∧
    (Tests.sets Tests.st [(F.GVS_S_STAT_EXPO_UNCERTAIN 63, 1)]).on (F.GVS_S_STAT_EXPO_UNCERTAIN 63) = true ∧
    ({ Tests.st with eth := { mrq := [(15, [], 0, 0)] } } : State).eth.mrq.find? (fun e => e.1 == 15) = some (15, [], 0, 0) ∧
    (∀ n ∈ [60, 256], let v := (BitVec.ofNat 32 (2 ^ 31 + n))
      v.getLsbD 31 = true ∧ v.getLsbD 30 = false ∧ v.getLsbD 29 = false ∧ 60 ≤ fieldOf v 8 0 ∧ fieldOf v 8 0 ≤ 256) ∧
    (Tests.sets Tests.st [(F.ETH_STAT_LINK_UP 15, 1)]).on (F.ETH_STAT_LINK_UP 15) = true ∧
    (∀ n ∈ [8, 576], fieldOf (BitVec.ofNat 32 (2 ^ 31 + n)) 9 0 = n) ∧ Tests.st.on F.GVS_RLY_STAT_BUSY = false ∧
    ({ Tests.st with now := 5, eth := { relay := some (63, [], 0, some 0, 5) } } : State).eth.relay = some (63, [], 0, some 0, 5) ∧
    (∀ n ∈ [1, 2],
      (Tests.sets Tests.st [(F.GVS_RLY_CFG_RETRIES, 1), (F.GVS_RLY_STAT_ATTEMPTS, n)]).f F.GVS_RLY_CFG_RETRIES = 1 ∧
      (Tests.sets Tests.st [(F.GVS_RLY_CFG_RETRIES, 1), (F.GVS_RLY_STAT_ATTEMPTS, n)]).f F.GVS_RLY_STAT_ATTEMPTS = n) ∧
    (let s := { Tests.lives Tests.st [(F.GVS_S_HB_EN 63, 1), (F.GVS_S_HB_PERIOD 63, 1)] with now := 1000000 }
     s.lon (F.GVS_S_HB_EN 63) = true ∧ s.lf (F.GVS_S_HB_PERIOD 63) ≠ 0 ∧
      (s.strm 63).hbFrom + s.lf (F.GVS_S_HB_PERIOD 63) * 1000000 ≤ s.now) ∧
    (∀ n ∈ [1, 2], let s := { Tests.lives Tests.st [(F.GVS_S_HB_EN 63, 1)] with
                              now := 200000000, streams := [(63, { hbOut := [(7, 0)], hbMiss := n })] }
      (s.strm 63).hbOut = (7, 0) :: [] ∧ s.lon (F.GVS_S_HB_EN 63) = true ∧ (s.strm 63).hbMiss = n ∧ s.on (F.GVS_S_STAT_CAM_LOST 63) = false) ∧
    (let q := takeRx { Tests.st with eth := { rx := [.ptp 15 [] 0 0] } } (fun r => match r with | .ptp _ _ _ _ => true | _ => false)
     q.map (·.1) = some (.ptp 15 [] 0 0) ∧ q.map (fun q => (mrqOf q.2 15).length) = some 0) ∧
    (let c := bytesBE 6 0 ++ bytesBE 2 7
     let q := takeRx { Tests.st with eth := { rx := [.gvcp 0 0 c], relay := some (63, c, 0, none, 5) } }
       (fun r => match r with | .gvcp _ _ _ => true | _ => false)
     q.map (·.1) = some (.gvcp 0 0 c) ∧ q.bind (fun q => q.2.eth.relay) = some (63, c, 0, none, 5) ∧
      q.map (fun q => (q.2.lrd (R.GVS_S_CAM_IP 63), q.2.lf (F.GVS_S_CFG_PORT 63))) = some (0, 0) ∧
      c.length = 8 ∧ beAt c 2 2 ≠ 0x0089) := by and_intros <;> decide +kernel

/-- A frame open on parallel port 3, of four samples a line and two lines. -/
def Tests.frame : ParFrame :=
  { frame := 0, cfg := Tests.cfg [(F.PAR_SIZE_SIZE_X 3, 4), (F.PAR_SIZE_SIZE_Y 3, 2), (F.PAR_TMO_FRAME_TMO 3, 1)], pm := {}, wdFrom := 0 }
/-- A part with port 3 in some state. -/
def Tests.port (x : ParSt) : State := { Tests.st with pars := [(3, x)] }

theorem witness_ParallelPorts : Tests.st.up = true ∧ capturing Tests.st = true ∧ Tests.st.lon (F.PAR_CFG_FVAL_IGN 3) = false ∧
    (Tests.lives Tests.st [(F.PAR_CFG_FVAL_IGN 3, 1)]).lon (F.PAR_CFG_FVAL_IGN 3) = true ∧
    (∀ f ∈ [F.PAR_CFG_FVAL_POL 3, F.PAR_CFG_LVAL_POL 3, F.PAR_CFG_DVAL_POL 3],
      ctlActive (parCfg Tests.st 3) f true = true ∧ ¬ ctlActive (parCfg Tests.st 3) f false = true) ∧
    cfgOn (parCfg Tests.st 3) (F.PAR_CFG_DVAL_EN 3) = false ∧
    Tests.frame.line = none ∧ Tests.frame.lines < Tests.frame.sy 3 ∧ cfgF Tests.frame.cfg (F.PAR_CFG_TRIG_MODE 3) ≠ 2 ∧
    (let x : ParSt := { frame := some Tests.frame }
     ctlActive (parCfg (Tests.port x) 3) (F.PAR_CFG_LVAL_POL 3) true = true ∧
      ctlActive (parCfg (Tests.port x) 3) (F.PAR_CFG_FVAL_POL 3) false = false ∧
      ((Tests.port x).par 3).frame = some Tests.frame ∧ ((Tests.port x).par 3).blocked = false ∧ fvalIgn Tests.frame 3 = false) ∧
    (let f := { Tests.frame with line := some { pm := {} } }
     let x : ParSt := { frame := some f, lval := true }
     ((Tests.port x).par 3).lval = true ∧ ((Tests.port x).par 3).badClk = false ∧ ((Tests.port x).par 3).frame = some f ∧
      cfgOn (parCfg (Tests.port x) 3) (F.PAR_CFG_DVAL_EN 3) = false ∧ ctlActive (parCfg (Tests.port x) 3) (F.PAR_CFG_LVAL_POL 3) false = false ∧
      (let u := parLineEnd (Tests.port x) 3
       let u := u.setPar 3 { u.par 3 with lval := false, blocked := (u.par 3).blocked && !u.lon (F.PAR_CFG_FVAL_IGN 3) }
       (u.par 3).frame.map (fun g => fvalIgn g 3) = some false)) ∧
    (let u := parLineEnd Tests.st 3
     let u := u.setPar 3 { u.par 3 with lval := false, blocked := (u.par 3).blocked && !u.lon (F.PAR_CFG_FVAL_IGN 3) }
     (u.par 3).frame = none) ∧
    cfgF Tests.frame.cfg (F.PAR_TMO_FRAME_TMO 3) = 1 ∧
    Tests.frame.wdFrom + (1 : Nat) * 1000 ≤ ({ Tests.st with tim := { clk := 1000 * 2 ^ 32 } } : State).tim.total ∧
    (Tests.st.par 3).badClk = false ∧
    (let s := { Tests.port { badClk := true, goodFrom := some 0 } with now := 100000 }
     (s.par 3).badClk = true ∧ (s.par 3).goodFrom = some 0 ∧ 0 + 100000 ≤ s.now) ∧
    Tests.st.f (F.TRG_GPIO_CFG_MODE 15) = 0 ∧
    (Tests.sets Tests.st [(F.TRG_GPIO_CFG_MODE 15, 3)]).f (F.TRG_GPIO_CFG_MODE 15) = 3 ∧
    Tests.st.f (F.TRG_GPIO_CFG_FILT 15) ≤ (0xFFFFFFFF : Word).toNat := by decide +kernel

/-! ### Witnesses: the Mill, the collator, heads, thresher, granary, rings -/

/-- What a frame of stream 63 takes into the Mill: four samples by one line. -/
def Tests.info : FrameInfo := ⟨63, 0, {}, 0x01080001, 0, 4, 1, false, [], {}⟩
/-- A line of it. -/
def Tests.line : MillIn := .line 63 0 0 [some 1, some 2, some 3, none] {}
/-- What that line carries. -/
def Tests.md : LineMeta := ⟨0, 0, {}, 0, 0, 0, true, 1, 0, 1⟩
/-- A part with stream 63 of the Mill in some state. -/
def Tests.mill (x : MillSt) : State := { Tests.st with mills := [(63, x)] }

theorem witness_MillCommands :
    (let b : TdiBin := { n := 0, md := Tests.md, info := Tests.info }
     ((Tests.mill { ready := [b] }).mill 63).ready = b :: []) ∧
    ({ Tests.st with toMill := [Tests.line] } : State).toMill = Tests.line :: [] ∧
    Tests.st.up = true ∧ queueFull (Tests.mill { inq := List.replicate 3 (Tests.line, false) }) 63 = false ∧
    queueFull { Tests.lives Tests.st [(F.MIL_INQ_LINES 63, 4)] with mills := [(63, { inq := List.replicate 4 (Tests.line, false) })] } 63 = true ∧ Tests.st.f F.DEV_MODE_MODE ≠ 6 ∧
    (Tests.sets Tests.st [(F.DEV_MODE_MODE, 6)]).f F.DEV_MODE_MODE = 6 ∧
    (let s := Tests.mill { inq := [(.opened Tests.info, false), (Tests.line, false)] }
     let u := (List.range 64).foldl (fun t n => drainMarks (t.mill n).inq.length t n) s
     (List.range 64).find? (fun k => segReady u ((u.millLast + 1 + k) % 64)) = some 63 ∧ (u.millLast + 1 + 63) % 64 = 63) ∧
    ((Tests.mill { recs := [([], 0, 0)] }).mill 63).recs = ([], 0, 0) :: [] ∧
    (let s := Tests.sets Tests.st [(F.MIL_CAL_CFG_FRAMES 63, 1), (⟨R.MIL_CAL_TBL 63, 31, 0⟩, 1)]
     (s.mill 63).calRun = false ∧ s.f (F.MIL_CAL_CFG_FRAMES 63) ≠ 0 ∧ s.rd (R.MIL_CAL_TBL 63) ≠ 0 ∧
      (∀ p < 4, (parActive s p && s.lf (F.PAR_CFG_STREAM p) == 63) = false)) := by decide +kernel

/-- A cut sheaf of sequence 7. -/
def Tests.sheaf : SheafSt := { no := 0, buf := 0, stage := .cut, cfg := Tests.cfg [(F.COL_SQ_PITCH_PITCH 7, 64), (F.COL_SQ_LPITCH_LPITCH 7, 64),
  (F.COL_SQ_CLOSE_TMO_TMO 7, 1)], spans := [], epoch := 0 }
/-- A part with sequence 7 in some state and enabled, strips on its right side over link 7. -/
def Tests.col (x : SeqSt) : State :=
  { Tests.lives Tests.st [(F.COL_SQ_CFG_ENABLE 7, 1), (F.COL_SQ_PITCH_PITCH 7, 64), (F.COL_SQ_LPITCH_LPITCH 7, 64), (F.COL_SQ_WIDTH_WIDTH 7, 32),
      (F.COL_SQ_BUF_BASE_BASE 7, 1), (F.COL_SQ_REC_BASE_BASE 7, 1), (F.COL_SQ_XCH_R_EN 7, 1), (F.COL_SQ_XCH_SW 7, 1),
      (F.COL_SQ_XCH_R_LINK 7, 7), (F.COL_SQ_XID_XID 7, 9)] with seqs := [(7, x)], inputs := [(inCut 7, { pend := [(6, 0)] })] }

theorem witness_CollatorCommands : Tests.st.up = true ∧
    (let o : OutLine := ⟨63, 1, Tests.md, []⟩; ({ Tests.st with toCol := [o] } : State).toCol = o :: []) ∧
    ((Tests.col {}).input (inCut 7)).pend = (6, 0) :: [] ∧ (isRelay (inCut 7) && (6 : Nat) == 7) = false ∧
    ((Tests.col {}).setInput (inCut 7) { pend := [], took := some 0 }).f F.DEV_MODE_MODE ≠ 6 ∧
    (Tests.sets (Tests.col { lastPos := some 5 }) [(F.DEV_MODE_MODE, 6)]).f F.DEV_MODE_MODE = 6 ∧
    ((Tests.col { lastPos := some 5 }).seq 7).lastPos = some 5 ∧
    (∃ h ∈ ((cutWhere (Tests.col { sheaves := [Tests.sheaf] }) 7 true (fun _ => true)).seq 7).sheaves, h.stage = .cut) ∧
    (∀ h ∈ ((cutWhere (Tests.col {}) 7 true (fun _ => true)).seq 7).sheaves, h.stage ≠ .cut) ∧
    (let s := Tests.col { sheaves := [Tests.sheaf] }
     firstSheaf (s.seq 7) (sqDir (colCfg s) 7) (fun h => h.stage != .closed && decide (h.settled < sqLines h.cfg 7) &&
        membersDone s 7 h h.settled && bandsThere 7 h h.settled) = some Tests.sheaf) ∧
    (let h := { Tests.sheaf with settled := 1 }
     nextToClose (Tests.col { sheaves := [h] }) 7 = some h ∧ h.settled = sqLines h.cfg 7) ∧
    (let h := { Tests.sheaf with cutAt := some 0 }
     nextToClose { Tests.col { sheaves := [h] } with now := 1000 } 7 = some h ∧ cfgF h.cfg (F.COL_SQ_CLOSE_TMO_TMO 7) = 1) ∧
    ((Tests.col { bands := [(true, 7, [])] }).seq 7).bands = (true, 7, []) :: [] ∧
    (let u : State := { Tests.col {} with strips := [] }
     ({ u with strips := [(7, [9, 0])] } : State).strips = (7, [9, 0]) :: [] ∧ bandSide (colCfg u) 7 [9, 0] = some (7, true) ∧
      bandSide (colCfg u) 6 [9, 0] = none) := by decide +kernel

/-- A unit that output `o` works on. -/
def Tests.unit (o : Nat) : HUnit :=
  { id := 1, out := o, cfg := Tests.cfg [(F.HED_O_WAIT_WAIT o, 1)], u := { kind := 1 },
    addr := 0, cols := 1, chans := 1, step := 4, rows := 1, from_ := 0 }

theorem witness_HeadCommands : Tests.st.up = true ∧ Tests.st.f F.DEV_MODE_MODE ≠ 7 ∧
    (∀ a ∈ [Arrive.sheaf 31 7 0 true 0, .lines (Tests.unit 31)],
      ({ Tests.st with hedQ := [a] } : State).hedQ.find? (fun b => b.head == a.head) = some a ∧ a.head < 3) ∧
    (let h := { Tests.unit 31 with formed := true }
     firstUnit { Tests.st with hunits := [h] } 31 = some h ∧ h.offered = false ∧ h.first = none ∧ h.formed = true) ∧
    (let h := Tests.unit 24
     firstUnit { Tests.st with hunits := [h] } 24 = some h ∧ h.formed = false ∧ boxesReady { Tests.st with hunits := [h] } h = true) ∧
    (let h := { Tests.unit 31 with first := some 0, last := 0 }
     let s := { Tests.st with hunits := [h], now := 1000 }
     firstUnit s 31 = some h ∧ h.last + 1000 ≤ s.now ∧ 0 + cfgF h.cfg (F.HED_O_WAIT_WAIT 31) * 1000 ≤ s.now) ∧
    (let h := Tests.unit 23
     let s := { Tests.st with hunits := [h] }
     s.hunits.find? (fun h => h.out == 16 + 7 && !h.formed) = some h ∧ boxesReady s h = true ∧ stillSending s 23 = false ∧
      stillSending { s with outs := [(23, { txUntil := 1 })] } 23 = true) := by decide +kernel

/-- A tile of sheaf 0 of sequence 7. -/
def Tests.tile : Tile := ⟨7, 0, 0, 0, 0, 1, 1, 0, 0, 1, 1, true, true, []⟩
/-- TC0 with its cluster memory named in s6 and what it waits for; the closed sheaf that the tile is of. -/
def Tests.tc (w : Wait) (waited : Nat) (tiles : List Tile) : State :=
  { Tests.st with
    cores := [(4, { Tests.core with s := [(3, 1), (6, 0x10000000), (7, 0x101FFFC0)], wait := w, waited := waited })]
    seqs := [(7, { sheaves := [{ Tests.sheaf with stage := .closed, holders := 8 }] })]
    thr := { queues := [(0, tiles)] } }

theorem witness_ThresherFeed : Ready (Tests.tc .none 0 []) 4 true ∧
    (let k := (Tests.tc .none 0 []).core 4
     (k.rs 7).toNat = 0x101FFFC0 ∧ 0x101FFFC0 % 64 = 0 ∧ granted k.grant.rings (255 % 256) = true ∧ inCluster 0x101FFFC0 64 = true ∧
      (k.rs 6).toNat = 0x10000000 ∧ inCluster 0x10000000 64 = true ∧ k.rs 3 ≠ 0 ∧ k.rs 0 = 0 ∧
      nearBytes (Tests.tc .none 0 []) k 4 0x10000000 64 = .ok (List.replicate 64 0)) ∧
    granted ({ Tests.core with grant := { Tests.grant with rings := (0, 255) } } : CoreSt).grant.rings (255 % 256) = false ∧
    feedFault (Tests.tc .none 0 [Tests.tile]) 4 0x10000000 = none ∧
    (feedFault (Tests.tc .none 0 [Tests.tile]) 4 0x101FFFC0).isSome = true ∧ feedFault (Tests.tc .none 0 []) 4 0x10000000 = none ∧
    (headTile (endHold (Tests.tc .none 0 [Tests.tile]) 4) 4).isSome = true ∧
    (headTile (endHold (Tests.tc .none 0 []) 4) 4).isNone = true ∧
    Waits (Tests.tc (.tfeed 0x10000000 5 1) 0 [Tests.tile]) 4 (.tfeed 0x10000000 5 1) ∧
    (headTile (Tests.tc (.tfeed 0x10000000 5 1) 0 [Tests.tile]) 4).isSome = true ∧
    Waits (Tests.tc (.tfeed 0x10000000 5 1) 5 []) 4 (.tfeed 0x10000000 5 1) ∧ tileQ (Tests.tc (.tfeed 0x10000000 5 1) 5 []) 0 = [] ∧
    5 ≤ ((Tests.tc (.tfeed 0x10000000 5 1) 5 []).core 4).waited ∧
    Waits (Tests.tc (.flpush 0x10000000 1) 0 []) 4 (.flpush 0x10000000 1) ∧ Tests.st.thr.flq.length < 64 ∧
    64 ≤ ({ Tests.st with thr := { flq := List.replicate 64 (4, 0, 1) } } : State).thr.flq.length := by
  and_intros <;> first | decide +kernel | rfl
theorem witness_ThresherFeed_thresher : Tests.st.up = true ∧ Tests.st.f F.DEV_MODE_MODE ≠ 7 ∧
    (let s := { Tests.lives Tests.st [(F.THR_SQ_CFG_CORE_COUNT 7, 1)] with thr := { jobs := [⟨7, 0, 0, none, 0⟩] } }
     ((List.range 8).map (fun k => (s.thr.lastSeq + 1 + k) % 8)).findSome? (dealable s) = some (⟨7, 0, 0, none, 0⟩, 0)) ∧
    ({ Tests.st with thr := { flq := [(4, 0, 1)] } } : State).thr.flq = (4, 0, 1) :: [] ∧
    (let g : Handle := ⟨1, 4, 7, 0, 0, 0, 0, 0, 0, 0, 64, 0, 1, 1, 1, 1, 64, []⟩
     let x : DefRec := { ring := 255, bytes := [], h := some g, at_ := 0, crop := some (0, 0, 1, 1) }
     let s := { Tests.st with thr := { recs := [x] } }
     s.thr.recs.zipIdx.find? (fun e => e.1.crop.isSome) = some (x, 0) ∧ x.h = some g ∧ x.crop = some (0, 0, 1, 1)) ∧
    (let x : DefRec := { ring := 255, bytes := [], h := none, at_ := 0 }
     ∀ n ∈ [1, 2], let s := Tests.sets { Tests.st with now := 100000, thr := { recs := [x, x] } } [(F.DLV_R_POLICY_BATCH 255, n)]
      let mine := s.thr.recs.filter (fun x => x.ring == 255)
      let same := mine.takeWhile (fun y => recSheaf y == recSheaf x)
      mine = x :: [x] ∧ n ≤ same.length ∧ x.at_ + 100000 ≤ s.now ∧ (∀ x ∈ same.take n, x.crop = none)) := by
  and_intros <;> decide +kernel

/-- A part whose extract for ring 255 stands before its first segment, one line of stream 63. -/
def Tests.seg : State :=
  { Tests.sets Tests.st [(F.DLV_R_STAT_STATE 255, 1)] with
    gran := { segs := [{ i := 0, stream := 63, epoch := 0, full := true, alloc := 0, lines := 1, bytes := 64 }]
              run := some { r := ⟨false, false, 0, 255, 0, 2 ^ 63, 0, 0, 0, 0⟩, todo := [(63, 0, 0, false)], started := 0 } }
    rings := [(255, { on := true })] }

theorem witness_GranaryCommands :
    (partUse Tests.st 0 = 0 ∧ extentsOk (extents Tests.st 0 1 (Tests.st.f (F.MEM_PART_SIZE_SIZE 0))) = true) ∧
    (let s := Tests.sets Tests.st [(F.MEM_PART_BASE_BASE 1, 1024)]
     extentsOk (extents s 1 (s.f (F.MEM_PART_BASE_BASE 1)) 1) = true) ∧
    (let s := Tests.sets Tests.st [(F.MEM_SCRUB_PERIOD, 1)]
     s.on F.MEM_SCRUB_PERIOD = true ∧ s.poison.contains s.gran.scrub = false ∧
      ({ s with poison := [0] } : State).poison.contains s.gran.scrub = true) ∧
    (let t : TapLine := ⟨⟨63, 1, Tests.md, []⟩, true, 16, false, true⟩
     ({ Tests.st with toTap := [t] } : State).toTap = t :: []) ∧
    ({ Tests.st with gran := { reqs := List.replicate 7 ⟨false, false, 0, 0, 0, 0, 0, 0, 0, 0⟩ } } : State).gran.reqs.length < 8 ∧
    (let x : XRun := { r := ⟨false, true, 0, 255, 0, 1, 0, 0, 0, 1⟩, todo := [], started := 0 }
     let s := { Tests.sets Tests.st [(F.DLV_R_STAT_STATE 255, 1)] with now := 1000000, gran := { run := some x }, rings := [(255, { on := true })] }
     s.gran.run = some x ∧ x.r.wait = true ∧ x.r.tmo ≠ 0 ∧ xNext s x = .wait ∧ x.started + x.r.tmo * 1000000 ≤ s.now ∧
      ringActive s x.r.ring = true ∧ xNext Tests.st x = .finish ∧ x.cur = none) ∧
    (let c : XCur := ⟨{ kind := 6 }, 0, 0, 0, 0, 0⟩
     let x : XRun := { r := ⟨false, true, 0, 255, 0, 1, 0, 0, 0, 1⟩, todo := [], started := 0, cur := some c }
     x.offered = false ∧ x.cur = some c) ∧
    (let x : XRun := { r := ⟨false, false, 0, 255, 0, 2 ^ 63, 0, 0, 0, 0⟩, todo := [(63, 0, 0, false)], started := 0 }
     let t := readSeg Tests.seg x 63 0 0
     Tests.seg.gran.run = some x ∧ x.offered = false ∧ x.cur = none ∧ (xNext Tests.seg x == .read 63 0 0) = true ∧
      (t.gran.run.bind (·.cur)).isSome = true ∧ ringActive t 255 = true ∧ (t.gran.run.map (·.r.ring)) = some 255) ∧
    (let r : XReq := ⟨false, false, 0, 0, 0, 0, 0, 0, 0, 0⟩
     let s := { Tests.st with gran := { reqs := [r] } }
     s.gran.run = none ∧ s.gran.reqs = r :: []) := by decide +kernel

/-- A part whose host side is up, with ring 255 in a state. -/
def Tests.ring (st : Nat) (x : RingSt) : State := { Tests.sets Tests.linked [(F.DLV_R_STAT_STATE 255, st)] with rings := [(255, x)] }

theorem witness_RingCommands :
    (let o : Offer := ⟨255, { kind := 1 }⟩; ({ Tests.st with offers := [o] } : State).offers = o :: []) ∧
    pmReason (Tests.ring rActive { on := true }) 255 = some 3 ∧
    (ringState Tests.st 255 = rDisabled ∧ Tests.st.on (F.DLV_R_POLICY_EN 255) = false ∧ fieldOf (0x40000040 : Word) 30 29 ≠ 3 ∧
      (0x40000040 : Word).getLsbD 31 = false ∧ fieldOf (0x40000040 : Word) 6 0 ≤ 64) ∧
    ringState (Tests.ring rHeld {}) 255 ≠ rDisabled ∧ (Tests.ring rHeld {}).on (F.DLV_R_POLICY_EN 255) = false ∧
    (let s := (Tests.sets (Tests.ring rHeld {}) [(F.DLV_R_POLICY_EN 255, 1), (F.DLV_CQ_STAT_ENABLED 0, 1)]).setPair
       (R.DLV_H_BASE_LO 255) (R.DLV_H_BASE_HI 255) 4096
     hostUp s = true ∧ canActivate s 255 = true) ∧
    (∀ st ∈ [rActive, rDraining], ringState (Tests.ring st {}) 255 = st ∧ inTransfer (Tests.ring st {}) 255 = false ∧
      inTransfer { Tests.ring st {} with dmas := [(ringChan (Tests.ring st {}) 255, { ring := some 255 })] } 255 = true) ∧
    (∀ n ∈ [1, 4096], let s := { Tests.ring rActive { on := true, since := n } with now := 10000000000 }
      (s.ring 255).on = true ∧ (s.ring 255).signing = none ∧ (s.ring 255).since = n ∧ (s.ring 255).cancelAt + 10000000000 ≤ s.now) ∧
    (∀ final ∈ [true, false], let s := { Tests.ring rActive { signing := some ([], final) } with signQ := [255] }
      s.signQ = 255 :: [] ∧ (s.ring 255).signing = some ([], final)) ∧
    (let p : Placed := ⟨none, 0, 1⟩
     let s := Tests.sets (Tests.ring rActive { placed := [p] }) [(F.DLV_CQ_STAT_ENABLED 0, 1)]
     let n := ringChan s 255
     s.pci.rst = none ∧ canRequest s = true ∧ chState s n = dIdle ∧ nextRing s n = some 255 ∧ n < 64 ∧
      (let t := Tests.sets { s with dmas := [(n, { ring := some 255, off := 128 })] } [(F.DMA_C_STAT_STATE n, dRunning)]
       (t.dma n).ring = some 255 ∧ (t.ring 255).placed = p :: [] ∧ chState t n = dRunning ∧ ringTotal t 255 ≤ (t.dma n).off ∧
        cqFull t (t.f (F.DLV_H_CFG_CQ 255)) = false ∧
        cqFull (Tests.sets (t.wr (R.DLV_CQ_TAIL 0) 2) [(F.DLV_CQ_CFG_LOG2 0, 1)]) (t.f (F.DLV_H_CFG_CQ 255)) = true)) := by decide +kernel
theorem witness_RingCommands_between :
    (let s := { Tests.ring rDraining { loss := some {} } with signQ := [] }
     ringState s 255 = rDraining ∧ (s.ring 255).held = [] ∧ (s.ring 255).placed = [] ∧ (s.ring 255).loss.isSome = true ∧
      (s.ring 255).signing = none ∧ ((Tests.ring rDraining {}).ring 255).loss = none ∧ ((Tests.ring rDraining {}).ring 255).waiting = []) ∧
    (let o : Offer := ⟨255, { kind := 2, src := .extract }⟩
     let s := { Tests.ring rActive { on := true } with gran := { reports := [o] } }
     s.offers = [] ∧ s.gran.reports.filter (fun o => ringActive s o.ring) = [o] ∧ nextOffer s (s.thr.units ++ [o]) [] = some o) ∧
    (let p : Placed := ⟨none, 0, 1⟩
     let s := Tests.sets (Tests.ring rActive { placed := [p] }) [(F.DLV_CQ_STAT_ENABLED 0, 1)]
     let n := ringChan s 255
     let t := s.sf (F.DMA_C_STAT_STATE n) dRunning
     chState t n = dRunning ∧ (t.dma n) = {} ∧ nextRing t n = some 255 ∧
      chState (Tests.sets Tests.linked [(F.DMA_C_STAT_STATE 63, dRunning)]) 63 = dRunning ∧ Tests.linked.dma 63 = {} ∧
      nextRing (Tests.sets Tests.linked [(F.DMA_C_STAT_STATE 63, dRunning)]) 63 = none) := by decide +kernel

/-! ### Witnesses: queues and DMA -/

theorem witness_QueuesAndDma :
    hostUp Tests.st = true ∧
    (let s := Tests.st.wr (R.DLV_CQ_TAIL 31) 5
     let old := s.rd (R.DLV_CQ_HEAD 31)
     ((5 : Word) - old).toNat ≤ (s.rd (R.DLV_CQ_TAIL 31) - old).toNat ∧ (s.rd (R.DLV_CQ_TAIL 31) - old).toNat < ((6 : Word) - old).toNat) ∧
    (Tests.st.setPair (R.DLV_CQ_BASE_LO 31) (R.DLV_CQ_BASE_HI 31) 4096).pair (R.DLV_CQ_BASE_LO 31) (R.DLV_CQ_BASE_HI 31) ≠ 0 ∧
    cqBusy Tests.st 31 = false ∧
    (let s := Tests.sets { Tests.st with dmas := [(63, { ring := some 0 })] } [(F.DLV_CQ_STAT_ENABLED 0, 1)]
     cqBusy s 0 = true ∧ cqOn s 0 = true) ∧
    (let s := Tests.sets { Tests.st with now := 1000, rings := [(255, { unsig := 1 })], cqs := [(31, { unsig := 1 })] }
       [(F.DLV_CQ_MOD_MOD_TIME 0, 1), (F.DLV_CQ_MOD_MOD_TIME 31, 1)]
     (s.ring 255).unsig ≠ 0 ∧ s.f (F.DLV_CQ_MOD_MOD_TIME (s.f (F.DLV_H_CFG_CQ 255))) = 1 ∧ (s.ring 255).unsigAt + 1 * 1000 ≤ s.now ∧
      (s.cq (255 % 32)).unsig ≠ 0 ∧ s.f (F.DLV_CQ_MOD_MOD_TIME 31) = 1 ∧ (s.cq 31).unsigAt + 1 * 1000 ≤ s.now) := by decide +kernel
/-- A part whose host side is up, with DMA channel 63 in a state. -/
def Tests.dma (st : Nat) (d : DmaSt) : State := { Tests.sets Tests.linked [(F.DMA_C_STAT_STATE 63, st)] with dmas := [(63, d)] }
theorem witness_QueuesAndDma_channels : (Tests.dma 0 {}).up = true ∧ (Tests.dma 0 {}).pci.rst = none ∧
    isRingChan (Tests.dma 0 {}) 63 = false ∧ chState (Tests.dma 0 {}) 63 = dIdle ∧
    (((Tests.dma 0 {}).applyRange (R.DMA_C_SRC_LO 63) (R.DMA_C_USER 63 + 4)).lrd (R.DMA_C_CTRL 63)).getLsbD 31 = false ∧
    (({ Tests.dma 0 {} with inputs := [(inDma 63, { pend := [(6, 0)] })] } : State).input (inDma 63)).pend = (6, 0) :: [] ∧
    (isRelay (inDma 63) && (6 : Nat) == 7) = false ∧
    chState (Tests.dma dParked {}) 63 = dParked ∧ chState (Tests.dma dRunning {}) 63 = dRunning ∧ liveReads (Tests.dma dRunning {}) 63 = [] ∧
    chState (Tests.dma dPaused {}) 63 = dPaused ∧ ((Tests.dma dPaused {}).dma 63).parked = false ∧
    (∀ st ∈ [dRunning, dParked], let s := Tests.dma st { fetch := true, data := some none }
      (s.dma 63).fetch = true ∧ chState s 63 = st ∧ (s.dma 63).data = some none) ∧
    (∀ h ∈ [true, false], let s := Tests.dma dRunning { fetch := true, descHost := h }
      (s.dma 63).fetch = true ∧ (s.dma 63).data = none ∧ (s.dma 63).descHost = h ∧ devRange s 63 (s.dma 63).desc 64 false = none ∧
      s.poison.contains ((s.dma 63).desc / 64) = false ∧ ({ s with poison := [0] } : State).poison.contains ((s.dma 63).desc / 64) = true) ∧
    (pickBurst (Tests.dma dRunning { active := true, remain := 1 }) false).map (fun p => (p.1, (p.2.dma p.1).ring)) = some (63, none) ∧
    (pickBurst (Tests.dma dRunning { active := true, remain := 1, ctrl := BitVec.allOnes 32 }) true).map (·.1) = some 63 ∧
    (let p : Placed := ⟨none, 0, 1⟩
     (pickBurst { Tests.dma dRunning { ring := some 255 } with rings := [(255, { placed := [p] })] } false).map
       (fun p => (p.1, (p.2.dma p.1).ring)) = some (63, some 255)) := by decide +kernel

/-! ### Witnesses: the Ebkel fabric -/

/-- A part with Ebkel link 7 in a phase. -/
def Tests.link (p : Nat) (x : LinkSt) : State :=
  { Tests.sets Tests.st [(F.EBK_STATE_PHASE 7, p), (F.EBK_NODE_NODE, 1), (F.EBK_CFG_LANE 7, 23)] with ebk := { links := [(7, x)] }, now := 100000000 }
/-- An IDENT block of node 2 and its three repeats. -/
def Tests.ident : Dword := BitVec.ofNat 64 (2 * 2 ^ 39 + 0x99)

theorem witness_LinkBringUp : Tests.st.up = true ∧
    (∀ p ∈ [lkSend, lkHunt, lkAdapt, lkGreet, lkRange, lkRun], phase (Tests.link p {}) 7 = p ∧ phase (Tests.link p {}) 7 ≠ lkOff) ∧
    ((Tests.link lkAdapt {}).link 7).phaseAt + 10000000 ≤ (Tests.link lkAdapt {}).now ∧
    800 < (0x8000 : BitVec 16).toInt.natAbs ∧ (BitVec.ofInt 16 (-800)).toInt.natAbs ≤ 800 ∧ blockType Tests.ident = 0x99 ∧
    (let s := Tests.link lkGreet { ident := some (Tests.ident.toNat, 2) }
     let u := s.setLink 7 { s.link 7 with ident := some (Tests.ident.toNat, 3) }
     (s.link 7).ident = some (Tests.ident.toNat, 2) ∧ (Tests.link lkGreet {}).link 7 = {} ∧
      pf Tests.ident 35 34 = u.f (F.LNK_LANE_CFG_RATE (u.f (F.EBK_CFG_LANE 7))) ∧ pf Tests.ident 63 48 = u.f F.EBK_NODE_SYS_ID ∧
      pf Tests.ident 47 39 ≠ u.f F.EBK_NODE_NODE) ∧
    ((Tests.link lkRange {}).link 7).identAt + 1000 ≤ (Tests.link lkRange {}).now ∧
    ((Tests.link lkRange {}).link 7).probeAt + 1000 ≤ (Tests.link lkRange {}).now ∧
    ¬ 16 ≤ ((Tests.link lkRange { probes := 15 }).link 7).probes ∧ 16 ≤ ((Tests.link lkRange { probes := 16 }).link 7).probes ∧
    (blockType 0x33 = 0x33 ∧ pf 0x33 63 63 ≠ 1) ∧ (blockType (BitVec.ofNat 64 (2 ^ 63 + 0x33)) = 0x33 ∧ pf (BitVec.ofNat 64 (2 ^ 63 + 0x33)) 63 63 = 1) ∧
    (∀ p ∈ [1, 4], let s := Tests.link p { absentAt := some 0 }
      (s.link 7).absentAt = some 0 ∧ phase s 7 = p ∧ s.on (F.EBK_STATE_LINK_ABSENT 7) = false ∧ 0 + 100000000 ≤ s.now) := by decide +kernel

/-- A frame of class, destination and source 0. -/
def Tests.ebkFrame : EbkFrame := ⟨0, 0, 0, 0, [], none⟩

theorem witness_EbkelTraffic_slots :
    (let a : ReadyBlock := { rank := 0, due := 5, type := 0x2D }
     let b : ReadyBlock := { rank := 0, due := 5, order := 7, type := 0x2D }
     ((Tests.link lkRun { value := some [] }).link 7).value = some [] ∧ ((Tests.link lkRun { ready := [b, a] }).link 7).ready ≠ [] ∧
      a.before b = true ∧ b.before a = false ∧ a.before a = false ∧ ((Tests.link lkRun { wire := [(none, [])] }).link 7).wire = (none, []) :: [] ∧
      ((Tests.link lkRun { txq := [(4095, Tests.ebkFrame)] }).link 7).txq = (4095, Tests.ebkFrame) :: []) ∧
    ((Tests.st.core 0).run = .running ∧ coreReaches Tests.st 0 R.EBK_X_GO true = true) ∧
    (({ Tests.st with toLink := [⟨7, []⟩] } : State).toLink ≠ [] ∧ Tests.st.ebk.copies = [] ∧ Tests.st.ebk.sending = none) ∧
    (let s := { Tests.st with toLink := [⟨7, []⟩], ebk := { copies := [⟨0, 0, 1, 2⟩], stripLast := true } }
     s.ebk.stripLast = true ∧ s.ebk.copies ≠ [] ∧ s.ebk.sending = none ∧ Tests.st.ebk.stripLast = false) ∧
    (let s := { Tests.st with ebk := { copies := [⟨0, 0, 1, 2⟩] } }
     s.toLink = [] ∧ s.ebk.copies ≠ [] ∧ s.ebk.sending = none) ∧
    (let s := Tests.sets (Tests.link lkRun { queue := List.replicate 32 ⟨0, 2, 0, 0, List.replicate 8192 0, none⟩ })
       [(F.EBK_ROUTE_VALID 2, 1), (F.EBK_ROUTE_LINK 2, 7)]
     frameRoom s 2 1 16 = false ∧ frameRoom s 2 0 16 = true ∧ frameRoom s 1 1 16 = true) := by decide +kernel
theorem witness_EbkelTraffic :
    ((0x80000000 : Word).getLsbD 31 = true ∧ Tests.st.ebk.copies.length < 8 ∧
      (let s := Tests.sets Tests.st [(F.EBK_X_LEN_LEN, 1)]
       s.f F.EBK_X_LEN_LEN ≠ 0 ∧ copyAllowed s .host (s.f F.EBK_X_SRC_SRC * 64) (s.f F.EBK_X_LEN_LEN) = true)) ∧
    (let s := Tests.link lkRun { unacked := [Tests.ebkFrame], ackAt := 0 }
     let p : Dword := BitVec.ofNat 64 (2 ^ 50 + 0x66)
     let n := (pf p 61 50 + 4096 - (s.link 7).base) % 4096
     phase s 7 = lkRun ∧ blockType p = 0x66 ∧ 0 < n ∧ n ≤ (s.link 7).unacked.length ∧ pf p 63 63 = 0 ∧ (s.link 7).unacked ≠ [] ∧
      (s.link 7).ackAt + (if s.f (F.EBK_RETRY_RETRY_TMO 7) = 0 then 20 else s.f (F.EBK_RETRY_RETRY_TMO 7)) * 1000 ≤ s.now) ∧
    (∀ n ∈ [16, 17, 8192], let p : Dword := BitVec.ofNat 64 (n * 2 ^ 16 + 0x78)
      blockType p = 0x78 ∧ pf p 29 16 = n ∧ (List.replicate (ceilDiv n 8 * 8) (0 : Byte)).length = ceilDiv n 8 * 8 ∧ pf p 59 48 = ((Tests.link lkRun {}).link 7).expect) ∧
    (let s := Tests.sets (Tests.link lkRun {}) [(F.EBK_BCN_EN 7 7, 1), (F.EBK_BCN_PERIOD 7 7, 1)]
     s.on (F.EBK_BCN_EN 7 7) = true ∧ s.f (F.EBK_BCN_PERIOD 7 7) ≠ 0 ∧ (s.link 7).bcn.find? (fun e => e.1 == 7) = none ∧
      (let t := s.setLink 7 { s.link 7 with bcn := [(7, 0, 1)] }
       (t.link 7).bcn.find? (fun e => e.1 == 7) = some (7, 0, 1) ∧ 0 + t.f (F.EBK_BCN_PERIOD 7 7) * 1000 ≤ t.now)) ∧
    (blockType 0x2D = 0x2D ∧ pf 0x2D 63 63 = 0 ∧ pf (BitVec.ofNat 64 (2 ^ 63 + 0x2D)) 63 63 = 1 ∧
      blockType (BitVec.ofNat 64 (2 ^ 63 + 0x2D)) = 0x2D) ∧
    (let p := fun (hop node nbr : Nat) => BitVec.ofNat 64 (hop * 2 ^ 54 + node * 2 ^ 36 + nbr * 2 ^ 35 + 0x55)
     let s := Tests.sets (Tests.link lkRun {}) [(F.EBK_ROUTE_VALID 2, 1), (F.EBK_ROUTE_LINK 2, 7)]
     (∀ h ∈ [0, 6, 7], blockType (p h 0 1) = 0x55 ∧ pf (p h 0 1) 35 35 = 1 ∧ pf (p h 0 1) 56 54 = h) ∧
      pf (p 0 1 0) 44 36 = s.f F.EBK_NODE_NODE ∧ pf (p 0 2 0) 35 35 ≠ 1 ∧ pf (p 0 2 0) 44 36 = 2 ∧ 2 ≠ s.f F.EBK_NODE_NODE ∧
      s.on (F.EBK_ROUTE_VALID 2) = true ∧ routeOf s 2 = some 7 ∧ eventRoom s 7 = true ∧
      eventRoom (s.setLink 7 { s.link 7 with ready := List.replicate 16 { rank := 3, due := 0, type := 0x55 } }) 7 = false) ∧
    (let s := { Tests.sets (Tests.link lkRun {}) [(F.EBK_REV_VALID 127, 1), (F.EBK_REV_NBR 127, 1)] with
                  inputs := [(inRemote 127, { pend := [(6, 0)] })] }
     s.on (F.EBK_REV_VALID 127) = true ∧ s.on (F.EBK_REV_NBR 127) = true ∧ (List.range 8).filter (fun k => phase s k == lkRun) = [7] ∧ eventRoom s 7 = true ∧
      (s.input (inRemote 127)).pend = (6, 0) :: [] ∧ (isRelay (inRemote 127) && (6 : Nat) == 7) = false) ∧
    (let s := Tests.sets Tests.st [(F.EBK_XS_CFG_EN 15, 1), (F.EBK_XS_CFG_PERIOD 15, 1), (F.EBK_AXS_UDP_PORT, 5000)]
     s.on (F.EBK_XS_CFG_EN 15) = true ∧ s.f (F.EBK_XS_CFG_PERIOD 15) ≠ 0 ∧ s.f F.EBK_AXS_UDP_PORT ≠ 0 ∧
      s.ebk.xs.find? (fun e => e.1 == 15) = none) ∧
    (let l := bytesLE 4 0x5841394C ++ bytesLE 1 1 ++ List.replicate 35 0
     ({ Tests.st with eth := { rx := [.axis 15 l] } } : State).eth.rx = .axis 15 l :: [] ∧ l.length = 40 ∧ leAt l 0 4 = 0x5841394C ∧
      leAt l 4 1 = 1) := by decide +kernel
theorem witness_EbkelTraffic_lanes :
    (let s := Tests.sets (Tests.link lkRun {}) [(F.LNK_ADAPT_CFG_MRG_THRESH 23, 50), (F.LNK_MARGIN_SNAPSHOT 23, 100),
       (F.LNK_ADAPT_CFG_STEP_INT 23, 1)]
     laneUp s 23 = true ∧ (s.lane 23).marginAt + 10000000 ≤ s.now ∧ s.f (F.LNK_ADAPT_CFG_MRG_THRESH 23) = 50 ∧
      s.f (F.LNK_MARGIN_SNAPSHOT 23) * 50 ≤ (50 : BitVec 16).toNat * 100 ∧ (49 : BitVec 16).toNat * 100 < s.f (F.LNK_MARGIN_SNAPSHOT 23) * 50 ∧
      s.f (F.LNK_ADAPT_CFG_STEP_INT 23) ≠ 0 ∧ s.on (F.LNK_L_FLAGS_FROZEN 23) = false ∧
      (s.lane 23).stepAt + s.f (F.LNK_ADAPT_CFG_STEP_INT 23) * 1000 ≤ s.now) ∧
    (let s := Tests.sets (Tests.link lkTest {}) [(F.EBK_CFG_PRBS 7, 4), (F.DEV_MODE_REQ, 8)]
     phase s 7 = lkTest ∧ prbsOf s 7 ≠ 0) := by decide +kernel

/-! ### Witnesses: faults, the two-wire target, register commands -/

theorem witness_RasCommands : Tests.st.held = false ∧ Tests.st.ras.warm = none ∧ Tests.st.boot.asleep = false ∧ Tests.st.lockdown = false ∧
    coreMay Tests.st 0 25 = true ∧ Tests.st.lifecycle ≤ 1 ∧ Tests.st.boot.trip = false ∧ 2000 ≤ tj16 2000 ∧
    (Tests.st.logFault 0x0F 3 0xFFFF 0 0).held = false ∧
    (∀ a ∈ [0, 1, 2], let s := { Tests.sets Tests.st [(F.RAS_SWD_LOAD, 1), (F.RAS_SWD_ACTION, a)] with now := 1000000 }
      s.on F.RAS_SWD_LOAD = true ∧ swdCount s = 0 ∧ s.f F.RAS_SWD_ACTION = a ∧ s.ras.warm = none ∧
      ((doSwdKick (s.logFault 0x10 3 0xFFFF 0 0)).set1 F.RAS_STAT_SWD_EXP).lockdown = false) ∧
    (({ Tests.st with boot := { trip := true } } : State).boot.trip = true ∧ tj16 1599 < 1600) ∧
    (∀ c ∈ [0, 8], let s := { Tests.st with ras := { warm := some c } }
      s.ras.warm = some c ∧
      (let w := allCores.foldl (fun t c => if (t.core c).grant.start && (t.core c).activeId != 0 then startCore t c else t) s
       w.ras.again = false ∧ w.ras.stuck = false)) ∧
    Tests.st.up = true ∧ Tests.st.boot.pll = true ∧ Tests.st.boot.hbm = true ∧
    inTransfer (Tests.st.logFault 0x07 2 255 0 0) 255 = false := by decide +kernel

/-- A part whose two-wire target is in some state, sensed fuses allowing everything. -/
def Tests.twi (x : TwiSt) : State := { Tests.sets Tests.st [(F.FUS_STAT_SENSED, 1)] with twi := x, now := 10 ^ 12 }

theorem witness_TwoWireTarget : (Tests.twi {}).held = false ∧ (Tests.twi {}).twi.stretch = none ∧
    twiAddr (twiEnd (Tests.twi {})) < 128 ∧ ((twiEnd (Tests.twi {})).boot.asleep && (twiEnd (Tests.twi {})).on F.PWR_WAKE_EN_TWI) = false ∧
    (let s := Tests.twi { busy := true }
     s.twi.busy = true ∧ s.twi.read = false ∧ s.twi.hold = none ∧ s.twi.ptrSet = false) ∧
    (let s := Tests.twi { busy := true, ptrSet := true, ptr := 0x84, sel := [0, 0, 0] }
     s.twi.ptrSet = true ∧ s.twi.ptr = 0x84 ∧ twiLevel s = 3 ∧ s.twi.sel.length = 3) ∧
    (Tests.twi { busy := true, ptrSet := true, ptr := 0x83 }).twi.ptr ≠ 0x84 ∧
    (let s := Tests.twi { busy := true, read := true, ptr := 0xFC }
     s.twi.read = true ∧ s.twi.ptr % 4 = 0 ∧ s.twi.ptr ≠ 0x08) ∧
    (let s := (Tests.twi { busy := true, read := true, ptr := 0xFF }).setLatch .twi (viewLatch (0xFF / 4 * 4)) 7
     s.twi.ptr % 4 ≠ 0 ∧ s.latched .twi (viewLatch (s.twi.ptr / 4 * 4)) = some 7) ∧
    (let s := Tests.twi { hold := some 0 }
     s.twi.hold = some 0 ∧ 0 + s.f F.TWI_CFG_HOLD_TMO * 1000000 ≤ s.now) ∧
    (let s := Tests.sets (Tests.twi { stretch := some 0 }) [(F.TWI_CFG_UNLIMITED, 0)]
     s.twi.stretch = some 0 ∧ s.on F.TWI_CFG_UNLIMITED = false ∧ 0 + s.f F.TWI_CFG_STRETCH_TMO * 1000000 ≤ s.now) ∧
    (Tests.twi {}).boot.asleep = false := by decide +kernel

theorem witness_RegisterCommands : Tests.st.up = true ∧ (Tests.st.core 0).run = .running ∧ R.TIM_NS % 4 = 0 ∧
    coreReaches Tests.st 0 R.TIM_NS true = true ∧ hostSideAway Tests.st R.TIM_NS = false ∧
    halfAt (R.DLV_CQ_BASE_HI 31) = .hi ∧ writable (R.DLV_CQ_BASE_HI 31) = true ∧ coreReaches Tests.st 0 (R.DLV_CQ_BASE_HI 31) true = true ∧
    hostSideAway Tests.st (R.DLV_CQ_BASE_HI 31) = false ∧
    coreReaches (Tests.with0 fun k => { k with grant := { k.grant with blkWrite := 0 } }) 0 R.TIM_NS true = false ∧
    coreReaches Tests.st 0 R.TIM_NS false = true ∧ mailboxAt R.TIM_NS = none ∧ latchesOf R.TIM_NS ≠ [] ∧
    mailboxAt (R.PAR_LINE_ERR 3) = none ∧
    (lookup (R.PAR_LINE_ERR 3)).any (fun e => e.2.2.fields.any (fun f => f.ty == .rc)) = true := by decide +kernel

/-! ### Witnesses: the machine as a whole -/

/-- The state a command leads to. -/
def Tests.after (i : Instr) (s : State) : State := match exec i s with | .next t => t | _ => s
/-- Whether a command answers a next state. -/
def Tests.runs (i : Instr) (s : State) : Bool := match exec i s with | .next _ => true | _ => false

theorem witness_StepTakesTheFrontCommand :
    ({ Tests.st with pending := [.powerOnReset, .resetN] } : State).pending = .powerOnReset :: [.resetN] ∧ Tests.st.pending = [] := by decide
theorem witness_StepKeepsInvariant : Inv State.reset ∧ (∃ t, step State.reset = .next t) := ⟨by decide +kernel, _, rfl⟩
/-- A word of each format, written out from its fields (R69, R71); the second and the sixth are the spec's own examples. -/
theorem witness_WordsOfInstructions (c : CoreNo) :
    decodeUrelm c 0x00A98821 = some (.mulh c 5 9 17) ∧ decodeUrelm c 0x04C00040 = some (.addi c 6 0 64) ∧
    decodeUrelm c 0x0BE80000 = some (.lui c 31 false 0x80000) ∧ decodeUrelm c 0x20624FFC = some (.lw c 3 2 0xFFC) ∧
    decodeUrelm c 0x1822FFFF = some (.bge c 1 2 0x3FFF) ∧ decodeUrelm c 0x48411002 = some (.vcmpltu c 2 1 2 0 0) ∧
    decodeUrelm c 0x64821DC0 = some (.vst c 4 2 3 2 7) ∧ decodeUrelm c 0x8C2600FF = some (.arm c 1 6 0 0xFF) ∧
    decodeUrelm c 0x8020040F = some (.pgeth c 1 0 0 0x40F) ∧ decodeUrelm c 0x40000042 = some (.vmul c 0 0 0 0 1) ∧
    decodeUrelm c 0x2C000003 = some (.halt c 0 0 0) := by and_intros <;> rfl
theorem witness_HardwiredRegisters : Ready Tests.st 0 false ∧
    (31 : RegNo).val ≠ 0 ∧ (Tests.st.core 0).pc.toNat % 4 = 0 ∧ memAddr (Tests.st.core 0) 0 4 % 4 = 0 := by decide +kernel
theorem witness_Exceptions : (Tests.st.core 0).exc = false ∧ ((Tests.with0 fun k => { k with exc := true }).core 0).exc = true := by decide
theorem witness_ResourceViolations :
    (let s := { Tests.st with cores := [(4, { Tests.core with grant := { start := true } })] }
     Ready s 4 false ∧ (s.core 4).exc = false ∧ granted (s.core 4).grant.slots (0x7FF % 256) = false ∧ ((s.core 4).rs 0).toNat % 32 = 0 ∧
      granted (s.core 4).grant.producers (0x7FF % 1024) = false ∧ granted (s.core 4).grant.inputs (0x7FF % 512) = false ∧
      granted (s.core 4).grant.rings (0x7FF % 256) = false ∧ isTc 4 = true ∧ ((s.core 4).rs 0).toNat % 64 = 0) := by decide +kernel
theorem witness_CoreInstructionFrame : (Tests.st.core 4).exc = false ∧ (∃ t, exec (.add 4 31 3 3) Tests.st = .next t) ∧
    (∃ t, exec (.slli 4 31 3 32) Tests.st = .next t) ∧ Tests.runs (.vadd 4 31 3 3 0 0) Tests.st = true :=
  ⟨by decide, ⟨_, rfl⟩, ⟨_, rfl⟩, by decide +kernel⟩
theorem witness_StoresStayInWindows :
    (∀ o ∈ [(0 : BitVec 12), 1], 0x30000000 ≤ memAddr (Tests.st.core 4) 2 o) ∧ memAddr (Tests.st.core 4) 0 0 < 0x20000000 ∧
    Tests.runs (.sb 4 3 2 0) Tests.st = true ∧ (Tests.after (.sb 4 3 2 0) Tests.st).dread 0x1000 1 ≠ Tests.st.dread 0x1000 1 ∧
    (Tests.st.core 4).exc = false ∧ Tests.st.poison = [] ∧ MemoriesCanonical Tests.st := by
  and_intros <;> first | decide +kernel | (unfold MemoriesCanonical; decide +kernel)
theorem witness_StoreThenLoad : Ready Tests.st 4 false ∧ Tests.st.poison = [] ∧ Ready (Tests.after (.sw 4 3 2 0) Tests.st) 4 false ∧
    scalarPlace (Tests.st.core 4) 4 (memAddr (Tests.st.core 4) 2 0) 4 true true = .ok (.dev 0x1000) ∧ (31 : RegNo).val ≠ 0 := by
  and_intros <;> first | decide +kernel | rfl
theorem witness_EventPendingBound :
    (∀ n ∈ [0, 254, 255], (({ Tests.st with inputs := [(511, { pend := List.replicate n (0, 0) })] } : State).input 511).pend.length = n) ∧ 511 < 512 ∧
    Tests.st.on (F.EVR_IN_STAT_OVERRUN 511) = false ∧
    (Tests.sets Tests.st [(F.EVR_IN_STAT_OVERRUN 511, 1)]).on (F.EVR_IN_STAT_OVERRUN 511) = true := by decide +kernel
theorem witness_TimeLatch : (Requester.twi ≠ .core 0 ∧ Requester.host ≠ .twi) ∧ R.TIM_SEC_LO < 2 ^ 40 := by decide
theorem witness_TimRateLimits : Tests.st.up = true ∧ Tests.st.on F.TIM_STAT_HOLDOVER = false ∧
    (Tests.sets Tests.st [(F.TIM_STAT_HOLDOVER, 1)]).on F.TIM_STAT_HOLDOVER = true ∧
    (∀ v ∈ [(-2147484 : Int), 2147484], (BitVec.ofInt 32 v).toInt = v) ∧ (BitVec.ofInt 32 (-2147485)).toInt < -2147484 ∧
    2147484 < (2147485 : Word).toInt := by decide +kernel
theorem witness_ClockNeverGoesBack : Tests.st.pending = [] ∧ Tests.st.tim.adj = [] ∧ -2147484 ≤ rateNow Tests.st ∧
    rateNow (Tests.st.wr R.TIM_RATE (BitVec.ofInt 32 (-2147484))) = -2147484 ∧
    (∀ w ∈ [(⟨10 ^ 9, 1, 1, false⟩ : Slew), ⟨-(2 ^ 50), -2147483, 1, true⟩],
      w.done = slewDone w w.cycles ∧ (if w.neg then w.total ≤ 0 else 0 ≤ w.total)) ∧
    clockRuns Tests.st = true ∧ clockRuns State.reset = false := by decide +kernel
theorem witness_HostSideAbsent :
    (let s := { Tests.with0 (fun k => { k with s := [(5, 0x20800000), (6, 0x20810000), (7, 0x20900000)] }) with pci := { rst := some (1, 0) } }
     Ready s 0 false ∧ s.pci.rst.isSome = true ∧ (∀ r ∈ [5, 6, 7], memAddr (s.core 0) r 0 % 4 = 0 ∧
      coreReaches s 0 (memAddr (s.core 0) r 0) false = true ∧ coreReaches s 0 (memAddr (s.core 0) r 0) true = true) ∧
      [5, 6, 7].map (fun r => blockBit (memAddr (s.core 0) r 0)) = [19, 20, 21]) := by decide +kernel
theorem witness_FuseLettersOnlyAdd : Tests.runs (.setPolicy 0 true none) (Tests.served 0x13 0x100) = true ∧
    fuseBit (Tests.served 0x13 0x100) 96 = true := by decide +kernel

/-! ### Single steps, worked out from the spec's text -/

/-- addi sign-extends its immediate and the sum wraps; andi zero-extends it (R71). -/
theorem test_immediates : ((Tests.after (.addi 0 9 3 0xFFE) Tests.st).core 0).rs 9 = 0xFFFFFFFF ∧
    ((Tests.after (.xori 0 9 0 0xFFF) Tests.st).core 0).rs 9 = 0xFFF := by decide +kernel
/-- A word whose major opcode the table does not have is an illegal instruction with DETAIL 0 (R70, R86). -/
theorem test_unknown_word : (match execWord 0 0xFC000000 Tests.st with | .next t => ((t.core 0).cause, (t.core 0).pc) | _ => (0, 0)) = (1, 16) := by
  decide +kernel
/-- A division by zero gives all ones, its remainder the dividend; of shift amounts only the low five bits count (R71). -/
theorem test_division_and_shifts : ((Tests.after (.div 0 9 3 0) Tests.st).core 0).rs 9 = 0xFFFFFFFF ∧
    ((Tests.after (.rem 0 9 3 0) Tests.st).core 0).rs 9 = 1 ∧
    ((Tests.after (.sll 0 9 3 8) (Tests.with0 fun k => { k with s := [(3, 1), (8, 33)] })).core 0).rs 9 = 2 := by decide +kernel
/-- An access that its grant does not reach is exception 3, and the core goes on at 3 times 16 (R87, R88). -/
theorem test_violation : ((Tests.after (.lw 0 9 5 0) Tests.st).core 0).pc = 48 ∧
    ((Tests.after (.lw 0 9 5 0) Tests.st).core 0).cause = 3 ∧ ((Tests.after (.lw 0 9 5 0) Tests.st).core 0).eaddr = 0x30000000 := by
  decide +kernel
/-- An idle step is one TIME cycle, in which the clock goes on by 1 ns when no trim and no slew act (R42, R44). -/
theorem test_idle : (match step Tests.st with | .next t => (t.now, t.tim.clk) | _ => (0, 0)) = (1, 2 ^ 32) := by decide +kernel
/-- A write of TIM_RATE beyond its limit stores the limit and sets TIM_STAT.RANGE (R44). -/
theorem test_trim_limit : (Tests.after (.timRateWrite 0x7FFFFFFF) Tests.st).rd R.TIM_RATE = 2147484 ∧
    (Tests.after (.timRateWrite 0x7FFFFFFF) Tests.st).on F.TIM_STAT_RANGE = true := by decide +kernel

end
end

section
/-! SUPPORT. The DLV, DMA and PCI registers while the host side is in reset (R25): where register addresses lie (R66, R96), how lw and
sw reach a register (R68, R98), what a core's access of a host-side register comes to, and the statement about lw and sw. -/

namespace Sys2Proof.Machine
open Sys2Proof

/-! ### Register addresses (R66, R96) -/

theorem blockBit_of_lt {a : Nat} (h : a < 0x20000000) : blockBit a = 28 := by
  simp [blockBit, h]

theorem blockBit_of_ge {a : Nat} (h : 0x30000000 ≤ a) : blockBit a = 28 := by
  unfold blockBit
  repeat' rw [if_neg (by omega)]

/-- Every block of R96 lies in register space. -/
theorem range_of_blockBit_ne {a : Nat} (h : blockBit a ≠ 28) : 0x20000000 ≤ a ∧ a < 0x30000000 :=
  ⟨Nat.le_of_not_lt fun hlt => h (blockBit_of_lt hlt), Nat.lt_of_not_le fun hge => h (blockBit_of_ge hge)⟩

/-- An access that the grant reaches is to a block of R96. -/
theorem blockBit_ne_of_coreReaches {s : State} {c a : Nat} {write : Bool} (h : coreReaches s c a write = true) : blockBit a ≠ 28 := by
  simp only [coreReaches, Bool.and_eq_true, bne_iff_ne] at h
  exact h.1

/-- An aligned word access in register space is passed on to the register (R68). -/
theorem scalarPlace_reg {a : Nat} (k : CoreSt) (c : Nat) (write : Bool) (hr : 0x20000000 ≤ a ∧ a < 0x30000000) (ha : a % 4 = 0) :
    scalarPlace k c a 4 write true = .ok (.reg a) := by
  simp [scalarPlace, dataPlace, hr, ha]

/-! ### lw and sw of a register that the grant reaches (R68, R71, R98) -/

theorem exec_lw_reg {c : CoreNo} {base : RegNo} {off : BitVec 12} {s : State} (rt : RegNo) (hs : Ready s c false)
    (ha : memAddr (s.core c) base off % 4 = 0) (hg : coreReaches s c (memAddr (s.core c) base off) false = true) :
    exec (.lw c rt base off) s =
      .next ((coreRegRead s c (memAddr (s.core c) base off)).2.writes c rt (coreRegRead s c (memAddr (s.core c) base off)).1) := by
  have hp := scalarPlace_reg (s.core c) c false (range_of_blockBit_ne (blockBit_ne_of_coreReaches hg)) ha
  have hlw : exec (.lw c rt base off) s = execLw c rt base off s := rfl
  rw [hlw, execLw, issue_ready hs rfl]
  simp only [hp, hg, if_true, exec_done_eq, State.writes, State.coreNext]

theorem exec_sw_reg {c : CoreNo} {base : RegNo} {off : BitVec 12} {s : State} (rt : RegNo) (hs : Ready s c false)
    (ha : memAddr (s.core c) base off % 4 = 0) (hg : coreReaches s c (memAddr (s.core c) base off) true = true) :
    exec (.sw c rt base off) s =
      .next (coreRegWrite (s.setCore c (s.core c).retire) c (memAddr (s.core c) base off) ((s.core c).rs rt)).settled := by
  have hp := scalarPlace_reg (s.core c) c true (range_of_blockBit_ne (blockBit_ne_of_coreReaches hg)) ha
  have hsw : exec (.sw c rt base off) s = execSw c rt base off s := rfl
  rw [hsw, execSw, issue_ready hs rfl]
  simp only [hp, hg, if_true, exec_done_eq, State.settled]

/-! ### Host-side registers during a host-side reset (R25) -/

/-- The host-side registers are those of DLV, DMA and PCI, and they are away while the host side is in reset. -/
theorem hostSideAway_iff (s : State) (a : Nat) :
    hostSideAway s a = true ↔ s.pci.rst.isSome = true ∧ (blockBit a = 19 ∨ blockBit a = 20 ∨ blockBit a = 21) := by
  simp only [hostSideAway, Bool.and_eq_true, decide_eq_true_eq, and_assoc]
  exact and_congr_right fun _ => by omega

@[simp] theorem hostSideAway_setCore (s : State) (c a : Nat) (k : CoreSt) : hostSideAway (s.setCore c k) a = hostSideAway s a := rfl

theorem coreRegRead_away {s : State} {a : Nat} (c : CoreNo) (h : hostSideAway s a = true) : coreRegRead s c a = (0, s) := by
  simp [coreRegRead, h]

theorem coreRegWrite_away {s : State} {a : Nat} (c : CoreNo) (v : Word) (h : hostSideAway s a = true) : coreRegWrite s c a v = s := by
  simp [coreRegWrite, h]

/-- Settles O59: lw and sw come to the register access, and a register that is away reads as zero and keeps nothing of a write. -/
theorem hostSideAbsent : Obligations.HostSideAbsent := by
  intro c rt base off s hs hrst a ha hb
  have haway : hostSideAway s a = true := (hostSideAway_iff s a).mpr ⟨hrst, hb⟩
  constructor
  · intro hg
    rw [exec_lw_reg rt hs ha hg, coreRegRead_away c haway]
  · intro hg
    rw [exec_sw_reg rt hs ha hg, coreRegWrite_away c _ (by rwa [hostSideAway_setCore])]
    rfl

end Sys2Proof.Machine
end

section
/-! SUPPORT. The cores' statements: exceptions outside and inside a handler (R87, R90), the hard-wired registers and the links of jumps
(R61, R71), a core's start (R62), and instructions that name a resource the grant does not give (R72). -/

namespace Sys2Proof.Machine
open Sys2Proof

/-! ### One core changes -/

/-- When the cores are those after a write of one core, the others are as before. -/
theorem cores_of_setCore {s t : State} {c : Nat} {k : CoreSt} (h : ∀ d, t.core d = (s.setCore c k).core d) :
    OtherCoresSame s t c ∧ t.core c = k :=
  ⟨fun d hd => (h d).trans (s.core_setCore_ne c d k hd.symm), (h c).trans (s.core_setCore c k)⟩

/-! ### Exceptions (R87, R90) -/

/-- A core that an exception inside a handler stops: its exception registers stay, and what stopped it is kept beside them (R90). -/
def CoreSt.faulted (k : CoreSt) (cause : Nat) : CoreSt := { k with run := .fault, wait := .none, lastCause := cause, haltPc := k.pc }

/-- Of the cores, a core fault changes the one that stops. -/
theorem coreFault_core (s : State) (c cause detail a d : Nat) :
    (coreFault s c cause detail a).core d = (s.setCore c ((s.core c).faulted cause)).core d := by
  simp [coreFault, CoreSt.faulted]

theorem coreFault_raises (s : State) (c cause detail a : Nat) :
    ∃ e ∈ (coreFault s c cause detail a).evq, e.prod = prodCoreFault c := by
  simp [coreFault, State.raiseEv]

theorem coreFault_log_head (s : State) (c cause detail a : Nat) :
    ((coreFault s c cause detail a).ras.log.head?).map (fun r => (r.code, r.unit)) = some (0x08, targetOf c) :=
  State.logFault_head _ _ _ _ _ _

/-- A core that does not run takes no instruction. -/
theorem canIssue_of_not_running {s : State} {c : Nat} (h : (s.core c).run ≠ .running) : canIssue s c = false := by
  simp [canIssue, h]

/-- Settles O50: outside a handler by what a first exception sets, inside one by what a core fault does. -/
theorem exceptions : Obligations.Exceptions := by
  intro c cause detail a s
  refine ⟨fun hexc => ?_, fun hexc => ?_⟩
  · simp only [takeExc_first hexc]
    exact cores_of_setCore fun _ => rfl
  · obtain ⟨hothers, hcore⟩ := cores_of_setCore (coreFault_core s c cause detail a)
    simp only [takeExc_second hexc]
    have hidle : canIssue (coreFault s c cause detail a) c = false :=
      canIssue_of_not_running (by rw [hcore]; exact nofun)
    rw [hcore]
    exact ⟨hothers, rfl, rfl, rfl, rfl, rfl, coreFault_raises s c cause detail a, coreFault_log_head s c cause detail a,
      fun v legal body => issue_idle hidle body⟩

/-! ### Hard-wired registers and the links of jumps (R61, R71) -/

@[simp] theorem CoreSt.retireTo_rs (k : CoreSt) (pc : Word) (n : Nat) : (k.retireTo pc).rs n = k.rs n := rfl

/-- A jump to a multiple of four leaves the return address in the register it names. -/
theorem jumpTo_link (s : State) {c rd : Nat} {target : Word} (hrd : rd ≠ 0) (ht : target.toNat % 4 = 0) :
    ∃ t, done (jumpTo s c rd (s.core c) target) = .next t ∧ (t.core c).rs rd = (s.core c).pc + 4 := by
  refine ⟨_, rfl, ?_⟩
  simp [jumpTo, ht, CoreSt.rs_ws, hrd]

/-- A jump by words from an aligned pc is aligned. -/
theorem jal_target_aligned {pc : Word} (offset : Word) (h : pc.toNat % 4 = 0) : (pc + 4 * offset).toNat % 4 = 0 := by
  simp only [BitVec.toNat_add, BitVec.toNat_mul, BitVec.reduceToNat]
  omega

theorem exec_jal {c : CoreNo} {s : State} (rd : RegNo) (j : BitVec 20) (hs : Ready s c false) :
    exec (.jal c rd false j) s = done (jumpTo s c rd (s.core c) ((s.core c).pc + 4 * sx32 j)) := by
  have hjal : exec (.jal c rd false j) s = execJal c rd false j s := rfl
  rw [hjal, execJal, issue_ready (legal := !false) hs rfl]

theorem exec_jalr {c : CoreNo} {s : State} (rd rs1 : RegNo) (imm : BitVec 12) (hs : Ready s c false) :
    exec (.jalr c rd rs1 imm) s = done (jumpTo s c rd (s.core c) ((s.core c).rs rs1 + sx32 imm)) := by
  have hjalr : exec (.jalr c rd rs1 imm) s = execJalr c rd rs1 imm s := rfl
  rw [hjalr, execJalr, issue_ready hs rfl]

/-- Settles O48: reads after writes of the two register files, and the link that an aligned jump leaves. -/
theorem hardwiredRegisters : Obligations.HardwiredRegisters := by
  refine ⟨fun k w d => ⟨k.rs_zero, k.rp_zero, k.ws_zero w, k.wp_zero d⟩, fun k n m w hn => ?_, fun k n m d hn => ?_,
    fun c rd rs1 imm j s hs hrd => ⟨fun hpc => ?_, fun ht => ?_⟩⟩
  · simp [k.rs_ws, hn]
  · simp [k.rp_wp, hn]
  · rw [exec_jal rd j hs]
    exact jumpTo_link s hrd (jal_target_aligned _ hpc)
  · rw [exec_jalr rd rs1 imm hs]
    exact jumpTo_link s hrd ht

/-! ### The start of a core (R62) -/

/-- A core at its start: what is not named here is as at reset. -/
def CoreSt.started (k : CoreSt) : CoreSt :=
  { bank := k.bank, other := k.other, forcedSw := k.forcedSw, activeId := k.activeId, otherId := k.otherId, grant := k.grant
    otherGrant := k.otherGrant, staged := k.staged, haltPc := k.haltPc, fed := k.fed, run := .running }

/-- Of the cores, a start changes the one that starts. -/
theorem startCore_core (s : State) (c d : Nat) : (startCore s c).core d = (s.setCore c (s.core c).started).core d := by
  unfold startCore
  split <;> rfl

/-- Settles O49: the register files of a core that starts list nothing, so each register reads as at reset. -/
theorem coreStart : Obligations.CoreStart := by
  intro c s
  obtain ⟨hothers, hcore⟩ := cores_of_setCore (startCore_core s c)
  simp only [hcore]
  refine ⟨fun n hn _ => ?_, fun n _ => ?_, fun n hn _ => ?_, rfl, rfl, rfl, rfl, rfl, rfl, hothers⟩
  · simp [CoreSt.started, CoreSt.rs]
  · simp [CoreSt.started, CoreSt.rv]
  · simp [CoreSt.started, CoreSt.rp, Nat.ne_of_gt hn]

/-! ### Resources that the grant does not give (R72, R88, R95) -/

section
variable {c : CoreNo} {rs1 : RegNo} {idx : BitVec 11} {s : State}

theorem exec_arm_ungranted (rd rs2 : RegNo) (hs : Ready s c false) (ha : ((s.core c).rs rs1).toNat % 32 = 0)
    (hg : granted (s.core c).grant.slots (idx.toNat % 256) = false) :
    exec (.arm c rd rs1 rs2 idx) s = done (takeExc s c 3 2 (idx.toNat % 256)) := by
  have harm : exec (.arm c rd rs1 rs2 idx) s = execArm c rd rs1 rs2 idx s := rfl
  rw [harm, execArm, issue_ready hs rfl]
  simp [ha, hg]

theorem exec_disarm_ungranted (rd rs2 : RegNo) (hs : Ready s c false)
    (hg : granted (s.core c).grant.slots (idx.toNat % 256) = false) :
    exec (.disarm c rd rs1 rs2 idx) s = done (takeExc s c 3 2 (idx.toNat % 256)) := by
  have hdisarm : exec (.disarm c rd rs1 rs2 idx) s = execDisarm c rd rs1 rs2 idx s := rfl
  rw [hdisarm, execDisarm, issue_ready hs rfl]
  simp [hg]

theorem exec_evraise_ungranted (rd rs2 : RegNo) (hs : Ready s c false)
    (hg : granted (s.core c).grant.producers (idx.toNat % 1024) = false) :
    exec (.evraise c rd rs1 rs2 idx) s = done (takeExc s c 3 3 (idx.toNat % 1024)) := by
  have hraise : exec (.evraise c rd rs1 rs2 idx) s = execEvraise c rd rs1 rs2 idx s := rfl
  rw [hraise, execEvraise, issue_ready hs rfl]
  simp [hg]

theorem exec_evwait_ungranted (rd rs2 : RegNo) (hs : Ready s c false)
    (hg : granted (s.core c).grant.inputs (idx.toNat % 512) = false) :
    exec (.evwait c rd rs1 rs2 idx) s = done (takeExc s c 3 4 (idx.toNat % 512)) := by
  have hwait : exec (.evwait c rd rs1 rs2 idx) s = execEvwait c rd rs1 rs2 idx s := rfl
  rw [hwait, execEvwait, issue_ready hs rfl]
  simp [hg]

theorem exec_evpoll_ungranted (rd rs2 : RegNo) (hs : Ready s c false)
    (hg : granted (s.core c).grant.inputs (idx.toNat % 512) = false) :
    exec (.evpoll c rd rs1 rs2 idx) s = done (takeExc s c 3 4 (idx.toNat % 512)) := by
  have hpoll : exec (.evpoll c rd rs1 rs2 idx) s = execEvpoll c rd rs1 rs2 idx s := rfl
  rw [hpoll, execEvpoll, issue_ready hs rfl]
  simp [hg]

theorem exec_rpost_ungranted (rd rs2 : RegNo) (hs : Ready s c true) (ha : ((s.core c).rs rs1).toNat % 64 = 0)
    (hg : granted (s.core c).grant.rings (idx.toNat % 256) = false) :
    exec (.rpost c rd rs1 rs2 idx) s = done (takeExc s c 3 5 (idx.toNat % 256)) := by
  have hpost : exec (.rpost c rd rs1 rs2 idx) s = execRpost c rd rs1 rs2 idx s := rfl
  rw [hpost, execRpost, issue_ready hs rfl]
  simp [ha, hg]

end

/-- A thresher core that is ready for a scalar instruction is ready for one of profile V. -/
theorem Ready.vector {s : State} {c : Nat} (h : Ready s c false) (hc : isTc c = true) : Ready s c true := by
  obtain ⟨hup, hrun, hwait, hbus, hfetch, hpoison, -⟩ := h
  exact ⟨hup, hrun, hwait, hbus, hfetch, hpoison, fun _ => hc⟩

/-- An access-window violation outside a handler changes the core, which goes on at 3 times 16 (R87). -/
theorem done_violation {s : State} {c : Nat} (h : (s.core c).exc = false) (detail index : Nat) :
    done (takeExc s c 3 detail index) = .next (s.coreNext c { s.core c with
      epc := (s.core c).pc, cause := 3, detail := detail, eaddr := BitVec.ofNat 32 index, exc := true, wait := .none, pc := 48 }) := by
  rw [takeExc_first h]
  rfl

/-- Settles O51: each of the six instructions comes to the violation, which outside a handler changes the core alone. -/
theorem resourceViolations : Obligations.ResourceViolations := by
  intro c rd rs1 rs2 idx s hs hexc
  simp only [← done_violation hexc]
  refine ⟨fun hg => ⟨fun ha => ?_, ?_⟩, fun hg => ?_, fun hg => ⟨?_, ?_⟩, fun hg hc ha => ?_⟩
  · exact exec_arm_ungranted rd rs2 hs ha hg
  · exact exec_disarm_ungranted rd rs2 hs hg
  · exact exec_evraise_ungranted rd rs2 hs hg
  · exact exec_evwait_ungranted rd rs2 hs hg
  · exact exec_evpoll_ungranted rd rs2 hs hg
  · exact exec_rpost_ungranted rd rs2 (Ready.vector hs hc) ha hg

end Sys2Proof.Machine
end

section
/-! SUPPORT. Every command answers with a settled state (O43 to O46): one lemma for each command whose effect branches on a match; the
commands that only branch on conditions are closed where exec is split. -/

namespace Sys2Proof.Machine
open Sys2Proof

/-! ### Every command answers (R406, R436) -/

/-- The outcome is a next state, and that state is settled. -/
def Answers (o : Host.Outcome State Fault Refusal) : Prop := ∃ u : State, o = .next u.settled

theorem answers_done (s : State) : Answers (done s) := ⟨s, rfl⟩

theorem answers_ite {c : Prop} [Decidable c] {a b : Host.Outcome State Fault Refusal} (ha : Answers a) (hb : Answers b) :
    Answers (if c then a else b) := by
  split <;> assumption

theorem spdmRow_answers (s : State) (t : Nat) (p : List (BitVec 8) → Bool) (f : State → SpdmReq → State) : Answers (spdmRow s t p f) := by
  unfold spdmRow
  repeat' split
  all_goals exact answers_done _

theorem ideRow_answers (s : State) (t o : Nat) (f : State → SpdmReq → State) : Answers (ideRow s t o f) :=
  spdmRow_answers _ _ _ _

theorem execMillSegment_answers (s : State) : Answers (execMillSegment s) := by
  unfold execMillSegment
  split
  · exact answers_done _
  · extract_lets t
    split
    · exact answers_done _
    · exact answers_done _

/-- What ICMP_ECHO_REQUEST does with a request it takes, for any length of the window in which requests are counted. -/
def icmpAnswer (window : Nat) (s : State) (m : Nat) (ip : Word) (body : List (BitVec 8)) : Host.Outcome State Fault Refusal :=
  let rec' := (s.eth.icmp.find? (fun e => e.1 == m)).getD (m, 0, s.now)
  let (n, t0) := if decide (rec'.2.2 + window ≤ s.now) then (0, s.now) else rec'.2
  if n ≥ 1000 then done (dropFilter s m)
  else
    let s := { s with eth := { s.eth with icmp := (m, n + 1, t0) :: s.eth.icmp.filter (fun e => e.1 != m) } }
    let b := [0] ++ (body.drop 1).take 1 ++ [0, 0] ++ body.drop 4
    let b' := b.take 2 ++ bytesBE 2 (cksum b) ++ b.drop 4
    done (sendIp s m ip.toNat 1 b' .none).2

theorem execIcmpEchoRequest_eq (s : State) : execIcmpEchoRequest s =
    match takeRx s (fun r => match r with | .icmp _ _ _ _ => true | _ => false) with
    | some (.icmp m _ ip body, t) => icmpAnswer 1000000000 t m ip body
    | _ => done s := by
  have key : ∀ window : Nat, window = 1000000000 → execIcmpEchoRequest s =
    match takeRx s (fun r => match r with | .icmp _ _ _ _ => true | _ => false) with
    | some (.icmp m _ ip body, t) => icmpAnswer window t m ip body
    | _ => done s := by
    intro window hw
    unfold execIcmpEchoRequest
    rw [← hw]
    rfl
  exact key _ rfl

theorem icmpAnswer_answers (window : Nat) (s : State) (m : Nat) (ip : Word) (body : List (BitVec 8)) : Answers (icmpAnswer window s m ip body) :=
  answers_ite (answers_done _) (answers_done _)

theorem execIcmpEchoRequest_answers (s : State) : Answers (execIcmpEchoRequest s) := by
  rw [execIcmpEchoRequest_eq]
  split
  · exact icmpAnswer_answers _ _ _ _ _
  · exact answers_done _

theorem execTickCount_answers (a : Fin 8) (s : State) : Answers (execTickCount a s) := by
  unfold execTickCount
  repeat' first | exact answers_done _ | apply answers_ite | split

theorem execSlewEnd_answers (s : State) : Answers (execSlewEnd s) := by
  unfold execSlewEnd
  repeat' first | exact answers_done _ | apply answers_ite | split

theorem execPpsOutEnd_answers (s : State) : Answers (execPpsOutEnd s) := by
  unfold execPpsOutEnd
  repeat' first | exact answers_done _ | apply answers_ite | split

theorem execFullPostmarkDue_answers (ring : Fin 256) (s : State) : Answers (execFullPostmarkDue ring s) := by
  unfold execFullPostmarkDue
  repeat' first | exact answers_done _ | apply answers_ite | split

theorem execFenceDDone_answers (c : CoreNo) (s : State) : Answers (execFenceDDone c s) := by
  unfold execFenceDDone
  repeat' first | exact answers_done _ | apply answers_ite | split

theorem execAwaitReached_answers (c : CoreNo) (s : State) : Answers (execAwaitReached c s) := by
  unfold execAwaitReached
  repeat' first | exact answers_done _ | apply answers_ite | split | dsimp only

theorem execAwaitTimeout_answers (c : CoreNo) (s : State) : Answers (execAwaitTimeout c s) := by
  unfold execAwaitTimeout
  repeat' first | exact answers_done _ | apply answers_ite | split | dsimp only

theorem execEvwaitTake_answers (c : CoreNo) (s : State) : Answers (execEvwaitTake c s) := by
  unfold execEvwaitTake
  repeat' first | exact answers_done _ | apply answers_ite | split | dsimp only

theorem execEvwaitTimeout_answers (c : CoreNo) (s : State) : Answers (execEvwaitTimeout c s) := by
  unfold execEvwaitTimeout
  repeat' first | exact answers_done _ | apply answers_ite | split | dsimp only

theorem execTfeedCopy_answers (c : CoreNo) (s : State) : Answers (execTfeedCopy c s) := by
  unfold execTfeedCopy
  repeat' first | exact answers_done _ | apply answers_ite | split | dsimp only

theorem execTfeedTimeout_answers (c : CoreNo) (s : State) : Answers (execTfeedTimeout c s) := by
  unfold execTfeedTimeout
  repeat' first | exact answers_done _ | apply answers_ite | split | dsimp only

theorem execFlpushAccept_answers (c : CoreNo) (s : State) : Answers (execFlpushAccept c s) := by
  unfold execFlpushAccept
  repeat' first | exact answers_done _ | apply answers_ite | split | dsimp only

theorem execBusErrorPosted_answers (c : CoreNo) (addr : Word) (s : State) : Answers (execBusErrorPosted c addr s) := by
  unfold execBusErrorPosted
  repeat' first | exact answers_done _ | apply answers_ite | split

theorem execQuery_answers (m : Fin 4) (s : State) : Answers (execQuery m s) := by
  unfold execQuery
  repeat' first | exact answers_done _ | apply answers_ite | split

theorem execLoad_answers (m : Fin 4) (s : State) : Answers (execLoad m s) := by
  unfold execLoad
  repeat' first | exact answers_done _ | apply answers_ite | split

theorem execParcelFetched_answers (bytes : List Byte) (failed : Bool) (s : State) : Answers (execParcelFetched bytes failed s) := by
  unfold execParcelFetched
  repeat' first | exact answers_done _ | apply answers_ite | split

theorem execSwitch_answers (m : Fin 4) (s : State) : Answers (execSwitch m s) := by
  unfold execSwitch
  repeat' first | exact answers_done _ | apply answers_ite | split

theorem execCoreSwitch_answers (c : CoreNo) (s : State) : Answers (execCoreSwitch c s) := by
  unfold execCoreSwitch
  repeat' first | exact answers_done _ | apply answers_ite | split

theorem execSwitchForced_answers (c : CoreNo) (s : State) : Answers (execSwitchForced c s) := by
  unfold execSwitchForced
  repeat' first | exact answers_done _ | apply answers_ite | split

theorem execSwitchDone_answers (s : State) : Answers (execSwitchDone s) := by
  unfold execSwitchDone
  repeat' first | exact answers_done _ | apply answers_ite | split

theorem execCancel_answers (m : Fin 4) (s : State) : Answers (execCancel m s) := by
  unfold execCancel
  repeat' first | exact answers_done _ | apply answers_ite | split

theorem execHaltLetter_answers (m : Fin 4) (s : State) : Answers (execHaltLetter m s) := by
  unfold execHaltLetter
  repeat' first | exact answers_done _ | apply answers_ite | split

theorem execStartLetter_answers (m : Fin 4) (s : State) : Answers (execStartLetter m s) := by
  unfold execStartLetter
  repeat' first | exact answers_done _ | apply answers_ite | split

theorem execIdentity_answers (m : Fin 4) (s : State) : Answers (execIdentity m s) := by
  unfold execIdentity
  repeat' first | exact answers_done _ | apply answers_ite | split

theorem execChallenge_answers (m : Fin 4) (s : State) : Answers (execChallenge m s) := by
  unfold execChallenge
  repeat' first | exact answers_done _ | apply answers_ite | split

theorem execSetOwnerKey_answers (m : Fin 4) (vpp : Bool) (stuck : Option (Fin 4096)) (s : State) :
    Answers (execSetOwnerKey m vpp stuck s) := by
  unfold execSetOwnerKey
  repeat' first | exact answers_done _ | apply answers_ite | split

theorem execSetPolicy_answers (m : Fin 4) (vpp : Bool) (stuck : Option (Fin 4096)) (s : State) : Answers (execSetPolicy m vpp stuck s) := by
  unfold execSetPolicy
  repeat' first | exact answers_done _ | apply answers_ite | split

theorem execAdvance_answers (m : Fin 4) (vpp : Bool) (stuck : Option (Fin 4096)) (s : State) : Answers (execAdvance m vpp stuck s) := by
  unfold execAdvance
  repeat' first | exact answers_done _ | apply answers_ite | split

theorem execRevoke_answers (m : Fin 4) (vpp : Bool) (stuck : Option (Fin 4096)) (s : State) : Answers (execRevoke m vpp stuck s) := by
  unfold execRevoke
  repeat' first | exact answers_done _ | apply answers_ite | split

theorem execCommitVersion_answers (m : Fin 4) (vpp : Bool) (stuck : Option (Fin 4096)) (s : State) :
    Answers (execCommitVersion m vpp stuck s) := by
  unfold execCommitVersion
  repeat' first | exact answers_done _ | apply answers_ite | split

theorem execSpdmRelay_answers (m : Fin 4) (s : State) : Answers (execSpdmRelay m s) := by
  unfold execSpdmRelay
  repeat' first | exact answers_done _ | apply answers_ite | split

theorem execSelfTest_answers (m : Fin 4) (s : State) : Answers (execSelfTest m s) := by
  unfold execSelfTest
  repeat' first | exact answers_done _ | apply answers_ite | split

theorem execEventArrival_answers (s : State) : Answers (execEventArrival s) := by
  unfold execEventArrival
  repeat' first | exact answers_done _ | apply answers_ite | split

theorem execEnableGroup_answers (g : RegNo) (s : State) : Answers (execEnableGroup g s) := by
  unfold execEnableGroup
  repeat' first | exact answers_done _ | apply answers_ite | split

theorem execDisableGroup_answers (g : RegNo) (s : State) : Answers (execDisableGroup g s) := by
  unfold execDisableGroup
  repeat' first | exact answers_done _ | apply answers_ite | split

theorem execEventPulse_answers (n : RegNo) (s : State) : Answers (execEventPulse n s) := by
  unfold execEventPulse
  repeat' first | exact answers_done _ | apply answers_ite | split

theorem execEnterHoldover_answers (s : State) : Answers (execEnterHoldover s) := by
  unfold execEnterHoldover
  repeat' first | exact answers_done _ | apply answers_ite | split

theorem execEthPortUp_answers (m : Fin 16) (s : State) : Answers (execEthPortUp m s) := by
  unfold execEthPortUp
  repeat' first | exact answers_done _ | apply answers_ite

theorem execEthFrame_answers (m : Fin 16) (bytes : List Byte) (fcsOk overload : Bool) (s : State) :
    Answers (execEthFrame m bytes fcsOk overload s) := by
  unfold execEthFrame
  repeat' first | exact answers_done _ | apply answers_ite

theorem execArpRequest_answers (s : State) : Answers (execArpRequest s) := by
  unfold execArpRequest
  repeat' first | exact answers_done _ | apply answers_ite | split

theorem execArpReply_answers (s : State) : Answers (execArpReply s) := by
  unfold execArpReply
  repeat' first | exact answers_done _ | apply answers_ite | split

theorem execArpRetry_answers (s : State) : Answers (execArpRetry s) := by
  unfold execArpRetry
  repeat' first | exact answers_done _ | apply answers_ite | split

theorem execGvspLeader_answers (n : Fin 64) (s : State) : Answers (execGvspLeader n s) := by
  unfold execGvspLeader
  repeat' first | exact answers_done _ | apply answers_ite | split

theorem execGvspPayload_answers (n : Fin 64) (s : State) : Answers (execGvspPayload n s) := by
  unfold execGvspPayload
  repeat' first | exact answers_done _ | apply answers_ite | split

theorem execGvspTrailer_answers (n : Fin 64) (s : State) : Answers (execGvspTrailer n s) := by
  unfold execGvspTrailer
  repeat' first | exact answers_done _ | apply answers_ite | split

theorem execGapDelay_answers (n : Fin 64) (s : State) : Answers (execGapDelay n s) := by
  unfold execGapDelay
  repeat' first | exact answers_done _ | apply answers_ite | split | dsimp only

theorem execResendWait_answers (n : Fin 64) (s : State) : Answers (execResendWait n s) := by
  unfold execResendWait
  repeat' first | exact answers_done _ | apply answers_ite | split

theorem execFrameWatchdog_answers (n : Fin 64) (s : State) : Answers (execFrameWatchdog n s) := by
  unfold execFrameWatchdog
  repeat' first | exact answers_done _ | apply answers_ite | split

theorem execPtpMessage_answers (s : State) : Answers (execPtpMessage s) := by
  unfold execPtpMessage
  repeat' first | exact answers_done _ | apply answers_ite | split

theorem execGvcpAck_answers (s : State) : Answers (execGvcpAck s) := by
  unfold execGvcpAck
  repeat' first | exact answers_done _ | apply answers_ite | split

theorem execAckTmo_answers (s : State) : Answers (execAckTmo s) := by
  unfold execAckTmo
  repeat' first | exact answers_done _ | apply answers_ite | split

theorem execHeartbeat_answers (n : Fin 64) (s : State) : Answers (execHeartbeat n s) := by
  unfold execHeartbeat
  repeat' first | exact answers_done _ | apply answers_ite

theorem execHeartbeatTimeout_answers (n : Fin 64) (s : State) : Answers (execHeartbeatTimeout n s) := by
  unfold execHeartbeatTimeout
  repeat' first | exact answers_done _ | apply answers_ite | split | dsimp only

theorem execParLineOpen_answers (p : PortLevel) (s : State) : Answers (execParLineOpen p s) := by
  unfold execParLineOpen
  repeat' first | exact answers_done _ | apply answers_ite | split

theorem execParLineClose_answers (p : PortLevel) (s : State) : Answers (execParLineClose p s) := by
  unfold execParLineClose
  repeat' first | exact answers_done _ | apply answers_ite | split | dsimp only

theorem execParFrameClose_answers (p : PortLevel) (s : State) : Answers (execParFrameClose p s) := by
  unfold execParFrameClose
  repeat' first | exact answers_done _ | apply answers_ite

theorem execParFrameWatchdog_answers (p : Fin 4) (s : State) : Answers (execParFrameWatchdog p s) := by
  unfold execParFrameWatchdog
  repeat' first | exact answers_done _ | apply answers_ite | split

theorem execMillLineArrive_answers (s : State) : Answers (execMillLineArrive s) := by
  unfold execMillLineArrive
  repeat' first | exact answers_done _ | apply answers_ite | split

theorem execTdiBinEmit_answers (n : Fin 64) (s : State) : Answers (execTdiBinEmit n s) := by
  unfold execTdiBinEmit
  repeat' first | exact answers_done _ | apply answers_ite | split | dsimp only

theorem execStatsRecord_answers (n : Fin 64) (s : State) : Answers (execStatsRecord n s) := by
  unfold execStatsRecord
  repeat' first | exact answers_done _ | apply answers_ite | split | dsimp only

theorem execColCut_answers (q : Fin 8) (s : State) : Answers (execColCut q s) := by
  unfold execColCut
  repeat' first | exact answers_done _ | apply answers_ite | split

theorem execColLine_answers (s : State) : Answers (execColLine s) := by
  unfold execColLine
  repeat' first | exact answers_done _ | apply answers_ite | split

theorem execLineSettle_answers (q : Fin 8) (s : State) : Answers (execLineSettle q s) := by
  unfold execLineSettle
  repeat' first | exact answers_done _ | apply answers_ite | split

theorem execSheafClose_answers (q : Fin 8) (s : State) : Answers (execSheafClose q s) := by
  unfold execSheafClose
  repeat' first | exact answers_done _ | apply answers_ite | split

theorem execCloseTmo_answers (q : Fin 8) (s : State) : Answers (execCloseTmo q s) := by
  unfold execCloseTmo
  repeat' first | exact answers_done _ | apply answers_ite | split

theorem execStripBandSend_answers (q : Fin 8) (s : State) : Answers (execStripBandSend q s) := by
  unfold execStripBandSend
  repeat' first | exact answers_done _ | apply answers_ite | split | dsimp only

theorem execStripBand_answers (s : State) : Answers (execStripBand s) := by
  unfold execStripBand
  repeat' first | exact answers_done _ | apply answers_ite | split | dsimp only

theorem execHeadUnit_answers (h : Fin 3) (s : State) : Answers (execHeadUnit h s) := by
  unfold execHeadUnit
  repeat' first | exact answers_done _ | apply answers_ite | split

theorem execHeadOffer_answers (o : Fin 32) (s : State) : Answers (execHeadOffer o s) := by
  unfold execHeadOffer
  repeat' first | exact answers_done _ | apply answers_ite | split

theorem execHeadWaitExpiry_answers (o : Fin 32) (s : State) : Answers (execHeadWaitExpiry o s) := by
  unfold execHeadWaitExpiry
  repeat' first | exact answers_done _ | apply answers_ite | split

theorem execDisplayFrame_answers (d : Fin 8) (s : State) : Answers (execDisplayFrame d s) := by
  unfold execDisplayFrame
  repeat' first | exact answers_done _ | apply answers_ite | split

theorem execTileDeal_answers (s : State) : Answers (execTileDeal s) := by
  unfold execTileDeal
  repeat' first | exact answers_done _ | apply answers_ite | split

theorem execFlailTile_answers (s : State) : Answers (execFlailTile s) := by
  unfold execFlailTile
  repeat' first | exact answers_done _ | apply answers_ite | split

theorem execCropCut_answers (s : State) : Answers (execCropCut s) := by
  unfold execCropCut
  repeat' first | exact answers_done _ | apply answers_ite | split

theorem execRecordUnitClose_answers (r : Fin 256) (s : State) : Answers (execRecordUnitClose r s) := by
  unfold execRecordUnitClose
  repeat' first | exact answers_done _ | apply answers_ite | split | dsimp only

theorem execGranaryLine_answers (s : State) : Answers (execGranaryLine s) := by
  unfold execGranaryLine
  repeat' first | exact answers_done _ | apply answers_ite | split

theorem execExtractStart_answers (s : State) : Answers (execExtractStart s) := by
  unfold execExtractStart
  repeat' first | exact answers_done _ | apply answers_ite | split

theorem execExtractUnit_answers (s : State) : Answers (execExtractUnit s) := by
  unfold execExtractUnit
  repeat' first | exact answers_done _ | apply answers_ite | split | dsimp only

theorem execExtractTmo_answers (s : State) : Answers (execExtractTmo s) := by
  unfold execExtractTmo
  repeat' first | exact answers_done _ | apply answers_ite | split

theorem execExtractReport_answers (s : State) : Answers (execExtractReport s) := by
  unfold execExtractReport
  repeat' first | exact answers_done _ | apply answers_ite | split

theorem execFrank_answers (s : State) : Answers (execFrank s) := by
  unfold execFrank
  repeat' first | exact answers_done _ | apply answers_ite | split | dsimp only

theorem execRingUnitStart_answers (n : Fin 64) (s : State) : Answers (execRingUnitStart n s) := by
  unfold execRingUnitStart
  repeat' first | exact answers_done _ | apply answers_ite | split

theorem execRingUnitDone_answers (n : Fin 64) (s : State) : Answers (execRingUnitDone n s) := by
  unfold execRingUnitDone
  repeat' first | exact answers_done _ | apply answers_ite | split | dsimp only

theorem execDmaStartEvent_answers (n : Fin 64) (s : State) : Answers (execDmaStartEvent n s) := by
  unfold execDmaStartEvent
  repeat' first | exact answers_done _ | apply answers_ite | split

theorem execDescriptorRead_answers (n : Fin 64) (s : State) : Answers (execDescriptorRead n s) := by
  unfold execDescriptorRead
  repeat' first | exact answers_done _ | apply answers_ite | split

theorem execDmaBurst_answers (fromHost : Bool) (s : State) : Answers (execDmaBurst fromHost s) := by
  unfold execDmaBurst
  repeat' first | exact answers_done _ | apply answers_ite | split

theorem execCompletionTimeout_answers (tag : BitVec 14) (s : State) : Answers (execCompletionTimeout tag s) := by
  unfold execCompletionTimeout
  repeat' first | exact answers_done _ | apply answers_ite | split

theorem execBar0Request_answers (q : HostReq) (s : State) : Answers (execBar0Request q s) := by
  unfold execBar0Request
  repeat' first | exact answers_done _ | apply answers_ite | split

theorem execBar2Request_answers (q : HostReq) (s : State) : Answers (execBar2Request q s) := by
  unfold execBar2Request
  repeat' first | exact answers_done _ | apply answers_ite | split

theorem execMsiXMessage_answers (s : State) : Answers (execMsiXMessage s) := by
  unfold execMsiXMessage
  repeat' first | exact answers_done _ | apply answers_ite | split

theorem execCancelSigned_answers (s : State) : Answers (execCancelSigned s) := by
  unfold execCancelSigned
  repeat' first | exact answers_done _ | apply answers_ite | split | dsimp only

theorem execIdent_answers (k : Fin 8) (p : Dword) (s : State) : Answers (execIdent k p s) := by
  unfold execIdent
  repeat' first | exact answers_done _ | apply answers_ite

theorem execProbe_answers (k : Fin 8) (p : Dword) (sub : Fin 16) (s : State) : Answers (execProbe k p sub s) := by
  unfold execProbe
  repeat' first | exact answers_done _ | apply answers_ite

theorem execLinkAbsent_answers (k : Fin 8) (s : State) : Answers (execLinkAbsent k s) := by
  unfold execLinkAbsent
  repeat' first | exact answers_done _ | apply answers_ite | split

theorem execBeaconSend_answers (k : Fin 8) (b : Fin 8) (s : State) : Answers (execBeaconSend k b s) := by
  unfold execBeaconSend
  repeat' first | exact answers_done _ | apply answers_ite

theorem execRemoteOut_answers (r : Fin 128) (s : State) : Answers (execRemoteOut r s) := by
  unfold execRemoteOut
  repeat' first | exact answers_done _ | apply answers_ite | split

theorem execEvent_answers (k : Fin 8) (p : Dword) (s : State) : Answers (execEvent k p s) := by
  unfold execEvent
  repeat' first | exact answers_done _ | apply answers_ite | split

theorem execEbkXGo_answers (r : Requester) (v : Word) (s : State) : Answers (execEbkXGo r v s) := by
  unfold execEbkXGo
  repeat' first | exact answers_done _ | apply answers_ite | split

theorem execAxisSampleSend_answers (t : Fin 16) (s : State) : Answers (execAxisSampleSend t s) := by
  unfold execAxisSampleSend
  repeat' first | exact answers_done _ | apply answers_ite

theorem execAxisSample_answers (s : State) : Answers (execAxisSample s) := by
  unfold execAxisSample
  repeat' first | exact answers_done _ | apply answers_ite | split | dsimp only

theorem execBistDone_answers (fails : List (Fin 148)) (s : State) : Answers (execBistDone fails s) := by
  unfold execBistDone
  repeat' first | exact answers_done _ | apply answers_ite | split | dsimp only

theorem execWarm_answers (r : Requester) (s : State) : Answers (execWarm r s) := by
  unfold execWarm
  repeat' first | exact answers_done _ | apply answers_ite | split

theorem execWarmDone_answers (s : State) : Answers (execWarmDone s) := by
  unfold execWarmDone
  repeat' first | exact answers_done _ | apply answers_ite | split

theorem execTwiReadByte_answers (s : State) : Answers (execTwiReadByte s) := by
  unfold execTwiReadByte
  repeat' first | exact answers_done _ | apply answers_ite

theorem execStretchTmo_answers (s : State) : Answers (execStretchTmo s) := by
  unfold execStretchTmo
  repeat' first | exact answers_done _ | apply answers_ite | split

theorem execHoldTmo_answers (s : State) : Answers (execHoldTmo s) := by
  unfold execHoldTmo
  repeat' first | exact answers_done _ | apply answers_ite | split

theorem execRcRead_answers (r : Requester) (a : BitVec 34) (s : State) : Answers (execRcRead r a s) := by
  unfold execRcRead
  repeat' first | exact answers_done _ | apply answers_ite | split

theorem execParSample_answers (p : PortLevel) (rise fall : BitVec 16) (s : State) : Answers (execParSample p rise fall s) := by
  unfold execParSample
  repeat' first | exact answers_done _ | apply answers_ite | split

theorem execBar4Request_answers (q : HostReq) (s : State) : Answers (execBar4Request q s) := by
  unfold execBar4Request
  repeat' first | exact answers_done _ | apply answers_ite | split

theorem execIdeKmQuery_answers (t : Fin 5) (s : State) : Answers (execIdeKmQuery t s) := ideRow_answers _ _ _ _

theorem execKeyProg_answers (t : Fin 5) (s : State) : Answers (execKeyProg t s) := ideRow_answers _ _ _ _

theorem execKSetGo_answers (t : Fin 5) (s : State) : Answers (execKSetGo t s) := ideRow_answers _ _ _ _

theorem execKSetStop_answers (t : Fin 5) (s : State) : Answers (execKSetStop t s) := ideRow_answers _ _ _ _

theorem exec_answers (i : Instr) (s : State) : Answers (exec i s) := by
  cases i
  case tickCount => exact execTickCount_answers _ _
  case slewEnd => exact execSlewEnd_answers _
  case ppsOutEnd => exact execPpsOutEnd_answers _
  case fullPostmarkDue => exact execFullPostmarkDue_answers _ _
  case fenceDDone => exact execFenceDDone_answers _ _
  case awaitReached => exact execAwaitReached_answers _ _
  case awaitTimeout => exact execAwaitTimeout_answers _ _
  case evwaitTake => exact execEvwaitTake_answers _ _
  case evwaitTimeout => exact execEvwaitTimeout_answers _ _
  case tfeedCopy => exact execTfeedCopy_answers _ _
  case tfeedTimeout => exact execTfeedTimeout_answers _ _
  case flpushAccept => exact execFlpushAccept_answers _ _
  case busErrorPosted => exact execBusErrorPosted_answers _ _ _
  case query => exact execQuery_answers _ _
  case load => exact execLoad_answers _ _
  case parcelFetched => exact execParcelFetched_answers _ _ _
  case switch => exact execSwitch_answers _ _
  case coreSwitch => exact execCoreSwitch_answers _ _
  case switchForced => exact execSwitchForced_answers _ _
  case switchDone => exact execSwitchDone_answers _
  case cancel => exact execCancel_answers _ _
  case haltLetter => exact execHaltLetter_answers _ _
  case startLetter => exact execStartLetter_answers _ _
  case identity => exact execIdentity_answers _ _
  case challenge => exact execChallenge_answers _ _
  case setOwnerKey => exact execSetOwnerKey_answers _ _ _ _
  case setPolicy => exact execSetPolicy_answers _ _ _ _
  case advance => exact execAdvance_answers _ _ _ _
  case revoke => exact execRevoke_answers _ _ _ _
  case commitVersion => exact execCommitVersion_answers _ _ _ _
  case spdmRelay => exact execSpdmRelay_answers _ _
  case selfTest => exact execSelfTest_answers _ _
  case eventArrival => exact execEventArrival_answers _
  case enableGroup => exact execEnableGroup_answers _ _
  case disableGroup => exact execDisableGroup_answers _ _
  case eventPulse => exact execEventPulse_answers _ _
  case enterHoldover => exact execEnterHoldover_answers _
  case ethPortUp => exact execEthPortUp_answers _ _
  case ethFrame => exact execEthFrame_answers _ _ _ _ _
  case arpRequest => exact execArpRequest_answers _
  case arpReply => exact execArpReply_answers _
  case arpRetry => exact execArpRetry_answers _
  case icmpEchoRequest => exact execIcmpEchoRequest_answers _
  case gvspLeader => exact execGvspLeader_answers _ _
  case gvspPayload => exact execGvspPayload_answers _ _
  case gvspTrailer => exact execGvspTrailer_answers _ _
  case gapDelay => exact execGapDelay_answers _ _
  case resendWait => exact execResendWait_answers _ _
  case frameWatchdog => exact execFrameWatchdog_answers _ _
  case ptpMessage => exact execPtpMessage_answers _
  case gvcpAck => exact execGvcpAck_answers _
  case ackTmo => exact execAckTmo_answers _
  case heartbeat => exact execHeartbeat_answers _ _
  case heartbeatTimeout => exact execHeartbeatTimeout_answers _ _
  case parLineOpen => exact execParLineOpen_answers _ _
  case parLineClose => exact execParLineClose_answers _ _
  case parFrameClose => exact execParFrameClose_answers _ _
  case parFrameWatchdog => exact execParFrameWatchdog_answers _ _
  case millLineArrive => exact execMillLineArrive_answers _
  case millSegment => exact execMillSegment_answers s
  case tdiBinEmit => exact execTdiBinEmit_answers _ _
  case statsRecord => exact execStatsRecord_answers _ _
  case colCut => exact execColCut_answers _ _
  case colLine => exact execColLine_answers _
  case lineSettle => exact execLineSettle_answers _ _
  case sheafClose => exact execSheafClose_answers _ _
  case closeTmo => exact execCloseTmo_answers _ _
  case stripBandSend => exact execStripBandSend_answers _ _
  case stripBand => exact execStripBand_answers _
  case headUnit => exact execHeadUnit_answers _ _
  case headOffer => exact execHeadOffer_answers _ _
  case headWaitExpiry => exact execHeadWaitExpiry_answers _ _
  case displayFrame => exact execDisplayFrame_answers _ _
  case tileDeal => exact execTileDeal_answers _
  case flailTile => exact execFlailTile_answers _
  case cropCut => exact execCropCut_answers _
  case recordUnitClose => exact execRecordUnitClose_answers _ _
  case granaryLine => exact execGranaryLine_answers _
  case extractStart => exact execExtractStart_answers _
  case extractUnit => exact execExtractUnit_answers _
  case extractTmo => exact execExtractTmo_answers _
  case extractReport => exact execExtractReport_answers _
  case frank => exact execFrank_answers _
  case ringUnitStart => exact execRingUnitStart_answers _ _
  case ringUnitDone => exact execRingUnitDone_answers _ _
  case dmaStartEvent => exact execDmaStartEvent_answers _ _
  case descriptorRead => exact execDescriptorRead_answers _ _
  case dmaBurst => exact execDmaBurst_answers _ _
  case completionTimeout => exact execCompletionTimeout_answers _ _
  case bar0Request => exact execBar0Request_answers _ _
  case bar2Request => exact execBar2Request_answers _ _
  case msiXMessage => exact execMsiXMessage_answers _
  case cancelSigned => exact execCancelSigned_answers _
  case ident => exact execIdent_answers _ _ _
  case probe => exact execProbe_answers _ _ _ _
  case linkAbsent => exact execLinkAbsent_answers _ _
  case beaconSend => exact execBeaconSend_answers _ _ _
  case remoteOut => exact execRemoteOut_answers _ _
  case event => exact execEvent_answers _ _ _
  case ebkXGo => exact execEbkXGo_answers _ _ _
  case axisSampleSend => exact execAxisSampleSend_answers _ _
  case axisSample => exact execAxisSample_answers _
  case bistDone => exact execBistDone_answers _ _
  case warm => exact execWarm_answers _ _
  case warmDone => exact execWarmDone_answers _
  case twiReadByte => exact execTwiReadByte_answers _
  case stretchTmo => exact execStretchTmo_answers _
  case holdTmo => exact execHoldTmo_answers _
  case rcRead => exact execRcRead_answers _ _ _
  case parSample => exact execParSample_answers _ _ _ _
  case bar4Request => exact execBar4Request_answers _ _
  case ideKmQuery => exact execIdeKmQuery_answers _ _
  case keyProg => exact execKeyProg_answers _ _
  case kSetGo => exact execKSetGo_answers _ _
  case kSetStop => exact execKSetStop_answers _ _
  all_goals repeat' first | exact answers_done _ | exact spdmRow_answers _ _ _ _ | apply answers_ite

/-! ### The end of every command leaves the mode and the pin as the rules say -/

/-- Deciding the mode again puts the mode of R406 in MODE. -/
theorem State.settle_f_modeField (s : State) : s.settle.f F.DEV_MODE_MODE = s.modeOf := by
  rcases s.settle_cases with ⟨h, hm⟩ | ⟨h, _⟩
  · rw [h, hm]
  · rw [h, State.f_sf_self _ _ _ ⟨by decide, by decide⟩]
    exact Nat.mod_eq_of_lt (Nat.lt_of_le_of_lt s.modeOf_le (by decide))

/-- Driving ALERT_N leaves the registers that decide its level. -/
theorem State.driveAlert_alertLow (s : State) : s.driveAlert.alertLow = s.alertLow := by
  simp [State.alertLow, State.on, State.driveAlert_f]

theorem State.driveAlert_alert (s : State) : s.driveAlert.ras.alert = s.driveAlert.alertLow := by
  rw [State.driveAlert_alertLow]
  rcases s.driveAlert_cases with ⟨h, ha⟩ | ⟨h, _⟩
  · rw [h, ha]
  · rw [h]

theorem State.settled_inv (s : State) : Inv s.settled := by
  refine ⟨?_, State.driveAlert_alert _⟩
  rw [State.settled, State.driveAlert_f, State.driveAlert_modeOf, State.settle_modeOf, State.settle_f_modeField]

/-- Settles O45: every arm of `exec` ends in `done`, which settles the state it is given. -/
theorem everyCommandAnswers : Obligations.EveryCommandAnswers :=
  exec_answers

theorem step_answers (s : State) : Answers (step s) := by
  unfold step
  split
  · exact answers_done _
  · exact exec_answers _ _

/-- Settles O46: a step leaves a settled state, in which the invariant holds whatever the state before. -/
theorem stepKeepsInvariant : Obligations.StepKeepsInvariant := by
  intro s t _ h
  obtain ⟨u, hu⟩ := step_answers s
  rw [hu] at h
  cases h
  exact u.settled_inv

/-- Settles O43. -/
theorem stepTakesTheFrontCommand : Obligations.StepTakesTheFrontCommand := by
  intro c rest s
  constructor <;> intro h <;> rw [step, h]
  rfl

/-- Settles O44: nothing is listed at reset, so each part reads as its reset value. -/
theorem resetState : Obligations.ResetState :=
  ⟨rfl, rfl, rfl, rfl, rfl, rfl, rfl, rfl, fun _ => rfl, fun _ => rfl, rfl, ⟨rfl, rfl⟩, rfl, rfl, rfl⟩

end Sys2Proof.Machine
end

section
/-! SUPPORT. Scalar instructions of a core (O1 to O4): results, counts, jumps and branches. -/

namespace Sys2Proof.Machine
open Sys2Proof

/-! ### Results of scalar instructions (R71) -/

/-- A register-register instruction on a ready core writes its result to rd and goes on. -/
theorem done_rrOp {s : State} {c : Nat} (hs : Ready s c false) {legal : Bool} (hl : legal = true) (rd rs1 rs2 : Nat)
    (f : Word → Word → Word) {w : Word} (hw : f ((s.core c).rs rs1) ((s.core c).rs rs2) = w) :
    done (rrOp s c rd rs1 rs2 legal f) = .next (s.writes c rd w) := by
  rw [rrOp, issueS, issue_ready hs hl, hw]
  rfl

/-- A register-immediate instruction on a ready core writes its result to rd and goes on. -/
theorem done_riOp {s : State} {c : Nat} (hs : Ready s c false) {legal : Bool} (hl : legal = true) (rd rs1 : Nat) (f : Word → Word) {w : Word}
    (hw : f ((s.core c).rs rs1) = w) : done (riOp s c rd rs1 legal f) = .next (s.writes c rd w) := by
  rw [riOp, issueS, issue_ready hs hl, hw]
  rfl

theorem boolW_slt (a b : Word) : boolW (decide (a.toInt < b.toInt)) = if a.slt b then 1 else 0 := rfl

theorem boolW_ult (a b : Word) : boolW (decide (a.toNat < b.toNat)) = if a < b then 1 else 0 := by
  simp [boolW, BitVec.lt_def]

theorem ite_toInt_lt (a b x y : Word) : (if a.toInt < b.toInt then x else y) = if a.slt b then x else y := by
  simp [BitVec.slt]

/-- The rotation of the model is the library's, at an amount below the width. -/
theorem rorW_eq_rotateRight (a : Word) (n : Nat) : rorW a n = a.rotateRight (n % 32) := by
  have hn : n % 32 % 32 = n % 32 := Nat.mod_mod _ _
  rw [BitVec.rotateRight_def, hn, rorW]
  by_cases h : n % 32 = 0
  · simp [h]
  · rw [Nat.mod_eq_of_lt (by omega : 32 - n % 32 < 32)]

/-- The upper immediate stands in bits 31:12, with zeros below. -/
theorem upper_eq_append (imm : BitVec 20) : upper imm = imm ++ (0 : BitVec 12) := by
  apply BitVec.eq_of_toNat_eq
  have h : (imm ++ (0 : BitVec 12)).toNat = imm.toNat * 4096 := by
    rw [BitVec.toNat_append, Nat.shiftLeft_eq]
    exact Nat.or_zero _
  have := imm.isLt
  rw [h, upper, BitVec.toNat_ofNat]
  omega

/-- Settles O1: each instruction is one of the two shared operations, applied to its own function of the operands. -/
theorem scalarResults : Obligations.ScalarResults := by
  refine ⟨fun c rd rs1 rs2 s hs => ⟨?_, ?_, ?_, ?_, ?_, ?_, ?_, ?_, ?_, ?_, ?_, ?_, ?_, ?_, ?_, ?_⟩,
    fun c rd rs1 imm imm20 s hs => ⟨?_, ?_, ?_, ?_, ?_, ?_, fun hi => ?_, fun hi => ?_, fun hi => ?_, ?_, ?_⟩⟩
  · exact done_rrOp hs rfl _ _ _ _ rfl
  · exact done_rrOp hs rfl _ _ _ _ rfl
  · exact done_rrOp hs rfl _ _ _ _ rfl
  · exact done_rrOp hs rfl _ _ _ _ rfl
  · exact done_rrOp hs rfl _ _ _ _ rfl
  · exact done_rrOp hs rfl _ _ _ _ rfl
  · exact done_rrOp hs rfl _ _ _ _ rfl
  · exact done_rrOp hs rfl _ _ _ _ rfl
  · exact done_rrOp hs rfl _ _ _ _ (rorW_eq_rotateRight _ _)
  · exact done_rrOp hs rfl _ _ _ _ (boolW_slt _ _)
  · exact done_rrOp hs rfl _ _ _ _ (boolW_ult _ _)
  · exact done_rrOp hs rfl _ _ _ _ (ite_toInt_lt _ _ _ _)
  · exact done_rrOp hs rfl _ _ _ _ (ite_toInt_lt _ _ _ _)
  · exact done_rrOp hs rfl _ _ _ _ rfl
  · exact done_rrOp hs rfl _ _ _ _ rfl
  · exact done_rrOp hs rfl _ _ _ _ rfl
  · exact done_riOp hs rfl _ _ _ rfl
  · exact done_riOp hs rfl _ _ _ rfl
  · exact done_riOp hs rfl _ _ _ rfl
  · exact done_riOp hs rfl _ _ _ rfl
  · exact done_riOp hs rfl _ _ _ (boolW_slt _ _)
  · exact done_riOp hs rfl _ _ _ (boolW_ult _ _)
  · exact done_riOp hs (decide_eq_true hi) _ _ _ (by rw [Nat.mod_eq_of_lt hi])
  · exact done_riOp hs (decide_eq_true hi) _ _ _ (by rw [Nat.mod_eq_of_lt hi])
  · exact done_riOp hs (decide_eq_true hi) _ _ _ (by rw [sraW, Nat.mod_eq_of_lt hi])
  · exact done_riOp hs rfl _ 0 (fun _ => upper imm20) (upper_eq_append imm20)
  · have h : exec (.auipc c rd false imm20) s = done (issueS s c true rd (fun k => k.pc + upper imm20)) := rfl
    rw [h, issueS, issue_ready hs rfl, upper_eq_append]
    rfl

/-- Words as integers modulo 2^32. -/
theorem ofInt_eq_iff_toInt (i : Int) (w : Word) : BitVec.ofInt 32 i = w ↔ i.bmod (2 ^ 32) = w.toInt := by
  rw [← BitVec.toInt_inj, BitVec.toInt_ofInt]

/-- The 64-bit product of sign-extended words is their integer product. -/
theorem signExtend_mul (a b : Word) : a.signExtend 64 * b.signExtend 64 = BitVec.ofInt 64 (a.toInt * b.toInt) := by
  apply BitVec.eq_of_toInt_eq
  simp [BitVec.toInt_mul, BitVec.toInt_signExtend_of_le]

theorem mulLo_eq (a b : Word) : mulLo a b = (a.signExtend 64 * b.signExtend 64).extractLsb' 0 32 := by
  have h : a * b = BitVec.ofInt 32 (a.toInt * b.toInt) := by simp [BitVec.ofInt_mul]
  rw [signExtend_mul, mulLo, h]
  apply BitVec.eq_of_toNat_eq
  rw [BitVec.extractLsb'_toNat, BitVec.toNat_ofInt, BitVec.toNat_ofInt, Nat.shiftRight_zero]
  generalize a.toInt * b.toInt = t
  norm_num
  omega

theorem mulHi_eq (a b : Word) : mulHi a b = (a.signExtend 64 * b.signExtend 64).extractLsb' 32 32 := by
  rw [signExtend_mul, mulHi]
  apply BitVec.eq_of_toNat_eq
  rw [BitVec.extractLsb'_toNat, BitVec.toNat_ofInt, BitVec.toNat_ofInt, Nat.shiftRight_eq_div_pow, Int.fdiv_eq_ediv_of_nonneg _ (by decide)]
  generalize a.toInt * b.toInt = t
  norm_num
  omega

theorem mulHiU_eq (a b : Word) : mulHiU a b = (a.zeroExtend 64 * b.zeroExtend 64).extractLsb' 32 32 := by
  apply BitVec.eq_of_toNat_eq
  have h : a.toNat * b.toNat < 2 ^ 64 := by
    have := Nat.mul_lt_mul'' a.isLt b.isLt
    simpa using this
  rw [mulHiU, BitVec.extractLsb'_toNat, BitVec.toNat_mul, BitVec.toNat_setWidth_of_le (by decide), BitVec.toNat_setWidth_of_le (by decide),
    Nat.mod_eq_of_lt h, Nat.shiftRight_eq_div_pow, BitVec.toNat_ofNat]

theorem divS_eq (a b : Word) : divS a b = if b = 0 then BitVec.allOnes 32 else a.sdiv b := by
  unfold divS
  split
  · rfl
  · rw [ofInt_eq_iff_toInt, BitVec.toInt_sdiv]

theorem divU_eq (a b : Word) : divU a b = if b = 0 then BitVec.allOnes 32 else a / b := by
  unfold divU
  split
  · rfl
  · apply BitVec.eq_of_toNat_eq
    rw [BitVec.toNat_udiv, BitVec.toNat_ofNat, Nat.mod_eq_of_lt (Nat.lt_of_le_of_lt (Nat.div_le_self _ _) a.isLt)]

theorem remS_eq (a b : Word) : remS a b = if b = 0 then a else a.srem b := by
  unfold remS
  split
  · rfl
  · rw [← BitVec.toInt_srem, BitVec.ofInt_toInt]

theorem remU_eq (a b : Word) : remU a b = if b = 0 then a else a % b := by
  unfold remU
  split
  · rfl
  · apply BitVec.eq_of_toNat_eq
    rw [BitVec.toNat_umod, BitVec.toNat_ofNat, Nat.mod_eq_of_lt (Nat.lt_of_le_of_lt (Nat.mod_le _ _) a.isLt)]

/-- Settles O2: the model's products and quotients over the integers are the words of the library's. -/
theorem multiplyDivideResults : Obligations.MultiplyDivideResults := by
  intro c rd rs1 rs2 s hs
  refine ⟨?_, ?_, ?_, ?_, ?_, ?_, ?_⟩
  · exact done_rrOp hs rfl _ _ _ _ (mulLo_eq _ _)
  · exact done_rrOp hs rfl _ _ _ _ (mulHi_eq _ _)
  · exact done_rrOp hs rfl _ _ _ _ (mulHiU_eq _ _)
  · exact done_rrOp hs rfl _ _ _ _ (divS_eq _ _)
  · exact done_rrOp hs rfl _ _ _ _ (divU_eq _ _)
  · exact done_rrOp hs rfl _ _ _ _ (remS_eq _ _)
  · exact done_rrOp hs rfl _ _ _ _ (remU_eq _ _)
/-! ### Counts (R71) -/

/-- The bits at and above the count of leading zeros are clear. -/
theorem clzW_clear (a : Word) (i : Nat) (h : 32 - clzW a ≤ i) : a.getLsbD i = false := by
  rw [BitVec.getLsbD]
  by_cases h0 : a = 0
  · simp [h0]
  · have hn : a.toNat ≠ 0 := fun h => h0 (BitVec.eq_of_toNat_eq h)
    rw [clzW, if_neg h0] at h
    have : Nat.log2 a.toNat < 32 := (Nat.log2_lt hn).2 a.isLt
    exact Nat.testBit_lt_two_pow (Nat.lt_of_lt_of_le ((Nat.log2_lt hn).1 (Nat.lt_succ_self _)) (Nat.pow_le_pow_right (by decide) (by omega)))

theorem clzW_eq_32_iff (a : Word) : clzW a = 32 ↔ a = 0 := by
  unfold clzW
  split <;> simp_all
  omega

theorem clzW_le (a : Word) : clzW a ≤ 32 := by
  unfold clzW
  split <;> omega

/-- The bit below the leading zeros is set. -/
theorem clzW_set (a : Word) (h : clzW a < 32) : a.getLsbD (31 - clzW a) = true := by
  have h0 : a ≠ 0 := fun e => by simp [clzW, e] at h
  have hn : a.toNat ≠ 0 := fun h => h0 (BitVec.eq_of_toNat_eq h)
  have hl : Nat.log2 a.toNat < 32 := (Nat.log2_lt hn).2 a.isLt
  have e : 31 - clzW a = Nat.log2 a.toNat := by
    rw [clzW, if_neg h0]
    omega
  rw [e]
  exact Nat.testBit_log2 hn

theorem ctzN_le (n x : Nat) : ctzN n x ≤ n := by
  induction n generalizing x with
  | zero => exact Nat.le_refl _
  | succ n ih =>
    have := ih (x / 2)
    unfold ctzN
    split <;> omega

/-- The bits below the count of trailing zeros are clear. -/
theorem ctzN_clear (n x i : Nat) (h : i < ctzN n x) : x.testBit i = false := by
  induction n generalizing x i with
  | zero => simp [ctzN] at h
  | succ n ih =>
    unfold ctzN at h
    split at h
    · omega
    · rename_i h1
      cases i with
      | zero => simp [Nat.testBit_zero]; omega
      | succ i => rw [Nat.testBit_succ]; exact ih _ _ (by omega)

/-- The bit at the count of trailing zeros is set when it is below the width. -/
theorem ctzN_set (n x : Nat) (h : ctzN n x < n) : x.testBit (ctzN n x) = true := by
  induction n generalizing x with
  | zero => omega
  | succ n ih =>
    unfold ctzN at h ⊢
    split at h
    · rename_i h1
      simp [h1, Nat.testBit_zero]
    · rename_i h1
      rw [if_neg h1, Nat.add_comm, Nat.testBit_succ]
      exact ih _ (by omega)

theorem ctzN_eq_32_iff (a : Word) : ctzN 32 a.toNat = 32 ↔ a = 0 := by
  constructor
  · intro h
    apply BitVec.eq_of_getLsbD_eq
    intro i hi
    have hi32 : i < ctzN 32 a.toNat := by omega
    exact (ctzN_clear 32 a.toNat i hi32).trans (BitVec.getLsbD_zero).symm
  · rintro rfl
    rfl

/-- The count of set bits of the low `n` bits counts the positions. -/
theorem popcN_eq_countP (n x : Nat) : popcN n x = (List.range n).countP (fun i => x.testBit i) := by
  induction n generalizing x with
  | zero => rfl
  | succ n ih =>
    rw [popcN, ih, List.range_succ_eq_map, List.countP_cons, List.countP_map, Nat.testBit_zero]
    have e : ((fun i => x.testBit i) ∘ Nat.succ) = fun i => (x / 2).testBit i := by
      funext i
      exact Nat.testBit_succ ..
    rw [e]
    rcases Nat.mod_two_eq_zero_or_one x with h | h <;> simp [h, Nat.add_comm]

/-- Settles O3: the counts by what they say of the bits above, at and below them. -/
theorem bitCounts : Obligations.BitCounts := by
  intro c rd rs1 s hs
  refine ⟨⟨clzW ((s.core c).rs rs1), ?_, clzW_le _, clzW_eq_32_iff _, fun i => clzW_clear _ i, clzW_set _⟩,
    ⟨ctzN 32 ((s.core c).rs rs1).toNat, ?_, ctzN_le _ _, ctzN_eq_32_iff _, fun i => ctzN_clear _ _ i, ctzN_set _ _⟩, ?_⟩
  · exact done_rrOp hs rfl _ _ _ _ rfl
  · exact done_rrOp hs rfl _ _ _ _ rfl
  · exact done_rrOp hs rfl _ _ _ _ (congrArg _ (popcN_eq_countP 32 _))

/-! ### Jumps and branches (R71) -/

/-- An offset counted in words: two zero bits below it. -/
theorem four_mul_sx32 {w : Nat} (off : BitVec w) (h0 : w ≠ 0) (h : w + 2 ≤ 32) : 4 * sx32 off = (off ++ (0 : BitVec 2)).signExtend 32 := by
  apply BitVec.eq_of_toInt_eq
  have hr : ((off ++ (0 : BitVec 2)).signExtend 32).toInt = 4 * off.toInt := by
    rw [BitVec.toInt_signExtend_of_le h, BitVec.toInt_append]
    simp [h0]
  have hl : (4 * sx32 off).toInt = (4 * off.toInt).bmod (2 ^ 32) := by
    rw [sx32, BitVec.toInt_mul, BitVec.toInt_signExtend_of_le (by omega)]
    rfl
  rw [hl, ← hr, BitVec.toInt_bmod_cancel]

/-- A branch on a ready core goes to its target or to the next instruction. -/
theorem done_branch {s : State} {c : Nat} (hs : Ready s c false) (rs1 rs2 : Nat) (off : BitVec 14) (p : Word → Word → Bool) {b : Bool}
    (hb : p ((s.core c).rs rs1) ((s.core c).rs rs2) = b) :
    done (branch s c rs1 rs2 off p) =
      .next (s.coreNext c (if b then (s.core c).retireTo ((s.core c).pc + (off ++ (0 : BitVec 2)).signExtend 32) else (s.core c).retire)) := by
  rw [branch, issue_ready hs rfl, hb, four_mul_sx32 off (by decide) (by decide)]
  rfl

/-- A jump to an aligned target. -/
theorem done_jumpTo_aligned {s : State} {c rd : Nat} {t : Word} (h : t.toNat % 4 = 0) :
    done (jumpTo s c rd (s.core c) t) = .next (s.coreNext c (((s.core c).ws rd ((s.core c).pc + 4)).retireTo t)) := by
  simp only [jumpTo, h]
  rfl

/-- A jump to a misaligned target. -/
theorem done_jumpTo_misaligned {s : State} {c rd : Nat} {t : Word} (h : t.toNat % 4 ≠ 0) :
    done (jumpTo s c rd (s.core c) t) = .next (takeExc s c 2 3 t.toNat).settle.driveAlert := by
  simp only [jumpTo, bne_iff_ne, if_pos h]
  rfl

/-- Settles O4: two jumps and six branches, each with its own target and test. -/
theorem jumpsAndBranches : Obligations.JumpsAndBranches := by
  intro c rd rs1 rs2 imm20 imm off s hs
  refine ⟨fun hj => ?_, fun ht => ?_, fun ht => ?_, ?_, ?_, ?_, ?_, ?_, ?_⟩
  · rw [exec_jal rd imm20 hs, four_mul_sx32 imm20 (by decide) (by decide)]
    exact done_jumpTo_aligned hj
  · rw [exec_jalr rd rs1 imm hs]
    exact done_jumpTo_aligned ht
  · rw [exec_jalr rd rs1 imm hs]
    exact done_jumpTo_misaligned ht
  · exact done_branch hs rs1 rs2 off _ (beq_eq_decide _ _)
  · exact done_branch hs rs1 rs2 off _ (by simp [bne, beq_eq_decide])
  · exact done_branch hs rs1 rs2 off _ rfl
  · exact done_branch hs rs1 rs2 off _ rfl
  · exact done_branch hs rs1 rs2 off _ rfl
  · exact done_branch hs rs1 rs2 off _ rfl

end Sys2Proof.Machine
end

section
/-! SUPPORT. Illegal forms, loads, stores and atomics of a core (O5 to O8). -/

namespace Sys2Proof.Machine
open Sys2Proof

/-! ### Illegal forms (R70) -/

/-- An instruction whose fields are not legal is the illegal-instruction exception. -/
theorem done_issue_illegal {s : State} {c : Nat} {v legal : Bool} (hs : Ready s c false) (hl : legal = false) (body : CoreSt → State) :
    done (issue s c v legal body) = .next (takeExc s c 1 0 0).settle.driveAlert := by
  rw [issue_illegal hs (.inl hl)]
  rfl

/-- An instruction of profile V on a control core is the illegal-instruction exception. -/
theorem done_issue_profileV {s : State} {c : Nat} {legal : Bool} (hs : Ready s c false) (hc : isTc c = false) (body : CoreSt → State) :
    done (issue s c true legal body) = .next (takeExc s c 1 0 0).settle.driveAlert := by
  rw [issue_illegal hs (.inr ⟨rfl, hc⟩)]
  rfl

theorem val_beq_zero {n : Nat} [NeZero n] {r : Fin n} (h : r ≠ 0) : (r.val == 0) = false :=
  beq_eq_false_iff_ne.2 (fun e => h (Fin.val_eq_zero_iff.1 e))

theorem allS0_false {rd rs1 rs2 : RegNo} (h : rd ≠ 0 ∨ rs1 ≠ 0 ∨ rs2 ≠ 0) : allS0 rd rs1 rs2 = false := by
  simp only [allS0, Bool.and_eq_false_iff, beq_eq_false_iff_ne]
  tauto

/-- Settles O5: each form fails the test of its reserved fields, or needs profile V where the core has none. -/
theorem illegalForms : Obligations.IllegalForms := by
  intro c rd rs1 rs2 imm imm20 view pred idx s hs
  have view3 (h : view = 3) : (view.val != 3) = false := by rw [h]; rfl
  have viewNe (h : view ≠ 3) : (view.val == 3) = false := beq_eq_false_iff_ne.2 (fun e => h (Fin.ext e))
  refine ⟨fun h => ⟨?_, ?_, ?_⟩, fun h => ⟨?_, ?_, ?_⟩, ⟨?_, ?_, ?_⟩, fun h => ⟨?_, ?_, ?_, ?_⟩, fun h => ?_, fun h => ?_, fun h => ?_,
    fun h => ⟨?_, ?_, ?_, ?_, ?_, ?_⟩, fun h => ⟨?_, ?_, ?_, ?_, ?_⟩, fun h => ⟨?_, ?_, ?_⟩, fun w h => ?_, fun w i h => ?_⟩
  · exact done_issue_illegal hs (val_beq_zero h) _
  · exact done_issue_illegal hs (val_beq_zero h) _
  · exact done_issue_illegal hs (val_beq_zero h) _
  · exact done_issue_illegal hs (decide_eq_false (Nat.not_lt.2 h)) _
  · exact done_issue_illegal hs (decide_eq_false (Nat.not_lt.2 h)) _
  · exact done_issue_illegal hs (decide_eq_false (Nat.not_lt.2 h)) _
  · exact done_issue_illegal hs rfl _
  · exact done_issue_illegal hs rfl _
  · exact done_issue_illegal hs rfl _
  · exact done_issue_illegal hs (allS0_false h) _
  · exact done_issue_illegal hs (allS0_false h) _
  · exact done_issue_illegal hs (allS0_false h) _
  · exact done_issue_illegal hs (allS0_false h) _
  · exact done_issue_illegal hs (beq_eq_false_iff_ne.2 h) _
  · exact done_issue_illegal hs (beq_eq_false_iff_ne.2 h) _
  · exact done_issue_illegal hs (by rw [h]; rfl) _
  · exact done_issue_profileV hs h _
  · exact done_issue_profileV hs h _
  · exact done_issue_profileV hs h _
  · exact done_issue_profileV hs h _
  · exact done_issue_profileV hs h _
  · exact done_issue_profileV hs h _
  · exact done_issue_illegal hs (view3 h) _
  · exact done_issue_illegal hs (view3 h) _
  · exact done_issue_illegal hs (Bool.and_eq_false_iff.2 (.inl (view3 h))) _
  · exact done_issue_illegal hs (view3 h) _
  · exact done_issue_illegal hs (Bool.and_eq_false_iff.2 (.inl (view3 h))) _
  · exact done_issue_illegal hs (viewNe h) _
  · exact done_issue_illegal hs (viewNe h) _
  · exact done_issue_illegal hs (Bool.and_eq_false_iff.2 (.inl (viewNe h))) _
  · rw [execWord, h]
    exact done_issue_illegal hs rfl _
  · rw [execWord, h]

/-! ### Bytes and words -/

theorem length_mreadBytes (m : SMap (BitVec 8)) (a n : Nat) : (mreadBytes m a n).length = n := by
  induction n generalizing a with
  | zero => rfl
  | succ n ih => simp [mreadBytes, ih]

/-- A read that gives bytes gives as many as it asks for. -/
theorem length_of_placeRead {s : State} {p : Place} {n : Nat} {l : List (BitVec 8)} (h : placeRead s p n = some l) : l.length = n := by
  unfold placeRead at h
  split at h
  · split at h <;> simp_all
    rw [← h, length_mreadBytes]
  · split at h <;> simp_all
    rw [← h]; simp [cluBytes]
  · split at h <;> simp_all
    rw [← h, State.dread, length_mreadBytes]
  · cases h

/-- The low byte of a longer word. -/
theorem toNat_append_byte {n : Nat} (h : BitVec n) (b : BitVec 8) : (h ++ b).toNat = b.toNat + 256 * h.toNat := by
  rw [BitVec.toNat_append, ← Nat.shiftLeft_add_eq_or_of_lt b.isLt, Nat.shiftLeft_eq]
  omega

/-- The bytes of a number from an offset on. -/
theorem bytesLE_div (n v k : Nat) : bytesLE n (v / 256 ^ k) = (List.range n).map (fun i => BitVec.ofNat 8 (v / 256 ^ (k + i))) := by
  induction n generalizing k with
  | zero => rfl
  | succ n ih =>
    rw [bytesLE, Nat.div_div_eq_div_mul, ← Nat.pow_succ, ih, List.range_succ_eq_map, List.map_cons, List.map_map]
    simp [Function.comp_def, Nat.add_comm, Nat.add_left_comm]

/-- The bytes of a word, lowest first, are its slices. -/
theorem bytesLE_eq_slices (n : Nat) (w : Word) : bytesLE n w.toNat = (List.range n).map (fun i => w.extractLsb' (8 * i) 8) := by
  have h := bytesLE_div n w.toNat 0
  rw [Nat.pow_zero, Nat.div_one] at h
  rw [h]
  refine List.map_congr_left fun i _ => BitVec.eq_of_toNat_eq ?_
  rw [BitVec.extractLsb'_toNat, BitVec.toNat_ofNat, Nat.shiftRight_eq_div_pow, Nat.zero_add, Nat.pow_mul]

/-- The number of two bytes, lowest first. -/
theorem ofLE_two (b0 b1 : BitVec 8) : ofLE [b0, b1] = (b1 ++ b0).toNat := by
  rw [toNat_append_byte]
  rfl

/-- The word of four bytes, lowest first. -/
theorem ofLE_four (b0 b1 b2 b3 : BitVec 8) : BitVec.ofNat 32 (ofLE [b0, b1, b2, b3]) = b3 ++ b2 ++ b1 ++ b0 := by
  have h : ofLE [b0, b1, b2, b3] = (b3 ++ b2 ++ b1 ++ b0).toNat := by
    rw [toNat_append_byte, toNat_append_byte, toNat_append_byte]
    rfl
  rw [h, BitVec.ofNat_toNat, BitVec.setWidth_eq]

/-- The signed value of a word of the model is the library's. -/
theorem signed_toNat {n : Nat} (b : BitVec n) : signed n b.toNat = b.toInt := by
  rw [signed, Nat.mod_eq_of_lt b.isLt, BitVec.toInt_eq_toNat_cond]
  cases n with
  | zero => simp [BitVec.eq_nil b]
  | succ n =>
    rw [Nat.add_sub_cancel, Nat.pow_succ]
    split <;> split <;> first | rfl | omega

theorem ofInt_signed {n : Nat} (b : BitVec n) : BitVec.ofInt 32 (signed n b.toNat) = b.signExtend 32 := by
  rw [signed_toNat, BitVec.signExtend]

theorem list_of_length_one {α : Type} (d : α) {l : List α} (h : l.length = 1) : l = [l.getD 0 d] := by
  match l, h with
  | [_], _ => rfl

theorem list_of_length_two {α : Type} (d : α) {l : List α} (h : l.length = 2) : l = [l.getD 0 d, l.getD 1 d] := by
  match l, h with
  | [_, _], _ => rfl

theorem list_of_length_four {α : Type} (d : α) {l : List α} (h : l.length = 4) : l = [l.getD 0 d, l.getD 1 d, l.getD 2 d, l.getD 3 d] := by
  match l, h with
  | [_, _, _, _], _ => rfl

/-! ### Loads (R68, R71, R88, R89) -/

section Loads
variable {s : State} {c rt base n : Nat} {off : BitVec 12} {ext : Nat → Word}

/-- A load whose place is read. -/
theorem done_loadOp_read (hs : Ready s c false) {p : Place} {l : List (BitVec 8)} {w : Word}
    (hp : scalarPlace (s.core c) c (memAddr (s.core c) base off) n false false = .ok p) (hl : placeRead s p n = some l)
    (hw : ext (ofLE l) = w) : done (loadOp s c rt base off n ext) = .next (s.writes c rt w) := by
  rw [loadOp, issue_ready hs rfl]
  simp only [hp, hl, hw]
  rfl

/-- A load whose address is refused. -/
theorem done_loadOp_refused (hs : Ready s c false) {cause d : Nat}
    (hp : scalarPlace (s.core c) c (memAddr (s.core c) base off) n false false = .error (cause, d)) :
    done (loadOp s c rt base off n ext) = .next (takeExc s c cause d (memAddr (s.core c) base off)).settle.driveAlert := by
  rw [loadOp, issue_ready hs rfl]
  simp only [hp]
  rfl

/-- A load of uncorrectable data. -/
theorem done_loadOp_missed (hs : Ready s c false) {p : Place}
    (hp : scalarPlace (s.core c) c (memAddr (s.core c) base off) n false false = .ok p) (hl : placeRead s p n = none) :
    done (loadOp s c rt base off n ext) =
      .next (takeExc (placeMissed s p n) c 4 0 (memAddr (s.core c) base off)).settle.driveAlert := by
  rw [loadOp, issue_ready hs rfl]
  simp only [hp, hl]
  rfl

end Loads

/-- lw of a word of memory. -/
theorem exec_lw_read {c : CoreNo} {rt base : RegNo} {off : BitVec 12} {s : State} (hs : Ready s c false) {p : Place} {l : List (BitVec 8)}
    (hp : scalarPlace (s.core c) c (memAddr (s.core c) base off) 4 false true = .ok p) (hl : placeRead s p 4 = some l) :
    exec (.lw c rt base off) s = .next (s.writes c rt (l.getD 3 0 ++ l.getD 2 0 ++ l.getD 1 0 ++ l.getD 0 0)) := by
  have hlw : exec (.lw c rt base off) s = execLw c rt base off s := rfl
  have hw : BitVec.ofNat 32 (ofLE l) = l.getD 3 0 ++ l.getD 2 0 ++ l.getD 1 0 ++ l.getD 0 0 := by
    rw [← ofLE_four, ← list_of_length_four 0 (length_of_placeRead hl)]
  rw [hlw, execLw, issue_ready hs rfl]
  simp only [hp]
  cases p with
  | reg r => cases hl
  | loc _ => simp only [hl, hw]; rfl
  | clu _ _ => simp only [hl, hw]; rfl
  | dev _ => simp only [hl, hw]; rfl

/-- Settles O6: the four short loads are one shared operation, and lw reaches register space besides. -/
theorem loadResults : Obligations.LoadResults := by
  intro c rt base off s hs
  have hlw : exec (.lw c rt base off) s = execLw c rt base off s := rfl
  refine ⟨fun p l hp hl => ⟨?_, ?_⟩, fun p l hp hl => ⟨?_, ?_⟩, fun p l hp hl => ?_, fun r hp hr => ?_, fun r hp hr => ?_,
    fun cause d hp => ⟨?_, ?_⟩, fun cause d hp => ⟨?_, ?_⟩, fun cause d hp => ?_,
    fun p hp hl => ⟨?_, ?_⟩, fun p hp hl => ⟨?_, ?_⟩, fun p hp hr hl => ?_⟩
  · refine done_loadOp_read hs hp hl ?_
    rw [list_of_length_one 0 (length_of_placeRead hl)]
    exact ofInt_signed _
  · refine done_loadOp_read hs hp hl ?_
    rw [list_of_length_one 0 (length_of_placeRead hl)]
    exact BitVec.ofNat_toNat _ _
  · refine done_loadOp_read hs hp hl ?_
    rw [list_of_length_two 0 (length_of_placeRead hl), ofLE_two]
    exact ofInt_signed _
  · refine done_loadOp_read hs hp hl ?_
    rw [list_of_length_two 0 (length_of_placeRead hl), ofLE_two]
    exact BitVec.ofNat_toNat _ _
  · exact exec_lw_read hs hp hl
  · rw [hlw, execLw, issue_ready hs rfl]
    simp only [memAddr, sx32, hp, hr, if_true]
    rfl
  · rw [hlw, execLw, issue_ready hs rfl]
    simp only [memAddr, sx32, hp, hr]
    rfl
  · exact done_loadOp_refused hs hp
  · exact done_loadOp_refused hs hp
  · exact done_loadOp_refused hs hp
  · exact done_loadOp_refused hs hp
  · rw [hlw, execLw, issue_ready hs rfl]
    simp only [memAddr, sx32, hp]
    rfl
  · exact done_loadOp_missed hs hp hl
  · exact done_loadOp_missed hs hp hl
  · exact done_loadOp_missed hs hp hl
  · exact done_loadOp_missed hs hp hl
  · rw [hlw, execLw, issue_ready hs rfl]
    simp only [memAddr, sx32, hp]
    cases p with
    | reg r => exact absurd rfl (hr r)
    | loc _ => simp only [hl]; rfl
    | clu _ _ => simp only [hl]; rfl
    | dev _ => simp only [hl]; rfl

/-! ### Stores (R68, R71, R88) -/

section Stores
variable {s : State} {c rt base n : Nat} {off : BitVec 12}

/-- A store whose place is written. -/
theorem done_storeOp_write (hs : Ready s c false) {p : Place}
    (hp : scalarPlace (s.core c) c (memAddr (s.core c) base off) n true false = .ok p) :
    done (storeOp s c rt base off n) =
      .next (((placeWrite s p ((List.range n).map (fun i => ((s.core c).rs rt).extractLsb' (8 * i) 8))).mapCore c (·.retire)).settled) := by
  rw [storeOp, issue_ready hs rfl, bytesLE_eq_slices]
  simp only [hp]
  rfl

/-- A store whose address is refused. -/
theorem done_storeOp_refused (hs : Ready s c false) {cause d : Nat}
    (hp : scalarPlace (s.core c) c (memAddr (s.core c) base off) n true false = .error (cause, d)) :
    done (storeOp s c rt base off n) = .next (takeExc s c cause d (memAddr (s.core c) base off)).settle.driveAlert := by
  rw [storeOp, issue_ready hs rfl]
  simp only [hp]
  rfl

end Stores

/-- sw of a word of memory. -/
theorem exec_sw_write {c : CoreNo} {rt base : RegNo} {off : BitVec 12} {s : State} (hs : Ready s c false) {p : Place}
    (hp : scalarPlace (s.core c) c (memAddr (s.core c) base off) 4 true true = .ok p) (hr : ∀ r, p ≠ .reg r) :
    exec (.sw c rt base off) s = .next (((placeWrite s p ((List.range 4).map (fun i => ((s.core c).rs rt).extractLsb' (8 * i) 8))).mapCore c
      (·.retire)).settled) := by
  have hsw : exec (.sw c rt base off) s = execSw c rt base off s := rfl
  rw [hsw, execSw, issue_ready hs rfl]
  simp only [hp, bytesLE_eq_slices]
  cases p with
  | reg r => exact absurd rfl (hr r)
  | loc _ => rfl
  | clu _ _ => rfl
  | dev _ => rfl

/-- Settles O7: the two short stores are one shared operation, and sw reaches register space besides. -/
theorem storeResults : Obligations.StoreResults := by
  intro c rt base off s hs
  have hsw : exec (.sw c rt base off) s = execSw c rt base off s := rfl
  refine ⟨fun p hp => ?_, fun p hp => ?_, fun p hp hr => ?_, fun r hp hr => ?_, fun r hp hr => ?_, fun cause d hp => ?_, fun cause d hp => ?_,
    fun cause d hp => ?_⟩
  · exact done_storeOp_write hs hp
  · exact done_storeOp_write hs hp
  · exact exec_sw_write hs hp hr
  · rw [hsw, execSw, issue_ready hs rfl]
    simp only [memAddr, sx32, hp, hr, if_true]
    rfl
  · rw [hsw, execSw, issue_ready hs rfl]
    simp only [memAddr, sx32, hp, hr]
    rfl
  · exact done_storeOp_refused hs hp
  · exact done_storeOp_refused hs hp
  · rw [hsw, execSw, issue_ready hs rfl]
    simp only [memAddr, sx32, hp]
    rfl

/-! ### Atomics (R71, R85) -/

section Atomics
variable {s : State} {c rd rs1 rs2 : Nat} {f : Word → Word → Word → Word}

/-- An atomic whose place is read and written. -/
theorem done_amoOp_write (hs : Ready s c false) {p : Place} {l : List (BitVec 8)} {w : Word}
    (hp : scalarPlace (s.core c) c ((s.core c).rs rs1).toNat 4 true false = .ok p) (hl : placeRead s p 4 = some l)
    (hw : f (l.getD 3 0 ++ l.getD 2 0 ++ l.getD 1 0 ++ l.getD 0 0) ((s.core c).rs rd) ((s.core c).rs rs2) = w) :
    done (amoOp s c rd rs1 rs2 f) =
      .next (((placeWrite s p ((List.range 4).map (fun i => w.extractLsb' (8 * i) 8))).mapCore c
        (fun k => (k.ws rd (l.getD 3 0 ++ l.getD 2 0 ++ l.getD 1 0 ++ l.getD 0 0)).retire)).settled) := by
  have ho : BitVec.ofNat 32 (ofLE l) = l.getD 3 0 ++ l.getD 2 0 ++ l.getD 1 0 ++ l.getD 0 0 := by
    rw [← ofLE_four, ← list_of_length_four 0 (length_of_placeRead hl)]
  rw [amoOp, issue_ready hs rfl]
  simp only [hp, hl, ho, hw, bytesLE_eq_slices]
  rfl

/-- An atomic whose address is refused. -/
theorem done_amoOp_refused (hs : Ready s c false) {cause d : Nat}
    (hp : scalarPlace (s.core c) c ((s.core c).rs rs1).toNat 4 true false = .error (cause, d)) :
    done (amoOp s c rd rs1 rs2 f) = .next (takeExc s c cause d ((s.core c).rs rs1).toNat).settled := by
  rw [amoOp, issue_ready hs rfl]
  simp only [hp]
  rfl

/-- An atomic on uncorrectable data. -/
theorem done_amoOp_missed (hs : Ready s c false) {p : Place}
    (hp : scalarPlace (s.core c) c ((s.core c).rs rs1).toNat 4 true false = .ok p) (hl : placeRead s p 4 = none) :
    done (amoOp s c rd rs1 rs2 f) = .next (takeExc (placeMissed s p 4) c 4 0 ((s.core c).rs rs1).toNat).settled := by
  rw [amoOp, issue_ready hs rfl]
  simp only [hp, hl]
  rfl

end Atomics

/-- Settles O8: the seven atomics are one shared operation, applied to its own function of the old word, rd and rs2. -/
theorem atomicResults : Obligations.AtomicResults := by
  intro c rd rs1 rs2 s hs
  refine ⟨fun cause d hp i hi => ?_, fun p hp hl i hi => ?_, fun p l hp hl => ⟨?_, ?_, ?_, ?_, ?_, ?_, ?_⟩⟩
  · simp only [List.mem_cons, List.not_mem_nil, or_false] at hi
    rcases hi with rfl | rfl | rfl | rfl | rfl | rfl | rfl
    all_goals exact done_amoOp_refused hs hp
  · simp only [List.mem_cons, List.not_mem_nil, or_false] at hi
    rcases hi with rfl | rfl | rfl | rfl | rfl | rfl | rfl
    all_goals exact done_amoOp_missed hs hp hl
  · exact done_amoOp_write hs hp hl rfl
  · exact done_amoOp_write hs hp hl rfl
  · exact done_amoOp_write hs hp hl rfl
  · exact done_amoOp_write hs hp hl rfl
  · exact done_amoOp_write hs hp hl (ite_toInt_lt _ _ _ _)
  · exact done_amoOp_write hs hp hl (ite_toInt_lt _ _ _ _)
  · exact done_amoOp_write hs hp hl rfl

end Sys2Proof.Machine
end

section
/-! SUPPORT. System instructions, position, time and events of a core (O13 to O16). -/

namespace Sys2Proof.Machine
open Sys2Proof

/-! ### System instructions (R65, R71, R83, R84, R91) -/

/-- The outcome of an instruction that a ready core takes is its body's state. -/
theorem done_issue_ready {s : State} {c : Nat} {v legal : Bool} (hs : Ready s c v) (hl : legal = true) (body : CoreSt → State) :
    done (issue s c v legal body) = .next (body (s.core c)).settled := by
  rw [issue_ready hs hl]
  rfl

/-- Settles O13. -/
theorem systemInstructions : Obligations.SystemInstructions := by
  intro c rd rs1 imm s
  refine ⟨fun hs => ⟨?_, ?_, fun he => ?_, ?_, fun h2 h3 h4 h5 => ?_, fun hn => ?_, fun hn => ?_, ?_⟩, fun hw => ?_, fun hw hb => ?_,
    fun a r hw hb => ?_, fun hup hrun => ?_⟩
  · exact done_issue_ready hs rfl _
  · exact done_issue_ready hs rfl _
  · have h : exec (.eret c 0 0 0) s = execEret c 0 0 0 s := rfl
    rw [h, execEret, issue_ready (legal := allS0 0 0 0) hs rfl]
    simp only [retExc, he]
    rfl
  · exact done_issue_ready hs rfl _
  · have h : exec (.xrd c rd 0 imm) s = execXrd c rd 0 imm s := rfl
    rw [h, execXrd, issue_ready (legal := (0 : RegNo) == 0) hs rfl]
    simp only [beq_eq_false_iff_ne.2 h2, beq_eq_false_iff_ne.2 h3, beq_eq_false_iff_ne.2 h4, beq_eq_false_iff_ne.2 h5]
    rfl
  · have h : exec (.xrd c rd 0 imm) s = execXrd c rd 0 imm s := rfl
    rw [h, execXrd, issue_ready (legal := (0 : RegNo) == 0) hs rfl]
    rcases hn with hn | hn <;> simp only [hn] <;> rfl
  · have h : exec (.xrd c rd 0 imm) s = execXrd c rd 0 imm s := rfl
    rw [h, execXrd, issue_ready (legal := (0 : RegNo) == 0) hs rfl]
    rcases hn with hn | hn <;> simp only [hn] <;> rfl
  · exact done_issue_ready hs rfl _
  · obtain ⟨hup, hrun, hwait⟩ := hw
    have h : exec (.fenceCDone c) s = execFenceCDone c s := rfl
    rw [h, execFenceCDone]
    simp only [hup, hrun, hwait]
    rfl
  · obtain ⟨hup, hrun, hwait⟩ := hw
    have h : exec (.fenceDDone c) s = execFenceDDone c s := rfl
    rw [h, execFenceDDone]
    simp only [hup, hrun, hwait, hb]
    rfl
  · obtain ⟨hup, hrun, hwait⟩ := hw
    have h : exec (.fenceDDone c) s = execFenceDDone c s := rfl
    rw [h, execFenceDDone]
    simp only [hup, hrun, hwait, hb]
    rfl
  · have h : exec (.wdtKick c) s = execWdtKick c s := rfl
    rw [h, execWdtKick, if_pos (by simp [hup, hrun])]
    rfl

/-- Settles O14. -/
theorem coreErrors : Obligations.CoreErrors := by
  intro c a s hup hrun
  have h : exec (.busErrorPosted c a) s = execBusErrorPosted c a s := rfl
  refine ⟨fun hw hb => ?_, fun b r hw hb => ?_, fun hn hd => ?_, fun hc hd hl h0 => ?_⟩
  · rw [h, execBusErrorPosted]
    simp [hup, hrun, hw, hb, exec_done_eq]
  · rw [h, execBusErrorPosted]
    simp [hup, hrun, hw, hb, exec_done_eq]
  · rw [h, execBusErrorPosted]
    simp [hup, hrun, hn, hd, exec_done_eq, State.coreNext]
  · have h : exec (.watchdog c) s = execWatchdog c s := rfl
    have hg : (s.up && decide ((s.core c).run = .running) && decide ((s.core c).wait ≠ .fenceC) && decide ((s.core c).wait ≠ .fenceD) &&
        decide ((s.core c).wdtLoad ≠ 0) && decide ((s.core c).wdtCount = 0)) = true := by
      simp [hup, hrun, hc, hd, h0]
      exact hl
    rw [h]
    exact if_pos hg

/-! ### Position and time (R73, R74) -/

/-- The two halves of a position word. -/
theorem halfOf_low (p : Dword) : halfOf p.toNat false = p.extractLsb' 0 32 := by
  apply BitVec.eq_of_toNat_eq
  simp [halfOf, BitVec.extractLsb'_toNat]

theorem halfOf_high (p : Dword) : halfOf p.toNat true = p.extractLsb' 32 32 := by
  apply BitVec.eq_of_toNat_eq
  simp [halfOf, BitVec.extractLsb'_toNat, Nat.shiftRight_eq_div_pow]

theorem timedOut_of_le {k : CoreSt} {tmo : Nat} (hn : tmo ≠ 0xFFFFFFFF) (h : tmo ≤ k.waited) : timedOut k tmo = true := by
  rw [timedOut, decide_eq_true hn, decide_eq_true h]
  rfl

/-- Settles O15. -/
theorem positionAndTime : Obligations.PositionAndTime := by
  intro c rd rs1 rs2 idx s
  have htget : exec (.tget c rd rs1 rs2 idx) s = execTget c rd rs1 rs2 idx s := rfl
  have hawait : exec (.await c rd rs1 rs2 idx) s = execAwait c rd rs1 rs2 idx s := rfl
  refine ⟨fun hs => ⟨?_, ?_, fun h0 => ?_, fun h1 => ?_, fun h2 => ?_, fun ht => ?_, fun ht h0 => ?_, fun ht h0 => ?_⟩,
    fun target tmo hw ht => ?_, fun target tmo hw ht hn hle => ?_⟩
  · have h : exec (.pget c rd rs1 rs2 idx) s = execPget c rd rs1 rs2 idx s := rfl
    rw [h, execPget, issue_ready hs rfl]
    simp only [halfOf_low, halfOf_high]
    rfl
  · have h : exec (.pgeth c rd rs1 rs2 idx) s = execPgeth c rd rs1 rs2 idx s := rfl
    rw [h, execPgeth, issue_ready hs rfl]
    simp only [halfOf_high]
    rfl
  · rw [htget, execTget, issue_ready (legal := idx.toNat % 4 != 3) hs (by rw [h0]; rfl)]
    simp only [h0, if_true]
    rfl
  · rw [htget, execTget, issue_ready (legal := idx.toNat % 4 != 3) hs (by rw [h1]; rfl)]
    simp only [h1]
    rfl
  · rw [htget, execTget, issue_ready (legal := idx.toNat % 4 != 3) hs (by rw [h2]; rfl)]
    simp only [h2]
    rfl
  · have hr : axisReached s (idx.toNat % 16) ((s.core c).rs rs1) = true := ht
    rw [hawait, execAwait, issue_ready hs rfl]
    simp only [hr]
    rfl
  · have hr : axisReached s (idx.toNat % 16) ((s.core c).rs rs1) = false := ht
    rw [hawait, execAwait, issue_ready hs rfl]
    simp only [hr, h0]
    rfl
  · have hr : axisReached s (idx.toNat % 16) ((s.core c).rs rs1) = false := ht
    rw [hawait, execAwait, issue_ready hs rfl]
    simp only [hr, Bool.false_or, decide_eq_true_eq, if_neg h0]
    rfl
  · obtain ⟨hup, hrun, hwait⟩ := hw
    have hr : axisReached s (idx.toNat % 16) target = true := ht
    have h : exec (.awaitReached c) s = execAwaitReached c s := rfl
    rw [h, execAwaitReached]
    simp only [hup, hrun, hwait, hr]
    rfl
  · obtain ⟨hup, hrun, hwait⟩ := hw
    have hr : axisReached s (idx.toNat % 16) target = false := ht
    have h : exec (.awaitTimeout c) s = execAwaitTimeout c s := rfl
    rw [h, execAwaitTimeout]
    simp only [hup, hrun, hwait, hr, timedOut_of_le hn hle]
    rfl

/-! ### Slots and events (R75 to R78) -/

/-- Settles O16. -/
theorem slotsAndEvents : Obligations.SlotsAndEvents := by
  refine ⟨fun c rd rs1 rs2 idx s hs => ⟨fun l ha hg hl => ?_, fun hg => ?_, fun ha => ?_, fun ha hg => ?_, fun hg => ?_⟩,
    fun c rd rs1 rs2 idx s => ⟨fun hs => ⟨fun hg => ?_, fun hg ht => ?_, fun hg ht h0 => ?_, fun hg ht h0 => ?_, fun hg => ?_, fun hg => ?_,
      fun hg => ⟨?_, ?_⟩⟩, fun i tmo hw ht => ?_, fun i tmo hw ht hn hle => ?_⟩⟩
  · have h : exec (.arm c rd rs1 rs2 idx) s = execArm c rd rs1 rs2 idx s := rfl
    rw [h, execArm, issue_ready hs rfl]
    simp only [ha, hg, hl]
    rfl
  · have h : exec (.disarm c rd rs1 rs2 idx) s = execDisarm c rd rs1 rs2 idx s := rfl
    rw [h, execDisarm, issue_ready hs rfl]
    simp only [hg]
    rfl
  · have h : exec (.arm c rd rs1 rs2 idx) s = execArm c rd rs1 rs2 idx s := rfl
    rw [h, execArm, issue_ready hs rfl]
    simp only [bne_iff_ne, if_pos ha]
    rfl
  · exact exec_arm_ungranted rd rs2 hs ha hg
  · exact exec_disarm_ungranted rd rs2 hs hg
  · have h : exec (.evraise c rd rs1 rs2 idx) s = execEvraise c rd rs1 rs2 idx s := rfl
    rw [h, execEvraise, issue_ready hs rfl]
    simp only [hg]
    rfl
  · have h : exec (.evwait c rd rs1 rs2 idx) s = execEvwait c rd rs1 rs2 idx s := rfl
    have hr : evReady s c (idx.toNat % 512) = true := decide_eq_true ht
    rw [h, execEvwait, issue_ready hs rfl]
    simp only [hg, hr]
    rfl
  · have h : exec (.evwait c rd rs1 rs2 idx) s = execEvwait c rd rs1 rs2 idx s := rfl
    have hr : evReady s c (idx.toNat % 512) = false := decide_eq_false ht
    rw [h, execEvwait, issue_ready hs rfl]
    simp only [hg, hr, h0]
    rfl
  · have h : exec (.evwait c rd rs1 rs2 idx) s = execEvwait c rd rs1 rs2 idx s := rfl
    have hr : evReady s c (idx.toNat % 512) = false := decide_eq_false ht
    rw [h, execEvwait, issue_ready hs rfl]
    simp only [hg, hr, if_neg h0]
    rfl
  · have h : exec (.evpoll c rd rs1 rs2 idx) s = execEvpoll c rd rs1 rs2 idx s := rfl
    rw [h, execEvpoll, issue_ready hs rfl]
    simp only [hg]
    rfl
  · exact exec_evraise_ungranted rd rs2 hs hg
  · exact exec_evwait_ungranted rd rs2 hs hg
  · exact exec_evpoll_ungranted rd rs2 hs hg
  · obtain ⟨hup, hrun, hwait⟩ := hw
    have h : exec (.evwaitTake c) s = execEvwaitTake c s := rfl
    have hr : evReady s c i = true := decide_eq_true ht
    rw [h, execEvwaitTake]
    simp only [hup, hrun, hwait, hr]
    rfl
  · obtain ⟨hup, hrun, hwait⟩ := hw
    have h : exec (.evwaitTimeout c) s = execEvwaitTimeout c s := rfl
    have hr : evReady s c i = false := decide_eq_false ht
    rw [h, execEvwaitTimeout]
    simp only [hup, hrun, hwait, hr, timedOut_of_le hn hle]
    rfl

end Sys2Proof.Machine
end

section
/-! SUPPORT. Vector instructions of a core (O9 to O12). -/

namespace Sys2Proof.Machine
open Sys2Proof

/-! ### Elements of vector registers (R62, R63) -/

theorem viewWidth_mul_viewCount (view : Nat) : viewWidth view * viewCount view = 512 := by
  unfold viewCount viewWidth
  split
  · rfl
  · split <;> rfl

theorem viewWidth_cases (view : Nat) : viewWidth view = 32 ∨ viewWidth view = 16 ∨ viewWidth view = 8 := by
  unfold viewWidth
  split
  · exact .inr (.inl rfl)
  · split
    · exact .inr (.inr rfl)
    · exact .inl rfl

theorem ofElems_lt (w : Nat) (l : List Nat) : ofElems w l < 2 ^ (w * l.length) := by
  induction l with
  | nil => exact Nat.one_pos
  | cons e r ih =>
    have hp : 0 < 2 ^ w := Nat.two_pow_pos w
    have he : e % 2 ^ w < 2 ^ w := Nat.mod_lt _ hp
    rw [ofElems, List.length_cons, Nat.mul_succ, Nat.pow_add]
    nlinarith

/-- The element at a position of a list of elements. -/
theorem ofElems_shiftRight_mod (w : Nat) (l : List Nat) (i : Nat) : (ofElems w l >>> (w * i)) % 2 ^ w = l.getD i 0 % 2 ^ w := by
  have hp : 0 < 2 ^ w := Nat.two_pow_pos w
  induction l generalizing i with
  | nil => simp [ofElems]
  | cons e r ih =>
    cases i with
    | zero => simp [ofElems, Nat.add_mul_mod_self_left]
    | succ i =>
      have hd : ofElems w (e :: r) / 2 ^ w = ofElems w r := by
        rw [ofElems, Nat.add_mul_div_left _ _ hp, Nat.div_eq_of_lt (Nat.mod_lt _ hp), Nat.zero_add]
      rw [Nat.mul_succ, Nat.add_comm, Nat.shiftRight_add, Nat.shiftRight_eq_div_pow _ w, hd, ih]
      rfl

theorem toNat_ofNat_of_lt {w n : Nat} (h : n < 2 ^ w) : (BitVec.ofNat w n).toNat = n :=
  (BitVec.toNat_ofNat n w).trans (Nat.mod_eq_of_lt h)

theorem elem_lt (v : BitVec 512) (w i : Nat) : elem v w i < 2 ^ w := Nat.mod_lt _ (Nat.two_pow_pos w)

/-- An element of a merged register: the new value where the predicate enables it, the old one elsewhere (R63). -/
theorem elem_vmerge (old : BitVec 512) (p : Dword) (view : Nat) (f : Nat → Nat) {i : Nat} (hi : i < viewCount view) :
    elem (vmerge old p view f) (viewWidth view) i =
      if p.getLsbD i then f i % 2 ^ viewWidth view else elem old (viewWidth view) i := by
  have hl := ofElems_lt (viewWidth view)
    ((List.range (viewCount view)).map (fun i => if p.getLsbD i then f i else elem old (viewWidth view) i))
  rw [List.length_map, List.length_range, viewWidth_mul_viewCount] at hl
  rw [vmerge, elem, toNat_ofNat_of_lt hl, ofElems_shiftRight_mod]
  rw [List.getD_eq_getElem?_getD, List.getElem?_map, List.getElem?_range hi]
  simp only [Option.map_some, Option.getD_some]
  split
  · rfl
  · exact Nat.mod_eq_of_lt (elem_lt _ _ _)

/-- A bit of a merged predicate: it is set where the predicate enables the element and the test holds (R63). -/
theorem getLsbD_pmerge (p : Dword) (view : Nat) (f : Nat → Bool) {j : Nat} (hj : j < 64) :
    (pmerge p view f).getLsbD j = (decide (j < viewCount view) && p.getLsbD j && f j) := by
  have h := ofElems_shiftRight_mod 1 ((List.range (viewCount view)).map (fun i => if p.getLsbD i && f i then 1 else 0)) j
  rw [Nat.one_mul, Nat.pow_one, Nat.shiftRight_eq_div_pow] at h
  rw [pmerge, BitVec.getLsbD_ofNat, decide_eq_true hj, Bool.true_and, Nat.testBit_eq_decide_div_mod_eq, h]
  by_cases hn : j < viewCount view
  · rw [List.getD_eq_getElem?_getD, List.getElem?_map, List.getElem?_range hn]
    cases hp : p.getLsbD j <;> cases hf : f j <;> simp [hn, hp, hf]
  · rw [List.getD_eq_getElem?_getD, List.getElem?_eq_none (by simpa using hn)]
    simp [hn]

/-! ### Element arithmetic modulo two to the width (R4, R71) -/

theorem cast_wrapN_mod (w : Nat) (x : Int) : ((wrapN w x % 2 ^ w : Nat) : Int) = x % 2 ^ w := by
  have hp : ((2 ^ w : Nat) : Int) ≠ 0 := by exact_mod_cast (Nat.two_pow_pos w).ne'
  rw [wrapN, Int.natCast_mod, Int.toNat_of_nonneg (Int.emod_nonneg _ hp), Int.emod_emod]
  norm_cast

/-- Reading a number as signed keeps it modulo two to the width. -/
theorem signed_emod (w a : Nat) : signed w a % 2 ^ w = (a : Int) % 2 ^ w := by
  unfold signed
  dsimp only
  split <;> push_cast <;> simp

theorem clampI_eq {lo hi : Int} (h : lo ≤ hi) (x : Int) : clampI lo hi x = max lo (min hi x) := by
  unfold clampI
  split <;> (try split) <;> omega

/-- Saturation as a clamp between the extremes of the width. -/
theorem cast_satS_mod (w : Nat) (x : Int) :
    ((satS w x % 2 ^ w : Nat) : Int) = max (-(2 ^ (w - 1))) (min (2 ^ (w - 1) - 1) x) % 2 ^ w := by
  have hp : (0 : Int) < 2 ^ (w - 1) := by positivity
  rw [satS, cast_wrapN_mod, clampI_eq (by push_cast; omega)]
  push_cast
  rfl

/-- An element-wise instruction gives each enabled element its value, and the value modulo two to the width as an integer. -/
theorem done_vOp {s : State} {c vd va vb view pred : Nat} (hs : Ready s c true) (hv : view ≠ 3) {f : Nat → Nat → Nat → Nat → Nat}
    {g : Nat → Nat → Nat → Int}
    (hf : ∀ d a b, a < 2 ^ viewWidth view → b < 2 ^ viewWidth view →
      ((f (viewWidth view) d a b % 2 ^ viewWidth view : Nat) : Int) = g d a b % 2 ^ viewWidth view) :
    ∃ r, done (vOp s c vd va vb view pred f) = .next (s.coreNext c (((s.core c).wv vd r).retire)) ∧
      ∀ j < viewCount view, (elem r (viewWidth view) j : Int) = if ((s.core c).rp pred).getLsbD j
        then g (elem ((s.core c).rv vd) (viewWidth view) j) (elem ((s.core c).rv va) (viewWidth view) j)
          (elem ((s.core c).rv vb) (viewWidth view) j) % 2 ^ viewWidth view
        else elem ((s.core c).rv vd) (viewWidth view) j := by
  refine ⟨_, done_issue_ready hs (bne_iff_ne.2 hv) _, fun j hj => ?_⟩
  rw [elem_vmerge _ _ _ _ hj]
  split
  · exact hf _ _ _ (elem_lt _ _ _) (elem_lt _ _ _)
  · rfl

theorem cast_ite_signed_lt (w a b x y : Nat) :
    (((if signed w a < signed w b then x else y) % 2 ^ w : Nat) : Int) = (if signed w a < signed w b then signed w x else signed w y) % 2 ^ w := by
  split <;> rw [signed_emod] <;> norm_cast

theorem min_signed_emod (w a b : Nat) :
    (((if signed w a < signed w b then a else b) % 2 ^ w : Nat) : Int) = min (signed w a) (signed w b) % 2 ^ w := by
  rw [cast_ite_signed_lt]
  split
  · rw [min_eq_left (by omega)]
  · rw [min_eq_right (by omega)]

theorem max_signed_emod (w a b : Nat) :
    (((if signed w a < signed w b then b else a) % 2 ^ w : Nat) : Int) = max (signed w a) (signed w b) % 2 ^ w := by
  rw [cast_ite_signed_lt]
  split
  · rw [max_eq_right (by omega)]
  · rw [max_eq_left (by omega)]

theorem cast_sub_mod {w a b : Nat} (hb : b < 2 ^ w) : ((a + 2 ^ w - b) % 2 ^ w : Nat) = ((a : Int) - b) % 2 ^ w := by
  rw [Int.natCast_mod, Int.ofNat_sub (by omega)]
  push_cast
  rw [show (a : Int) + 2 ^ w - b = a - b + 2 ^ w by ring, Int.add_emod_right]

theorem cast_absdiff (a b : Nat) : ((if a < b then b - a else a - b : Nat) : Int) = |(a : Int) - b| := by
  split
  · rw [abs_of_neg (by omega)]; omega
  · rw [abs_of_nonneg (by omega)]; omega

/-- Settles O10: each instruction is the shared element-wise operation, with its own value modulo two to the width. -/
theorem vectorArithmetic : Obligations.VectorArithmetic := by
  intro c vd va vb view pred s hs hv
  have hv : view.val ≠ 3 := fun h => hv (Fin.ext h)
  refine ⟨?_, ?_, ?_, ?_, ?_, ?_, ?_, ?_, ?_, ?_, ?_, ?_, ?_, ?_, ?_, ?_, ?_, ?_⟩
  · refine done_vOp hs hv (g := fun _ a b => a + b) fun d a b ha hb => ?_
    push_cast
    rfl
  · refine done_vOp hs hv (g := fun _ a b => a - b) fun d a b ha hb => ?_
    exact cast_sub_mod hb
  · refine done_vOp hs hv (g := fun _ a b => a * b) fun d a b ha hb => ?_
    push_cast
    rfl
  · refine done_vOp hs hv (g := fun _ a b => signed (viewWidth view) a * signed (viewWidth view) b / 2 ^ viewWidth view) fun d a b ha hb => ?_
    rw [cast_wrapN_mod, floorDiv, Int.fdiv_eq_ediv_of_nonneg _ (Int.natCast_nonneg _)]
    push_cast
    rfl
  · refine done_vOp hs hv (g := fun d a b => d + a * b) fun d a b ha hb => ?_
    push_cast
    rfl
  · refine done_vOp hs hv (g := fun _ a b => max (-(2 ^ (viewWidth view - 1))) (min (2 ^ (viewWidth view - 1) - 1) (signed (viewWidth view) a + signed (viewWidth view) b))) fun d a b ha hb => ?_
    exact cast_satS_mod _ _
  · refine done_vOp hs hv (g := fun _ a b => max (-(2 ^ (viewWidth view - 1))) (min (2 ^ (viewWidth view - 1) - 1) (signed (viewWidth view) a - signed (viewWidth view) b))) fun d a b ha hb => ?_
    exact cast_satS_mod _ _
  · refine done_vOp hs hv (g := fun _ a b => |(a : Int) - b|) fun d a b ha hb => ?_
    rw [Int.natCast_mod, cast_absdiff]
    push_cast
    rfl
  · refine done_vOp hs hv (g := fun _ a b => min (signed (viewWidth view) a) (signed (viewWidth view) b)) fun d a b ha hb => ?_
    exact min_signed_emod _ _ _
  · refine done_vOp hs hv (g := fun _ a b => max (signed (viewWidth view) a) (signed (viewWidth view) b)) fun d a b ha hb => ?_
    exact max_signed_emod _ _ _
  · refine done_vOp hs hv (g := fun _ a b => min a b) fun d a b ha hb => ?_
    push_cast
    rfl
  · refine done_vOp hs hv (g := fun _ a b => max a b) fun d a b ha hb => ?_
    push_cast
    rfl
  · refine done_vOp hs hv (g := fun _ a b => (a &&& b : Nat)) fun d a b ha hb => ?_
    push_cast
    rfl
  · refine done_vOp hs hv (g := fun _ a b => (a ||| b : Nat)) fun d a b ha hb => ?_
    push_cast
    rfl
  · refine done_vOp hs hv (g := fun _ a b => (a ^^^ b : Nat)) fun d a b ha hb => ?_
    push_cast
    rfl
  · refine done_vOp hs hv (g := fun _ a b => a * 2 ^ (b % viewWidth view)) fun d a b ha hb => ?_
    rw [Nat.shiftLeft_eq]
    push_cast
    rfl
  · refine done_vOp hs hv (g := fun _ a b => (a / 2 ^ (b % viewWidth view) : Nat)) fun d a b ha hb => ?_
    rw [Nat.shiftRight_eq_div_pow]
    push_cast
    rfl
  · refine done_vOp hs hv (g := fun _ a b => signed (viewWidth view) a / 2 ^ (b % viewWidth view)) fun d a b ha hb => ?_
    rw [cast_wrapN_mod, floorDiv, Int.fdiv_eq_ediv_of_nonneg _ (Int.natCast_nonneg _)]
    push_cast
    rfl

/-! ### Comparisons, predicates and reductions (R63, R64, R71) -/

/-- A comparison writes the predicate bit by bit. -/
theorem done_vCmp {s : State} {c vd va vb view pred : Nat} (hs : Ready s c true) (hv : view ≠ 3) (hd : vd < 8) (f : Nat → Nat → Nat → Bool) :
    ∃ r, done (vCmp s c vd va vb view pred f) = .next (s.coreNext c (((s.core c).wp vd r).retire)) ∧
      ∀ j < 64, r.getLsbD j = (decide (j < viewCount view) && ((s.core c).rp pred).getLsbD j &&
        f (viewWidth view) (elem ((s.core c).rv va) (viewWidth view) j) (elem ((s.core c).rv vb) (viewWidth view) j)) := by
  have hl : (view != 3 && decide (vd < 8)) = true := by simp [hv, hd]
  exact ⟨_, done_issue_ready hs hl _, fun j hj => getLsbD_pmerge _ _ _ hj⟩

/-- A reduction folds the signed values of the enabled elements. -/
theorem done_vRed {s : State} {c vd va view pred : Nat} (hs : Ready s c true) (hv : view ≠ 3) (start : Nat → Int) (f : Int → Int → Int) :
    done (vRed s c vd va true view pred start f) = .next (s.writes c vd (BitVec.ofInt 32
      ((((List.range (viewCount view)).filter (fun i => ((s.core c).rp pred).getLsbD i)).map
        (fun j => signed (viewWidth view) (elem ((s.core c).rv va) (viewWidth view) j))).foldl f (start (viewWidth view))))) := by
  have hl : (view != 3 && true) = true := by simp [hv]
  rw [List.foldl_map]
  exact done_issue_ready hs hl _

/-- A predicate operation on three predicates. -/
theorem done_pOp {s : State} {c vd va vb : Nat} (hs : Ready s c true) (hd : vd < 8) (ha : va < 8) (hb : vb < 8) (f : Dword → Dword → Dword) :
    done (pOp s c vd va vb 0 0 f) = .next (s.coreNext c (((s.core c).wp vd (f ((s.core c).rp va) ((s.core c).rp vb))).retire)) := by
  have hl : ((0 == 0) && (0 == 0) && decide (vd < 8) && decide (va < 8) && decide (vb < 8)) = true := by simp [hd, ha, hb]
  exact done_issue_ready hs hl _

theorem foldl_min_le (l : List Int) (x : Int) : (∀ v ∈ l, l.foldl min x ≤ v) ∧ l.foldl min x ≤ x ∧ (l.foldl min x ∈ l ∨ l.foldl min x = x) := by
  induction l generalizing x with
  | nil => simp
  | cons a l ih =>
    obtain ⟨h1, h2, h3⟩ := ih (min x a)
    rw [List.foldl_cons]
    refine ⟨fun v hv => ?_, h2.trans (min_le_left _ _), ?_⟩
    · rcases List.mem_cons.1 hv with rfl | hv
      · exact h2.trans (min_le_right _ _)
      · exact h1 v hv
    · rcases h3 with h3 | h3
      · exact .inl (List.mem_cons_of_mem _ h3)
      · rcases min_choice x a with h | h
        · exact .inr (h3.trans h)
        · exact .inl (by rw [h3, h]; exact List.mem_cons_self)

theorem foldl_max_ge (l : List Int) (x : Int) : (∀ v ∈ l, v ≤ l.foldl max x) ∧ x ≤ l.foldl max x ∧ (l.foldl max x ∈ l ∨ l.foldl max x = x) := by
  induction l generalizing x with
  | nil => simp
  | cons a l ih =>
    obtain ⟨h1, h2, h3⟩ := ih (max x a)
    rw [List.foldl_cons]
    refine ⟨fun v hv => ?_, (le_max_left _ _).trans h2, ?_⟩
    · rcases List.mem_cons.1 hv with rfl | hv
      · exact (le_max_right _ _).trans h2
      · exact h1 v hv
    · rcases h3 with h3 | h3
      · exact .inl (List.mem_cons_of_mem _ h3)
      · rcases max_choice x a with h | h
        · exact .inr (h3.trans h)
        · exact .inl (by rw [h3, h]; exact List.mem_cons_self)

/-- A signed number lies between the extremes of its width. -/
theorem signed_bounds {w : Nat} (hw : w ≠ 0) (a : Nat) : -(2 ^ (w - 1)) ≤ signed w a ∧ signed w a ≤ 2 ^ (w - 1) - 1 := by
  have hp : (2 : Nat) ^ w = 2 * 2 ^ (w - 1) := (mul_pow_sub_one hw 2).symm
  have hm : a % 2 ^ w < 2 ^ w := Nat.mod_lt _ (Nat.two_pow_pos w)
  unfold signed
  dsimp only
  have hc : ((2 ^ (w - 1) : Nat) : Int) = 2 ^ (w - 1) := by push_cast; rfl
  rw [← hc]
  split <;> omega

theorem viewWidth_ne_zero (view : Nat) : viewWidth view ≠ 0 := by
  rcases viewWidth_cases view with h | h | h <;> omega

/-- The minimum of a fold that starts at or above every value is one of them, or the start of an empty fold. -/
theorem foldl_min_mem {l : List Int} {x : Int} (hl : ∀ v ∈ l, v ≤ x) : l.foldl min x ∈ l ∨ (l = [] ∧ l.foldl min x = x) := by
  obtain ⟨h1, _, h3⟩ := foldl_min_le l x
  rcases h3 with h3 | h3
  · exact .inl h3
  · cases l with
    | nil => exact .inr ⟨rfl, rfl⟩
    | cons a l =>
      have ha : a ∈ a :: l := List.mem_cons_self
      have hax : a = List.foldl min x (a :: l) := le_antisymm ((hl a ha).trans h3.ge) (h1 a ha)
      exact .inl (hax ▸ ha)

/-- The maximum of a fold that starts at or below every value is one of them, or the start of an empty fold. -/
theorem foldl_max_mem {l : List Int} {x : Int} (hl : ∀ v ∈ l, x ≤ v) : l.foldl max x ∈ l ∨ (l = [] ∧ l.foldl max x = x) := by
  obtain ⟨h1, _, h3⟩ := foldl_max_ge l x
  rcases h3 with h3 | h3
  · exact .inl h3
  · cases l with
    | nil => exact .inr ⟨rfl, rfl⟩
    | cons a l =>
      have ha : a ∈ a :: l := List.mem_cons_self
      have hax : a = List.foldl max x (a :: l) := le_antisymm (h1 a ha) (h3.le.trans (hl a ha))
      exact .inl (hax ▸ ha)

/-- The flags of a pixel word are all of it above the value. -/
theorem pxFlags_elem (v : BitVec 512) (i : Nat) : pxFlags (elem v 32 i) = elem v 32 i / 2 ^ 24 := by
  have := elem_lt v 32 i
  rw [pxFlags]
  omega

/-- Settles O11. -/
theorem vectorComparisons : Obligations.VectorComparisons := by
  intro c vd va vb view pred s hs
  have hne (hv : view ≠ 3) : view.val ≠ 3 := fun h => hv (Fin.ext h)
  have hw := viewWidth_ne_zero view
  refine ⟨fun hv hd => ⟨?_, ?_, ?_⟩, fun hv => ⟨?_, ?_, ?_⟩, fun hv hd => ?_, fun hd ha hb => ⟨?_, ?_, ?_, ?_⟩, fun hv ha => ?_⟩
  · exact done_vCmp hs (hne hv) hd _
  · exact done_vCmp hs (hne hv) hd _
  · exact done_vCmp hs (hne hv) hd _
  · refine (done_vRed hs (hne hv) _ _).trans ?_
    rw [List.sum_eq_foldl]
  · refine ⟨_, done_vRed hs (hne hv) _ _, (foldl_min_le _ _).1, ?_⟩
    have h := foldl_min_mem (x := ((2 ^ (viewWidth view - 1) : Nat) : Int) - 1)
      (l := ((List.range (viewCount view)).filter (fun i => ((s.core c).rp pred).getLsbD i)).map
        (fun j => signed (viewWidth view) (elem ((s.core c).rv va) (viewWidth view) j))) (by
        intro v hv
        obtain ⟨j, _, rfl⟩ := List.mem_map.1 hv
        have := (signed_bounds hw (elem ((s.core c).rv va) (viewWidth view) j)).2
        push_cast
        exact this)
    refine h.imp_right fun ⟨h0, h1⟩ => ⟨h0, h1.trans ?_⟩
    push_cast
    rfl
  · refine ⟨_, done_vRed hs (hne hv) _ _, (foldl_max_ge _ _).1, ?_⟩
    have h := foldl_max_mem (x := -((2 ^ (viewWidth view - 1) : Nat) : Int))
      (l := ((List.range (viewCount view)).filter (fun i => ((s.core c).rp pred).getLsbD i)).map
        (fun j => signed (viewWidth view) (elem ((s.core c).rv va) (viewWidth view) j))) (by
        intro v hv
        obtain ⟨j, _, rfl⟩ := List.mem_map.1 hv
        have := (signed_bounds hw (elem ((s.core c).rv va) (viewWidth view) j)).1
        push_cast
        exact this)
    refine h.imp_right fun ⟨h0, h1⟩ => ⟨h0, h1.trans ?_⟩
    push_cast
    rfl
  · have hl : (view.val == 3 && decide (vd.val < 8)) = true := by simp [hv, hd]
    refine ⟨_, done_issue_ready hs hl _, fun j hj => ?_⟩
    rw [getLsbD_pmerge _ _ _ hj, pxFlags_elem, hv]
    rfl
  · exact done_pOp hs hd ha hb _
  · exact done_pOp hs hd ha hb _
  · exact done_pOp hs hd ha hb _
  · exact done_pOp hs hd ha hb _
  · exact done_issue_ready hs (by simp [hne hv, ha]) _

/-! ### Pixels (R64) -/

/-- A pixel word as the statement forms it, within its 32 bits. -/
theorem pxSat_eq {v f : Nat} (hf : f < 256) :
    pxSat v f % 2 ^ 32 = min 0xFFFFFF v + 2 ^ 24 * (if 0xFFFFFF < v then f ||| 1 else f) := by
  have h1 : f ||| 1 < 2 ^ 8 := Nat.or_lt_two_pow hf (by decide)
  unfold pxSat
  split <;> rename_i h
  · rw [Nat.min_eq_left (by omega)]
    omega
  · rw [Nat.min_eq_right (by omega)]
    omega

/-- A pixel instruction gives each enabled element its pixel word. -/
theorem done_vxOp {s : State} {c vd va vb pred : Nat} (hs : Ready s c true) {f g : Nat → Nat → Nat}
    (hf : ∀ a b, a < 2 ^ 32 → b < 2 ^ 32 → f a b % 2 ^ 32 = g a b) :
    ∃ r, done (vxOp s c vd va vb 3 pred f) = .next (s.coreNext c (((s.core c).wv vd r).retire)) ∧
      ∀ j < 16, elem r 32 j = if ((s.core c).rp pred).getLsbD j
        then g (elem ((s.core c).rv va) 32 j) (elem ((s.core c).rv vb) 32 j) else elem ((s.core c).rv vd) 32 j := by
  refine ⟨_, done_issue_ready hs rfl _, fun j hj => ?_⟩
  refine (elem_vmerge _ _ 3 _ hj).trans ?_
  split
  · exact hf _ _ (elem_lt _ _ _) (elem_lt _ _ _)
  · rfl

/-- Settles O12: both instructions are the shared pixel operation, with a saturated value and its flags. -/
theorem pixelArithmetic : Obligations.PixelArithmetic := by
  intro c vd va vb pred s hs
  have flags {a : Nat} (ha : a < 2 ^ 32) : pxFlags a = a / 2 ^ 24 := Nat.mod_eq_of_lt (by omega)
  constructor
  · refine done_vxOp hs (g := fun a b => min 0xFFFFFF (a % 2 ^ 24 + b % 2 ^ 24) + 2 ^ 24 * (if 0xFFFFFF < a % 2 ^ 24 + b % 2 ^ 24
      then (a / 2 ^ 24 ||| b / 2 ^ 24) ||| 1 else a / 2 ^ 24 ||| b / 2 ^ 24)) fun a b ha hb => ?_
    rw [flags ha, flags hb]
    exact pxSat_eq (Nat.or_lt_two_pow (n := 8) (by omega) (by omega))
  · refine done_vxOp hs (g := fun a b => min 0xFFFFFF ((a % 2 ^ 24 * b + 2 ^ 15) / 2 ^ 16) +
      2 ^ 24 * (if 0xFFFFFF < (a % 2 ^ 24 * b + 2 ^ 15) / 2 ^ 16 then a / 2 ^ 24 ||| 1 else a / 2 ^ 24)) fun a b ha hb => ?_
    rw [flags ha]
    exact pxSat_eq (by omega)

/-! ### Vector moves and memory (R63, R64, R71, R87) -/

theorem viewCount_le (view : Nat) : viewCount view ≤ 64 := by
  rcases viewWidth_cases view with h | h | h <;> rw [viewCount, h] <;> decide

theorem ofLE_lt (l : List (BitVec 8)) : ofLE l < 256 ^ l.length := by
  induction l with
  | nil => exact Nat.one_pos
  | cons b r ih =>
    have := b.isLt
    rw [ofLE, List.length_cons, Nat.pow_succ]
    omega

/-- What a vector load reads for element `i`: the number of the bytes at its address. -/
def vldElem (s : State) (c base stride w i : Nat) : Nat :=
  ofLE ((placeRead s (vPlace (s.core c) c (vAddr (s.core c) base stride w i) (w / 8) false) (w / 8)).getD [])

theorem vldElem_lt (s : State) (c base stride view i : Nat) : vldElem s c base stride (viewWidth view) i < 2 ^ viewWidth view := by
  have hw : 256 ^ (viewWidth view / 8) = 2 ^ viewWidth view := by
    rcases viewWidth_cases view with h | h | h <;> rw [h] <;> decide
  unfold vldElem
  cases h : placeRead s (vPlace (s.core c) c (vAddr (s.core c) base stride (viewWidth view) i) (viewWidth view / 8) false) (viewWidth view / 8) with
  | none => exact Nat.two_pow_pos _
  | some l =>
    have := ofLE_lt l
    rwa [length_of_placeRead h, hw] at this

/-- A vector load that no enabled element stops merges what it reads into vt. -/
theorem exec_vld_read {c : CoreNo} {vt base stride : RegNo} {view : Fin 4} {pred : Fin 8} {s : State} (hs : Ready s c true)
    (hf : vFault (s.core c) c base stride (viewWidth (memView view))
      ((List.range (viewCount (memView view))).filter (fun i => ((s.core c).rp pred).getLsbD i)) false = none)
    (hp : ∀ i ∈ (List.range (viewCount (memView view))).filter (fun i => ((s.core c).rp pred).getLsbD i),
      (placeRead s (vPlace (s.core c) c (vAddr (s.core c) base stride (viewWidth (memView view)) i) (viewWidth (memView view) / 8) false)
        (viewWidth (memView view) / 8)).isSome) :
    exec (.vld c vt base stride view pred) s = .next (s.coreNext c (((s.core c).wv vt (vmerge ((s.core c).rv vt) ((s.core c).rp pred)
      (memView view) (vldElem s c base stride (viewWidth (memView view))))).retire)) := by
  have hfind : ((List.range (viewCount (memView view))).filter (fun i => ((s.core c).rp pred).getLsbD i)).find?
      (fun i => (placeRead s (vPlace (s.core c) c (vAddr (s.core c) base stride (viewWidth (memView view)) i) (viewWidth (memView view) / 8)
        false) (viewWidth (memView view) / 8)).isNone) = none :=
    List.find?_eq_none.2 fun i hi => by simpa [Option.isSome_iff_ne_none] using hp i hi
  have h : exec (.vld c vt base stride view pred) s = execVld c vt base stride view pred s := rfl
  rw [h, execVld, issue_ready hs rfl]
  simp only [hf, hfind]
  rfl

/-- Settles O9. -/
theorem vectorMovesAndMemory : Obligations.VectorMovesAndMemory := by
  have hne {view : Fin 4} (hv : view ≠ 3) : (view.val != 3) = true := bne_iff_ne.2 fun h => hv (Fin.ext h)
  refine ⟨fun c vt base stride view pred s hs => ⟨fun hf hp => ?_, fun hf => ?_, fun cause d a hf => ?_, fun cause d a hf => ?_⟩,
    fun c vd va vb view pred s hs hv => ⟨?_, ?_, fun h0 => ?_, ?_⟩⟩
  · refine ⟨_, exec_vld_read hs hf hp, fun i hi => (elem_vmerge _ _ _ _ hi).trans ?_⟩
    exact if_congr Iff.rfl (Nat.mod_eq_of_lt (vldElem_lt s c base stride _ i)) rfl
  · have h : exec (.vst c vt base stride view pred) s = execVst c vt base stride view pred s := rfl
    rw [h, execVst, issue_ready hs rfl]
    simp only [hf]
    rfl
  · have h : exec (.vld c vt base stride view pred) s = execVld c vt base stride view pred s := rfl
    rw [h, execVld, issue_ready hs rfl]
    simp only [hf]
    rfl
  · have h : exec (.vst c vt base stride view pred) s = execVst c vt base stride view pred s := rfl
    rw [h, execVst, issue_ready hs rfl]
    simp only [hf]
    rfl
  · refine ⟨_, done_issue_ready hs (legal := view.val != 3) (hne hv) _, fun j hj => ?_⟩
    have h1 : (BitVec.allOnes 64).getLsbD j = true := by
      rw [BitVec.getLsbD_allOnes, decide_eq_true (Nat.lt_of_lt_of_le hj (viewCount_le view))]
    rw [elem_vmerge _ _ _ _ hj, if_pos h1]
    split <;> exact Nat.mod_eq_of_lt (elem_lt _ _ _)
  · refine ⟨_, done_issue_ready hs (legal := view.val != 3) (hne hv) _, fun j hj => ?_⟩
    rw [elem_vmerge _ _ _ _ hj]
    refine if_congr Iff.rfl ?_ rfl
    split <;> exact Nat.mod_eq_of_lt (elem_lt _ _ _)
  · subst h0
    refine ⟨_, done_issue_ready hs (legal := view.val != 3 && (0 : RegNo).val == 0) (by rw [hne hv]; rfl) _, fun j hj => ?_⟩
    exact elem_vmerge _ _ _ _ hj
  · exact done_issue_ready hs (legal := view.val != 3) (hne hv) _

end Sys2Proof.Machine
end

section
/-! SUPPORT. What an instruction on registers leaves of the rest (O52). -/

namespace Sys2Proof.Machine
open Sys2Proof

/-! ### What instructions on registers leave of the rest (R71) -/

/-- Nothing but core `c` changed. -/
def CoreOnly (s u : State) (c : Nat) : Prop := u = { s with cores := u.cores } ∧ OtherCoresSame s u c

theorem CoreOnly.refl (s : State) (c : Nat) : CoreOnly s s c := ⟨rfl, fun _ _ => rfl⟩

theorem CoreOnly.setCore (s : State) (c : Nat) (k : CoreSt) : CoreOnly s (s.setCore c k) c :=
  ⟨rfl, fun _ hd => State.core_setCore_ne _ _ _ _ (Ne.symm hd)⟩

theorem CoreOnly.trans {s u v : State} {c : Nat} (h : CoreOnly s u c) (g : CoreOnly u v c) : CoreOnly s v c := by
  obtain ⟨h1, h2⟩ := h
  obtain ⟨g1, g2⟩ := g
  refine ⟨?_, fun d hd => (g2 d hd).trans (h2 d hd)⟩
  rw [g1, h1]

/-- An exception outside a handler changes the core alone. -/
theorem CoreOnly.takeExc {s : State} {c : Nat} (h : (s.core c).exc = false) (cause detail a : Nat) :
    CoreOnly s (takeExc s c cause detail a) c := by
  rw [takeExc_first h]
  exact CoreOnly.setCore _ _ _

/-- An instruction whose body changes the core alone, outside a handler, changes the core alone. -/
theorem CoreOnly.issue {s : State} {c : Nat} (h : (s.core c).exc = false) (v legal : Bool) {body : CoreSt → State}
    (hb : ∀ k, k = s.core c → CoreOnly s (body k) c) : CoreOnly s (issue s c v legal body) c := by
  rcases issue_cases s c v legal body with e | ⟨u, cause, detail, a, hu, e⟩ | ⟨-, e⟩ <;> rw [e]
  · exact CoreOnly.refl _ _
  · rcases hu with rfl | ⟨b, r, -, rfl⟩
    · exact CoreOnly.takeExc h _ _ _
    · exact (CoreOnly.setCore _ _ _).trans (CoreOnly.takeExc (by rw [State.core_setCore]; exact h) _ _ _)
  · exact hb _ rfl

section SharedOperations
variable {s : State} {c : Nat} (h : (s.core c).exc = false)
include h

theorem CoreOnly.issueS (legal : Bool) (rd : Nat) (f : CoreSt → Word) : CoreOnly s (issueS s c legal rd f) c :=
  CoreOnly.issue h _ _ fun _ _ => CoreOnly.setCore _ _ _

theorem CoreOnly.rrOp (rd rs1 rs2 : Nat) (legal : Bool) (f : Word → Word → Word) : CoreOnly s (rrOp s c rd rs1 rs2 legal f) c :=
  CoreOnly.issueS h _ _ _

theorem CoreOnly.riOp (rd rs1 : Nat) (legal : Bool) (f : Word → Word) : CoreOnly s (riOp s c rd rs1 legal f) c :=
  CoreOnly.issueS h _ _ _

theorem CoreOnly.branch (rs1 rs2 : Nat) (off : BitVec 14) (p : Word → Word → Bool) : CoreOnly s (branch s c rs1 rs2 off p) c :=
  CoreOnly.issue h _ _ fun _ _ => CoreOnly.setCore _ _ _

theorem CoreOnly.vOp (vd va vb view pred : Nat) (f : Nat → Nat → Nat → Nat → Nat) : CoreOnly s (vOp s c vd va vb view pred f) c :=
  CoreOnly.issue h _ _ fun _ _ => CoreOnly.setCore _ _ _

theorem CoreOnly.vCmp (vd va vb view pred : Nat) (f : Nat → Nat → Nat → Bool) : CoreOnly s (vCmp s c vd va vb view pred f) c :=
  CoreOnly.issue h _ _ fun _ _ => CoreOnly.setCore _ _ _

theorem CoreOnly.vRed (vd va : Nat) (legal : Bool) (view pred : Nat) (start : Nat → Int) (f : Int → Int → Int) :
    CoreOnly s (vRed s c vd va legal view pred start f) c :=
  CoreOnly.issue h _ _ fun _ _ => CoreOnly.setCore _ _ _

theorem CoreOnly.pOp (vd va vb view pred : Nat) (f : Dword → Dword → Dword) : CoreOnly s (pOp s c vd va vb view pred f) c :=
  CoreOnly.issue h _ _ fun _ _ => CoreOnly.setCore _ _ _

end SharedOperations

theorem CoreOnly.jumpTo {s : State} {c : Nat} (h : (s.core c).exc = false) (rd : Nat) (k : CoreSt) (t : Word) : CoreOnly s (jumpTo s c rd k t) c := by
  unfold Machine.jumpTo
  split
  · exact CoreOnly.takeExc h _ _ _
  · exact CoreOnly.setCore _ _ _

theorem CoreOnly.retExc {s : State} {c : Nat} (h : (s.core c).exc = false) : CoreOnly s (retExc s c) c := by
  unfold Machine.retExc
  dsimp only
  split
  · exact CoreOnly.takeExc h _ _ _
  · exact CoreOnly.setCore _ _ _

/-- What stays when nothing but a core changed, once the mode is decided and ALERT_N driven. -/
theorem CoreOnly.settled {s u : State} {c : Nat} (h : CoreOnly s u c) :
    SameRest s u.settled ∧ OtherCoresSame s u.settled c ∧ u.settled.lmem = s.lmem ∧ u.settled.cmem = s.cmem ∧ u.settled.dmem = s.dmem ∧
      u.settled.evq = s.evq ∧ ∀ a, a ≠ R.DEV_MODE → u.settled.rd a = s.rd a := by
  obtain ⟨h1, h2⟩ := h
  have hrd (a : Nat) : u.rd a = s.rd a := by rw [h1]; rfl
  refine ⟨?_, fun d hd => ?_, ?_, ?_, ?_, ?_, fun a ha => ?_⟩
  · constructor <;> (simp [State.settled]; rw [h1])
  · simp [State.settled, h2 d hd]
  · simp [State.settled]; rw [h1]
  · simp [State.settled]; rw [h1]
  · simp [State.settled]; rw [h1]
  · simp [State.settled]; rw [h1]
  · simp [State.settled, State.settle_rd _ _ ha, hrd]

/-- Settles O52: each of the instructions is an issue whose body stores a new core, jumps, or returns from a handler. -/
theorem coreInstructionFrame : Obligations.CoreInstructionFrame := by
  intro c rd rs1 rs2 imm off u res view pred i s t hexc hi hstep
  have coreOnly : ∃ v, exec i s = done v ∧ CoreOnly s v c := by
    clear hstep
    simp only [List.mem_cons, List.not_mem_nil, or_false] at hi
    repeat' rcases hi with rfl | hi
    · exact ⟨_, rfl, CoreOnly.rrOp hexc _ _ _ _ _⟩
    · exact ⟨_, rfl, CoreOnly.rrOp hexc _ _ _ _ _⟩
    · exact ⟨_, rfl, CoreOnly.rrOp hexc _ _ _ _ _⟩
    · exact ⟨_, rfl, CoreOnly.rrOp hexc _ _ _ _ _⟩
    · exact ⟨_, rfl, CoreOnly.rrOp hexc _ _ _ _ _⟩
    · exact ⟨_, rfl, CoreOnly.rrOp hexc _ _ _ _ _⟩
    · exact ⟨_, rfl, CoreOnly.rrOp hexc _ _ _ _ _⟩
    · exact ⟨_, rfl, CoreOnly.rrOp hexc _ _ _ _ _⟩
    · exact ⟨_, rfl, CoreOnly.rrOp hexc _ _ _ _ _⟩
    · exact ⟨_, rfl, CoreOnly.rrOp hexc _ _ _ _ _⟩
    · exact ⟨_, rfl, CoreOnly.rrOp hexc _ _ _ _ _⟩
    · exact ⟨_, rfl, CoreOnly.rrOp hexc _ _ _ _ _⟩
    · exact ⟨_, rfl, CoreOnly.rrOp hexc _ _ _ _ _⟩
    · exact ⟨_, rfl, CoreOnly.rrOp hexc _ _ _ _ _⟩
    · exact ⟨_, rfl, CoreOnly.rrOp hexc _ _ _ _ _⟩
    · exact ⟨_, rfl, CoreOnly.rrOp hexc _ _ _ _ _⟩
    · exact ⟨_, rfl, CoreOnly.rrOp hexc _ _ _ _ _⟩
    · exact ⟨_, rfl, CoreOnly.rrOp hexc _ _ _ _ _⟩
    · exact ⟨_, rfl, CoreOnly.rrOp hexc _ _ _ _ _⟩
    · exact ⟨_, rfl, CoreOnly.rrOp hexc _ _ _ _ _⟩
    · exact ⟨_, rfl, CoreOnly.rrOp hexc _ _ _ _ _⟩
    · exact ⟨_, rfl, CoreOnly.rrOp hexc _ _ _ _ _⟩
    · exact ⟨_, rfl, CoreOnly.rrOp hexc _ _ _ _ _⟩
    · exact ⟨_, rfl, CoreOnly.rrOp hexc _ _ _ _ _⟩
    · exact ⟨_, rfl, CoreOnly.rrOp hexc _ _ _ _ _⟩
    · exact ⟨_, rfl, CoreOnly.rrOp hexc _ _ _ _ _⟩
    · exact ⟨_, rfl, CoreOnly.riOp hexc _ _ _ _⟩
    · exact ⟨_, rfl, CoreOnly.riOp hexc _ _ _ _⟩
    · exact ⟨_, rfl, CoreOnly.riOp hexc _ _ _ _⟩
    · exact ⟨_, rfl, CoreOnly.riOp hexc _ _ _ _⟩
    · exact ⟨_, rfl, CoreOnly.riOp hexc _ _ _ _⟩
    · exact ⟨_, rfl, CoreOnly.riOp hexc _ _ _ _⟩
    · exact ⟨_, rfl, CoreOnly.riOp hexc _ _ _ _⟩
    · exact ⟨_, rfl, CoreOnly.riOp hexc _ _ _ _⟩
    · exact ⟨_, rfl, CoreOnly.riOp hexc _ _ _ _⟩
    · exact ⟨_, rfl, CoreOnly.issueS hexc _ _ _⟩
    · exact ⟨_, rfl, CoreOnly.issueS hexc _ _ _⟩
    · exact ⟨_, rfl, CoreOnly.issue hexc _ _ fun _ _ => CoreOnly.jumpTo hexc _ _ _⟩
    · exact ⟨_, rfl, CoreOnly.issue hexc _ _ fun _ _ => CoreOnly.jumpTo hexc _ _ _⟩
    · exact ⟨_, rfl, CoreOnly.branch hexc _ _ _ _⟩
    · exact ⟨_, rfl, CoreOnly.branch hexc _ _ _ _⟩
    · exact ⟨_, rfl, CoreOnly.branch hexc _ _ _ _⟩
    · exact ⟨_, rfl, CoreOnly.branch hexc _ _ _ _⟩
    · exact ⟨_, rfl, CoreOnly.branch hexc _ _ _ _⟩
    · exact ⟨_, rfl, CoreOnly.branch hexc _ _ _ _⟩
    · exact ⟨_, rfl, CoreOnly.issue hexc _ _ fun _ _ => CoreOnly.retExc hexc⟩
    · exact ⟨_, rfl, CoreOnly.vOp hexc _ _ _ _ _ _⟩
    · exact ⟨_, rfl, CoreOnly.vOp hexc _ _ _ _ _ _⟩
    · exact ⟨_, rfl, CoreOnly.vOp hexc _ _ _ _ _ _⟩
    · exact ⟨_, rfl, CoreOnly.vOp hexc _ _ _ _ _ _⟩
    · exact ⟨_, rfl, CoreOnly.vCmp hexc _ _ _ _ _ _⟩
    · exact ⟨_, rfl, CoreOnly.vCmp hexc _ _ _ _ _ _⟩
    · exact ⟨_, rfl, CoreOnly.issue hexc _ _ fun _ _ => CoreOnly.setCore _ _ _⟩
    · exact ⟨_, rfl, CoreOnly.vRed hexc _ _ _ _ _ _ _⟩
    · exact ⟨_, rfl, CoreOnly.pOp hexc _ _ _ _ _ _⟩
    · exact ⟨_, rfl, CoreOnly.issue hexc _ _ fun _ _ => CoreOnly.setCore _ _ _⟩
  obtain ⟨v, hv, hc⟩ := coreOnly
  rw [hv] at hstep
  cases hstep
  exact hc.settled

end Sys2Proof.Machine
end

section
/-! SUPPORT. Where a core's stores can reach, and what a load gives after a store (O53, O54). -/

namespace Sys2Proof.Machine
open Sys2Proof

/-! ### What a store can change (R66, R98) -/

/-- A unit that reads as uncorrectable changes no byte of a memory (R280). -/
theorem uncorrectable_mems (s : State) (u : Nat) :
    (s.uncorrectable u).lmem = s.lmem ∧ (s.uncorrectable u).cmem = s.cmem ∧ (s.uncorrectable u).dmem = s.dmem := by
  unfold State.uncorrectable
  simp [State.bump, State.set1, State.setPair]

theorem meets_mems (s : State) (a n : Nat) : (s.meets a n).lmem = s.lmem ∧ (s.meets a n).cmem = s.cmem ∧ (s.meets a n).dmem = s.dmem := by
  unfold State.meets
  generalize s.poison.filter (unitMeets a n) = l
  induction l generalizing s with
  | nil => exact ⟨rfl, rfl, rfl⟩
  | cons u l ih =>
    obtain ⟨h1, h2, h3⟩ := ih (s.uncorrectable u)
    obtain ⟨g1, g2, g3⟩ := uncorrectable_mems s u
    exact ⟨h1.trans g1, h2.trans g2, h3.trans g3⟩

theorem placeMissed_mems (s : State) (p : Place) (n : Nat) :
    (placeMissed s p n).lmem = s.lmem ∧ (placeMissed s p n).cmem = s.cmem ∧ (placeMissed s p n).dmem = s.dmem := by
  cases p with
  | dev a => exact meets_mems s a n
  | loc _ => exact ⟨rfl, rfl, rfl⟩
  | clu _ _ => exact ⟨rfl, rfl, rfl⟩
  | reg _ => exact ⟨rfl, rfl, rfl⟩

/-- With no unit poisoned, a failed read counts nothing. -/
theorem placeMissed_of_poison_nil {s : State} (h : s.poison = []) (p : Place) (n : Nat) : placeMissed s p n = s := by
  cases p with
  | dev a => simp [placeMissed, State.meets, h]
  | loc _ => rfl
  | clu _ _ => rfl
  | reg _ => rfl

/-- An exception changes no byte of a memory. -/
theorem takeExc_mems (s : State) (c cause detail a : Nat) :
    (takeExc s c cause detail a).lmem = s.lmem ∧ (takeExc s c cause detail a).cmem = s.cmem ∧ (takeExc s c cause detail a).dmem = s.dmem := by
  cases h : (s.core c).exc
  · rw [takeExc_first h]
    exact ⟨rfl, rfl, rfl⟩
  · rw [takeExc_second h]
    simp [coreFault]

theorem takeExc_regs {s : State} {c : Nat} (h : (s.core c).exc = false) (cause detail a : Nat) :
    (takeExc s c cause detail a).regs = s.regs := by
  rw [takeExc_first h]
  rfl

/-- What a store by core `c` leaves: device memory outside its writable windows, the canonical form of the memories, and the registers
outside a handler while no unit is poisoned. -/
structure StoreFrame (s u : State) (c : Nat) : Prop where
  bytes : ∀ a, mget zeroByte u.dmem a ≠ mget zeroByte s.dmem a → MayWrite s c a
  canonical : MemoriesCanonical s → MemoriesCanonical u
  regs : (s.core c).exc = false → s.poison = [] → u.regs = s.regs

/-- A state with the same memories and registers. -/
theorem StoreFrame.of_mems {s u : State} {c : Nat} (hm : u.lmem = s.lmem ∧ u.cmem = s.cmem ∧ u.dmem = s.dmem)
    (hr : (s.core c).exc = false → s.poison = [] → u.regs = s.regs) : StoreFrame s u c := by
  obtain ⟨hl, hc, hd⟩ := hm
  refine ⟨fun a h => absurd (by rw [hd]) h, fun h => ?_, hr⟩
  rw [MemoriesCanonical, hl, hc, hd]
  exact h

/-- A place of device memory lies in it and in a window of the grant that covers the access. -/
theorem window_of_dataPlace {k : CoreSt} {c a n d : Nat} {write : Bool} (h : dataPlace k c a n write = .ok (.dev d)) :
    k.grant.wins.any (fun w => winCovers w d n write) = true ∧ d + n ≤ dmemBytes := by
  simp only [dataPlace] at h
  split at h
  · cases h
  split at h
  · repeat' split at h
    all_goals cases h
  split at h
  · split at h <;> cases h
  split at h
  · split at h
    · rename_i hw
      rw [← Place.dev.inj (Except.ok.inj h)]
      exact ⟨(Bool.and_eq_true_iff.1 hw).1, of_decide_eq_true (Bool.and_eq_true_iff.1 hw).2⟩
    · cases h
  · cases h

/-- A place of device memory that a core may write lies in a writable window of its grant. -/
theorem mayWrite_of_dataPlace {s : State} {c a n d : Nat} (h : dataPlace (s.core c) c a n true = .ok (.dev d)) {b : Nat} (hb : d ≤ b)
    (hn : b < d + n) : MayWrite s c b := by
  obtain ⟨w, hw, hcov⟩ := List.any_eq_true.1 (window_of_dataPlace h).1
  simp only [winCovers, Bool.and_eq_true, decide_eq_true_eq, Bool.true_and, Bool.not_eq_true'] at hcov
  obtain ⟨⟨h1, h2⟩, h3⟩ := hcov
  exact ⟨w, hw, h3, h1.trans hb, Nat.lt_of_lt_of_le hn h2⟩

/-- Only addresses of register space lead to a register. -/
theorem range_of_dataPlace_reg {k : CoreSt} {c a n r : Nat} {w : Bool} (h : dataPlace k c a n w = .ok (.reg r)) :
    0x20000000 ≤ a ∧ a < 0x30000000 := by
  simp only [dataPlace] at h
  split at h
  · rename_i hr
    simpa using hr
  · repeat' split at h
    all_goals cases h

/-- A place at which a write of `n` bytes stays in the writable windows of core `c`. -/
def WritesInWindows (s : State) (c : Nat) (p : Place) (n : Nat) : Prop := ∀ d, p = .dev d → ∀ b, d ≤ b → b < d + n → MayWrite s c b

theorem writesInWindows_of_dataPlace {s : State} {c a n : Nat} {p : Place} (h : dataPlace (s.core c) c a n true = .ok p) :
    WritesInWindows s c p n := by
  rintro d rfl b hb hn
  exact mayWrite_of_dataPlace h hb hn

theorem placeWrite_regs (s : State) (p : Place) (l : List (BitVec 8)) : (placeWrite s p l).regs = s.regs := by
  cases p with
  | dev a => rw [placeWrite, State.dwrite_frame]
  | loc _ => rfl
  | clu _ _ => rw [placeWrite, dropFed_frame]
  | reg _ => rfl

/-- A byte of device memory that a write at a place changes is one of the bytes written. -/
theorem byte_of_placeWrite_ne {s : State} {p : Place} {l : List (BitVec 8)} {b : Nat}
    (h : mget zeroByte (placeWrite s p l).dmem b ≠ mget zeroByte s.dmem b) : ∃ d, p = .dev d ∧ d ≤ b ∧ b < d + l.length := by
  cases p with
  | loc _ => exact absurd rfl h
  | clu _ _ =>
    rw [placeWrite, dropFed_frame] at h
    exact absurd rfl h
  | reg _ => exact absurd rfl h
  | dev d =>
    rw [placeWrite, State.dmem_dwrite, mget_mwriteBytes] at h
    split at h
    · rename_i hr
      rw [List.length_take] at hr
      exact ⟨d, rfl, hr.1, by omega⟩
    · exact absurd rfl h

/-- One more write by the core, in its windows. -/
theorem StoreFrame.placeWrite {s u : State} {c : Nat} (hu : StoreFrame s u c) {p : Place} {l : List (BitVec 8)}
    (hp : WritesInWindows s c p l.length) : StoreFrame s (placeWrite u p l) c := by
  refine ⟨fun b hb => ?_, fun hw => wf_placeWrite _ _ _ (hu.canonical hw), fun he hn => (placeWrite_regs _ _ _).trans (hu.regs he hn)⟩
  by_cases h : mget zeroByte (Machine.placeWrite u p l).dmem b = mget zeroByte u.dmem b
  · exact hu.bytes b (h ▸ hb)
  · obtain ⟨d, rfl, h1, h2⟩ := byte_of_placeWrite_ne h
    exact hp d rfl b h1 h2

theorem StoreFrame.refl (s : State) (c : Nat) : StoreFrame s s c := StoreFrame.of_mems ⟨rfl, rfl, rfl⟩ fun _ _ => rfl

/-- The end of the instruction on the core. -/
theorem StoreFrame.setCore {s u : State} {c : Nat} (hu : StoreFrame s u c) (d : Nat) (k : CoreSt) : StoreFrame s (u.setCore d k) c :=
  ⟨hu.bytes, hu.canonical, hu.regs⟩

theorem StoreFrame.takeExc (s : State) (c cause detail a : Nat) : StoreFrame s (takeExc s c cause detail a) c :=
  StoreFrame.of_mems (takeExc_mems _ _ _ _ _) fun h _ => takeExc_regs h _ _ _

/-- A bus error on what an atomic reads. -/
theorem StoreFrame.takeExc_missed (s : State) (c : Nat) (p : Place) (n a : Nat) :
    StoreFrame s (Machine.takeExc (placeMissed s p n) c 4 0 a) c := by
  obtain ⟨h1, h2, h3⟩ := placeMissed_mems s p n
  obtain ⟨g1, g2, g3⟩ := takeExc_mems (placeMissed s p n) c 4 0 a
  refine StoreFrame.of_mems ⟨g1.trans h1, g2.trans h2, g3.trans h3⟩ fun he hn => ?_
  rw [placeMissed_of_poison_nil hn, takeExc_regs he]

theorem StoreFrame.issue {s : State} {c : Nat} (v legal : Bool) {body : CoreSt → State}
    (hb : ∀ k, k = s.core c → StoreFrame s (body k) c) : StoreFrame s (issue s c v legal body) c := by
  rcases issue_cases s c v legal body with e | ⟨u, cause, detail, a, hu, e⟩ | ⟨-, e⟩ <;> rw [e]
  · exact StoreFrame.refl _ _
  · rcases hu with rfl | ⟨b, r, -, rfl⟩
    · exact StoreFrame.takeExc _ _ _ _ _
    · obtain ⟨h1, h2, h3⟩ := takeExc_mems (s.setCore c { s.core c with busErrs := r }) c cause detail a
      exact StoreFrame.of_mems ⟨h1, h2, h3⟩ fun he _ => takeExc_regs (by rw [State.core_setCore]; exact he) _ _ _
  · exact hb _ rfl

theorem length_bytesLE (n v : Nat) : (bytesLE n v).length = n := by
  induction n generalizing v with
  | zero => rfl
  | succ n ih => rw [bytesLE, List.length_cons, ih]

/-- The place of a scalar access is that of the data address. -/
theorem dataPlace_of_scalarPlace {k : CoreSt} {c a n : Nat} {w r : Bool} {p : Place} (h : scalarPlace k c a n w r = .ok p) :
    dataPlace k c a n w = .ok p := by
  unfold scalarPlace at h
  split at h
  · cases h
  · split at h
    · cases h
    · exact h

theorem StoreFrame.storeOp (s : State) (c rt base : Nat) (off : BitVec 12) (n : Nat) : StoreFrame s (storeOp s c rt base off n) c := by
  refine StoreFrame.issue _ _ fun k hk => ?_
  subst hk
  dsimp only
  split
  · exact StoreFrame.takeExc _ _ _ _ _
  · rename_i p hp
    have hw := writesInWindows_of_dataPlace (dataPlace_of_scalarPlace hp)
    exact ((StoreFrame.refl s c).placeWrite (by rwa [length_bytesLE])).setCore _ _

theorem StoreFrame.amoOp (s : State) (c rd rs1 rs2 : Nat) (f : Word → Word → Word → Word) : StoreFrame s (amoOp s c rd rs1 rs2 f) c := by
  refine StoreFrame.issue _ _ fun k hk => ?_
  subst hk
  dsimp only
  split
  · exact StoreFrame.takeExc _ _ _ _ _
  · rename_i p hp
    split
    · exact StoreFrame.takeExc_missed _ _ _ _ _
    · have hw := writesInWindows_of_dataPlace (dataPlace_of_scalarPlace hp)
      exact ((StoreFrame.refl s c).placeWrite (by rwa [length_bytesLE])).setCore _ _

/-- Outside register space, sw is a store like the shorter ones. -/
theorem StoreFrame.execSw {c : CoreNo} {rt base : RegNo} {off : BitVec 12} {s : State}
    (hr : memAddr (s.core c) base off < 0x20000000 ∨ 0x30000000 ≤ memAddr (s.core c) base off) :
    ∃ v, exec (.sw c rt base off) s = done v ∧ StoreFrame s v c := by
  refine ⟨_, rfl, StoreFrame.issue _ _ fun k hk => ?_⟩
  subst hk
  dsimp only
  split
  · exact StoreFrame.takeExc _ _ _ _ _
  · rename_i r hp
    have ha := range_of_dataPlace_reg (dataPlace_of_scalarPlace hp)
    omega
  · rename_i p _ hp
    have hw := writesInWindows_of_dataPlace (dataPlace_of_scalarPlace hp)
    exact ((StoreFrame.refl s c).placeWrite (by rwa [length_bytesLE])).setCore _ _

/-- The place of an element that a vector store writes. -/
theorem writesInWindows_vPlace (s : State) (c a n : Nat) : WritesInWindows s c (vPlace (s.core c) c a n true) n := by
  unfold vPlace
  split
  · rename_i p hp
    exact writesInWindows_of_dataPlace hp
  · intro d hd
    cases hd

theorem StoreFrame.execVst (c : CoreNo) (vt base stride : RegNo) (view : Fin 4) (pred : Fin 8) (s : State) :
    ∃ v, exec (.vst c vt base stride view pred) s = done v ∧ StoreFrame s v c := by
  refine ⟨_, rfl, StoreFrame.issue _ _ fun k hk => ?_⟩
  subst hk
  dsimp only
  split
  · exact StoreFrame.takeExc _ _ _ _ _
  · refine StoreFrame.setCore ?_ _ _
    generalize List.filter _ _ = idx
    have h (u : State) (hu : StoreFrame s u c) : StoreFrame s (idx.foldl (fun t i => Machine.placeWrite t
        (vPlace (s.core c) c (vAddr (s.core c) base stride (viewWidth (memView view)) i) (viewWidth (memView view) / 8) true)
        (bytesLE (viewWidth (memView view) / 8) (elem ((s.core c).rv vt) (viewWidth (memView view)) i))) u) c := by
      induction idx generalizing u with
      | nil => exact hu
      | cons i idx ih =>
        refine ih _ (hu.placeWrite ?_)
        rw [length_bytesLE]
        exact writesInWindows_vPlace s c _ _
    exact h s (StoreFrame.refl s c)

/-- Settles O53. -/
theorem storesStayInWindows : Obligations.StoresStayInWindows := by
  intro c rt base rs2 off view pred i s t hi hr hstep
  have frame : ∃ v, exec i s = done v ∧ StoreFrame s v c := by
    simp only [List.mem_cons, List.not_mem_nil, or_false] at hi
    rcases hi with rfl | rfl | rfl | rfl | rfl | rfl | rfl | rfl | rfl | rfl | rfl
    · exact ⟨_, rfl, StoreFrame.storeOp _ _ _ _ _ _⟩
    · exact ⟨_, rfl, StoreFrame.storeOp _ _ _ _ _ _⟩
    · exact StoreFrame.execSw hr
    · exact ⟨_, rfl, StoreFrame.amoOp _ _ _ _ _ _⟩
    · exact ⟨_, rfl, StoreFrame.amoOp _ _ _ _ _ _⟩
    · exact ⟨_, rfl, StoreFrame.amoOp _ _ _ _ _ _⟩
    · exact ⟨_, rfl, StoreFrame.amoOp _ _ _ _ _ _⟩
    · exact ⟨_, rfl, StoreFrame.amoOp _ _ _ _ _ _⟩
    · exact ⟨_, rfl, StoreFrame.amoOp _ _ _ _ _ _⟩
    · exact ⟨_, rfl, StoreFrame.amoOp _ _ _ _ _ _⟩
    · exact StoreFrame.execVst _ _ _ _ _ _ _
  obtain ⟨v, hv, hf⟩ := frame
  rw [hv] at hstep
  cases hstep
  refine ⟨fun a ha => hf.bytes a fun e => ha ?_, fun he hn a ha => ?_, fun hw => ?_⟩
  · simp [State.dread, mreadBytes, e]
  · rw [State.driveAlert_rd, State.settle_rd _ _ ha, State.rd, hf.regs he hn]
    rfl
  · have := hf.canonical hw
    simpa [MemoriesCanonical] using this

/-! ### A load after a store to the same place (R71, R82) -/

theorem mget_map_value {α : Type} (d : Nat → α) (f : α → α) (hf : ∀ k, f (d k) = d k) (m : SMap α) (k : Nat) :
    mget d (m.map (fun e => (e.1, f e.2))) k = f (mget d m k) := by
  induction m with
  | nil => exact (hf k).symm
  | cons e r ih =>
    obtain ⟨a, v⟩ := e
    simp only [List.map_cons, mget, ih]
    split <;> rfl

theorem mget_of_all_empty {m : SMap CoreSt} (h : m.all (fun e => e.2.fed.isEmpty) = true) (c : Nat) : (mget (fun _ => ({} : CoreSt)) m c).fed = [] := by
  induction m with
  | nil => rfl
  | cons e r ih =>
    obtain ⟨a, v⟩ := e
    rw [List.all_cons, Bool.and_eq_true] at h
    rw [mget]
    split
    · exact List.isEmpty_iff.1 h.1
    · exact ih h.2

/-- A write to cluster memory leaves each core but for the tile bytes it replaces. -/
theorem dropFed_core (s : State) (k n c : Nat) :
    (dropFed s k n).core c = { s.core c with fed := ((dropFed s k n).core c).fed } ∧
      ∀ d x, k ≤ x → x < k + n → mget d ((dropFed s k n).core c).fed x = d x := by
  unfold dropFed
  split
  · rename_i h
    refine ⟨rfl, fun d x _ _ => ?_⟩
    rw [State.core, mget_of_all_empty h]
    rfl
  · have hc : ({ s with cores := s.cores.map (fun e => (e.1, { e.2 with fed := mdropRange e.2.fed k (k + n) })) } : State).core c =
        { s.core c with fed := mdropRange (s.core c).fed k (k + n) } :=
      mget_map_value (fun _ => ({} : CoreSt)) (fun x => { x with fed := mdropRange x.fed k (k + n) }) (fun _ => rfl) s.cores c
    rw [hc]
    exact ⟨rfl, fun d x h1 h2 => (mget_mdropRange _ _ _ _).trans (if_pos ⟨h1, h2⟩)⟩

/-- A write at a place leaves each core but for the bytes of its tiles. -/
theorem placeWrite_core (s : State) (p : Place) (l : List (BitVec 8)) (c : Nat) :
    (placeWrite s p l).core c = { s.core c with fed := ((placeWrite s p l).core c).fed } := by
  cases p with
  | loc _ => rfl
  | clu d k => exact (dropFed_core _ k l.length c).1
  | dev a => rw [placeWrite, State.dwrite_frame]; rfl
  | reg _ => rfl

/-- The key of an aligned word of local or cluster memory is aligned. -/
theorem key_mod_four_of_dataPlace {k : CoreSt} {c a n key : Nat} {w : Bool} (ha : a % 4 = 0)
    (h : dataPlace k c a n w = .ok (.loc key) ∨ ∃ d, dataPlace k c a n w = .ok (.clu d key)) : key % 4 = 0 := by
  have hloc (b : Nat) : localKey c b a % 4 = 0 := by
    unfold localKey
    split <;> omega
  have hclu (b : Nat) : clusterKey b (a - 0x10000000) % 4 = 0 := by
    unfold clusterKey
    omega
  simp only [dataPlace] at h
  rcases h with h | ⟨d, h⟩
  · repeat' split at h
    all_goals first | cases h; done | (rw [← Place.loc.inj (Except.ok.inj h)]; exact hloc _)
  · repeat' split at h
    all_goals first | cases h; done | (rw [← (Place.clu.inj (Except.ok.inj h)).2]; exact hclu _)

/-- No poisoned word is left at an aligned word that was written. -/
theorem any_inWords_filter_covers {l : List Nat} {k : Nat} (hk : k % 4 = 0) :
    (l.filter (fun u => !covers k 4 u)).any (inWords k 4) = false := by
  rw [List.any_eq_false]
  intro u hu
  have h := (List.mem_filter.1 hu).2
  simp [covers] at h
  simp [inWords]
  omega

theorem ite_imp {α : Type} {c : Prop} [Decidable c] {x y x' y' v : α} (hx : x = v → x' = v) (hy : y = v → y' = v) :
    (if c then x else y) = v → (if c then x' else y') = v := by
  split
  · exact hx
  · exact hy

/-- What a core may write at, it may read at. -/
theorem dataPlace_read_of_write {k : CoreSt} {c a n : Nat} {p : Place} (h : dataPlace k c a n true = .ok p) : dataPlace k c a n false = .ok p := by
  have hany (d : Nat) (hw : k.grant.wins.any (fun w => winCovers w d n true) = true) :
      k.grant.wins.any (fun w => winCovers w d n false) = true := by
    obtain ⟨w, hw, hcov⟩ := List.any_eq_true.1 hw
    refine List.any_eq_true.2 ⟨w, hw, ?_⟩
    simp only [winCovers, Bool.and_eq_true] at hcov ⊢
    exact ⟨hcov.1, rfl⟩
  simp only [dataPlace, if_true, Bool.false_eq_true, if_false] at h ⊢
  revert h
  refine ite_imp id (ite_imp (ite_imp id ?_) (ite_imp id (ite_imp ?_ id)))
  · intro h
    split at h
    · cases h
    · rename_i hc
      rw [if_neg hc]
      exact h
  · intro h
    split at h
    · rename_i hw
      rw [Bool.and_eq_true] at hw
      rw [if_pos (by rw [Bool.and_eq_true]; exact ⟨hany _ hw.1, hw.2⟩)]
      exact h
    · cases h

/-- The place of a word that sw may store is that of the lw. -/
theorem scalarPlace_read_of_write {k : CoreSt} {c a n : Nat} {r : Bool} {p : Place} (h : scalarPlace k c a n true r = .ok p) :
    scalarPlace k c a n false r = .ok p := by
  have hd := dataPlace_read_of_write (dataPlace_of_scalarPlace h)
  unfold scalarPlace at h ⊢
  split at h
  · cases h
  · rename_i h1
    split at h
    · cases h
    · rename_i h2
      rw [if_neg h1, if_neg h2, hd]

theorem aligned_of_scalarPlace {k : CoreSt} {c a n : Nat} {w r : Bool} {p : Place} (h : scalarPlace k c a n w r = .ok p) : a % n = 0 := by
  unfold scalarPlace at h
  split at h
  · cases h
  · split at h
    · cases h
    · rename_i h2
      simpa using h2

/-- A word written at a place is what is read there. -/
theorem placeRead_placeWrite {s : State} {c a : Nat} {p : Place} {l : List (BitVec 8)} (hl : l.length = 4) (ha : a % 4 = 0)
    (hp : dataPlace (s.core c) c a 4 true = .ok p) (hr : ∀ r, p ≠ .reg r) (hn : s.poison = []) :
    placeRead (placeWrite s p l) p 4 = some l := by
  cases p with
  | reg r => exact absurd rfl (hr r)
  | loc k =>
    have hk := key_mod_four_of_dataPlace ha (.inl hp)
    have hm := mreadBytes_mwriteBytes s.lmem k l
    rw [hl] at hm
    simp only [placeWrite, placeRead, hl, any_inWords_filter_covers hk, hm]
    rfl
  | clu d k =>
    have hk := key_mod_four_of_dataPlace ha (.inr ⟨d, hp⟩)
    have hm := mreadBytes_mwriteBytes s.cmem k l
    rw [hl, mreadBytes_eq] at hm
    have hb : cluBytes (placeWrite s (.clu d k) l) d k 4 = l := by
      refine Eq.trans (List.map_congr_left fun i hi => ?_) hm
      have hi := List.mem_range.1 hi
      refine ((dropFed_core _ k l.length d).2 _ _ (Nat.le_add_right k i) (by omega)).trans ?_
      rw [placeWrite, dropFed_frame]
    have hpo : (placeWrite s (.clu d k) l).cpoison = s.cpoison.filter (fun u => !covers k l.length u) := by
      rw [placeWrite, dropFed_frame]
    simp only [placeRead, hpo, hb, hl, any_inWords_filter_covers hk]
    rfl
  | dev d =>
    have hd := (window_of_dataPlace hp).2
    have hm := mreadBytes_mwriteBytes s.dmem d l
    rw [hl] at hm
    have hpo : (placeWrite s (.dev d) l).poisoned d = false := by
      simp [placeWrite, State.poisoned, State.dwrite, hn]
    simp only [placeRead, hpo, State.dread]
    rw [placeWrite, State.dmem_dwrite, List.take_of_length_le (by omega), hm]
    rfl

/-- The bytes of a word are its word again. -/
theorem append_slices (w : Word) : w.extractLsb' 24 8 ++ w.extractLsb' 16 8 ++ w.extractLsb' 8 8 ++ w.extractLsb' 0 8 = w := by
  apply BitVec.eq_of_toNat_eq
  have := w.isLt
  rw [toNat_append_byte, toNat_append_byte, toNat_append_byte]
  simp only [BitVec.extractLsb'_toNat, Nat.shiftRight_eq_div_pow]
  omega

/-- The end of an instruction leaves what a place holds. -/
theorem placeRead_retired (u : State) (c : Nat) (p : Place) (n : Nat) : placeRead (u.mapCore c (·.retire)).settled p n = placeRead u p n := by
  have hfed (d : Nat) : ((u.mapCore c (·.retire)).core d).fed = (u.core d).fed := by
    by_cases h : d = c
    · rw [h, State.mapCore, State.core_setCore]
      rfl
    · rw [State.mapCore, State.core_setCore_ne _ _ _ _ (Ne.symm h)]
  cases p with
  | loc k => simp [placeRead, State.settled, State.mapCore]
  | clu d k =>
    have hb : cluBytes (u.mapCore c (·.retire)).settled d k n = cluBytes u d k n := by
      simp [cluBytes, cluByte, State.settled, hfed]
      simp [State.mapCore]
    simp [placeRead, hb]
    simp [State.settled, State.mapCore]
  | dev a => simp [placeRead, State.poisoned, State.dread, State.settled, State.mapCore]
  | reg r => rfl

/-- Settles O54: the place is the same after the store, and what it holds are the bytes of the stored word. -/
theorem storeThenLoad : Obligations.StoreThenLoad := by
  intro c rt base rd off p s hs hrd hp hr hn
  have hst := exec_sw_write (rt := rt) hs hp hr
  generalize ht : (((placeWrite s p ((List.range 4).map (fun i => ((s.core c).rs rt).extractLsb' (8 * i) 8))).mapCore c (·.retire)).settled) = t at hst
  have hcore : t.core c = { (s.core c).retire with fed := (t.core c).fed } := by
    rw [← ht, State.settled, State.driveAlert_core, State.settle_core, State.mapCore, State.core_setCore, placeWrite_core]
    rfl
  have hplace : scalarPlace (t.core c) c (memAddr (t.core c) base off) 4 false true = .ok p := by
    rw [hcore]
    exact scalarPlace_read_of_write hp
  have hread : placeRead t p 4 = some ((List.range 4).map (fun i => ((s.core c).rs rt).extractLsb' (8 * i) 8)) := by
    rw [← ht, placeRead_retired]
    exact placeRead_placeWrite (by simp) (aligned_of_scalarPlace hp) (dataPlace_of_scalarPlace hp) hr hn
  refine ⟨t, _, hst, fun hready => ⟨exec_lw_read hready hplace hread, ?_⟩⟩
  rw [State.writes, State.coreNext_core, CoreSt.retire_rs, CoreSt.rs_ws, if_pos ⟨rfl, hrd⟩]
  exact append_slices _

end Sys2Proof.Machine
end

section
/-! SUPPORT. The words of the instructions: decoding and encoding agree (O47). -/

namespace Sys2Proof.Machine
open Sys2Proof

/-! ### Fields of the instruction words (R69) -/

theorem fieldA_val (w : Word) : (fieldA w).val = (w.extractLsb' 21 5).toNat := rfl
theorem fieldB_val (w : Word) : (fieldB w).val = (w.extractLsb' 16 5).toNat := rfl
theorem fieldC_val (w : Word) : (fieldC w).val = (w.extractLsb' 11 5).toNat := rfl
theorem viewOf_val (w : Word) : (viewOf w).val = (w.extractLsb' 9 2).toNat := rfl
theorem predOf_val (w : Word) : (predOf w).val = (w.extractLsb' 6 3).toNat := rfl

theorem wordOf_toNat {op low : Nat} (a b : RegNo) (ho : op < 64) (hl : low < 0x10000) :
    (wordOf op a b low).toNat = op * 0x4000000 + a.val * 0x200000 + b.val * 0x10000 + low := by
  rw [wordOf, BitVec.toNat_ofNat]
  omega

/-- The fields of a word of the common format: major opcode, two registers, and the low 16 bits. -/
theorem opcode_wordOf {op low : Nat} (a b : RegNo) (ho : op < 64) (hl : low < 0x10000) :
    ((wordOf op a b low).extractLsb' 26 6).toNat = op := by
  rw [BitVec.extractLsb'_toNat, wordOf_toNat a b ho hl, Nat.shiftRight_eq_div_pow]
  omega

theorem fieldA_wordOf {op low : Nat} (a b : RegNo) (ho : op < 64) (hl : low < 0x10000) : fieldA (wordOf op a b low) = a := by
  apply Fin.ext
  rw [fieldA_val, BitVec.extractLsb'_toNat, wordOf_toNat a b ho hl, Nat.shiftRight_eq_div_pow]
  omega

theorem fieldB_wordOf {op low : Nat} (a b : RegNo) (ho : op < 64) (hl : low < 0x10000) : fieldB (wordOf op a b low) = b := by
  apply Fin.ext
  rw [fieldB_val, BitVec.extractLsb'_toNat, wordOf_toNat a b ho hl, Nat.shiftRight_eq_div_pow]
  omega

/-- A slice of the low 16 bits is that of the low part. -/
theorem slice_wordOf {op low : Nat} (a b : RegNo) (ho : op < 64) (hl : low < 0x10000) (lo n : Nat) (hn : lo + n ≤ 16) :
    ((wordOf op a b low).extractLsb' lo n).toNat = low / 2 ^ lo % 2 ^ n := by
  have h (m : Nat) : (m * 2 ^ 16 + low) / 2 ^ lo % 2 ^ n = low / 2 ^ lo % 2 ^ n := by
    obtain ⟨k, hk⟩ := Nat.exists_eq_add_of_le hn
    have e : m * 2 ^ 16 + low = low + 2 ^ lo * (2 ^ n * (2 ^ k * m)) := by
      rw [hk, Nat.pow_add, Nat.pow_add]
      ring
    rw [e, Nat.add_mul_div_left _ _ (Nat.two_pow_pos lo), Nat.add_mul_mod_self_left]
  rw [BitVec.extractLsb'_toNat, wordOf_toNat a b ho hl, Nat.shiftRight_eq_div_pow, ← h (op * 0x400 + a.val * 0x20 + b.val)]
  have e : op * 0x4000000 + a.val * 0x200000 + b.val * 0x10000 + low = (op * 0x400 + a.val * 0x20 + b.val) * 2 ^ 16 + low := by omega
  rw [e]

/-- Every word is made of its fields. -/
theorem wordOf_fields (w : Word) : wordOf (w.extractLsb' 26 6).toNat (fieldA w) (fieldB w) (w.extractLsb' 0 16).toNat = w := by
  apply BitVec.eq_of_toNat_eq
  have := w.isLt
  rw [wordOf, BitVec.toNat_ofNat, fieldA_val, fieldB_val]
  simp only [BitVec.extractLsb'_toNat, Nat.shiftRight_eq_div_pow]
  omega

/-! #### Format R: a third register and the low 11 bits -/

section FormatR
variable {op low : Nat} (a b d : RegNo) (ho : op < 64) (hl : low < 2048)
include ho hl

theorem opcode_wordR : ((wordR op a b d low).extractLsb' 26 6).toNat = op := opcode_wordOf a b ho (by omega)
theorem fieldA_wordR : fieldA (wordR op a b d low) = a := fieldA_wordOf a b ho (by omega)
theorem fieldB_wordR : fieldB (wordR op a b d low) = b := fieldB_wordOf a b ho (by omega)

theorem fieldC_wordR : fieldC (wordR op a b d low) = d := by
  apply Fin.ext
  rw [fieldC_val, wordR, slice_wordOf a b ho (by omega) 11 5 (by decide)]
  omega

theorem low_wordR : ((wordR op a b d low).extractLsb' 0 11).toNat = low := by
  rw [wordR, slice_wordOf a b ho (by omega) 0 11 (by decide)]
  omega

end FormatR

theorem idx_wordR {op : Nat} (a b d : RegNo) (ho : op < 64) (idx : BitVec 11) : (wordR op a b d idx.toNat).extractLsb' 0 11 = idx :=
  BitVec.eq_of_toNat_eq (low_wordR a b d ho idx.isLt)

theorem wordR_fields (w : Word) :
    wordR (w.extractLsb' 26 6).toNat (fieldA w) (fieldB w) (fieldC w) (w.extractLsb' 0 11).toNat = w := by
  have h : (fieldC w).val * 0x800 + (w.extractLsb' 0 11).toNat = (w.extractLsb' 0 16).toNat := by
    rw [fieldC_val]
    simp only [BitVec.extractLsb'_toNat, Nat.shiftRight_eq_div_pow]
    omega
  rw [wordR, h, wordOf_fields]

/-! #### Format V: the view, the predicate and func -/

section FormatV
variable {op func : Nat} (a b d : RegNo) (view : Fin 4) (pred : Fin 8) (ho : op < 64) (hf : func < 64)
include ho hf

theorem opcode_wordV : ((wordV op a b d view pred func).extractLsb' 26 6).toNat = op := opcode_wordR a b d ho (by omega)
theorem fieldA_wordV : fieldA (wordV op a b d view pred func) = a := fieldA_wordR a b d ho (by omega)
theorem fieldB_wordV : fieldB (wordV op a b d view pred func) = b := fieldB_wordR a b d ho (by omega)
theorem fieldC_wordV : fieldC (wordV op a b d view pred func) = d := fieldC_wordR a b d ho (by omega)

theorem viewOf_wordV : viewOf (wordV op a b d view pred func) = view := by
  apply Fin.ext
  rw [viewOf_val, wordV, wordR, slice_wordOf a b ho (by omega) 9 2 (by decide)]
  omega

theorem predOf_wordV : predOf (wordV op a b d view pred func) = pred := by
  apply Fin.ext
  rw [predOf_val, wordV, wordR, slice_wordOf a b ho (by omega) 6 3 (by decide)]
  omega

theorem func_wordV : ((wordV op a b d view pred func).extractLsb' 0 6).toNat = func := by
  rw [wordV, wordR, slice_wordOf a b ho (by omega) 0 6 (by decide)]
  omega

end FormatV

theorem wordV_fields (w : Word) : wordV (w.extractLsb' 26 6).toNat (fieldA w) (fieldB w) (fieldC w) (viewOf w) (predOf w)
    (w.extractLsb' 0 6).toNat = w := by
  have h : (viewOf w).val * 0x200 + (predOf w).val * 0x40 + (w.extractLsb' 0 6).toNat = (w.extractLsb' 0 11).toNat := by
    rw [viewOf_val, predOf_val]
    simp only [BitVec.extractLsb'_toNat, Nat.shiftRight_eq_div_pow]
    omega
  rw [wordV, h, wordR_fields]

/-! #### Format I: func and the 12-bit immediate -/

section FormatI
variable {op func : Nat} (a b : RegNo) (imm : BitVec 12) (ho : op < 64) (hf : func < 16)
include ho hf

theorem opcode_wordI : ((wordI op a b func imm).extractLsb' 26 6).toNat = op := opcode_wordOf a b ho (by have := imm.isLt; omega)
theorem fieldA_wordI : fieldA (wordI op a b func imm) = a := fieldA_wordOf a b ho (by have := imm.isLt; omega)
theorem fieldB_wordI : fieldB (wordI op a b func imm) = b := fieldB_wordOf a b ho (by have := imm.isLt; omega)

theorem func_wordI : ((wordI op a b func imm).extractLsb' 12 4).toNat = func := by
  have := imm.isLt
  rw [wordI, slice_wordOf a b ho (by omega) 12 4 (by decide)]
  omega

theorem imm_wordI : (wordI op a b func imm).extractLsb' 0 12 = imm := by
  have := imm.isLt
  apply BitVec.eq_of_toNat_eq
  rw [wordI, slice_wordOf a b ho (by omega) 0 12 (by decide)]
  omega

end FormatI

theorem wordI_fields (w : Word) :
    wordI (w.extractLsb' 26 6).toNat (fieldA w) (fieldB w) (w.extractLsb' 12 4).toNat (w.extractLsb' 0 12) = w := by
  have h : (w.extractLsb' 12 4).toNat * 0x1000 + (w.extractLsb' 0 12).toNat = (w.extractLsb' 0 16).toNat := by
    simp only [BitVec.extractLsb'_toNat, Nat.shiftRight_eq_div_pow]
    omega
  rw [wordI, h, wordOf_fields]

/-! #### Format B: func and the 14-bit offset -/

section FormatB
variable {op func : Nat} (a b : RegNo) (off : BitVec 14) (ho : op < 64) (hf : func < 4)
include ho hf

theorem opcode_wordB : ((wordB op a b func off).extractLsb' 26 6).toNat = op := opcode_wordOf a b ho (by have := off.isLt; omega)
theorem fieldA_wordB : fieldA (wordB op a b func off) = a := fieldA_wordOf a b ho (by have := off.isLt; omega)
theorem fieldB_wordB : fieldB (wordB op a b func off) = b := fieldB_wordOf a b ho (by have := off.isLt; omega)

theorem func_wordB : ((wordB op a b func off).extractLsb' 14 2).toNat = func := by
  have := off.isLt
  rw [wordB, slice_wordOf a b ho (by omega) 14 2 (by decide)]
  omega

theorem off_wordB : (wordB op a b func off).extractLsb' 0 14 = off := by
  have := off.isLt
  apply BitVec.eq_of_toNat_eq
  rw [wordB, slice_wordOf a b ho (by omega) 0 14 (by decide)]
  omega

end FormatB

theorem wordB_fields (w : Word) :
    wordB (w.extractLsb' 26 6).toNat (fieldA w) (fieldB w) (w.extractLsb' 14 2).toNat (w.extractLsb' 0 14) = w := by
  have h : (w.extractLsb' 14 2).toNat * 0x4000 + (w.extractLsb' 0 14).toNat = (w.extractLsb' 0 16).toNat := by
    simp only [BitVec.extractLsb'_toNat, Nat.shiftRight_eq_div_pow]
    omega
  rw [wordB, h, wordOf_fields]

/-! #### Format U: bit 20 and the 20-bit immediate -/

section FormatU
variable {op : Nat} (a : RegNo) (res : Bool) (imm : BitVec 20) (ho : op < 64)
include ho

theorem wordU_toNat : (wordU op a res imm).toNat = op * 0x4000000 + a.val * 0x200000 + res.toNat * 0x100000 + imm.toNat := by
  have := imm.isLt
  have := res.toNat_le
  rw [wordU, BitVec.toNat_ofNat]
  omega

theorem opcode_wordU : ((wordU op a res imm).extractLsb' 26 6).toNat = op := by
  have := imm.isLt
  have := res.toNat_le
  rw [BitVec.extractLsb'_toNat, wordU_toNat a res imm ho, Nat.shiftRight_eq_div_pow]
  omega

theorem fieldA_wordU : fieldA (wordU op a res imm) = a := by
  have := imm.isLt
  have := res.toNat_le
  apply Fin.ext
  rw [fieldA_val, BitVec.extractLsb'_toNat, wordU_toNat a res imm ho, Nat.shiftRight_eq_div_pow]
  omega

theorem imm_wordU : (wordU op a res imm).extractLsb' 0 20 = imm := by
  have := imm.isLt
  have := res.toNat_le
  apply BitVec.eq_of_toNat_eq
  rw [BitVec.extractLsb'_toNat, wordU_toNat a res imm ho, Nat.shiftRight_eq_div_pow]
  omega

theorem res_wordU : (wordU op a res imm).getLsbD 20 = res := by
  have := imm.isLt
  have h : (op * 0x4000000 + a.val * 0x200000 + res.toNat * 0x100000 + imm.toNat) / 2 ^ 20 % 2 = res.toNat := by
    have := res.toNat_le
    omega
  rw [BitVec.getLsbD, Nat.testBit_eq_decide_div_mod_eq, wordU_toNat a res imm ho, h]
  cases res <;> rfl

end FormatU

theorem wordU_fields (w : Word) : wordU (w.extractLsb' 26 6).toNat (fieldA w) (w.getLsbD 20) (w.extractLsb' 0 20) = w := by
  have hb : (w.getLsbD 20).toNat = w.toNat / 2 ^ 20 % 2 := by
    rw [BitVec.getLsbD, Nat.testBit_eq_decide_div_mod_eq]
    rcases Nat.mod_two_eq_zero_or_one (w.toNat / 2 ^ 20) with h | h <;> rw [h] <;> rfl
  have := w.isLt
  apply BitVec.eq_of_toNat_eq
  rw [wordU, BitVec.toNat_ofNat, fieldA_val, hb]
  simp only [BitVec.extractLsb'_toNat, Nat.shiftRight_eq_div_pow]
  omega

/-! ### A word that decodes is the word of its instruction -/

section Decoded
variable {c : CoreNo} {w : Word} {i : Instr}

/-- The word of format R with this opcode and these low bits. -/
theorem wordR_of_fields {op low : Nat} (ho : (w.extractLsb' 26 6).toNat = op) (hl : (w.extractLsb' 0 11).toNat = low) :
    wordR op (fieldA w) (fieldB w) (fieldC w) low = w := by
  rw [← ho, ← hl, wordR_fields]

theorem wordI_of_fields {op func : Nat} (ho : (w.extractLsb' 26 6).toNat = op) (hf : (w.extractLsb' 12 4).toNat = func) :
    wordI op (fieldA w) (fieldB w) func (w.extractLsb' 0 12) = w := by
  rw [← ho, ← hf, wordI_fields]

theorem wordB_of_fields {op func : Nat} (ho : (w.extractLsb' 26 6).toNat = op) (hf : (w.extractLsb' 14 2).toNat = func) :
    wordB op (fieldA w) (fieldB w) func (w.extractLsb' 0 14) = w := by
  rw [← ho, ← hf, wordB_fields]

theorem wordU_of_fields {op : Nat} (ho : (w.extractLsb' 26 6).toNat = op) :
    wordU op (fieldA w) (w.getLsbD 20) (w.extractLsb' 0 20) = w := by
  rw [← ho, wordU_fields]

theorem wordV_of_fields {op func : Nat} (ho : (w.extractLsb' 26 6).toNat = op) (hf : (w.extractLsb' 0 6).toNat = func) :
    wordV op (fieldA w) (fieldB w) (fieldC w) (viewOf w) (predOf w) func = w := by
  rw [← ho, ← hf, wordV_fields]

theorem encode_regRows (ho : (w.extractLsb' 26 6).toNat = 0x00) (h : regRows c w = some i) : encodeUrelm i = some (c, w) := by
  unfold regRows at h
  split at h <;> cases h <;> exact congrArg (fun v => some (c, v)) (wordR_of_fields ho ‹_›)

theorem encode_immRows (ho : (w.extractLsb' 26 6).toNat = 0x01) (h : immRows c w = some i) : encodeUrelm i = some (c, w) := by
  unfold immRows at h
  split at h <;> cases h <;> exact congrArg (fun v => some (c, v)) (wordI_of_fields ho ‹_›)

theorem encode_branchRows (ho : (w.extractLsb' 26 6).toNat = 0x06) (h : branchRows c w = some i) : encodeUrelm i = some (c, w) := by
  unfold branchRows at h
  split at h <;> cases h <;> exact congrArg (fun v => some (c, v)) (wordB_of_fields ho ‹_›)

theorem encode_branchURows (ho : (w.extractLsb' 26 6).toNat = 0x07) (h : branchURows c w = some i) : encodeUrelm i = some (c, w) := by
  unfold branchURows at h
  split at h <;> cases h <;> exact congrArg (fun v => some (c, v)) (wordB_of_fields ho ‹_›)

theorem encode_loadRows (ho : (w.extractLsb' 26 6).toNat = 0x08) (h : loadRows c w = some i) : encodeUrelm i = some (c, w) := by
  unfold loadRows at h
  split at h <;> cases h <;> exact congrArg (fun v => some (c, v)) (wordI_of_fields ho ‹_›)

theorem encode_storeRows (ho : (w.extractLsb' 26 6).toNat = 0x09) (h : storeRows c w = some i) : encodeUrelm i = some (c, w) := by
  unfold storeRows at h
  split at h <;> cases h <;> exact congrArg (fun v => some (c, v)) (wordI_of_fields ho ‹_›)

theorem encode_atomicRows (ho : (w.extractLsb' 26 6).toNat = 0x0A) (h : atomicRows c w = some i) : encodeUrelm i = some (c, w) := by
  unfold atomicRows at h
  split at h <;> cases h <;> exact congrArg (fun v => some (c, v)) (wordR_of_fields ho ‹_›)

theorem encode_systemRows (ho : (w.extractLsb' 26 6).toNat = 0x0B) (h : systemRows c w = some i) : encodeUrelm i = some (c, w) := by
  unfold systemRows at h
  split at h <;> cases h <;> exact congrArg (fun v => some (c, v)) (wordR_of_fields ho ‹_›)

theorem encode_specialRows (ho : (w.extractLsb' 26 6).toNat = 0x0C) (h : specialRows c w = some i) : encodeUrelm i = some (c, w) := by
  unfold specialRows at h
  split at h <;> cases h <;> exact congrArg (fun v => some (c, v)) (wordI_of_fields ho ‹_›)

theorem encode_vecArithRows (ho : (w.extractLsb' 26 6).toNat = 0x10) (h : vecArithRows c w = some i) : encodeUrelm i = some (c, w) := by
  unfold vecArithRows at h
  split at h <;> cases h <;> exact congrArg (fun v => some (c, v)) (wordV_of_fields ho ‹_›)

theorem encode_vecLogicRows (ho : (w.extractLsb' 26 6).toNat = 0x11) (h : vecLogicRows c w = some i) : encodeUrelm i = some (c, w) := by
  unfold vecLogicRows at h
  split at h <;> cases h <;> exact congrArg (fun v => some (c, v)) (wordV_of_fields ho ‹_›)

theorem encode_vecCompareRows (ho : (w.extractLsb' 26 6).toNat = 0x12) (h : vecCompareRows c w = some i) : encodeUrelm i = some (c, w) := by
  unfold vecCompareRows at h
  split at h <;> cases h <;> exact congrArg (fun v => some (c, v)) (wordV_of_fields ho ‹_›)

theorem encode_vecMoveRows (ho : (w.extractLsb' 26 6).toNat = 0x13) (h : vecMoveRows c w = some i) : encodeUrelm i = some (c, w) := by
  unfold vecMoveRows at h
  split at h <;> cases h <;> exact congrArg (fun v => some (c, v)) (wordV_of_fields ho ‹_›)

theorem encode_pixelRows (ho : (w.extractLsb' 26 6).toNat = 0x14) (h : pixelRows c w = some i) : encodeUrelm i = some (c, w) := by
  unfold pixelRows at h
  split at h <;> cases h <;> exact congrArg (fun v => some (c, v)) (wordV_of_fields ho ‹_›)

theorem encode_predicateRows (ho : (w.extractLsb' 26 6).toNat = 0x15) (h : predicateRows c w = some i) : encodeUrelm i = some (c, w) := by
  unfold predicateRows at h
  split at h <;> cases h <;> exact congrArg (fun v => some (c, v)) (wordV_of_fields ho ‹_›)

theorem encodeUrelm_pget (c : CoreNo) (a b d : RegNo) (idx : BitVec 11) :
    encodeUrelm (.pget c a b d idx) = if idx.getLsbD 10 then none else some (c, wordR 0x20 a b d idx.toNat) := rfl

theorem encodeUrelm_pgeth (c : CoreNo) (a b d : RegNo) (idx : BitVec 11) :
    encodeUrelm (.pgeth c a b d idx) = if idx.getLsbD 10 then some (c, wordR 0x20 a b d idx.toNat) else none := rfl

/-- The two instructions of major opcode 0x20 are told apart by idx[10]. -/
theorem encode_pget (ho : (w.extractLsb' 26 6).toNat = 0x20) :
    encodeUrelm (if w.getLsbD 10 then .pgeth c (fieldA w) (fieldB w) (fieldC w) (w.extractLsb' 0 11)
      else .pget c (fieldA w) (fieldB w) (fieldC w) (w.extractLsb' 0 11)) = some (c, w) := by
  have hb : (w.extractLsb' 0 11).getLsbD 10 = w.getLsbD 10 := by simp
  have hw := wordR_of_fields ho rfl
  split
  · rename_i h
    rw [encodeUrelm_pgeth, hb, if_pos h, hw]
  · rename_i h
    rw [encodeUrelm_pget, hb, if_neg h, hw]

theorem encode_of_decode (h : decodeUrelm c w = some i) : encodeUrelm i = some (c, w) := by
  unfold decodeUrelm at h
  split at h
  · exact encode_regRows ‹_› h
  · exact encode_immRows ‹_› h
  · cases h
    exact congrArg (fun v => some (c, v)) (wordU_of_fields ‹_›)
  · cases h
    exact congrArg (fun v => some (c, v)) (wordU_of_fields ‹_›)
  · cases h
    exact congrArg (fun v => some (c, v)) (wordU_of_fields ‹_›)
  · split at h <;> cases h
    exact congrArg (fun v => some (c, v)) (wordI_of_fields ‹_› ‹_›)
  · exact encode_branchRows ‹_› h
  · exact encode_branchURows ‹_› h
  · exact encode_loadRows ‹_› h
  · exact encode_storeRows ‹_› h
  · exact encode_atomicRows ‹_› h
  · exact encode_systemRows ‹_› h
  · exact encode_specialRows ‹_› h
  · exact encode_vecArithRows ‹_› h
  · exact encode_vecLogicRows ‹_› h
  · exact encode_vecCompareRows ‹_› h
  · exact encode_vecMoveRows ‹_› h
  · exact encode_pixelRows ‹_› h
  · exact encode_predicateRows ‹_› h
  · split at h <;> cases h
    exact congrArg (fun v => some (c, v)) (wordV_of_fields ‹_› ‹_›)
  · split at h <;> cases h
    exact congrArg (fun v => some (c, v)) (wordV_of_fields ‹_› ‹_›)
  · cases h
    exact encode_pget ‹_›
  · cases h
    exact congrArg (fun v => some (c, v)) (wordR_of_fields ‹_› rfl)
  · cases h
    exact congrArg (fun v => some (c, v)) (wordR_of_fields ‹_› rfl)
  · cases h
    exact congrArg (fun v => some (c, v)) (wordR_of_fields ‹_› rfl)
  · cases h
    exact congrArg (fun v => some (c, v)) (wordR_of_fields ‹_› rfl)
  · cases h
    exact congrArg (fun v => some (c, v)) (wordR_of_fields ‹_› rfl)
  · cases h
    exact congrArg (fun v => some (c, v)) (wordR_of_fields ‹_› rfl)
  · cases h
    exact congrArg (fun v => some (c, v)) (wordR_of_fields ‹_› rfl)
  · cases h
    exact congrArg (fun v => some (c, v)) (wordR_of_fields ‹_› rfl)
  · cases h
    exact congrArg (fun v => some (c, v)) (wordR_of_fields ‹_› rfl)
  · cases h
    exact congrArg (fun v => some (c, v)) (wordR_of_fields ‹_› rfl)
  · cases h

end Decoded

/-! ### The word of an instruction decodes to it -/

theorem idx_lt (idx : BitVec 11) : idx.toNat < 2048 := idx.isLt

/-- Bit 10 of the word is that of its low field. -/
theorem getLsbD_wordR_ten {op : Nat} (a b d : RegNo) (ho : op < 64) (idx : BitVec 11) :
    (wordR op a b d idx.toNat).getLsbD 10 = idx.getLsbD 10 := by
  have h : ((wordR op a b d idx.toNat).extractLsb' 0 11).getLsbD 10 = idx.getLsbD 10 := by rw [idx_wordR a b d ho]
  rw [← h]
  simp

theorem decode_of_encode {c : CoreNo} {w : Word} {i : Instr} (h : encodeUrelm i = some (c, w)) : decodeUrelm c w = some i := by
  cases i
  case pget a b d e idx =>
    rw [encodeUrelm_pget] at h
    split at h
    · cases h
    · rename_i hb
      cases h
      simp only [decodeUrelm, opcode_wordR, fieldA_wordR, fieldB_wordR, fieldC_wordR, idx_wordR, idx_lt, getLsbD_wordR_ten, hb, Nat.reduceLT]
      rfl
  case pgeth a b d e idx =>
    rw [encodeUrelm_pgeth] at h
    split at h
    · rename_i hb
      cases h
      simp only [decodeUrelm, opcode_wordR, fieldA_wordR, fieldB_wordR, fieldC_wordR, idx_wordR, idx_lt, getLsbD_wordR_ten, hb, Nat.reduceLT,
        if_true]
    · cases h
  all_goals cases h
  case add | sub | and | or | xor | sll | srl | sra | ror | slt | sltu | min | max | minu | maxu | pdiff | clz | ctz | popc | mul |
    mulh | mulhu | div | divu | rem | remu =>
    simp only [decodeUrelm, regRows, opcode_wordR, fieldA_wordR, fieldB_wordR, fieldC_wordR, low_wordR, Nat.reduceLT]
  case addi | andi | ori | xori | slti | sltiu | slli | srli | srai =>
    simp only [decodeUrelm, immRows, opcode_wordI, fieldA_wordI, fieldB_wordI, func_wordI, imm_wordI, Nat.reduceLT]
  case beq | bne | blt | bge =>
    simp only [decodeUrelm, branchRows, opcode_wordB, fieldA_wordB, fieldB_wordB, func_wordB, off_wordB, Nat.reduceLT]
  case bltu | bgeu =>
    simp only [decodeUrelm, branchURows, opcode_wordB, fieldA_wordB, fieldB_wordB, func_wordB, off_wordB, Nat.reduceLT]
  case lb | lbu | lh | lhu | lw =>
    simp only [decodeUrelm, loadRows, opcode_wordI, fieldA_wordI, fieldB_wordI, func_wordI, imm_wordI, Nat.reduceLT]
  case sb | sh | sw =>
    simp only [decodeUrelm, storeRows, opcode_wordI, fieldA_wordI, fieldB_wordI, func_wordI, imm_wordI, Nat.reduceLT]
  case amoadd | amoswap | amoand | amoor | amomin | amomax | amocas =>
    simp only [decodeUrelm, atomicRows, opcode_wordR, fieldA_wordR, fieldB_wordR, fieldC_wordR, low_wordR, Nat.reduceLT]
  case fenceC | fenceD | eret | halt =>
    simp only [decodeUrelm, systemRows, opcode_wordR, fieldA_wordR, fieldB_wordR, fieldC_wordR, low_wordR, Nat.reduceLT]
  case xrd | xwr =>
    simp only [decodeUrelm, specialRows, opcode_wordI, fieldA_wordI, fieldB_wordI, func_wordI, imm_wordI, Nat.reduceLT]
  case vadd | vsub | vmul | vmulh | vmac | vadds | vsubs | vabsd | vmin | vmax | vminu | vmaxu =>
    simp only [decodeUrelm, vecArithRows, opcode_wordV, fieldA_wordV, fieldB_wordV, fieldC_wordV, viewOf_wordV, predOf_wordV, func_wordV, Nat.reduceLT]
  case vand | vor | vxor | vsll | vsrl | vsra =>
    simp only [decodeUrelm, vecLogicRows, opcode_wordV, fieldA_wordV, fieldB_wordV, fieldC_wordV, viewOf_wordV, predOf_wordV, func_wordV, Nat.reduceLT]
  case vcmpeq | vcmplt | vcmpltu | vsel =>
    simp only [decodeUrelm, vecCompareRows, opcode_wordV, fieldA_wordV, fieldB_wordV, fieldC_wordV, viewOf_wordV, predOf_wordV, func_wordV, Nat.reduceLT]
  case vslide | vbcast | vext | vredadd | vredmin | vredmax =>
    simp only [decodeUrelm, vecMoveRows, opcode_wordV, fieldA_wordV, fieldB_wordV, fieldC_wordV, viewOf_wordV, predOf_wordV, func_wordV, Nat.reduceLT]
  case vxadd | vxmul | vxflag =>
    simp only [decodeUrelm, pixelRows, opcode_wordV, fieldA_wordV, fieldB_wordV, fieldC_wordV, viewOf_wordV, predOf_wordV, func_wordV, Nat.reduceLT]
  case pand | por | pxor | pandn | pcnt =>
    simp only [decodeUrelm, predicateRows, opcode_wordV, fieldA_wordV, fieldB_wordV, fieldC_wordV, viewOf_wordV, predOf_wordV, func_wordV, Nat.reduceLT]
  case vld | vst => simp only [decodeUrelm, opcode_wordV, fieldA_wordV, fieldB_wordV, fieldC_wordV, viewOf_wordV, predOf_wordV, func_wordV, Nat.reduceLT, if_true]
  case jalr => simp only [decodeUrelm, opcode_wordI, fieldA_wordI, fieldB_wordI, func_wordI, imm_wordI, Nat.reduceLT, if_true]
  case lui | auipc | jal => simp only [decodeUrelm, opcode_wordU, fieldA_wordU, res_wordU, imm_wordU, Nat.reduceLT]
  case await | tget | arm | disarm | evraise | evwait | evpoll | rpost | tfeed | flpush =>
    simp only [decodeUrelm, opcode_wordR, fieldA_wordR, fieldB_wordR, fieldC_wordR, idx_wordR, idx_lt, Nat.reduceLT]

/-- Settles O47: the fields of a word of each format are what it was made of, and a word is made of its fields. -/
theorem wordsOfInstructions : Obligations.WordsOfInstructions :=
  fun _ _ _ => ⟨encode_of_decode, decode_of_encode⟩

end Sys2Proof.Machine
end

section
/-! SUPPORT. Resets, the boot, sleep and wake (O17). -/

namespace Sys2Proof.Machine
open Sys2Proof

/-! ### Resets and supplies (R22, R23, R412 to R415) -/

/-- `t` is `s` but for what the part has driven on its pins. -/
def DrivenOnly (s t : State) : Prop := t = { s with out := t.out }

theorem drivenOnly_emit (s : State) (o : Out) : DrivenOnly s (s.emit o) := rfl

theorem DrivenOnly.trans {s t u : State} (h : DrivenOnly s t) (g : DrivenOnly t u) : DrivenOnly s u := by
  unfold DrivenOnly at h g ⊢
  rw [g, h]

theorem drivenOnly_foldl {f : State → Nat → State} (hf : ∀ s n, DrivenOnly s (f s n)) (l : List Nat) (s : State) :
    DrivenOnly s (l.foldl f s) := by
  induction l generalizing s with
  | nil => rfl
  | cons n l ih => exact (hf s n).trans (ih _)

theorem drivenOnly_ite_emit (s : State) (p : Prop) [Decidable p] (o : Out) : DrivenOnly s (if p then s.emit o else s) := by
  split <;> rfl

theorem drivenOnly_releaseOutputs (s : State) : DrivenOnly s (releaseOutputs s) := by
  unfold releaseOutputs
  refine DrivenOnly.trans (drivenOnly_foldl (fun t n => ?_) _ s) (drivenOnly_foldl (fun t n => ?_) _ _)
  · exact drivenOnly_ite_emit t _ _
  · exact drivenOnly_ite_emit t _ _

theorem drivenOnly_releasePins (s : State) : DrivenOnly s (releasePins s) := by
  unfold releasePins
  refine (drivenOnly_releaseOutputs s).trans ((drivenOnly_ite_emit _ _ _).trans ((drivenOnly_ite_emit _ _ _).trans (drivenOnly_ite_emit _ _ _)))

/-- POWER_ON_RESET leaves the reset values; the fuses, the queue and the time stay. -/
theorem exec_powerOnReset (s : State) :
    ∃ t, exec .powerOnReset s = .next t ∧ t.fuses = s.fuses ∧ t.pending = s.pending ∧ t.now = s.now ∧ t.cores = [] ∧ t.dmem = [] ∧
      t.live = State.reset.live ∧ (∀ a, a ≠ R.DEV_MODE → t.rd a = State.reset.rd a) ∧ t.boot = State.reset.boot := by
  have h : exec .powerOnReset s = execPowerOnReset s := rfl
  have hd := drivenOnly_releasePins s
  rw [h, execPowerOnReset]
  refine ⟨_, rfl, ?_, ?_, ?_, ?_, ?_, ?_, fun a ha => ?_, ?_⟩
  · rw [hd]; simp
  · rw [hd]; simp
  · rw [hd]; simp
  · simp; rfl
  · simp; rfl
  · simp
  · rw [State.driveAlert_rd, State.settle_rd _ _ ha]; rfl
  · rw [State.driveAlert_boot, State.settle_boot]

theorem exec_resetN {s : State} (h0 : s.boot.resetN = false) (h1 : s.held = false) :
    exec .resetN s = .next (resetCore { s with boot := { s.boot with resetN := true } }).settled := by
  have h : exec .resetN s = execResetN s := rfl
  simp only [h, execResetN, h0, h1]
  rfl

theorem exec_resetNRelease {s : State} (h0 : s.boot.resetN = true) (fe : Bool) (addr : Fin 8) :
    exec (.resetNRelease fe false addr) s = .next (startBoot ({ s with boot :=
      { s.boot with resetN := false, flashEn := fe, pg := if s.boot.supply then s.boot.pg else 15 } }.sf F.TWI_STAT_ADDR addr)).settled := by
  have h : exec (.resetNRelease fe false addr) s = execResetNRelease fe false addr s := rfl
  simp only [h, execResetNRelease, h0]
  rfl

theorem exec_supplyOutOfRange {s : State} (h0 : s.held = false) (pg : BitVec 4) :
    exec (.supplyOutOfRange pg) s = .next (resetCore { s with boot := { s.boot with supply := true, pg := pg.toNat } }).settled := by
  have h : exec (.supplyOutOfRange pg) s = execSupplyOutOfRange pg s := rfl
  simp only [h, execSupplyOutOfRange, h0]
  rfl

theorem exec_updateIr {s : State} {tap : TapInstr} (h0 : tapControls tap = false) :
    exec (.updateIr tap) s = .next { s with boot := { s.boot with tap := tap } }.settled := by
  have h : exec (.updateIr tap) s = execUpdateIr tap s := rfl
  simp only [h, execUpdateIr, h0]
  rfl

/-! ### The steps of the boot (R356, R412) -/

/-- A negated test takes its branches the other way round. -/
theorem ite_not_bool {α : Type} (b : Bool) (x y : α) : (if (!b) = true then y else x) = if b then x else y := by
  cases b <;> rfl

section boot
variable {s : State} (hb : booting s = true)
include hb

theorem exec_pllLock_agree (hp : s.boot.pll = false) :
    let u := senseFuses { s with boot := { s.boot with pll := true } }
    let v := u.sf F.PCI_BAR2_WIN_SIZE (if 2 ≤ u.lifecycle then 0 else 128)
    factoryCrc v = (fuse v 85).toNat → exec (.pllLock true true true) s = .next (v.set1 F.FUS_STAT_CRC_OK).settled := by
  intro u v hv
  have h : exec (.pllLock true true true) s = execPllLock true true true s := rfl
  rw [h, execPllLock, if_neg (by simp [hb, hp])]
  extract_lets _ _ _ w
  have hw : w = v := (apply_ite (u.sf F.PCI_BAR2_WIN_SIZE) _ 0 128).symm
  have hcrc : ¬ (factoryCrc w != (fuse w 85).toNat) = true := by rw [hw, hv]; simp
  show (if (factoryCrc w != (fuse w 85).toNat) = true then _ else done (w.set1 F.FUS_STAT_CRC_OK)) = _
  rw [if_neg hcrc, hw]
  rfl

theorem exec_pllLock_disagree (hp : s.boot.pll = false) (kat noise : Bool) :
    exec (.pllLock false kat noise) s = .next (enterLockdown { s with boot := { s.boot with pll := true } } 6).settled := by
  have h : exec (.pllLock false kat noise) s = execPllLock false kat noise s := rfl
  simp only [h, execPllLock, hb, hp]
  rfl

theorem exec_selfTestsPassed (hp : s.boot.pll = true) :
    exec .selfTestsPassed s = .next ({ s with boot := { s.boot with tests := true } }.set1 F.SEC_STAT_SELFTEST_OK).settled := by
  have h : exec .selfTestsPassed s = execSelfTestsPassed s := rfl
  simp only [h, execSelfTestsPassed, hb, hp]
  rfl

theorem exec_hbmTrained (hp : s.boot.pll = true) (hh : s.boot.hbm = false) :
    exec .hbmTrained s = .next { s with boot := { s.boot with hbm := true }, dmem := [], poison := [] }.settled := by
  have h : exec .hbmTrained s = execHbmTrained s := rfl
  simp only [h, execHbmTrained, hb, hp, hh]
  rfl

theorem exec_hbmTrainingFailure (hp : s.boot.pll = true) (hh : s.boot.hbm = false) (stack : Bool) :
    exec (.hbmTrainingFailure stack) s = .next ((enterLockdown s 7).logFault 0x16 3 (if stack then 1 else 0) 0 0).settled := by
  have h : exec (.hbmTrainingFailure stack) s = execHbmTrainingFailure stack s := rfl
  simp only [h, execHbmTrainingFailure, hb, hp, hh]
  rfl

theorem exec_directoryWritten (ht : s.boot.tests = true) (hd : s.boot.dir = false) :
    exec .directoryWritten s = .next (writeDirectory { s with boot := { s.boot with dir := true } } true).settled := by
  have h : exec .directoryWritten s = execDirectoryWritten s := rfl
  simp only [h, execDirectoryWritten, hb, ht, hd]
  rfl

theorem exec_bootComplete (hf : s.boot.flash = true) (hh : s.boot.hbm = true) (hd : s.boot.dir = true) :
    exec .bootComplete s = .next (serveQueued { s with boot := { s.boot with done := true } }).settled := by
  have h : exec .bootComplete s = execBootComplete s := rfl
  simp only [h, execBootComplete, hb, hf, hh, hd]
  rfl

/-- The flash directory is looked at once, when the steps before it are done. -/
theorem flashDirectory_due (ht : s.boot.tests = true) (hh : s.boot.hbm = true) (hd : s.boot.dir = true) (hf : s.boot.flash = false) :
    (s.held || s.lockdown || !s.boot.begun || !s.boot.tests || !s.boot.hbm || !s.boot.dir || s.boot.flash || s.boot.done) = false := by
  simp only [booting, Bool.and_eq_true, Bool.not_eq_true'] at hb
  obtain ⟨⟨⟨hbegun, hheld⟩, hlock⟩, hdone⟩ := hb
  simp [hbegun, hheld, hlock, hdone, ht, hh, hd, hf]

theorem exec_flashDirectory_off (ht : s.boot.tests = true) (hh : s.boot.hbm = true) (hd : s.boot.dir = true) (hf : s.boot.flash = false)
    (he : s.boot.flashEn = false) (img : FlashImage) :
    exec (.flashDirectory img) s =
      .next (({ s with boot := { s.boot with flash := true } }.set1 F.XSP_STAT_DONE).emit (.pin .xspCsN true)).settled := by
  have h : exec (.flashDirectory img) s = execFlashDirectory img s := rfl
  have hdue := flashDirectory_due hb ht hh hd hf
  rw [h, execFlashDirectory, if_neg (by simp [hdue])]
  show done (((if (!s.boot.flashEn) = true then _ else _ : State).set1 F.XSP_STAT_DONE).emit (.pin .xspCsN true)) = _
  rw [if_pos (by simp [he])]
  rfl

theorem exec_flashDirectory_read (ht : s.boot.tests = true) (hh : s.boot.hbm = true) (hd : s.boot.dir = true) (hf : s.boot.flash = false)
    (he : s.boot.flashEn = true) (img : FlashImage) :
    let prim := dirOk img.size img.dir
    let use := prim || dirOk img.size img.copy
    let dir := if prim then img.dir else img.copy
    let n := if use then leAt dir 4 4 else 0
    let t := { s with boot := { s.boot with flash := true } }
    let t := (t.wr R.XSP_BYTES (if prim then 64 else 128)).put F.XSP_STAT_OCTAL img.octal
    let t := (t.sf F.XSP_STAT_DIR (if use then (if prim then 1 else 2) else 0)).sf F.XSP_STAT_COUNT n
    let t := t.wr R.XSP_SCK (BitVec.ofNat 32 img.mhz.toNat)
    exec (.flashDirectory img) s =
      .next ((((List.range n).foldl (flashEntry img dir) t).set1 F.XSP_STAT_DONE).emit (.pin .xspCsN true)).settled := by
  have h : exec (.flashDirectory img) s = execFlashDirectory img s := rfl
  have hdue := flashDirectory_due hb ht hh hd hf
  intro prim use dir n t t1 t2 t3
  rw [h, execFlashDirectory, if_neg (by simp [hdue])]
  show done (((if (!s.boot.flashEn) = true then _ else _ : State).set1 F.XSP_STAT_DONE).emit (.pin .xspCsN true)) = _
  rw [if_neg (by simp [he])]
  simp only [ite_not_bool]
  rfl

end boot
/-! ### LOCKDOWN, sleep and wake (R188, R379, R417 to R421) -/

theorem exec_glitchDetected {s : State} (h0 : s.held = false) (h1 : s.boot.asleep = false) :
    exec .glitchDetected s = .next (enterLockdown s 5).settled := by
  have h : exec .glitchDetected s = execGlitchDetected s := rfl
  simp only [h, execGlitchDetected, h0, h1]
  rfl

theorem exec_rootCoreException {s : State} (h0 : s.held = false) (h1 : s.boot.asleep = false) :
    exec .rootCoreException s = .next (enterLockdown s 4).settled := by
  have h : exec .rootCoreException s = execRootCoreException s := rfl
  simp only [h, execRootCoreException, h0, h1]
  rfl

section noise
variable {s : State} (h0 : s.up = true) (h1 : s.boot.tests = true)
include h0 h1

theorem exec_noiseWindow_good : exec (.noiseWindow true) s = .next { s with ras := { s.ras with noise := 0 } }.settled := by
  have h : exec (.noiseWindow true) s = execNoiseWindow true s := rfl
  simp only [h, execNoiseWindow, h0, h1]
  rfl

/-- A window that fails counts, and joins the run of failures; the third in a row is LOCKDOWN. -/
theorem exec_noiseWindow_bad : exec (.noiseWindow false) s =
    .next (let t := { s.bump F.SEC_NOISE_FAILS with ras := { s.ras with noise := s.ras.noise + 1 } }
      if 3 ≤ s.ras.noise + 1 then enterLockdown t 3 else t).settled := by
  have h : exec (.noiseWindow false) s = execNoiseWindow false s := rfl
  rw [h, execNoiseWindow, if_neg (by simp [h0, h1])]
  rfl

end noise

/-- What entry into SLEEP leaves, before a wake source is looked at (R417). -/
theorem exec_sleepEntryDone {s : State} (h0 : s.boot.asleep = true) (h1 : s.boot.entered = false) :
    let u := (List.range 16).foldl portDown (allLinksOff (quietOutputs (s.bump F.PWR_STAT_SLEEPS)))
    let w := { u with boot := { u.boot with entered := true } }
    let held := w.boot.wakeHeld ||| wakesNow w
    exec .sleepEntryDone s = .next (if held &&& fieldOf (w.rd R.PWR_WAKE_EN) 4 0 != 0 && !w.boot.waking then
      (beginWake w held).set1 F.PWR_WAKE_STAT_WAKE_ABORT else w).settled := by
  intro u w held
  have h : exec .sleepEntryDone s = execSleepEntryDone s := rfl
  rw [h, execSleepEntryDone, if_neg (by simp [h0, h1])]
  exact (apply_ite (fun t : State => done t) _ _ _).symm

theorem exec_wakeTimer {s : State} (h0 : s.held = false) (h1 : (wakesNow s).testBit 3 = true) :
    exec .wakeTimer s = .next (wakeBy s 3).settled := by
  have h : exec .wakeTimer s = execWakeTimer s := rfl
  rw [h, execWakeTimer, if_pos (by simp [h0, h1])]
  rfl

theorem exec_wakeAxis {s : State} (h0 : s.held = false) (h1 : (wakesNow s).testBit 4 = true) :
    exec .wakeAxis s = .next (wakeBy s 4).settled := by
  have h : exec .wakeAxis s = execWakeAxis s := rfl
  rw [h, execWakeAxis, if_pos (by simp [h0, h1])]
  rfl

theorem exec_wakeComplete {s : State} (h0 : s.held = false) (h1 : s.boot.asleep = true) (h2 : s.boot.waking = true)
    (h3 : s.boot.wakeLock = false) :
    let u := { s with boot := { s.boot with
      asleep := false, entered := false, waking := false, wakeHeld := 0, wakeLock := false, wokeAt := some s.now } }
    let w := (resumeClock u).sf F.PWR_STAT_LAST_WAKE (min 65535 ((s.now - s.boot.wakeFrom) / 1000))
    exec .wakeComplete s = .next (hostReset (checkLinks ((w.slots.map (·.1)).foldl
      (fun t n => if (t.slot n).armed then t.setSlot n { t.slot n with test := true, late := false, due := none, stop := none } else t)
      w |> resumeOutputs)) 1).settled := by
  intro u w
  have h : exec .wakeComplete s = execWakeComplete s := rfl
  rw [h, execWakeComplete, if_neg (by simp [h0, h1, h2])]
  show (if s.boot.wakeLock = true then _ else _) = _
  rw [if_neg (by simp [h3])]
  rfl

theorem exec_clusterGate {s : State} {v : Word} (h0 : s.up = true)
    (h1 : ∀ k < 16, (fieldOf v 15 0).testBit k = true → clusterIdle s k = true) :
    exec (.clusterGate v) s =
      .next ((s.put F.PWR_CFG_AUTO_SLEEP (v.getLsbD 31)).sf F.PWR_CFG_CLUSTER_GATE (fieldOf v 15 0)).settled := by
  have h : exec (.clusterGate v) s = execClusterGate v s := rfl
  have hidle : ¬ ((List.range 16).any fun k =>
      (fieldOf v 15 0).testBit k && !(s.f F.PWR_CFG_CLUSTER_GATE).testBit k && !clusterIdle s k) = true := by
    simp only [List.any_eq_true, List.mem_range, Bool.and_eq_true, Bool.not_eq_true']
    rintro ⟨k, hk, ⟨hw, -⟩, hi⟩
    rw [h1 k hk hw] at hi
    cases hi
  rw [h, execClusterGate, if_pos h0, doPwrCfg]
  show done (if _ = true then _ else _) = _
  rw [if_neg hidle]
  rfl

theorem exec_pmeTurnOff {s : State} (h0 : endpointUp s = true) (h1 : s.on F.PCI_LINK_UP = true) (h2 : s.pci.rst = none)
    (h3 : s.on F.PWR_CFG_AUTO_SLEEP = false) :
    exec .pmeTurnOff s = .next (linkOff ((s.emit (.pciMsg .pmeToAck)).emit (.pciMsg .enterL23))).settled := by
  have h : exec .pmeTurnOff s = execPmeTurnOff s := rfl
  have hauto : (linkOff ((s.emit (.pciMsg .pmeToAck)).emit (.pciMsg .enterL23))).on F.PWR_CFG_AUTO_SLEEP = false := by
    rw [linkOff, State.on, State.f_wr_ne _ _ _ _ (by decide)]
    exact h3
  rw [h, execPmeTurnOff, if_neg (by simp [h0, h1, h2])]
  show done (if (_ && _ && _) = true then _ else _) = _
  rw [hauto]
  rfl

/-- Settles O17. -/
theorem resetBootAndSleep : Obligations.ResetBootAndSleep := by
  refine ⟨fun fe addr pg tap s => ⟨exec_powerOnReset s, exec_resetN, fun h => exec_resetNRelease h fe addr, fun h => ?_,
      fun h => exec_supplyOutOfRange h pg, fun h => ?_, exec_updateIr⟩,
    fun kat noise stack img s hb => ⟨exec_pllLock_agree hb, fun h => exec_pllLock_disagree hb h kat noise, exec_selfTestsPassed hb,
      fun h h' => ⟨exec_hbmTrained hb h h', exec_hbmTrainingFailure hb h h' stack⟩, exec_directoryWritten hb,
      fun ht hh hd hf he => exec_flashDirectory_off hb ht hh hd hf he img,
      fun ht hh hd hf he => exec_flashDirectory_read hb ht hh hd hf he img, exec_bootComplete hb⟩,
    fun s => ⟨fun h h' => ⟨exec_glitchDetected h h', exec_rootCoreException h h'⟩, fun h h' => ⟨exec_noiseWindow_good h h', fun hn => ?_⟩,
      fun h h' hn => ?_⟩,
    fun v s => ⟨fun h h' => ⟨fun hn => ?_, fun hn hw => ?_⟩, fun h => ⟨?_, ?_, exec_wakeTimer h, exec_wakeAxis h⟩, exec_wakeComplete,
      exec_clusterGate, exec_pmeTurnOff⟩⟩
  · exact if_pos h
  · exact if_pos h
  · rw [exec_noiseWindow_bad h h', if_neg (by omega)]
  · rw [exec_noiseWindow_bad h h', if_pos (by omega)]
  · rw [exec_sleepEntryDone h h', if_neg (by rw [bne_eq_false_iff_eq.2 hn, Bool.false_and]; decide)]
  · rw [exec_sleepEntryDone h h', if_pos (by rw [bne_iff_ne.2 hn, Bool.true_and, Bool.not_eq_true']; exact hw)]
  · exact if_neg (by simp [h])
  · exact if_neg (by simp [h])

end Sys2Proof.Machine
end

section
/-! SUPPORT. Mode requests, replay and self-test (O18). -/

namespace Sys2Proof.Machine
open Sys2Proof

/-! ### Mode requests (R403, R408) -/

theorem State.on_iff (s : State) (q : RF) : s.on q = true ↔ s.f q ≠ 0 := bne_iff_ne

theorem State.on_eq_false_iff (s : State) (q : RF) : s.on q = false ↔ s.f q = 0 := bne_eq_false_iff_eq

/-- A command that only a part that is up takes. -/
theorem next_of_up {s t : State} (h : s.up = true) {b : Host.Outcome State Fault Refusal} :
    (if s.up then done t else b) = .next t.settled := if_pos h

theorem reqMode_taken {s : State} (h : s.f F.DEV_MODE_REQ = 0) (hm : [3, 4, 5, 9].contains s.modeOf = true) (m : Nat) :
    reqMode s m = retestLinks (s.sf F.DEV_MODE_REQ m) :=
  (if_neg (by simp [State.on, h])).trans (if_pos hm)

theorem reqMode_refused {s : State} (h : s.f F.DEV_MODE_REQ ≠ 0) (m : Nat) : reqMode s m = refuseMode s 2 :=
  if_pos ((State.on_iff _ _).2 h)

theorem reqSleep_refused {s : State} (h : s.f F.DEV_MODE_REQ ≠ 0) (core : Bool) : reqSleep s core = refuseMode s 2 :=
  if_pos ((State.on_iff _ _).2 h)

theorem reqSleep_taken {s : State} (h : s.f F.DEV_MODE_REQ = 0) (hm : s.modeOf = 2 ∨ s.modeOf = 3) (hw : s.boot.wokeAt = none)
    (hb : sleepBlocked s = false) (hl : s.on F.PCI_LINK_UP = false) (core : Bool) : reqSleep s core = beginSleep s := by
  rw [reqSleep, if_neg (by simp [State.on, h]), if_neg (by rcases hm with hm | hm <;> simp [modeNow, hm, hw]), if_neg (by simp [hb]),
    if_neg (by simp [hl])]

theorem leaveMode_of {s : State} {n : Nat} (h : s.f F.DEV_MODE_REQ = n) (hn : n ≠ 0) : leaveMode s =
    if n = 8 then retestLinks (s.sf F.DEV_MODE_REQ 0) else if n = 6 then feederOff (s.sf F.DEV_MODE_REQ 0)
      else s.sf F.DEV_MODE_REQ 0 := by
  have hon : (!s.on F.DEV_MODE_REQ) = false := by simp [State.on, h, hn]
  rw [leaveMode, hon, h]
  rfl

/-! ### The replay feeder and the self-test (R409, R411) -/

theorem doReplayGo_starts {s : State} (h : s.f F.DEV_MODE_REQ = 6) (hb : s.on F.DEV_RPL_STAT_BUSY = false)
    (hl : s.f F.DEV_RPL_LEN_LEN ≠ 0) : doReplayGo s =
      { s.wr R.DEV_RPL_LINES 0 with rpl := { len := s.f F.DEV_RPL_LEN_LEN * 64 } }.set1 F.DEV_RPL_STAT_BUSY := by
  have hlen : (s.wr R.DEV_RPL_LINES 0).f F.DEV_RPL_LEN_LEN = s.f F.DEV_RPL_LEN_LEN := State.f_wr_ne _ _ _ _ (by decide)
  rw [doReplayGo, if_neg (by simp [h, hb])]
  show (if (s.wr R.DEV_RPL_LINES 0).f F.DEV_RPL_LEN_LEN = 0 then _ else State.set1 { s.wr R.DEV_RPL_LINES 0 with
    rpl := { len := (s.wr R.DEV_RPL_LINES 0).f F.DEV_RPL_LEN_LEN * 64 } } _) = _
  rw [hlen, if_neg hl]

theorem exec_replayLine_waits {s : State} (hw : replayWaits s = true) : exec .replayLine s = .next s.settled :=
  if_pos (by simp [hw])

section replayLine
variable {s : State} (hu : s.up = true) (hb : s.on F.DEV_RPL_STAT_BUSY = true)
include hu hb

theorem exec_replayLine_ends (hw : replayWaits s = false) (hl : s.rpl.len ≤ s.rpl.pos) :
    exec .replayLine s = .next ((feederOff s).set1 F.DEV_MODE_REPLAY_DONE).settled :=
  (if_neg (by simp [hu, hb, hw])).trans (if_pos hl)

theorem exec_replayLine_feeds (hw : replayWaits s = false) (hl : s.rpl.pos < s.rpl.len) :
    exec .replayLine s = .next (feedLine s).settled :=
  (if_neg (by simp [hu, hb, hw])).trans (if_neg (by omega))

end replayLine

theorem exec_selfTest {s : State} {m : Fin 4} {l : Letter} (hu : s.up = true) (ha : bistAllowed s = true)
    (hl : rootLetter s m 0x18 = some l) (hm : s.boot.bistMbox ≠ some m.val) :
    exec (.selfTest m) s = .next (startBist s (some m)).settled := by
  have h : exec (.selfTest m) s = execSelfTest m s := rfl
  rw [h, execSelfTest, hl]
  exact (if_neg (by simp [hu, hm])).trans (if_pos ha)

theorem exec_bistDone {s : State} (hu : s.up = true) (hf : s.boot.bistFrom ≠ none) (fails : List (Fin 148)) :
    let fl := (fails.map (·.val)).dedup
    let u := reassignSlots (allCores.foldl blankCore { s with loader := { s.loader with parcels := [] } })
    let w := fl.foldl (fun t n => t.logFault 0x14 2 (if n < 132 then targetOf n else 0xFFFF) 0 n)
      { u with lmem := [], cmem := [], lpoison := [], cpoison := [] }
    let x := (((w.clr F.DEV_BIST_STAT_BUSY).set1 F.DEV_BIST_STAT_DONE).put F.DEV_BIST_STAT_PASS fl.isEmpty).sf F.DEV_BIST_STAT_FAILS
      (min 255 fl.length)
    w.boot.bistMbox = none →
    exec (.bistDone fails) s = .next (clearUndeclared { x with boot := { x.boot with bistFrom := none, bistMbox := none } }).settled := by
  intro fl u w x hw
  have h : exec (.bistDone fails) s = execBistDone fails s := rfl
  rw [h, execBistDone, if_neg (by simp [hu, hf])]
  show (match w.boot.bistMbox with | some m => _ | none => _) = _
  rw [hw]
  rfl

/-- Settles O18. -/
theorem modesAndReplay : Obligations.ModesAndReplay := by
  refine ⟨fun s hu => ⟨fun h hm => ⟨?_, ?_, ?_⟩, fun h hm hw hb hl => ?_, fun h => ?_, fun h => ?_, fun h => ?_, fun h => ⟨?_, ?_, ?_, ?_⟩⟩,
    fun m fails s hu => ⟨fun h hb hl => ?_, fun hb => ⟨?_, fun hw => ⟨exec_replayLine_ends hu hb hw, exec_replayLine_feeds hu hb hw⟩,
      exec_replayLine_waits⟩, fun ha => ⟨?_, fun l => exec_selfTest hu ha⟩, fun hf => exec_bistDone hu hf fails⟩⟩
  · exact (next_of_up hu).trans (by rw [doModeCmd, reqMode_taken h hm])
  · exact (next_of_up hu).trans (by rw [doModeCmd, reqMode_taken h hm])
  · exact (next_of_up hu).trans (by rw [doModeCmd, reqMode_taken h hm])
  · exact (next_of_up hu).trans (by rw [doModeCmd, reqSleep_taken h hm hw hb hl])
  · exact (next_of_up hu).trans (by rw [doModeCmd, leaveMode_of h (by decide)]; rfl)
  · exact (next_of_up hu).trans (by rw [doModeCmd, leaveMode_of h (by decide)]; rfl)
  · exact (next_of_up hu).trans (by rw [doModeCmd, leaveMode_of h (by decide)]; rfl)
  · exact (next_of_up hu).trans (by rw [doModeCmd, reqMode_refused h]; rfl)
  · exact (next_of_up hu).trans (by rw [doModeCmd, reqMode_refused h]; rfl)
  · exact (next_of_up hu).trans (by rw [doModeCmd, reqMode_refused h]; rfl)
  · exact (next_of_up hu).trans (by rw [doModeCmd, reqSleep_refused h]; rfl)
  · exact (next_of_up hu).trans (by rw [doReplayGo_starts h hb hl])
  · exact (next_of_up hu).trans (by rw [doReplayAbort, if_pos hb])
  · exact (next_of_up hu).trans (by rw [doBistGo, if_pos ha])

end Sys2Proof.Machine
end

section
/-! SUPPORT. The host side and the endpoint (O19 to O21). -/

namespace Sys2Proof.Machine
open Sys2Proof

/-! ### Host-side resets (R331, R346, R347, R348, R350, R353) -/

theorem endpointUp_of {s : State} (h : s.held = false) (ha : s.boot.asleep = false) : endpointUp s = true := by
  simp [endpointUp, h, ha]

theorem inReset_none {s : State} (h : s.pci.rst = none) (n : Nat) : inReset s n = false := by
  simp [inReset, h]

theorem exec_perstAssert {s : State} (hp : s.pci.perst = false) (he : endpointUp s = true) :
    exec .perstAssert s = .next (linkOff (hostResetCounted { s with pci := { s.pci with perst := true } } 1)).settled :=
  (if_neg (by simp [hp])).trans (if_pos he)

theorem exec_perstRelease {s : State} (hp : s.pci.perst = true) (hw : s.pci.wake = false) :
    exec .perstRelease s = .next (({ s with pci := { s.pci with perst := false } }.setCfg 0x44 (cfgConst 0x44))).settled := by
  have h : exec .perstRelease s = execPerstRelease s := rfl
  rw [h, execPerstRelease, if_neg (by simp [hp])]
  show done (if s.pci.wake = true then _ else _) = _
  rw [if_neg (by simp [hw])]
  rfl

theorem exec_linkDown {s : State} (he : endpointUp s = true) (hl : s.on F.PCI_LINK_UP = true) (hr : s.pci.rst = none) :
    let u := linkOff s
    let u := { u with pci := { u.pci with rst := none, inta := false } }
    let u := (contain ((countReset u 4).set1 F.PCI_STAT_LINK_DOWN) 2 0).sf F.PCI_CONTAIN_CAUSE 2
    exec .linkDown s = .next (ideInsecure ((u.set1 F.DEV_RSTSTAT_HOST_IN_RESET).logFault 0x12 2 0xFFFF 0 0)).settled :=
  (if_neg (by simp [he, hl])).trans (if_neg (by
    have hr' : (linkOff s).pci.rst = none := hr
    simp [inReset_none hr']))

theorem exec_linkUp {s : State} {speed : Fin 7} {width : Fin 17} (he : endpointUp s = true) (hp : s.pci.perst = false)
    (hl : s.on F.PCI_LINK_UP = false) (hc : linkDownContained s = false) (hs : 0 < speed.val) (hw : goodWidth width = true) (flit : Bool) :
    let u := (s.wr R.PCI_LINK 0).set1 F.PCI_LINK_UP
    let u := ((u.sf F.PCI_LINK_SPEED speed).sf F.PCI_LINK_WIDTH width).put F.PCI_LINK_FLIT (flit || speed.val == 6)
    let u := { u with pci := { u.pci with ssid := u.f F.PCI_SUBSYS_SSID } }
    exec (.linkUp speed width flit) s =
      .next (if speed.val < 6 ∨ width.val < 16 then u.set1 F.PCI_STAT_DEGRADED else u).settled := by
  have h : exec (.linkUp speed width flit) s = execLinkUp speed width flit s := rfl
  rw [h, execLinkUp, if_neg (by simp [he, hp, hl, hw]; omega), if_neg (by simp [hc])]
  simp only [Bool.or_eq_true, decide_eq_true_eq]
  rfl

section bme
variable {s : State} (hu : s.up = true) (hr : s.pci.rst = none) (hb : bme s = true)
include hu hr hb

theorem exec_bmeClear : exec .bmeClear s = .next (bmeLost (s.setCfg 0x04 (s.cfg 0x04 &&& ~~~ 0x4))).settled :=
  (if_pos (by simp [hu, hr])).trans (by rw [doBmeClear, if_pos hb]; rfl)

theorem exec_d3hotEntry (hl : s.on F.PCI_LINK_UP = true) :
    let u := bmeLost (s.setCfg 0x04 (s.cfg 0x04 &&& ~~~ 0x4))
    exec .d3hotEntry s = .next ((u.setCfg 0x04 (u.cfg 0x04 &&& ~~~ 0x2)).setCfg 0x44 (u.cfg 0x44 ||| 3)).settled :=
  (if_pos (by simp [hu, hr, hl])).trans (by rw [doD3, doBmeClear, if_pos hb]; rfl)

end bme

/-- Settles O19. -/
theorem hostSideResets : Obligations.HostSideResets := by
  refine fun speed width flit s => ⟨exec_perstAssert, exec_perstRelease, fun h0 h1 hp => ?_,
    fun hu hr hb => ⟨exec_bmeClear hu hr hb, exec_d3hotEntry hu hr hb⟩⟩
  have he := endpointUp_of h0 h1
  refine ⟨fun hr => ?_, fun hl hr => ?_, fun hr hl => ?_, exec_linkDown he,
    fun hl hc hs hw => exec_linkUp he hp hl hc hs hw flit⟩
  · exact if_neg (by simp [he, hp, inReset_none hr])
  · exact (if_pos he).trans (by rw [startFlr, if_neg (by simp [hr, hl])]; rfl)
  · exact if_neg (by simp [he, hp, hl, Option.isSome_iff_ne_none.1 hr])
/-! ### Requests of the host (R334, R336 to R338, R346) -/

/-- Memory requests meet the registers, memory or tables behind a BAR. -/
theorem barGate_open {s : State} (he : endpointUp s = true) (hp : s.pci.perst = false) (hm : memShut s = false) (hn : memEn s = true)
    (q : HostReq) : barGate s q = none := by
  rw [barGate, if_neg (by simp [he, hp]), if_neg (by simp [hm]), if_neg (by simp [hn])]

theorem State.dwrite_poison_nil {s : State} (h : s.poison = []) (a : Nat) (l : List (BitVec 8)) : (s.dwrite a l).poison = [] := by
  simp [State.dwrite, h]

theorem foldl_poison_nil {α : Type} {f : State → α → State} (hf : ∀ t e, t.poison = [] → (f t e).poison = []) (l : List α) {s : State}
    (h : s.poison = []) : (l.foldl f s).poison = [] := by
  induction l generalizing s with
  | nil => exact h
  | cons e l ih => exact ih (hf s e h)

theorem bar2Write_poison_nil {s : State} (h : s.poison = []) (a : Nat) (w : Word) (be : BitVec 4) : (bar2Write s a w be).poison = [] := by
  refine foldl_poison_nil (fun t i ht => ?_) _ h
  split
  · exact State.dwrite_poison_nil ht _ _
  · exact ht

/-- Where no unit is poisoned, a write leaves the list of poisoned units alone. -/
theorem foldl_clean {α : Type} {f : State → α → State} (hf : ∀ t e, t.poison = [] → f t e = t) (l : List α) {s : State}
    (h : s.poison = []) : l.foldl f s = s := by
  induction l with
  | nil => rfl
  | cons e l ih => rw [List.foldl_cons, hf s e h, ih]

section requests
variable {s : State} {q : HostReq} (hg : barGate s q = none)
include hg

theorem exec_bar0Request_write (hw : q.write = true) :
    let o := q.ofs.toNat % 2 ^ 25 / 4 * 4
    exec (.bar0Request q) s = .next (q.dwords.zipIdx.foldl (fun t e =>
      if e.1.2 = 15 then hostRegWrite t (o + 4 * e.2) e.1.1 else t.logFault 0x01 0 0xFFFF (o + 4 * e.2) 0) s).settled := by
  have h : exec (.bar0Request q) s = execBar0Request q s := rfl
  rw [h, execBar0Request, hg]
  exact if_pos hw

theorem exec_bar0Request_read (hw : q.write = false) :
    let r := readDwords hostRegRead s (q.ofs.toNat % 2 ^ 25 / 4 * 4) q.dwords.length
    exec (.bar0Request q) s = .next (answerRegs r.2 q r.1).settled := by
  have h : exec (.bar0Request q) s = execBar0Request q s := rfl
  rw [h, execBar0Request, hg]
  exact if_neg (by simp [hw])

theorem exec_bar4Request_write (hw : q.write = true) :
    let o := q.ofs.toNat % 2 ^ 14 / 4 * 4
    exec (.bar4Request q) s =
      .next (sendPending (q.dwords.zipIdx.foldl (fun t e => bar4Write t (o + 4 * e.2) e.1.1 e.1.2) s)).settled := by
  have h : exec (.bar4Request q) s = execBar4Request q s := rfl
  rw [h, execBar4Request, hg]
  exact if_pos hw

theorem exec_bar4Request_read (hw : q.write = false) :
    let r := readDwords bar4Read s (q.ofs.toNat % 2 ^ 14 / 4 * 4) q.dwords.length
    exec (.bar4Request q) s = .next (answerRegs r.2 q r.1).settled := by
  have h : exec (.bar4Request q) s = execBar4Request q s := rfl
  rw [h, execBar4Request, hg]
  exact if_neg (by simp [hw])

theorem exec_bar2Request_write (hu : bar2Up s = true) (hc : q.poisoned = false) (hw : q.write = true) (hp : s.poison = []) :
    let a := q.ofs.toNat / 4 * 4 + (bar2Win s).1
    hostDenied s a (4 * q.dwords.length) = none → exec (.bar2Request q) s =
      .next (q.dwords.zipIdx.foldl (fun t e => bar2Write t (a + 4 * e.2) e.1.1 e.1.2) s).settled := by
  intro a hd
  have h : exec (.bar2Request q) s = execBar2Request q s := rfl
  have hclean : (q.dwords.zipIdx.foldl (fun t e => bar2Write t (a + 4 * e.2) e.1.1 e.1.2) s).poison = [] :=
    foldl_poison_nil (fun t e ht => bar2Write_poison_nil ht _ _ _) _ hp
  rw [h, execBar2Request, hg]
  refine (if_neg (by simp [hu])).trans ((if_pos hw).trans ((if_neg (by simp [a, hd])).trans ?_))
  refine congrArg done ((if_neg (by simp [hc])).trans (foldl_clean (fun t u ht => ?_) _ hclean))
  rw [if_neg (by simp [hp])]
  split
  · rw [ht, List.filter_nil, ← ht]
  · rfl

theorem exec_bar2Request_read (hu : bar2Up s = true) (hw : q.write = false) :
    let a := q.ofs.toNat / 4 * 4 + (bar2Win s).1
    hostDenied s a (4 * q.dwords.length) = none →
    exec (.bar2Request q) s = .next (answerRead (s.meets a (4 * q.dwords.length)) q
      (fun o m => s.poison.any (unitMeets (o + (bar2Win s).1) m)) (s.dread a (4 * q.dwords.length))).settled := by
  intro a hd
  have h : exec (.bar2Request q) s = execBar2Request q s := rfl
  rw [h, execBar2Request, hg]
  exact (if_neg (by simp [hu])).trans ((if_neg (by simp [hw])).trans (if_neg (by simp [a, hd])))

end requests

/-- Settles O20. -/
theorem hostRequests : Obligations.HostRequests := by
  intro q s h0 h1 hp
  have he := endpointUp_of h0 h1
  refine ⟨fun hc => ?_, fun hc => ⟨fun hw => ?_, fun hw => ?_⟩, fun hm hn => ?_⟩
  · exact (if_neg (by simp [he, hp])).trans (if_pos hc)
  · exact (if_neg (by simp [he, hp])).trans ((if_neg (by simp [hc])).trans (if_pos hw))
  · exact (if_neg (by simp [he, hp])).trans ((if_neg (by simp [hc])).trans (if_neg (by simp [hw])))
  · have hg := barGate_open he hp hm hn q
    refine ⟨fun hw hr => ?_, ⟨exec_bar0Request_write hg, exec_bar0Request_read hg⟩, exec_bar2Request_write hg, exec_bar2Request_read hg,
      exec_bar4Request_write hg, exec_bar4Request_read hg⟩
    exact (if_neg (by simp [he, hp])).trans ((if_neg (by simp [hm])).trans
      ((if_neg (by simp [hn, hr])).trans (if_neg (by simp [hw]))))
/-! ### Messages and errors of the endpoint (R340, R341, R348 to R352) -/

theorem cfg_setCfg_self (s : State) (o : Nat) (w : Word) : (s.setCfg o w).cfg o = w := mget_mset_self ..

/-- A register or of a word with bits outside a field leaves the field. -/
theorem fieldOf_or_of_high {w m : Word} {hi lo : Nat} (h : fieldOf m hi lo = 0) : fieldOf (w ||| m) hi lo = fieldOf w hi lo := by
  unfold fieldOf at h ⊢
  rw [BitVec.toNat_or, Nat.shiftRight_or_distrib, Nat.or_mod_two_pow, h, Nat.or_zero]

section pme
variable {s : State} (he : pmeEn s = true) (hp : s.pci.perst = false) (hd : inD3 s = true)
include he hp hd

theorem signalPme_of_d3 : signalPme s = (s.orCfg 0x44 0x8000).emit (.pciMsg .pmePm) := by
  have hd' : inD3 (s.orCfg 0x44 0x8000) = true := by
    rw [inD3, State.cfgBits, State.orCfg, cfg_setCfg_self, fieldOf_or_of_high (by decide)]
    exact hd
  exact (if_neg (by simp [he])).trans ((if_neg (Bool.eq_false_iff.1 hp)).trans (if_pos hd'))

theorem exec_pciPmeSend_write (hu : s.up = true) (hr : s.pci.rst = none) :
    exec (.pciPmeSend true) s = .next ((s.orCfg 0x44 0x8000).emit (.pciMsg .pmePm)).settled :=
  (if_neg (by simp [hu])).trans (congrArg done ((if_neg (by simp [hr])).trans (signalPme_of_d3 he hp hd)))

theorem exec_pciPmeSend_low (hu : s.up = true) (ht : s.f F.PCI_PME_FREE_THRESH ≠ 0) (hc : chunksFree s ≤ s.f F.PCI_PME_FREE_THRESH)
    (hl : s.pci.low = false) : exec (.pciPmeSend false) s =
      .next (({ s with pci := { s.pci with low := true } }.orCfg 0x44 0x8000).emit (.pciMsg .pmePm)).settled := by
  have hpme : signalPme { s with pci := { s.pci with low := true } } =
      ({ s with pci := { s.pci with low := true } }.orCfg 0x44 0x8000).emit (.pciMsg .pmePm) := signalPme_of_d3 he hp hd
  have hrise : ∀ low, low = true → done (if (low && !s.pci.low) = true then signalPme { s with pci := { s.pci with low := low } }
      else { s with pci := { s.pci with low := low } }) = .next (signalPme { s with pci := { s.pci with low := true } }).settled := by
    rintro low rfl
    exact congrArg done (if_pos (by simp [hl]))
  rw [← hpme]
  exact (if_neg (by simp [hu])).trans ((if_neg Bool.false_ne_true).trans (hrise _ (by simp [ht, hc])))

end pme

section msix
variable {s : State} (hu : s.up = true)
include hu

/-- The oldest signal is acted on by MSI_X_MESSAGE. -/
theorem exec_msiXMessage_signal {v : Nat} {rest : List Nat} (hs : s.sigs = v :: rest) (hv : v < 256) :
    exec .msiXMessage s = done (deliverSignal { s with sigs := rest } v) := by
  have h : exec .msiXMessage s = execMsiXMessage s := rfl
  rw [h, execMsiXMessage, hs]
  exact (if_pos hu).trans (by rw [Nat.mod_eq_of_lt hv])

theorem exec_msiXMessage_pending (hs : s.sigs = []) : exec .msiXMessage s = .next (sendPending s).settled := by
  have h : exec .msiXMessage s = execMsiXMessage s := rfl
  rw [h, execMsiXMessage, hs]
  exact if_pos hu

end msix

theorem deliverSignal_sent {s : State} {v : Nat} (hm : msixOn s = true) (hc : canSend s v = true) (hp : s.pci.pba.contains v = false) :
    deliverSignal s v = sendMsix s v := by
  rw [deliverSignal, if_pos hm, if_pos (by rw [hc, hp]; rfl)]

theorem deliverSignal_kept {s : State} {v : Nat} (hm : msixOn s = true) (hc : canSend s v = false) (hp : s.pci.pba.contains v = false) :
    deliverSignal s v = { s with pci := { s.pci with pba := s.pci.pba ++ [v] } } := by
  rw [deliverSignal, if_pos hm, if_neg (by simp [hc]), if_neg (by rw [hp]; decide)]

theorem deliverSignal_shown {s : State} {v : Nat} (hm : msixOn s = false) :
    deliverSignal s v = s.wr (R.EVT_PEND (v / 32)) (s.rd (R.EVT_PEND (v / 32)) ||| (1 <<< (v % 32))) := by
  rw [deliverSignal, if_neg (by simp [hm])]

/-- INTx follows its level when the level has changed. -/
theorem updateInta_changes {s : State} (hl : s.on F.PCI_LINK_UP = true) (hr : s.pci.rst = none) {b : Bool}
    (hb : (intaLevel s && !intxDis s) = b) (hi : s.pci.inta = !b) :
    updateInta s = { s with pci := { s.pci with inta := b } }.emit (.pciMsg (if b then .assertInta else .deassertInta)) := by
  rw [updateInta, hb]
  exact if_neg (by simp [hi, hl, hr])

/-- An error that PCI_CONTAIN_MASK does not name is logged; one that it names contains the host side (R350, R351). -/
theorem pciError_eq (s : State) (bit : Nat) (adv : Bool) (hdr : List Word) : pciError s bit adv hdr =
    if (((logUE s bit adv hdr).rd R.PCI_CONTAIN_MASK).getLsbD bit && !contained (logUE s bit adv hdr)) = true then
      (contain (logUE s bit adv hdr) 1 bit).logFault 0x11 2 0xFFFF 0 bit else logUE s bit adv hdr := rfl

section link
variable {s : State} (hu : s.up = true) (hl : s.on F.PCI_LINK_UP = true)
include hu hl

theorem exec_correctableError (b : Fin 16) : exec (.correctableError b) s = .next (logCE s b).settled := by
  have hh : s.held = false := by
    simp only [State.up, Bool.and_eq_true, Bool.not_eq_true'] at hu
    exact hu.1.1
  exact if_pos (by simp [hh, hl])

variable (hr : s.pci.rst = none)
include hr

theorem exec_intaChange {b : Bool} (hb : (intaLevel s && !intxDis s) = b) (hi : s.pci.inta = !b) : exec .intaChange s =
    .next ({ s with pci := { s.pci with inta := b } }.emit (.pciMsg (if b then .assertInta else .deassertInta))).settled :=
  (if_pos hu).trans (congrArg done (updateInta_changes hl hr hb hi))

theorem exec_ltrMessage (he : ltrEn s = true) (hv : s.pci.ltr ≠ some (ltrValue s)) : exec .ltrMessage s =
    .next ({ s with pci := { s.pci with ltr := some (ltrValue s) } }.emit (.pciMsg (.ltr (ltrValue s)))).settled :=
  if_pos (by simp [hu, he, hl, hr, hv])

theorem exec_aspmL1Request (h0 : s.reads = []) (h1 : (s.cfg 0x70).getLsbD 1 = true) (h2 : s.f F.PCI_LINK_PM = 0)
    (h3 : s.pci.lastReq + 10000 ≤ s.now) :
    exec .aspmL1Request s = .next ((s.sf F.PCI_LINK_PM 1).emit (.pciMsg .l1Request)).settled :=
  if_pos (by simp [hu, hl, hr, h0, h1, h2, h3])

theorem exec_uncorrectableError (u : Fin 32) (hdr : List Word) :
    exec (.uncorrectableError u hdr) s = .next (pciError s u (u == 12 || u == 16 || u == 20) hdr).settled :=
  if_pos (by simp [hu, hl, hr])

end link

/-- A paused channel goes on where it stood (R352). -/
def resumeDma (w : State) (n : Nat) : State :=
  if chState w n ≠ dPaused then w
  else if (w.dma n).parked = true then tailRead (setCh (w.setDma n { w.dma n with parked := false }) n dParked) n
  else if isRingChan w n = true ∧ (w.dma n).active = false then setCh w n dIdle
  else tryEnd (issueDesc (setCh w n dRunning) n) n

theorem doContainRelease_eq {s : State} (hr : s.pci.rst = none) (hc : contained s = true) (h2 : s.f F.PCI_CONTAIN_CAUSE ≠ 2) (b : Bool) :
    let t := ((s.clr F.PCI_CONTAIN_CONTAINED).sf F.PCI_CONTAIN_CAUSE 0).sf F.PCI_CONTAIN_FIRST_ERR 0
    let t := { t with pci := { t.pci with paused := [] } }
    let u := sendPending (t.clr F.DEV_RSTSTAT_HOST_IN_RESET)
    doContainRelease s b = if b then s.pci.paused.foldl resumeDma u else u := by
  intro t t' u
  have hrst : t'.pci.rst.isSome = false := by rw [show t'.pci.rst = s.pci.rst from rfl, hr]; rfl
  have hstep : (fun (w : State) (n : Nat) => if (chState w n != dPaused) = true then w
      else if (w.dma n).parked = true then tailRead (setCh (w.setDma n { w.dma n with parked := false }) n dParked) n
      else if (isRingChan w n && !(w.dma n).active) = true then setCh w n dIdle
      else tryEnd (issueDesc (setCh w n dRunning) n) n) = resumeDma := by
    funext w n
    simp only [resumeDma, bne_iff_ne, Bool.and_eq_true, Bool.not_eq_true']
  rw [doContainRelease, if_neg (by simp [hc, h2]), hstep]
  show (if b = true then s.pci.paused.foldl resumeDma (sendPending (t'.put F.DEV_RSTSTAT_HOST_IN_RESET t'.pci.rst.isSome))
    else sendPending (t'.put F.DEV_RSTSTAT_HOST_IN_RESET t'.pci.rst.isSome)) = _
  rw [hrst]
  rfl
/-! ### Completions of the part's own reads (R342 to R345) -/

section reads
variable {s : State} (hu : s.up = true) (hr : s.pci.rst = none)
include hu hr

theorem exec_lateCompletion_counted {tag : BitVec 14} (hl : s.on F.PCI_LINK_UP = true)
    (hq : s.pci.quar.any (fun e => e.1 == tag.toNat && e.2.2) = true) :
    exec (.lateCompletion tag) s = .next (s.bump F.PCI_LATE_CPL_COUNT).settled := by
  have hany : s.pci.quar.any (fun e => e.1 == tag.toNat) = true := by
    rw [List.any_eq_true] at hq ⊢
    obtain ⟨e, he, ht⟩ := hq
    exact ⟨e, he, (Bool.and_eq_true_iff.1 ht).1⟩
  exact (if_pos (by rw [hu, hl, hr, hany]; rfl)).trans (congrArg done (if_pos hq))

omit hu hr in
theorem exec_lateCompletion_other {tag : BitVec 14} (hq : s.pci.quar.any (fun e => e.1 == tag.toNat && e.2.2) = false) :
    exec (.lateCompletion tag) s = .next s.settled := by
  have h : exec (.lateCompletion tag) s = execLateCompletion tag s := rfl
  have hlate : lateCpl s tag.toNat = s := if_neg (by rw [hq]; decide)
  rw [h, execLateCompletion, hlate, ite_self]
  rfl

theorem exec_readCompletion (hl : s.on F.PCI_LINK_UP = true) (tag : BitVec 14) (status : Fin 4) (l : List Byte) :
    exec (.readCompletion tag status l) s = .next (completion s tag.toNat status l).settled :=
  if_pos (by simp [hu, hl, hr])

theorem exec_completionTimeout {tag : BitVec 14} {r : HRead} (hf : s.reads.find? (fun r => r.tag == tag.toNat) = some r)
    {tmo : Nat} (ht : ctoNs s = some tmo) (ha : r.at_ + tmo ≤ s.now) (hd : r.dead = false) :
    let t := { s with reads := s.reads.filter (fun x => x.tag != tag.toNat) }
    let u := ((quarantine t tag.toNat tmo true).bump F.PCI_CTO_CNT_COUNT).set1 F.PCI_STAT_CTO
    exec (.completionTimeout tag) s = .next (readFailed (pciError u 14 false []) r (r.addr + r.got)).settled := by
  intro t u
  have h : exec (.completionTimeout tag) s = execCompletionTimeout tag s := rfl
  have htag : r.tag = tag.toNat := by simpa using List.find?_some hf
  rw [h, execCompletionTimeout, hf, ht]
  refine (if_pos (by simp [hu, hr, ha])).trans ((if_neg (by simp [hd])).trans ?_)
  rw [htag, hd]
  rfl

end reads

section completion
variable {s : State} {tag : Nat} {r : HRead} (hf : s.reads.find? (fun r => r.tag == tag) = some r)
include hf

/-- A completion with an error status fails the read it answers (R342). -/
theorem completion_failed {status : Nat} (hs : status ≠ 0) (l : List (BitVec 8)) :
    completion s tag status l = readFailed { s with reads := s.reads.filter (fun x => x.tag != tag) } r (r.addr + r.got) := by
  rw [completion, hf]
  exact if_pos (by simp [hs])

/-- The completion that brings a read's last byte ends it (R342). -/
theorem completion_last {l : List (BitVec 8)} (hl : l ≠ []) (he : r.got + l.length = r.len) :
    completion s tag 0 l = readData { s with reads := s.reads.filter (fun x => x.tag != tag) } r l true := by
  rw [completion, hf]
  exact (if_neg (by simp)).trans ((if_neg (by simp [he, hl])).trans (if_pos (by simp [he])))

/-- A completion short of a read's end, at a boundary of 64 bytes, brings its bytes (R342). -/
theorem completion_part {l : List (BitVec 8)} (hl : l ≠ []) (he : r.got + l.length < r.len)
    (hm : (r.addr + (r.got + l.length)) % 64 = 0) :
    let u := readData s r l false
    completion s tag 0 l = { u with
      reads := u.reads.map (fun x : HRead => if x.tag = tag then { x with got := r.got + l.length } else x) } := by
  rw [completion, hf]
  exact (if_neg (by simp)).trans ((if_neg (by simp [hl, hm]; omega)).trans (if_neg (by simp; omega)))

end completion

/-- Settles O21. -/
theorem pcieTraffic : Obligations.PcieTraffic := by
  refine ⟨fun v rest b u hdr s hu => ⟨fun hs hv => ⟨fun hm hc hp => ?_, fun hm hc hp => ?_, fun hm => ?_⟩, exec_msiXMessage_pending hu,
      fun hl => ⟨exec_correctableError hu hl b, fun hr => ⟨exec_intaChange hu hl hr, exec_intaChange hu hl hr, exec_ltrMessage hu hl hr,
        exec_aspmL1Request hu hl hr, fun hm => ?_, fun hm hc => ?_⟩⟩,
      fun he hp hd => ⟨exec_pciPmeSend_write he hp hd hu, exec_pciPmeSend_low he hp hd hu⟩, fun hr hc h2 => ⟨?_, ?_⟩⟩,
    fun tag status l s => ⟨fun h => if_neg (by simp [h]), fun hu hr => ⟨exec_lateCompletion_counted hu hr, exec_lateCompletion_other,
      fun r hf => ⟨fun hl => ⟨fun hs => ?_, fun hn he => ?_, fun hn he hm => ?_⟩, fun tmo => exec_completionTimeout hu hr hf⟩⟩⟩⟩
  · exact (exec_msiXMessage_signal hu hs hv).trans (congrArg done (deliverSignal_sent hm hc hp))
  · exact (exec_msiXMessage_signal hu hs hv).trans (congrArg done (deliverSignal_kept hm hc hp))
  · exact (exec_msiXMessage_signal hu hs hv).trans (congrArg done (deliverSignal_shown hm))
  · rw [exec_uncorrectableError hu hl hr, pciError_eq, hm]
    rfl
  · rw [exec_uncorrectableError hu hl hr, pciError_eq, hm, hc]
    rfl
  · exact (if_pos (by simp [hu, hr])).trans (congrArg done (doContainRelease_eq hr hc h2 false))
  · exact (if_pos (by simp [hu, hr])).trans (congrArg done (doContainRelease_eq hr hc h2 true))
  · rw [exec_readCompletion hu hr hl, completion_failed hf hs]
  · exact (exec_readCompletion hu hr hl _ _ _).trans (by rw [show ((0 : Fin 4) : Nat) = 0 from rfl, completion_last hf hn he])
  · exact (exec_readCompletion hu hr hl _ _ _).trans (by rw [show ((0 : Fin 4) : Nat) = 0 from rfl, completion_part hf hn he hm])

end Sys2Proof.Machine
end

section
/-! SUPPORT. The axes and the clock (O22). -/

namespace Sys2Proof.Machine
open Sys2Proof

/-! ### Commands of the axes (R27 to R41) -/

theorem exec_tickCount {s : State} {n : Fin 8} (hh : s.held = false) (p : PendTick) (ps : List PendTick) (hp : (s.axis n).ticks = p :: ps)
    (hd : tickDue s n p ≤ s.now) : exec (.tickCount n) s = .next (countTick s n p).settled := by
  have h : exec (.tickCount n) s = execTickCount n s := rfl
  rw [h, execTickCount, hp]
  exact if_neg (by simp [hh, hd])

section axes
variable {s : State} (hu : s.up = true)
include hu

theorem exec_axsApply {n : Fin 16} (h8 : 8 ≤ n.val) (h12 : n.val < 12) (hc : s.on (F.AXS_CFG_APPLY_CONT n) = false) :
    let t := s.applyRange (R.AXS_RATIO_M n) (R.AXS_OFFSET_HI n + 4)
    derivedValid t n = true → exec (.axsApply n) s = .next (afterMove s t).settled := by
  intro t ht
  have h : doAxsApply s n = afterMove s t := by
    rw [doAxsApply, if_pos (show (decide (8 ≤ n.val) && decide (n.val < 12)) = true by simp [h8, h12])]
    extract_lets _ _ _ s2 _ _ s3
    have h2 : s2 = t := if_neg (by rw [hc, Bool.false_and]; decide)
    have h3 : s3 = s2 := if_pos (by rw [h2]; exact ht)
    rw [h3, h2]
  exact (if_pos hu).trans (congrArg done h)

theorem exec_stall {n : Fin 8} (ht : s.f (F.AXS_FILT_STALL_TMO n) ≠ 0) (he : s.on (F.AXS_CFG_ENABLE n) = true)
    (hs : s.on (F.AXS_STAT_STALLED n) = false) (hd : (s.axis n).stallFrom + s.f (F.AXS_FILT_STALL_TMO n) * 1000 ≤ s.now) :
    exec (.stall n) s = .next
      (axisFault ((s.setAxis n { s.axis n with heldF := some (grainF s n), run := 0 }).set1 (F.AXS_STAT_STALLED n)) n).settled :=
  if_pos (by simp [hu, ht, he, hs, hd])

theorem exec_remoteAxisSample_taken {n : Fin 3} {x : AxisSample} (hm : sampleMatches s (12 + n) x = true)
    (he : s.on (F.AXS_CFG_ENABLE (12 + n)) = true) : exec (.remoteAxisSample n x) s =
      .next (takeSample s (12 + n) x.seq x.pos.toInt (if x.via = 1 then beaconTime s (x.port.val % 8) 0 else x.time.toInt)).settled :=
  (if_pos hu).trans ((if_pos hm).trans (congrArg done (if_pos (by simp [he, hm]))))

theorem exec_remoteAxisSample_other {n : Fin 3} {x : AxisSample} (hm : sampleMatches s (12 + n) x = false) :
    exec (.remoteAxisSample n x) s = .next (s.bump (F.AXS_ERRCNT_QUAD_ERRS (12 + n))).settled :=
  (if_pos hu).trans (if_neg (by simp [hm]))

theorem exec_stale {n : Fin 3} (ht : s.f (F.AXS_REMOTE_STALE_TMO (12 + n)) ≠ 0) (he : s.on (F.AXS_CFG_ENABLE (12 + n)) = true)
    (hs : s.on (F.AXS_STAT_STALE (12 + n)) = false)
    (hd : (s.axis (12 + n)).lastSample + s.f (F.AXS_REMOTE_STALE_TMO (12 + n)) * 10000 ≤ s.now) :
    exec (.stale n) s = .next (axisFault (s.set1 (F.AXS_STAT_STALE (12 + n))) (12 + n)).settled :=
  if_pos (by simp [hu, ht, he, hs, hd])

end axes

/-! ### Commands of the clock (R44 to R54) -/

theorem exec_slewEnd {s : State} (w : Slew) (hw : s.tim.slew = some w) (hd : w.done = w.total) : exec .slewEnd s =
    .next (({ s with tim := { s.tim with slew := none } }.clr F.TIM_STAT_SLEWING).clr F.TIM_STAT_NEG_SLEW).settled := by
  have h : exec .slewEnd s = execSlewEnd s := rfl
  rw [h, execSlewEnd, hw]
  exact if_pos hd

theorem takeOffsets_single {s : State} {x : Int} (ha : s.tim.adj = [x]) :
    takeOffsets s = takeOffset { s with tim := { s.tim with adj := [] } } x := by
  rw [takeOffsets, ha]
  rfl

/-- An empty queue lets the cycle pass in which the submitted offset is acted on (R46). -/
theorem step_takesOffset {s : State} (hp : s.pending = []) {x : Int} (ha : s.tim.adj = [x]) :
    step s = done (cycle (takeOffset { s with tim := { s.tim with adj := [] } } x)) := by
  rw [← takeOffsets_single ha, step, hp]
  rfl

section takeOffset
variable {s : State} {x : Int}

theorem takeOffset_dropped (h : s.tim.authAt = some s.now) : takeOffset s x = s.set1 F.TIM_STAT_ADJ_DROPPED := if_pos h

theorem takeOffset_acted (h : s.tim.authAt ≠ some s.now) :
    let t := s.setPair R.TIM_LASTOFF_LO R.TIM_LASTOFF_HI (wrapN 64 x)
    t.on F.TIM_STAT_LOCKED = true → t.on F.TIM_STAT_HOLDOVER = false →
    let rates := ((t.rd R.TIM_RATE).toInt :: t.tim.rates).take 16
    takeOffset s x = actOffset ({ t with tim := { t.tim with refFrom := t.now, rates := rates } }.wr
      R.TIM_HOLD_RATE (BitVec.ofInt 32 (meanRate rates))) x := by
  intro t hl hh
  exact (if_neg h).trans ((if_neg (by rw [hl]; decide)).trans (if_neg (by rw [hh]; decide)))

theorem takeOffset_locks (h : s.tim.authAt ≠ some s.now) (hf : s.tim.forced = false) :
    let t := s.setPair R.TIM_LASTOFF_LO R.TIM_LASTOFF_HI (wrapN 64 x)
    t.on F.TIM_STAT_LOCKED = false → takeOffset s x =
      authStep ({ t with tim := { t.tim with refLost := false, refFrom := t.now } }.set1 F.TIM_STAT_LOCKED) (x * 65536) := by
  intro t hl
  have hf' : t.tim.forced = false := hf
  exact (if_neg h).trans ((if_pos (by rw [hl]; decide)).trans (if_neg (by rw [hf']; decide)))

end takeOffset

section clock
variable {s : State} (hu : s.up = true)
include hu

theorem exec_authStep {c : Fin 132} (hc : (s.core c).grant.clockStep = true) : exec (.authStep (.core c)) s =
    .next (authStep s (signed 64 (s.pair R.TIM_STEP_LO R.TIM_STEP_HI) * 2 ^ 32)).settled :=
  (if_pos hu).trans (congrArg done (if_pos hc))

theorem exec_refLost (hl : s.on F.TIM_STAT_LOCKED = true) (ht : s.f F.TIM_CFG_REF_TMO ≠ 0) (hr : s.tim.refLost = false)
    (hd : s.tim.refFrom + s.f F.TIM_CFG_REF_TMO * 100000000 ≤ s.now) : exec .refLost s =
      .next (updateHoldover ({ s with tim := { s.tim with refLost := true } }.set1 F.TIM_STAT_REF_LOST)).settled :=
  if_pos (by simp [hu, hl, ht, hr, hd])

/-- A write of TIM_RATE out of holdover is limited, and says so when the limit took effect (R44). -/
theorem exec_timRateWrite (hh : s.on F.TIM_STAT_HOLDOVER = false) {v : Word} {x : Int} (hx : clampI (-2147484) 2147484 v.toInt = x) :
    exec (.timRateWrite v) s = .next (if x = v.toInt then s.wr R.TIM_RATE (BitVec.ofInt 32 x)
      else (s.wr R.TIM_RATE (BitVec.ofInt 32 x)).set1 F.TIM_STAT_RANGE).settled := by
  subst hx
  exact (if_pos hu).trans (congrArg done (if_neg (by rw [hh]; decide)))

section pps
variable (hi : s.on F.TIM_PPS_CFG_IN_EN = true)
include hi

theorem exec_ppsLost (hd : s.tim.ppsFrom + 1500000000 ≤ s.now) : exec .ppsLost s = .next (s.set1 F.TIM_STAT_PPS_LOST).settled :=
  if_pos (by simp [hu, hi, hd])

variable {width : Word} (hw : 100 ≤ width.toNat) {level : Bool} (hl : (level != s.on F.TIM_PPS_CFG_IN_POL) = true)
include hw hl

theorem exec_ppsInEdge_outlier (h0 : s.f F.TIM_PPS_CFG_IN_WINDOW ≠ 0)
    (h1 : s.f F.TIM_PPS_CFG_IN_WINDOW * 1000 < min s.tim.nsec (1000000000 - s.tim.nsec)) :
    exec (.ppsInEdge ⟨level, width⟩) s = .next (s.set1 F.TIM_STAT_PPS_OUTLIER).settled := by
  refine (if_pos ?_).trans (if_pos ?_)
  · rw [hu, hi, hl, decide_eq_true hw]
    rfl
  · rw [bne_iff_ne.2 h0, decide_eq_true (p := _ > _) h1]
    rfl

theorem exec_ppsInEdge_taken
    (h1 : s.f F.TIM_PPS_CFG_IN_WINDOW = 0 ∨ min s.tim.nsec (1000000000 - s.tim.nsec) ≤ s.f F.TIM_PPS_CFG_IN_WINDOW * 1000) :
    let t := (s.wr R.TIM_PPS_NS (BitVec.ofNat 32 s.tim.nsec)).wr R.TIM_PPS_SEC (BitVec.ofNat 32 s.tim.sec)
    exec (.ppsInEdge ⟨level, width⟩) s =
      .next ({ t with tim := { t.tim with ppsFrom := t.now, refFrom := t.now } }.raise prodPpsIn).settled := by
  refine (if_pos ?_).trans (if_neg ?_)
  · rw [hu, hi, hl, decide_eq_true hw]
    rfl
  · simp only [Bool.and_eq_true, bne_iff_ne, decide_eq_true_eq, gt_iff_lt, not_and, not_lt]
    exact h1.resolve_left

end pps

theorem exec_ppsOutPulse (hx : s.tim.ppsSec < ppsIndex s) (he : s.on F.TIM_PPS_CFG_OUT_EN = true) (hw : s.f F.TIM_PPS_CFG_OUT_WIDTH ≠ 0)
    (hn : s.tim.ppsEnd = none) : exec .ppsOutPulse s = .next (drivePps { s with tim := { s.tim with
      ppsSec := ppsIndex s, ppsEnd := some (s.now + s.f F.TIM_PPS_CFG_OUT_WIDTH * 1000000) } } true).settled := by
  have hrun : ¬ s.tim.ppsEnd.isSome = true := by simp [hn]
  have hon : ({ s with tim := { s.tim with ppsSec := ppsIndex s } } : State).on F.TIM_PPS_CFG_OUT_EN = true := he
  have hwid : ({ s with tim := { s.tim with ppsSec := ppsIndex s } } : State).f F.TIM_PPS_CFG_OUT_WIDTH ≠ 0 := hw
  refine (if_pos hu).trans (congrArg done ((if_pos hx).trans ((if_pos ?_).trans (if_neg hrun))))
  rw [hon, bne_iff_ne.2 hwid]
  rfl

theorem exec_ppsOutEnd (e : Nat) (he : s.tim.ppsEnd = some e) (hd : e ≤ s.now) :
    exec .ppsOutEnd s = .next (drivePps { s with tim := { s.tim with ppsEnd := none } } false).settled := by
  have h : exec .ppsOutEnd s = execPpsOutEnd s := rfl
  rw [h, execPpsOutEnd, he]
  exact if_pos (by simp [hu, hd])

end clock

/-- Settles O22. -/
theorem axesAndClock : Obligations.AxesAndClock := by
  refine ⟨fun ch a b age width s => ⟨fun hh => if_neg (by simp [hh]), fun n hh => exec_tickCount hh, fun hu => ⟨next_of_up hu,
      fun n hn => (next_of_up hu).trans (by rw [doPreset, if_pos hn]), fun n h8 h12 hc => exec_axsApply hu h8 h12 hc,
      fun n ht he hs hd => exec_stall hu ht he hs hd, fun n x => ⟨exec_remoteAxisSample_taken hu, exec_remoteAxisSample_other hu⟩,
      fun n ht he hs hd => exec_stale hu ht he hs hd⟩⟩,
    fun r hi v width s => ⟨exec_slewEnd, fun hu => ⟨next_of_up hu, fun x hp ha => ⟨fun h => ?_, fun h hl hh => ?_, fun h hl hf => ?_⟩,
      fun c hr hc => ?_, next_of_up hu, next_of_up hu, exec_refLost hu, fun hh => ⟨fun h0 h1 => ?_, fun h1 => ?_, fun h0 => ?_⟩,
      fun hi => ⟨fun hw level hl => ⟨exec_ppsInEdge_outlier hu hi hw hl, exec_ppsInEdge_taken hu hi hw hl⟩, exec_ppsLost hu hi⟩,
      exec_ppsOutPulse hu, exec_ppsOutEnd hu⟩⟩⟩
  · exact (step_takesOffset hp ha).trans (congrArg (fun t => done (cycle t)) (takeOffset_dropped h))
  · exact (step_takesOffset hp ha).trans (congrArg (fun t => done (cycle t)) (takeOffset_acted h hl hh))
  · exact (step_takesOffset hp ha).trans (congrArg (fun t => done (cycle t)) (takeOffset_locks h hf hl))
  · subst hr
    exact exec_authStep hu hc
  · rw [exec_timRateWrite hu hh (x := v.toInt) (by unfold clampI; omega), if_pos rfl, BitVec.ofInt_toInt]
  · rw [exec_timRateWrite hu hh (x := 2147484) (by unfold clampI; omega), if_neg (by omega)]
    rfl
  · rw [exec_timRateWrite hu hh (x := -2147484) (by unfold clampI; omega), if_neg (by omega)]

end Sys2Proof.Machine
end

section
/-! SUPPORT. Mailboxes, the loader and trust (O23 to O25, O60). -/

namespace Sys2Proof.Machine
open Sys2Proof

/-! ### Mailboxes (R107, R108, R112) -/

section mailbox
variable {m : Fin 4} {s : State} (hu : mbxUp s = true)
include hu

theorem exec_mbxSend_free (hb : s.on (F.MBX_STAT_BUSY m) = false) (hl : (s.mbox m).letter = none) :
    let u := s.set1 (F.MBX_STAT_BUSY m)
    let u := { u with loader := { u.loader with sends := s.loader.sends + 1 } }
    let u := u.setMbox m { u.mbox m with letter := some ⟨s.bread (mbxReq m) 0x1000⟩, root := false, order := s.loader.sends }
    exec (.mbxSend m) s = .next (if servesLetters u = true then dispatch u m else u).settled :=
  (if_pos hu).trans (congrArg done ((if_neg (by simp [hb])).trans (if_neg (show ¬ (s.mbox m).letter.isSome = true by simp [hl]))))

theorem exec_mbxSend_busy (hb : s.on (F.MBX_STAT_BUSY m) = true) :
    exec (.mbxSend m) s = .next (s.set1 (F.MBX_STAT_OVERRUN m)).settled :=
  (if_pos hu).trans (congrArg done (if_pos hb))

variable (hb : s.on (F.MBX_STAT_BUSY m) = true) (l : Letter) (hl : (s.mbox m).letter = some l) (hn : (s.mbox m).next = none)
include hb hl hn

theorem exec_mbxAbort_served (hc : s.on (F.CCX_MBX_STAT_LETTER m) = true) :
    exec (.mbxAbort m) s = .next (s.set1 (F.CCX_MBX_STAT_ABORT_REQ m)).settled := by
  refine (if_pos hu).trans (congrArg done ?_)
  rw [doAbortLetter, hl, hn]
  exact (if_neg (by simp [hb])).trans (if_pos hc)

theorem exec_mbxAbort_load (hc : s.on (F.CCX_MBX_STAT_LETTER m) = false) (hk : l.code = 2) (hg : s.loader.loading = some m.val) :
    exec (.mbxAbort m) s = .next (replySt { s with loader := { s.loader with loading := none } } m stAborted 0).settled := by
  refine (if_pos hu).trans (congrArg done ?_)
  rw [doAbortLetter, hl, hn]
  refine (if_neg (by simp [hb])).trans ((if_neg (by simp [hc])).trans ((if_pos hk).trans ?_))
  exact congrArg (fun t => replySt t m stAborted 0) (if_pos hg)

end mailbox

theorem exec_ccxMbxPost {c m : Fin 4} {s : State} (hu : s.up = true) (hr : (s.core c).run = .running)
    (hc : coreReaches s c (R.CCX_MBX_POST m) true = true) (hg : (s.core c).grant.mbx.testBit m = true)
    (hl : s.on (F.CCX_MBX_STAT_LETTER m) = true) :
    let hdr := s.bread (ccxReply m) 32
    let n := leAt hdr 8 4
    let u := (s.clr (F.CCX_MBX_STAT_LETTER m)).clr (F.CCX_MBX_STAT_ABORT_REQ m)
    n ≤ 4064 → (u.mbox m).orphan = false → exec (.ccxMbxPost c m) s = .next (giveReply (nextLetter u m) m
      (sliceB hdr 0 8 ++ bytesLE 4 n ++ sliceB hdr 12 20 ++ s.bread (ccxReply m + 32) n)).settled := by
  intro hdr n u hn ho
  have hby : byCore s c (R.CCX_MBX_POST m) (fun s => doPost s c m) = doPost s c m :=
    (if_neg (by simp [hr])).trans (if_pos hc)
  refine (if_pos hu).trans (congrArg done (hby.trans ((if_neg (by simp [hg])).trans ((if_neg (by simp [hl])).trans ?_))))
  extract_lets v k b w
  have hv : v = s := if_neg (by omega)
  have hk : k = n := Nat.min_eq_right hn
  have hb : b = sliceB hdr 0 8 ++ bytesLE 4 n ++ sliceB hdr 12 20 ++ s.bread (ccxReply m + 32) n := by
    show _ ++ bytesLE 4 k ++ _ ++ v.bread _ k = _
    rw [hk, hv]
  have hw : w = u := by
    show (v.clr _).clr _ = _
    rw [hv]
  rw [hb, hw]
  exact if_neg (by rw [ho]; decide)

/-- Settles O23. -/
theorem mailboxCommands : Obligations.MailboxCommands := fun _ _ _ =>
  ⟨exec_mbxSend_free, exec_mbxSend_busy, fun hu hb l hl hn => ⟨exec_mbxAbort_served hu hb l hl hn, exec_mbxAbort_load hu hb l hl hn⟩,
    exec_ccxMbxPost⟩

/-! ### Letters of the loader (R99 to R105, R110, R111) -/

section loader
variable {m : Fin 4} {l : Letter} {s : State} (hu : s.up = true)
include hu

theorem exec_load (hl : rootLetter s m 2 = some l) (ht : loadTurn s m = true) (h3 : s.lifecycle ≠ 3) (hz : l.arg 2 ≤ 0x4000000)
    (ha : l.arg 0 % 64 = 0) (hr : canRequest s = true) :
    exec (.load m) s = .next { s with loader := { s.loader with loading := some m.val } }.settled := by
  have h : exec (.load m) s = execLoad m s := rfl
  rw [h, execLoad, hl]
  exact (if_neg (by simp [hu, ht])).trans ((if_neg h3).trans ((if_neg (by omega)).trans (if_neg (by simp [ha, hr]))))

omit hu in
theorem exec_parcelFetched (hl : rootLetter s m 2 = some l) (hg : s.loader.loading = some m.val) (bytes : List Byte) :
    let r := loadParcel { s with loader := { s.loader with loading := none } } bytes (l.arg 2)
    exec (.parcelFetched bytes false) s = .next (replySt r.2 m r.1.1 r.1.2).settled := by
  have h : exec (.parcelFetched bytes false) s = execParcelFetched bytes false s := rfl
  rw [h, execParcelFetched, hg]
  simp only [hl]
  rfl

omit hu in
theorem exec_parcelFetched_failed (hl : rootLetter s m 2 = some l) (hg : s.loader.loading = some m.val) (bytes : List Byte) :
    exec (.parcelFetched bytes true) s =
      .next (replySt { s with loader := { s.loader with loading := none } } m stFetch 0).settled := by
  have h : exec (.parcelFetched bytes true) s = execParcelFetched bytes true s := rfl
  rw [h, execParcelFetched, hg]
  simp only [hl]
  rfl

theorem exec_switch (hl : rootLetter s m 3 = some l) (ht : loaderTurn s m = true) (h3 : s.lifecycle ≠ 3)
    (hf : l.arg 1 &&& 0x701 = l.arg 1) :
    let id : Word := BitVec.ofNat 32 (l.arg 0)
    let hdr := ((s.loader.parcels.find? (fun p => p.id == id)).map (·.hdr)).getD []
    let k := leAt hdr 0x16 2
    parcelKnown s id = true → holders s id ≠ [] → (s.lifecycle = 0 ∨ (slotUsable s k = true ∧ sha384B (sliceB hdr 0x140 96) = slotHash s k)) →
    rollbackFails s hdr = false → conflictOf s ((holders s id).map (fun c => (c, (s.core c).otherGrant))) = none →
    exec (.switch m) s = .next
      (beginSwitch s m id ((l.arg 1).testBit 0) (l.arg 1 / 256 % 8) (signed 64 (l.arg 2 + 2 ^ 32 * l.arg 3)) (holders s id)).settled := by
  intro id hdr k hk hh hv hr hc
  have h : exec (.switch m) s = execSwitch m s := rfl
  rw [h, execSwitch, hl]
  have hver : (s.lifecycle != 0 && !(slotUsable s k && sha384B (sliceB hdr 0x140 96) == slotHash s k)) = false := by
    rcases hv with hv | ⟨hs, hx⟩
    · simp [hv]
    · rw [hs, hx]
      simp
  refine (if_neg (by simp [hu, ht])).trans ((if_neg h3).trans ((if_neg (by rw [hf]; simp)).trans ((if_neg (by rw [hk]; decide)).trans
    ((if_neg (by simpa using hh)).trans ((if_neg (Bool.eq_false_iff.1 hver)).trans
      ((if_neg (by rw [hr]; decide)).trans ?_))))))
  show (match conflictOf s ((holders s id).map (fun c => (c, (s.core c).otherGrant))) with | some i => _ | none => _) = _
  rw [hc]
  rfl

section switching
variable {w : SwitchSt} (hw : s.loader.sw = some w)
include hw

theorem exec_coreSwitch {c : CoreNo} (hl : w.left.contains c.val = true) (he : ∃ e ∈ w.eligible, e.1 = c.val)
    (ha : atSwitchPoint (s.core c) = true) : exec (.coreSwitch c) s = .next (switchCore s w c false).settled := by
  have h : exec (.coreSwitch c) s = execCoreSwitch c s := rfl
  have hany : w.eligible.any (fun e => e.1 == c.val) = true := by simpa using he
  rw [h, execCoreSwitch, hw]
  exact if_pos (by rw [hu, hl, hany, ha]; rfl)

theorem exec_switchForced {c : CoreNo} (hl : w.left.contains c.val = true)
    (he : ∃ e ∈ w.eligible, e.1 = c.val ∧ e.2 + 10000000 ≤ s.now) :
    exec (.switchForced c) s = .next (switchCore s w c true).settled := by
  have h : exec (.switchForced c) s = execSwitchForced c s := rfl
  have hany : w.eligible.any (fun e => e.1 == c.val && decide (e.2 + 10000000 ≤ s.now)) = true := by
    obtain ⟨e, hm, hc, hd⟩ := he
    exact List.any_eq_true.2 ⟨e, hm, by simp [hc, hd]⟩
  rw [h, execSwitchForced, hw]
  exact if_pos (by rw [hu, hl, hany]; rfl)

theorem exec_switchDone (hl : w.left = []) (hm : w.mbox < 4) :
    exec .switchDone s = .next (reply (endSwitch s w.id) w.mbox stOk 0 (swResult w) []).settled := by
  have h : exec .switchDone s = execSwitchDone s := rfl
  rw [h, execSwitchDone, hw]
  exact (if_pos (by simp [hu, hl])).trans (congrArg done (if_pos hm))

end switching

theorem exec_query (hl : rootLetter s m 1 = some l) :
    exec (.query m) s = .next (reply s m stOk 0 [] (allCores.flatMap (fun c =>
      let k := s.core c
      let other := match k.other with | .empty => 0 | .ready => 1 | .retained => 2
      let run := match k.run with | .halted => 0 | .running => 1 | .fault => 2 | .never => 3
      bytesLE 4 k.activeId.toNat ++ bytesLE 4 (if k.other = .empty then 0 else k.otherId.toNat) ++ bytesLE 1 k.bank ++ bytesLE 1 other ++
        bytesLE 1 run ++ bytesLE 5 0))).settled := by
  have h : exec (.query m) s = execQuery m s := rfl
  rw [h, execQuery, hl]
  exact if_pos hu

section parcel
variable (hk : parcelKnown s (BitVec.ofNat 32 (l.arg 0)) = true)
include hk

theorem exec_cancel (hl : rootLetter s m 4 = some l) (hs : (dropQueued s (BitVec.ofNat 32 (l.arg 0))).loader.sw = none) :
    exec (.cancel m) s = .next
      (replySt (dropReady (dropQueued s (BitVec.ofNat 32 (l.arg 0))) (BitVec.ofNat 32 (l.arg 0))) m stOk 0).settled := by
  have h : exec (.cancel m) s = execCancel m s := rfl
  rw [h, execCancel, hl]
  refine (if_neg (by simp [hu])).trans ((if_neg (by rw [hk]; decide)).trans ?_)
  extract_lets t _ u
  have hu : u = t := by
    show (match t.loader.sw with | some w => _ | none => t) = t
    rw [hs]
  rw [hu]
  rfl

theorem exec_haltLetter (hl : rootLetter s m 5 = some l) :
    exec (.haltLetter m) s = .next (replySt ((coresOf s (BitVec.ofNat 32 (l.arg 0))).foldl
      (fun t c => if (t.core c).run = .running then stopCore t c else t) s) m stOk 0).settled := by
  have h : exec (.haltLetter m) s = execHaltLetter m s := rfl
  rw [h, execHaltLetter, hl]
  exact (if_neg (by simp [hu])).trans (if_neg (by rw [hk]; decide))

theorem exec_startLetter (hl : rootLetter s m 6 = some l) (h3 : s.lifecycle ≠ 3)
    (hc : (coresOf s (BitVec.ofNat 32 (l.arg 0))).any (fun c => (s.core c).run != .running && clusterHeld s c) = false) :
    exec (.startLetter m) s = .next (replySt ((coresOf s (BitVec.ofNat 32 (l.arg 0))).foldl
      (fun t c => if (t.core c).run = .running then t else startCore t c) s) m stOk 0).settled := by
  have h : exec (.startLetter m) s = execStartLetter m s := rfl
  rw [h, execStartLetter, hl]
  exact (if_neg (by simp [hu])).trans ((if_neg h3).trans ((if_neg (by rw [hk]; decide)).trans (if_neg (by rw [hc]; decide))))

end parcel

end loader

/-- Settles O24. -/
theorem loaderLetters : Obligations.LoaderLetters := fun _ _ bytes _ _ hu =>
  ⟨exec_query hu, fun hl => ⟨exec_load hu hl, fun hg => ⟨exec_parcelFetched hl hg bytes, exec_parcelFetched_failed hl hg bytes⟩⟩,
    exec_switch hu, fun _ hw => ⟨exec_coreSwitch hu hw, exec_switchForced hu hw, exec_switchDone hu hw⟩,
    fun hk => ⟨exec_cancel hu hk, exec_haltLetter hu hk, exec_startLetter hu hk⟩⟩
/-! ### The fuse array (R357, R359) -/

/-- No fuse bit that is 1 in `s` is 0 in `t`. -/
def FusesKept (s t : State) : Prop := ∀ b, fuseBit s b = true → fuseBit t b = true

theorem FusesKept.of_eq {s t : State} (h : t.fuses = s.fuses) : FusesKept s t := fun b hb => by
  rw [fuseBit, fuse] at hb ⊢
  rwa [h]

theorem FusesKept.trans {s t u : State} (h : FusesKept s t) (g : FusesKept t u) : FusesKept s u := fun b hb => g b (h b hb)

theorem fusesKept_orWord (s : State) (w : Nat) (m : Word) :
    FusesKept s { s with fuses := mset (fun _ => 0) s.fuses w (fuse s w ||| m) } := fun b hb => by
  rw [fuseBit, fuse] at hb ⊢
  rw [mget_mset]
  split
  · next h => rw [BitVec.getLsbD_or, fuse, h, hb, Bool.true_or]
  · exact hb

theorem fusesKept_blowBits (stuck : Option Nat) (l : List Nat) (s : State) : FusesKept s (blowBits s stuck l).2 := by
  induction l generalizing s with
  | nil => exact .of_eq rfl
  | cons i r ih =>
    rw [blowBits]
    split
    · exact ih s
    · split
      · exact .of_eq rfl
      · exact (fusesKept_orWord s _ _).trans (ih _)

theorem fusesKept_blow (s : State) (vpp : Bool) (stuck : Option Nat) (l : List Nat) : FusesKept s (blow s vpp stuck l).2 := by
  have hbits := fusesKept_blowBits stuck l (s.put F.FUS_STAT_VPP_OK vpp)
  rw [blow]
  split
  · exact .of_eq rfl
  · split
    · exact .of_eq rfl
    · rcases hp : blowBits (s.put F.FUS_STAT_VPP_OK vpp) stuck l with ⟨ok, u⟩
      rw [hp] at hbits
      simp only [hp]
      refine FusesKept.trans (t := u) hbits ?_
      split <;> exact .of_eq rfl

theorem giveReply_fuses (s : State) (m : Nat) (l : List (BitVec 8)) : (giveReply s m l).fuses = s.fuses := by
  unfold giveReply
  extract_lets u v
  split <;> rfl

@[simp] theorem reply_fuses (s : State) (m status detail : Nat) (result body : List (BitVec 8)) :
    (reply s m status detail result body).fuses = s.fuses := by
  unfold reply
  split
  · rfl
  · exact giveReply_fuses _ _ _

theorem fusesKept_replySt (s : State) (m status detail : Nat) : FusesKept s (replySt s m status detail) :=
  .of_eq (reply_fuses ..)

theorem fusesKept_blowReply (s : State) (m : Nat) (vpp : Bool) (stuck : Option (Fin 4096)) (l : List Nat) :
    FusesKept s (blowReply s m vpp stuck l) := by
  have hb := fusesKept_blow s vpp (stuck.map (·.val)) l
  unfold blowReply
  split
  · next t h => exact (show FusesKept s t by rw [h] at hb; exact hb).trans (fusesKept_replySt _ _ _ _)
  · next d t h => exact (show FusesKept s t by rw [h] at hb; exact hb).trans (fusesKept_replySt _ _ _ _)

theorem authFailed_fuses (s : State) : (authFailed s).fuses = s.fuses := by
  unfold authFailed
  extract_lets u
  split <;> rfl

theorem authorise_fuses (s : State) (m : Nat) (l : Letter) (n : Option Nat) : (authorise s m l n).2.fuses = s.fuses := by
  rw [authorise]
  split
  · rfl
  · extract_lets x nonce u ok
    split
    · rfl
    · exact authFailed_fuses u

/-- A command's outcome leaves every blown fuse blown. -/
def OutcomeKeepsFuses (s : State) (o : Host.Outcome State Fault Refusal) : Prop := ∃ u, o = done u ∧ FusesKept s u

theorem outcomeKeepsFuses_done {s u : State} (h : FusesKept s u) : OutcomeKeepsFuses s (done u) := ⟨u, rfl, h⟩

theorem outcomeKeepsFuses_self (s : State) : OutcomeKeepsFuses s (done s) := outcomeKeepsFuses_done (.of_eq rfl)

theorem outcomeKeepsFuses_denied (s : State) (m status detail : Nat) : OutcomeKeepsFuses s (done (replySt s m status detail)) :=
  outcomeKeepsFuses_done (fusesKept_replySt _ _ _ _)

theorem outcomeKeepsFuses_blown (s : State) (m : Nat) (vpp : Bool) (stuck : Option (Fin 4096)) (l : List Nat) :
    OutcomeKeepsFuses s (done (blowReply s m vpp stuck l)) := outcomeKeepsFuses_done (fusesKept_blowReply _ _ _ _ _)

theorem outcomeKeepsFuses_ite {s : State} {p : Prop} [Decidable p] {a b : Host.Outcome State Fault Refusal}
    (ha : OutcomeKeepsFuses s a) (hb : OutcomeKeepsFuses s b) : OutcomeKeepsFuses s (if p then a else b) := by
  split <;> assumption

/-- A letter that is authorised blows its fuses; one that is not is denied. -/
theorem outcomeKeepsFuses_authorised (s : State) (m : Nat) (l : Letter) (n : Option Nat) (vpp : Bool) (stuck : Option (Fin 4096))
    (bits : List Nat) : OutcomeKeepsFuses s (match authorise s m l n with
      | (some d, s) => done (replySt s m stDenied d)
      | (none, s) => done (blowReply s m vpp stuck bits)) := by
  have ha := authorise_fuses s m l n
  split
  · next d t h =>
    have ht : FusesKept s t := .of_eq (by rw [h] at ha; exact ha)
    exact outcomeKeepsFuses_done (ht.trans (fusesKept_replySt _ _ _ _))
  · next t h =>
    have ht : FusesKept s t := .of_eq (by rw [h] at ha; exact ha)
    exact outcomeKeepsFuses_done (ht.trans (fusesKept_blowReply _ _ _ _ _))

section letters
variable (m : Fin 4) (vpp : Bool) (stuck : Option (Fin 4096)) (s : State)

theorem setOwnerKey_keepsFuses : OutcomeKeepsFuses s (exec (.setOwnerKey m vpp stuck) s) := by
  have h : exec (.setOwnerKey m vpp stuck) s = execSetOwnerKey m vpp stuck s := rfl
  rw [h, execSetOwnerKey]
  split
  · exact outcomeKeepsFuses_self s
  · exact outcomeKeepsFuses_ite (outcomeKeepsFuses_self s) (outcomeKeepsFuses_ite (outcomeKeepsFuses_denied ..)
      (outcomeKeepsFuses_ite (outcomeKeepsFuses_denied ..) (outcomeKeepsFuses_blown ..)))

theorem setPolicy_keepsFuses : OutcomeKeepsFuses s (exec (.setPolicy m vpp stuck) s) := by
  have h : exec (.setPolicy m vpp stuck) s = execSetPolicy m vpp stuck s := rfl
  rw [h, execSetPolicy]
  split
  · exact outcomeKeepsFuses_self s
  · exact outcomeKeepsFuses_ite (outcomeKeepsFuses_self s) (outcomeKeepsFuses_ite (outcomeKeepsFuses_denied ..)
      (outcomeKeepsFuses_ite (outcomeKeepsFuses_denied ..) (outcomeKeepsFuses_blown ..)))

theorem advance_keepsFuses : OutcomeKeepsFuses s (exec (.advance m vpp stuck) s) := by
  have h : exec (.advance m vpp stuck) s = execAdvance m vpp stuck s := rfl
  rw [h, execAdvance]
  split
  · exact outcomeKeepsFuses_self s
  · refine outcomeKeepsFuses_ite (outcomeKeepsFuses_self s) (outcomeKeepsFuses_ite (outcomeKeepsFuses_denied ..)
      (outcomeKeepsFuses_ite (outcomeKeepsFuses_denied ..) (outcomeKeepsFuses_ite ?_ (outcomeKeepsFuses_authorised ..))))
    exact outcomeKeepsFuses_ite (outcomeKeepsFuses_blown ..) (outcomeKeepsFuses_denied ..)

theorem revoke_keepsFuses : OutcomeKeepsFuses s (exec (.revoke m vpp stuck) s) := by
  have h : exec (.revoke m vpp stuck) s = execRevoke m vpp stuck s := rfl
  rw [h, execRevoke]
  split
  · exact outcomeKeepsFuses_self s
  · exact outcomeKeepsFuses_ite (outcomeKeepsFuses_self s) (outcomeKeepsFuses_ite (outcomeKeepsFuses_denied ..)
      (outcomeKeepsFuses_ite (outcomeKeepsFuses_denied ..) (outcomeKeepsFuses_authorised ..)))

theorem commitVersion_keepsFuses : OutcomeKeepsFuses s (exec (.commitVersion m vpp stuck) s) := by
  have h : exec (.commitVersion m vpp stuck) s = execCommitVersion m vpp stuck s := rfl
  rw [h, execCommitVersion]
  split
  · exact outcomeKeepsFuses_self s
  · exact outcomeKeepsFuses_ite (outcomeKeepsFuses_self s) (outcomeKeepsFuses_ite (outcomeKeepsFuses_denied ..)
      (outcomeKeepsFuses_ite (outcomeKeepsFuses_denied ..) (outcomeKeepsFuses_ite (outcomeKeepsFuses_denied ..)
        (outcomeKeepsFuses_blown ..))))

end letters

/-- Settles O60. -/
theorem fuseLettersOnlyAdd : Obligations.FuseLettersOnlyAdd := by
  intro m vpp stuck i s t hi ht
  have hk : OutcomeKeepsFuses s (exec i s) := by
    simp only [List.mem_cons, List.not_mem_nil, or_false] at hi
    rcases hi with rfl | rfl | rfl | rfl | rfl
    · exact setOwnerKey_keepsFuses m vpp stuck s
    · exact setPolicy_keepsFuses m vpp stuck s
    · exact advance_keepsFuses m vpp stuck s
    · exact revoke_keepsFuses m vpp stuck s
    · exact commitVersion_keepsFuses m vpp stuck s
  obtain ⟨u, hu, hf⟩ := hk
  have htu : t = u.settled := by
    rw [ht] at hu
    exact Host.Outcome.next.inj hu
  subst htu
  exact hf.trans (.of_eq (by rw [State.settled, State.driveAlert_fuses, State.settle_fuses]))

/-! ### Letters of trust (R359 to R366) -/

section trust
variable {m : Fin 4} {vpp : Bool} {stuck : Option (Fin 4096)} {l : Letter} {t s : State} (hu : s.up = true)
include hu

omit hu in
theorem exec_identity (hm : mbxUp s = true) (hl : rootLetter s m 0x10 = some l) : exec (.identity m) s = .next (reply s m stOk 0 []
    ((bytesLE 8 (dsn s) ++ bytesLE 1 s.lifecycle ++ bytesLE 1 (s.f F.FUS_LC_PENDING) ++ [0, 0] ++ bytesLE 4 (features s) ++
      certChain s).take 4064)).settled := by
  have h : exec (.identity m) s = execIdentity m s := rfl
  rw [h, execIdentity, hl]
  exact if_pos hm

theorem exec_challenge (hl : rootLetter s m 0x11 = some l) : let r := drbg32 s
    exec (.challenge m) s = .next (reply (r.2.setMbox m { r.2.mbox m with nonce := some (r.1, r.2.now) }) m stOk 0 [] r.1).settled := by
  have h : exec (.challenge m) s = execChallenge m s := rfl
  rw [h, execChallenge, hl]
  exact if_neg (by simp [hu])

omit hu in
/-- Fuses that all stick are answered OK. -/
theorem blowReply_ok {l : List Nat} (m : Nat) (hb : blow s vpp (stuck.map (·.val)) l = (none, t)) :
    done (blowReply s m vpp stuck l) = .next (replySt t m stOk 0).settled := by
  rw [blowReply, hb]
  rfl

theorem exec_setOwnerKey (hl : rootLetter s m 0x12 = some l) (h2 : s.lifecycle < 2) (h4 : l.arg 0 < 4) (hn : l.len = 48)
    (he : ∀ i < 12, fuse s (5 + 12 * l.arg 0 + i) = 0)
    (hb : blow s vpp (stuck.map (·.val)) (((List.range 384).filter (fun i => (leAt l.body (i / 8) 1).testBit (i % 8))).map
      (fun i => 32 * (5 + 12 * l.arg 0) + i)) = (none, t)) :
    exec (.setOwnerKey m vpp stuck) s = .next (replySt t m stOk 0).settled := by
  have h : exec (.setOwnerKey m vpp stuck) s = execSetOwnerKey m vpp stuck s := rfl
  have hempty : (List.range 12).any (fun i => fuse s (5 + 12 * l.arg 0 + i) != 0) = false := by
    simpa using he
  rw [h, execSetOwnerKey, hl]
  refine (if_neg (by simp [hu])).trans ((if_neg (by omega)).trans ((if_neg ?_).trans (blowReply_ok m hb)))
  rw [hempty, hn, decide_eq_false (by omega)]
  decide

theorem exec_setPolicy (hl : rootLetter s m 0x13 = some l) (hf : l.arg 0 &&& 0xFFB00 = l.arg 0) (h3 : s.lifecycle ≠ 3)
    (hp : s.lifecycle < 2 ∨ l.arg 0 &&& 0x200 = l.arg 0)
    (hb : blow s vpp (stuck.map (·.val)) ((List.range 20).filter (fun i => (l.arg 0).testBit i)) = (none, t)) :
    exec (.setPolicy m vpp stuck) s = .next (replySt t m stOk 0).settled := by
  have h : exec (.setPolicy m vpp stuck) s = execSetPolicy m vpp stuck s := rfl
  have hpol : ¬ (decide (s.lifecycle = 3) || decide (2 ≤ s.lifecycle) && l.arg 0 &&& 0x200 != l.arg 0) = true := by
    simp only [Bool.or_eq_true, Bool.and_eq_true, decide_eq_true_eq, bne_iff_ne, not_or, not_and, not_not]
    exact ⟨h3, fun h2 => hp.resolve_left (by omega)⟩
  rw [h, execSetPolicy, hl]
  exact (if_neg (by simp [hu])).trans ((if_neg (by rw [hf]; simp)).trans ((if_neg hpol).trans (blowReply_ok m hb)))

section advance
variable (hl : rootLetter s m 0x14 = some l) (h3 : l.arg 0 ≤ 3) (hn : l.arg 0 = s.lifecycle + 1)
include hl h3 hn

omit h3 in
theorem exec_advance_provision (h1 : l.arg 0 = 1) (hs : ∃ k < 4, slotUsable s k = true)
    (hb : blow s vpp (stuck.map (·.val)) [0, 1] = (none, t)) :
    exec (.advance m vpp stuck) s = .next (replySt t m stOk 0).settled := by
  have h : exec (.advance m vpp stuck) s = execAdvance m vpp stuck s := rfl
  have hany : (List.range 4).any (slotUsable s) = true := by simpa using hs
  rw [h, execAdvance, hl]
  exact (if_neg (by simp [hu])).trans ((if_neg (by omega)).trans ((if_neg (by simp [hn])).trans ((if_pos h1).trans
    ((if_pos hany).trans (blowReply_ok m hb)))))

theorem exec_advance_authorised (h1 : l.arg 0 ≠ 1) (u : State) (ha : authorise s m l none = (none, u))
    (hb : blow u vpp (stuck.map (·.val)) [2 * (l.arg 0 - 1), 2 * (l.arg 0 - 1) + 1] = (none, t)) :
    exec (.advance m vpp stuck) s = .next (replySt t m stOk 0).settled := by
  have h : exec (.advance m vpp stuck) s = execAdvance m vpp stuck s := rfl
  rw [h, execAdvance, hl]
  refine (if_neg (by simp [hu])).trans ((if_neg (by omega)).trans ((if_neg (by simp [hn])).trans ((if_neg h1).trans ?_)))
  rw [ha]
  exact blowReply_ok m hb

end advance

theorem exec_revoke (hl : rootLetter s m 0x15 = some l) (h0 : s.lifecycle ≠ 0) (h3 : s.lifecycle ≠ 3) (h4 : l.arg 0 < 4)
    (ho : otherSlot s (l.arg 0) = true) (u : State) (ha : authorise s m l (some (l.arg 0)) = (none, u))
    (hb : blow u vpp (stuck.map (·.val)) [20 + l.arg 0] = (none, t)) :
    exec (.revoke m vpp stuck) s = .next (replySt t m stOk 0).settled := by
  have h : exec (.revoke m vpp stuck) s = execRevoke m vpp stuck s := rfl
  rw [h, execRevoke, hl]
  refine (if_neg (by simp [hu])).trans ((if_neg (by simp [h0, h3])).trans ((if_neg (by simp [ho]; omega)).trans ?_))
  rw [ha]
  exact blowReply_ok m hb

theorem exec_commitVersion (hl : rootLetter s m 0x16 = some l) (h0 : s.lifecycle ≠ 0) (h3 : s.lifecycle ≠ 3) (h64 : l.arg 0 ≤ 64)
    (hk : ∀ k, leastSecVer s = some k → l.arg 0 ≤ k) (hr : rollbackCount s < l.arg 0)
    (hb : blow s vpp (stuck.map (·.val)) ((List.range (l.arg 0)).map (fun i => 32 + i)) = (none, t)) :
    exec (.commitVersion m vpp stuck) s = .next (replySt t m stOk 0).settled := by
  have h : exec (.commitVersion m vpp stuck) s = execCommitVersion m vpp stuck s := rfl
  rw [h, execCommitVersion, hl]
  refine (if_neg (by simp [hu])).trans ((if_neg (by simp [h0, h3])).trans ((if_neg ?_).trans ((if_neg (by omega)).trans
    (blowReply_ok m hb))))
  cases hv : leastSecVer s with
  | none => simp; omega
  | some k =>
    have := hk k hv
    simp
    omega

end trust

/-- Settles O25. -/
theorem trustLetters : Obligations.TrustLetters := fun _ _ _ _ _ _ hu =>
  ⟨exec_identity, exec_challenge hu, exec_setOwnerKey hu, exec_setPolicy hu,
    fun hl h3 hn => ⟨exec_advance_provision hu hl hn, exec_advance_authorised hu hl h3 hn⟩, exec_revoke hu, exec_commitVersion hu⟩

end Sys2Proof.Machine
end

section
/-! SUPPORT. SPDM requests, the relay and Link IDE (O26). -/

namespace Sys2Proof.Machine
open Sys2Proof

/-! ### Requests of SPDM (R367 to R371) -/

/-- The state in which the responder has taken a request. -/
def tookReq (s : State) (r : SpdmReq) : State := { s with spdm := { s.spdm with reqs := s.spdm.reqs.erase r } }

section spdm
variable {s : State} (hh : s.held = false) (ha : s.boot.asleep = false)
include hh ha

/-- The first request of a transport that a row names is taken and answered. -/
theorem spdmRow_taken {t : Nat} {p : List (BitVec 8) → Bool} {r : SpdmReq}
    (hf : s.spdm.reqs.find? (fun r => r.via == t && p r.msg) = some r) (f : State → SpdmReq → State) :
    spdmRow s t p f = done (f (tookReq s r) r) := by
  rw [spdmRow, hf]
  exact if_neg (by simp [hh, ha])

/-- An IDE_KM request in its place is taken and answered (R381). -/
theorem ideRow_taken {t obj : Nat} {r : SpdmReq}
    (hf : s.spdm.reqs.find? (fun r => r.via == t && (isVendor 1 0 r.msg && leAt r.msg 12 1 == obj)) = some r)
    (he : reqError (tookReq s r) r 15 true true = none) (hv : vendorOk r.msg 4 = true) (h4 : r.via = 4) (hs : r.sess.isSome = true)
    (hi : s.on F.FUS_LC_IDE = true) (f : State → SpdmReq → State) : ideRow s t obj f = done (f (tookReq s r) r) := by
  have hon : (tookReq s r).on F.FUS_LC_IDE = true := hi
  have hsome : r.sess.isNone = false := Option.isNone_eq_false_iff.2 hs
  refine (spdmRow_taken hh ha hf _).trans (congrArg done ?_)
  simp only [he]
  refine (if_neg (by rw [hv]; decide)).trans (if_neg ?_)
  rw [h4, hsome, hon]
  decide

end spdm

section answers
variable {u : State} {r : SpdmReq}

theorem doGetVersion_eq (hs : r.sess = none) (hm : leAt r.msg 0 1 = 0x10) :
    let b : List Byte := [0x10, 0x04, 0, 0, 0, 1, 0, 0x12]
    doGetVersion u r = answer (setConn { u with spdm := { u.spdm with
      sessions := u.spdm.sessions.filter (fun x => x.via != r.via) } } r.via { stage := 1, vca := r.msg.take 4 ++ b }) r b :=
  (if_neg (by simp [hs])).trans (if_neg (by rw [hm]; decide))

theorem doGetDigests_eq (he : reqError u r 4 true true = none) :
    let b : List Byte := [0x12, 0x01, 0, 1] ++ sha384B (certChain u)
    doGetDigests u r = answerOr (noteB u r (r.msg.take 4 ++ b)) r b := by
  rw [doGetDigests, he]

theorem doGetCertificate_eq (he : reqError u r 8 true true = none) (hs : leAt r.msg 2 1 % 16 = 0) (hl : leAt r.msg 4 2 < (certChain u).length) :
    let off := leAt r.msg 4 2
    let c := certChain u
    let n := min (min (leAt r.msg 6 2) (c.length - off)) (spdmMax r.via - 64)
    let b : List Byte := [0x12, 0x02, 0, 0] ++ bytesLE 2 n ++ bytesLE 2 (c.length - off - n) ++ sliceB c off n
    doGetCertificate u r = answerOr (noteB u r (r.msg.take 8 ++ b)) r b := by
  rw [doGetCertificate, he]
  exact if_neg (by simp [hs, hl])

theorem doHeartbeatSpdm_eq (he : reqError u r 4 false true = none) : doHeartbeatSpdm u r = answer u r [0x12, 0x68, 0, 0] := by
  rw [doHeartbeatSpdm, he]

theorem doKeyUpdate_eq (he : reqError u r 4 false true = none) {x : Session} (hx : r.sess.bind (sessOf u r.via) = some x)
    (h1 : leAt r.msg 2 1 = 1) : doKeyUpdate u r =
      answer (setSess u { x with req := nextSecret x.req, reqSeq := 0 }) r (([0x12, 0x69] : List Byte) ++ sliceB r.msg 2 2) := by
  rw [doKeyUpdate, he, hx]
  exact if_pos h1

theorem doEndSession_eq (he : reqError u r 4 false true = none) :
    doEndSession u r = dropSess (answer u r [0x12, 0x6C, 0, 0]) r.via (r.sess.getD 0) := by
  rw [doEndSession, he]

theorem doRingStatus_eq (he : reqError u r 15 true true = none) (hv : vendorOk r.msg 4 = true) :
    doRingStatus u r = ringAnswer u r 2 (leAt r.msg 12 1) 0 (u.ring (leAt r.msg 12 1)).chainId := by
  rw [doRingStatus, he]
  exact if_neg (by rw [hv]; decide)

theorem doUnbind_eq (he : reqError u r 15 true true = none) (hv : vendorOk r.msg 4 = true) {x : Session}
    (hx : r.sess.bind (sessOf u r.via) = some x) :
    let ring := leAt r.msg 12 1
    (u.ring ring).key.isSome = true → (u.ring ring).session = x.id + 2 ^ 32 * (x.via + 1) → ringState u ring = rDisabled →
    doUnbind u r = ringAnswer (showKey (u.setRing ring { u.ring ring with key := none, chainId := 0, session := 0 }) ring) r 3 ring 0 0 := by
  intro ring hk hs hr
  rw [doUnbind, he]
  refine (if_neg (by rw [hv]; decide)).trans ?_
  rw [hx]
  refine (if_neg ?_).trans (if_neg ?_)
  · show ¬ ((u.ring ring).key.isNone || (u.ring ring).session != x.id + 2 ^ 32 * (x.via + 1)) = true
    rw [hs, Option.isNone_eq_false_iff.2 hk, bne_self_eq_false]
    decide
  · show ¬ (ringState u ring != rDisabled) = true
    rw [hr]
    decide

end answers

theorem exec_ideKmQuery {s : State} {t : Fin 5} {r : SpdmReq}
    (hrow : ∀ f, ideRow s t 0 f = done (f (tookReq s r) r)) :
    exec (.ideKmQuery t) s = .next (answerOr (tookReq s r) r (vendorRsp 1 (([0, 1, 0] : List Byte) ++ sliceB r.msg 14 1 ++ [0, 0, 0, 0] ++
      [0x2C4, 0x2C8, 0x2CC, 0x2D0].flatMap (fun o => bytesLE 4 ((tookReq s r).cfg o).toNat)))).settled := by
  have h : exec (.ideKmQuery t) s = execIdeKmQuery t s := rfl
  rw [h, execIdeKmQuery, hrow]
  rfl

theorem exec_keyProg {s : State} {t : Fin 5} {r : SpdmReq} (hrow : ∀ f, ideRow s t 2 f = done (f (tookReq s r) r))
    (hv : vendorOk r.msg 48 = true) (h0 : leAt r.msg 18 1 = 0) (hn : ideNamed r.msg = true) :
    let u := tookReq s r
    exec (.keyProg t) s = .next (ideAck { u with spdm := { u.spdm with
      ideKeys := minsert u.spdm.ideKeys (leAt r.msg 17 1) (sliceB r.msg 19 40) } } r 3 0).settled := by
  have h : exec (.keyProg t) s = execKeyProg t s := rfl
  rw [h, execKeyProg, hrow]
  dsimp only
  rw [hv, h0, hn]
  rfl

theorem exec_kSetGo {s : State} {t : Fin 5} {r : SpdmReq} (hrow : ∀ f, ideRow s t 4 f = done (f (tookReq s r) r))
    (hv : vendorOk r.msg 8 = true) (hn : ideNamed r.msg = true) (hr : ideReady (tookReq s r) (leAt r.msg 17 1) = true) :
    let u := tookReq s r
    exec (.kSetGo t) s = .next (let v := { u with spdm := { u.spdm with ideSet := some (leAt r.msg 17 1 % 2) } }
      ideAck (v.setCfg 0x2D0 (setField (v.cfg 0x2D0) 3 0 2)) r 6 0).settled := by
  have h : exec (.kSetGo t) s = execKSetGo t s := rfl
  rw [h, execKSetGo, hrow]
  dsimp only
  rw [hv, hn, hr]
  rfl

theorem exec_kSetStop {s : State} {t : Fin 5} {r : SpdmReq} (hrow : ∀ f, ideRow s t 5 f = done (f (tookReq s r) r))
    (hv : vendorOk r.msg 8 = true) : exec (.kSetStop t) s = .next (ideAck (ideInsecure (tookReq s r)) r 6 0).settled := by
  have h : exec (.kSetStop t) s = execKSetStop t s := rfl
  rw [h, execKSetStop, hrow, hv]
  rfl

theorem exec_spdmRelay {m : Fin 4} {l : Letter} {s : State} (hu : s.up = true) (hl : rootLetter s m 0x17 = some l)
    (hn : ∀ r ∈ s.spdm.reqs, r.via ≠ m.val) (hs : sessOf s m (leAt l.body 0 4) = none) (hk : s.lockdown = false)
    (h4 : 4 ≤ l.body.length) (hm : l.body.length ≤ spdmMax m) (hc : knownCode l.body = true) :
    exec (.spdmRelay m) s = .next { s with spdm := { s.spdm with reqs := s.spdm.reqs ++ [(⟨m.val, none, l.body⟩ : SpdmReq)] } }.settled := by
  have h : exec (.spdmRelay m) s = execSpdmRelay m s := rfl
  have hany : s.spdm.reqs.any (fun r => r.via == m.val) = false := by simpa using hn
  rw [h, execSpdmRelay, hl]
  refine (if_neg (by rw [hu, hany]; decide)).trans ?_
  rw [hs]
  refine congrArg done ((if_neg ?_).trans ((if_neg (by rw [hc]; decide)).trans (if_neg (by simp [hk]))))
  simp only [Bool.or_eq_true, decide_eq_true_eq, not_or, not_lt]
  exact ⟨h4, hm⟩

/-- Settles O26. -/
theorem spdmCommands : Obligations.SpdmCommands := by
  refine ⟨fun t leaf r s hh ha => ⟨fun hf hs hm => ?_, fun hf _ _ _ _ => spdmRow_taken hh ha hf _, fun hf _ _ _ => spdmRow_taken hh ha hf _,
      fun hf he => ?_, fun hf he hs hl => ?_, fun hf _ => spdmRow_taken hh ha hf _, fun hf _ _ _ => spdmRow_taken hh ha hf _,
      fun hf _ _ _ _ => spdmRow_taken hh ha hf _, fun hf _ _ _ => spdmRow_taken hh ha hf _, fun hf he => ?_, fun hf he x hx h1 => ?_,
      fun hf he => ?_, fun he hv => ⟨fun hf => ?_, fun x hx => ⟨fun hf _ _ _ _ _ => spdmRow_taken hh ha hf _, fun hf hk hs hr => ?_⟩,
        fun h4 hs hi => ⟨fun hf => ?_, fun hf hv' h0 hn => ?_, fun hf hv' hn hr => ?_, fun hf hv' => ?_⟩⟩⟩,
    fun m l s hu => ⟨exec_spdmRelay hu, fun hl hi => if_pos (by simp [hu, hl, hi])⟩⟩
  · exact (spdmRow_taken hh ha hf _).trans (congrArg done (doGetVersion_eq hs hm))
  · exact (spdmRow_taken hh ha hf _).trans (congrArg done (doGetDigests_eq he))
  · exact (spdmRow_taken hh ha hf _).trans (congrArg done (doGetCertificate_eq he hs hl))
  · exact (spdmRow_taken hh ha hf _).trans (congrArg done (doHeartbeatSpdm_eq he))
  · exact (spdmRow_taken hh ha hf _).trans (congrArg done (doKeyUpdate_eq he hx h1))
  · exact (spdmRow_taken hh ha hf _).trans (congrArg done (doEndSession_eq he))
  · exact (spdmRow_taken hh ha hf _).trans (congrArg done (doRingStatus_eq he hv))
  · exact (spdmRow_taken hh ha hf _).trans (congrArg done (doUnbind_eq he hv hx hk hs hr))
  · exact exec_ideKmQuery (ideRow_taken hh ha hf he hv h4 hs hi)
  · exact exec_keyProg (ideRow_taken hh ha hf he hv h4 hs hi) hv' h0 hn
  · exact exec_kSetGo (ideRow_taken hh ha hf he hv h4 hs hi) hv' hn hr
  · exact exec_kSetStop (ideRow_taken hh ha hf he hv h4 hs hi) hv'

end Sys2Proof.Machine
end

section
/-! SUPPORT. The schedule and events (O27). -/

namespace Sys2Proof.Machine
open Sys2Proof

/-! ### Slots, outputs and strobes (R119 to R122, R180 to R187) -/

section slot
variable {n : Fin 256} {s : State} (hu : s.up = true)
include hu

theorem exec_slotFire (d : Nat) (ha : (s.slot n).armed = true) (ht : (s.slot n).test = false) (hd : (s.slot n).due = some d)
    (hb : d ≤ half s + 1) (hc : (s.slot n).acted ≠ some s.now) : exec (.slotFire n) s = .next (fireSlot s n).settled :=
  if_pos (by simp [hu, fireDue, ha, ht, hd, hb, hc])

theorem exec_slotNextTarget (ha : (s.slot n).armed = true) (ht : (s.slot n).test = true) (hc : (s.slot n).acted ≠ some s.now) :
    exec (.slotNextTarget n) s = done (testTarget s n) :=
  if_pos (by simp [hu, ha, ht, hc])

end slot

section target
variable {n : Nat} {s : State}

theorem testTarget_ahead : let y := { s.slot n with test := false }
    slotDiff y (axisPos s y.axis) < 0 → testTarget s n = s.setSlot n (y.look (lookCycle s)) := fun h => if_pos h

theorem testTarget_range : let y := { s.slot n with test := false }
    2 ^ 31 ≤ slotDiff y (axisPos s y.axis) → testTarget s n = slotRange (s.setSlot n y) n 3 :=
  fun h => (if_neg (by omega)).trans (if_pos h)

theorem testTarget_discard : let y := { s.slot n with test := false }
    0 ≤ slotDiff y (axisPos s y.axis) → slotDiff y (axisPos s y.axis) < 2 ^ 31 → (s.slot n).dropLate = true →
    testTarget s n = slotDiscard (s.setSlot n y) n :=
  fun h0 h1 hl => (if_neg (by omega)).trans ((if_neg (by omega)).trans (if_pos hl))

theorem testTarget_late : let y := { s.slot n with test := false }
    0 ≤ slotDiff y (axisPos s y.axis) → slotDiff y (axisPos s y.axis) < 2 ^ 31 → (s.slot n).dropLate = false →
    testTarget s n = fireSlot (s.setSlot n { y with late := true, due := some (half s) }) n :=
  fun h0 h1 hl => (if_neg (by omega)).trans ((if_neg (by omega)).trans (if_neg (Bool.eq_false_iff.1 hl)))

end target

theorem exec_strobe {g : Fin 16} {s : State} (hu : s.up = true) (hm : s.f (F.TRG_GPIO_CFG_MODE g) = 2) :
    let y := s.gpio g
    let start := y.due.filter (·.starts s)
    start ≠ [] →
    let t := s.setGpio g { due := y.due.filter (fun d => !d.starts s), running := y.running ++ start }
    exec (.strobe g) s = .next (if y.running = [] then driveStrobe t g true else t).settled := by
  intro y start hs t
  have h : exec (.strobe g) s = execStrobe g s := rfl
  rw [h, execStrobe, if_pos (by simp [hu, hm])]
  refine (if_neg (fun he => hs (List.isEmpty_iff.1 he))).trans ?_
  simp only [List.isEmpty_iff]
  rfl

theorem exec_widthCap {r : RegNo} {s : State} (hh : s.held = false) :
    let capped := (s.trig r).pulses.filter (fun p => p.capped (half s + 1))
    capped ≠ [] → exec (.widthCap r) s = .next (endPulses ((capped.filterMap (·.slot)).foldl
      (fun t k => t.set1 (F.SCH_REC_FLAGS_WIDTH_CAP k)) (s.set1 F.SCH_STAT_WIDTH_CAP)) r (fun p => p.capped (half s + 1))).settled :=
  fun hc => (if_neg (by simp [hh])).trans (if_neg (fun he => hc (List.isEmpty_iff.1 he)))

theorem exec_strobeEnd {g : Fin 16} {s : State} (hh : s.held = false) :
    let y := s.gpio g
    let left := y.running.filter (fun e => !e.over s)
    left.length ≠ y.running.length →
    let t := s.setGpio g { y with running := left }
    exec (.strobeEnd g) s = .next (if left = [] then driveStrobe t g false else t).settled := by
  intro y left hl t
  have h : exec (.strobeEnd g) s = execStrobeEnd g s := rfl
  rw [h, execStrobeEnd, if_neg (by simp [hh])]
  refine (if_neg hl).trans ?_
  simp only [List.isEmpty_iff]
  rfl

/-! ### Events (R126 to R134) -/

theorem exec_eventArrival {s : State} (e : Ev) (rest : List Ev) (hq : s.evq = e :: rest) (hd : e.at_ + 3 ≤ s.now) :
    exec .eventArrival s = .next ((reached s e).foldl (fun t i => addPending t i e.hop e.origin) { s with evq := rest }).settled := by
  have h : exec .eventArrival s = execEventArrival s := rfl
  rw [h, execEventArrival, hq]
  exact if_neg (by omega)

/-- The state in which an input of the part has taken its oldest event. -/
def tookEvent (s : State) (j : Nat) (rest : List (Nat × Nat)) : State :=
  s.setInput j { s.input j with pend := rest, took := some s.now }

theorem takeEvent_part {s : State} {j : Nat} {e : Nat × Nat} {rest : List (Nat × Nat)} (hj : isRelay j = false)
    (hp : (s.input j).pend = e :: rest) : takeEvent s j = (some e, tookEvent s j rest) := by
  rw [takeEvent, hp]
  exact if_neg (by simp [hj])

theorem isRelay_inGroupOn (r : RegNo) : isRelay (inGroupOn r) = false := by revert r; decide
theorem isRelay_inGroupOff (r : RegNo) : isRelay (inGroupOff r) = false := by revert r; decide
theorem isRelay_inPulse (r : RegNo) : isRelay (inPulse r) = false := by revert r; decide

section taken
variable {s : State} (hu : s.up = true) {r : RegNo} (e : Nat × Nat) (rest : List (Nat × Nat))
include hu

theorem exec_enableGroup (hp : (s.input (inGroupOn r)).pend = e :: rest) (ht : (s.input (inGroupOn r)).took ≠ some s.now) :
    exec (.enableGroup r) s = .next (groupsOn (tookEvent s (inGroupOn r) rest) (1 <<< r.val)).settled := by
  have h : exec (.enableGroup r) s = execEnableGroup r s := rfl
  rw [h, execEnableGroup, if_pos (by simp [hu, mayTake, ht]), takeEvent_part (isRelay_inGroupOn r) hp]
  rfl

theorem exec_disableGroup (hp : (s.input (inGroupOff r)).pend = e :: rest) (ht : (s.input (inGroupOff r)).took ≠ some s.now) :
    exec (.disableGroup r) s = .next (groupsOff (tookEvent s (inGroupOff r) rest) (1 <<< r.val)).settled := by
  have h : exec (.disableGroup r) s = execDisableGroup r s := rfl
  rw [h, execDisableGroup, if_pos (by simp [hu, mayTake, ht]), takeEvent_part (isRelay_inGroupOff r) hp]
  rfl

theorem exec_eventPulse (hp : (s.input (inPulse r)).pend = e :: rest) (ht : (s.input (inPulse r)).took ≠ some s.now) :
    exec (.eventPulse r) s = .next ((tookEvent s (inPulse r) rest).setTrig r
      { s.trig r with due := (s.trig r).due ++ [⟨2 * (s.now + 24), .expo, none⟩] }).settled := by
  have h : exec (.eventPulse r) s = execEventPulse r s := rfl
  rw [h, execEventPulse, if_pos (by simp [hu, mayTake, ht]), takeEvent_part (isRelay_inPulse r) hp]
  rfl

theorem exec_enterHoldover (hp : (s.input inHoldover).pend = e :: rest) (ht : (s.input inHoldover).took ≠ some s.now) :
    exec .enterHoldover s = .next (doHold (tookEvent s inHoldover rest)).settled := by
  have h : exec .enterHoldover s = execEnterHoldover s := rfl
  rw [h, execEnterHoldover, if_pos (by simp [hu, mayTake, ht]), takeEvent_part (by decide) hp]
  rfl

end taken

/-- A mask that covers a field keeps the field. -/
theorem fieldOf_and_of_ones {w m : Word} {hi lo : Nat} (h : fieldOf m hi lo = 2 ^ (hi + 1 - lo) - 1) :
    fieldOf (w &&& m) hi lo = fieldOf w hi lo := by
  unfold fieldOf at h ⊢
  rw [BitVec.toNat_and, Nat.shiftRight_and_distrib, Nat.and_mod_two_pow, h, Nat.and_two_pow_sub_one_eq_mod, Nat.mod_mod]

/-- A selector entry is written when it is not valid or some parcel declares it (R134). -/
theorem doSelWrite_eq (s : State) (i k : Nat) (v : Word) : doSelWrite s i k v =
    if !v.getLsbD 31 || declared s i (fieldOf v 9 0) (fieldOf v 20 16) then s.wr (R.EVR_SEL i k) (v &&& 0x801F03FF)
    else (s.lockedWrite (R.EVR_SEL i k)).set1 F.EVR_STAT_UNDECLARED := by
  have h31 : (v &&& 0x801F03FF).getLsbD 31 = v.getLsbD 31 := by
    rw [BitVec.getLsbD_and, show (0x801F03FF : Word).getLsbD 31 = true by decide, Bool.and_true]
  rw [← h31, ← fieldOf_and_of_ones (w := v) (m := 0x801F03FF) (hi := 9) (lo := 0) (by decide),
    ← fieldOf_and_of_ones (w := v) (m := 0x801F03FF) (hi := 20) (lo := 16) (by decide)]
  rfl

/-- Settles O27. -/
theorem slotsAndRouting : Obligations.SlotsAndRouting := by
  refine ⟨fun n r g s => ⟨fun hu => ⟨exec_slotFire hu, fun ha ht hc => ⟨fun hd => ?_, fun hd => ?_, fun h0 h1 hl => ?_, fun h0 h1 hl => ?_⟩,
      next_of_up hu, next_of_up hu, next_of_up hu, exec_strobe hu⟩, fun hh => ⟨if_neg (by simp [hh]), exec_widthCap hh, exec_strobeEnd hh⟩⟩,
    fun r i k v s => ⟨exec_eventArrival, fun hu => ⟨exec_enableGroup hu, exec_disableGroup hu, exec_eventPulse hu, exec_enterHoldover hu,
      next_of_up hu, next_of_up hu, next_of_up hu, fun h => ?_, fun h31 hd => ?_⟩⟩⟩
  · exact (exec_slotNextTarget hu ha ht hc).trans (congrArg done (testTarget_ahead hd))
  · exact (exec_slotNextTarget hu ha ht hc).trans (congrArg done (testTarget_range hd))
  · exact (exec_slotNextTarget hu ha ht hc).trans (congrArg done (testTarget_discard h0 h1 hl))
  · exact (exec_slotNextTarget hu ha ht hc).trans (congrArg done (testTarget_late h0 h1 hl))
  · exact (if_pos hu).trans (congrArg done ((doSelWrite_eq ..).trans (if_pos (by simpa using h))))
  · exact (if_pos hu).trans (congrArg done ((doSelWrite_eq ..).trans (if_neg (by rw [h31, hd]; decide))))

end Sys2Proof.Machine
end

section
/-! SUPPORT. The Ethernet ports (O28). -/

namespace Sys2Proof.Machine
open Sys2Proof

/-! ### The Ethernet ports (R138 to R143, R154) -/

theorem exec_arpRetry_sends {s : State} (hu : s.up = true) {w : ArpWait}
    (hw : s.eth.waits.find? (fun w => decide (w.at_ + 100000000 ≤ s.now)) = some w) (hl : s.on (F.ETH_STAT_LINK_UP w.port) = true)
    (hn : w.sent < 3) : let u := sendArp s w.port w.ip.toNat
    exec .arpRetry s = .next { u with eth := { u.eth with
      waits := u.eth.waits.map (fun v => if v == w then { w with sent := w.sent + 1, at_ := u.now } else v) } }.settled := by
  have h : exec .arpRetry s = execArpRetry s := rfl
  rw [h, execArpRetry, hw]
  exact (if_neg (by simp [hu])).trans ((if_neg (by simp [hl])).trans (if_pos hn))

theorem exec_arpRetry_fails {s : State} (hu : s.up = true) {w : ArpWait}
    (hw : s.eth.waits.find? (fun w => decide (w.at_ + 100000000 ≤ s.now)) = some w) (hl : s.on (F.ETH_STAT_LINK_UP w.port) = true)
    (hn : 3 ≤ w.sent) : let u := { s with eth := { s.eth with waits := s.eth.waits.erase w } }
    exec .arpRetry s = .next (w.packets.foldl (fun t p => afterRefused t p.1) (u.set1 (F.ETH_STAT_ARP_FAIL w.port))).settled := by
  have h : exec .arpRetry s = execArpRetry s := rfl
  rw [h, execArpRetry, hw]
  exact (if_neg (by simp [hu])).trans ((if_neg (by simp [hl])).trans (if_neg (by omega)))

section frame
variable {m : Fin 16} {s : State} (hu : s.up = true) (hl : s.on (F.ETH_STAT_LINK_UP m) = true)
include hu hl

theorem exec_ethFrame_badFcs (bytes : List Byte) (overload : Bool) :
    exec (.ethFrame m bytes false overload) s = .next (s.bump (F.ETH_DROP_FCS m)).settled :=
  (if_neg (by simp [hu, hl])).trans (if_pos (by decide))

theorem exec_ethFrame_overload (bytes : List Byte) :
    exec (.ethFrame m bytes true true) s = .next ((s.bump (F.ETH_DROP_OVERLOAD m)).set1 (F.ETH_STAT_OVERLOAD m)).settled :=
  (if_neg (by simp [hu, hl])).trans ((if_neg (by decide)).trans (if_pos rfl))

/-- An untagged frame that the port takes goes by its type. -/
theorem exec_ethFrame_taken {bytes : List Byte} (h60 : 60 ≤ bytes.length) (hmax : bytes.length + 4 ≤ s.f (F.ETH_CFG_MAX_FRAME m))
    (hmac : macTaken s m (beAt bytes 0 6) = true) (hv : s.on (F.ETH_VLAN_TAGGED m) = false) {ty : Nat} (hty : beAt bytes 12 2 = ty)
    (hne : ty ≠ 0x8100) :
    let u := s.incrPair (R.ETH_RX_FRAMES_LO m) (R.ETH_RX_FRAMES_HI m) 1
    exec (.ethFrame m bytes true false) s = if ty = 0x0806 then done (takeArp u m (bytes.drop 14))
      else if ty = 0x0800 then done (takeIp u m (beAt bytes 6 6) (bytes.drop 14) bytes) else done (dropFilter u m) := by
  have h : exec (.ethFrame m bytes true false) s = execEthFrame m bytes true false s := rfl
  have htag : (ty == 0x8100) = false := by simpa using hne
  rw [h, execEthFrame, if_neg (by simp [hu, hl])]
  simp only [hv, hmac, hty, htag]
  refine (if_neg (by decide)).trans ((if_neg (by decide)).trans (if_neg ?_))
  simp only [Bool.or_eq_true, decide_eq_true_eq]
  rintro (((h | h) | h) | h)
  · omega
  · omega
  · exact absurd h (by decide)
  · simp at h

end frame

theorem exec_ethPortUp {m : Fin 16} {s : State} (hu : s.up = true) (he : s.on (F.ETH_CFG_ENABLE m) = true)
    (hl : s.on (F.ETH_STAT_LINK_UP m) = false) (hp : placementOk s m = true) :
    let ty := s.f (F.ETH_CFG_TYPE m)
    let u := ((s.set1 (F.ETH_STAT_LINK_UP m)).set1 (F.ETH_STAT_BLOCK_LOCK m)).put (F.ETH_STAT_ALIGNED m) (decide (ty ≥ 2))
    let u := (u.put (F.ETH_STAT_FEC_LOCK m) (decide (ty ≥ 2) || (ty == 1 && s.on (F.ETH_CFG_FEC m)))).set1 (F.ETH_STAT_LINK_CHG m)
    let u := (portLanes u m).foldl (fun t l =>
      let t := ((t.set1 (F.LNK_LANE_STAT_SIGNAL l)).set1 (F.LNK_LANE_STAT_CDR_LOCK l)).set1 (F.LNK_LANE_STAT_TX_READY l)
      laneRun (t.free.2.wr (R.LNK_RXEQ l) (BitVec.ofNat 32 t.free.1)) l) u
    let u := u.raise (prodEthLink m)
    let ip := (u.rd (R.ETH_IP m)).toNat
    exec (.ethPortUp m) s = .next (if ip = 0 then u else sendArp u m ip).settled :=
  if_pos (by simp [hu, he, hl, hp])

/-- The first received packet of a kind is taken by the command that answers it. -/
def Rx.isArpRequest (r : Rx) : Bool := match r with | .arpRequest _ _ _ => true | _ => false
def Rx.isArpReply (r : Rx) : Bool := match r with | .arpReply _ _ _ => true | _ => false
def Rx.isIcmp (r : Rx) : Bool := match r with | .icmp _ _ _ _ => true | _ => false

theorem exec_arpRequest {s u : State} {p : Nat} {mac : Nat} {ip : Word} (hr : takeRx s Rx.isArpRequest = some (.arpRequest p mac ip, u)) :
    exec .arpRequest s = .next (sendFrame u p mac 0x0806 ([0, 1, 8, 0, 6, 4, 0, 2] ++ bytesBE 6 (portMac u p) ++
      bytesBE 4 (u.rd (R.ETH_IP p)).toNat ++ bytesBE 6 mac ++ bytesBE 4 ip.toNat)).settled := by
  have h : exec .arpRequest s = execArpRequest s := rfl
  rw [h, execArpRequest]
  show (match takeRx s Rx.isArpRequest with | some (.arpRequest m mac ip, s) => _ | _ => _) = _
  rw [hr]
  rfl

theorem exec_arpReply {s u : State} {p : Nat} {mac : Nat} {ip : Word} {w : ArpWait}
    (hr : takeRx s Rx.isArpReply = some (.arpReply p mac ip, u)) (hw : u.eth.waits.find? (fun w => w.port == p && w.ip == ip) = some w)
    (hl : u.on (F.ETH_STAT_LINK_UP p) = true) :
    let cache := (p, ip, mac, u.now) :: u.eth.arp.filter (fun e => !(e.1 == p && e.2.1 == ip))
    exec .arpReply s = .next (w.packets.foldl (fun t q => afterSent (sendFrame t p mac 0x0800 q.2) q.1)
      { u with eth := { u.eth with arp := cache.take 128, waits := u.eth.waits.erase w } }).settled := by
  have h : exec .arpReply s = execArpReply s := rfl
  rw [h, execArpReply]
  show (match takeRx s Rx.isArpReply with | some (.arpReply m mac ip, s) => _ | _ => _) = _
  rw [hr]
  show (match u.eth.waits.find? (fun w => w.port == p && w.ip == ip) with | some w => _ | none => _) = _
  rw [hw]
  exact if_pos hl

/-- The first echo request of a port within a window is answered (R143). -/
theorem icmpAnswer_first {u : State} {p : Nat} {ip : Word} {body : List (BitVec 8)} {window : Nat} (hw : 0 < window)
    (hn : u.eth.icmp.find? (fun e => e.1 == p) = none) :
    let t := { u with eth := { u.eth with icmp := (p, 0 + 1, u.now) :: u.eth.icmp.filter (fun e => e.1 != p) } }
    let b : List Byte := [0] ++ (body.drop 1).take 1 ++ [0, 0] ++ body.drop 4
    icmpAnswer window u p ip body = done (sendIp t p ip.toNat 1 (b.take 2 ++ bytesBE 2 (cksum b) ++ b.drop 4) .none).2 := by
  have hlate : ¬ (decide (u.now + window ≤ u.now)) = true := by
    rw [decide_eq_true_eq]
    omega
  rw [icmpAnswer, hn]
  simp only [Option.getD_none, hlate]
  rfl

theorem exec_icmpEchoRequest {s u : State} {p mac : Nat} {ip : Word} {body : List (BitVec 8)}
    (hr : takeRx s Rx.isIcmp = some (.icmp p mac ip body, u)) :
    exec .icmpEchoRequest s = icmpAnswer 1000000000 u p ip body := by
  have h : exec .icmpEchoRequest s = execIcmpEchoRequest s := rfl
  rw [h, execIcmpEchoRequest_eq]
  show (match takeRx s Rx.isIcmp with | some (.icmp m _ ip body, t) => icmpAnswer 1000000000 t m ip body | _ => _) = _
  rw [hr]

/-- Settles O28. -/
theorem ethernetCommands : Obligations.EthernetCommands := by
  refine fun m n v bytes overload s => ⟨fun hh => if_neg (by simp [hh]), rfl, fun hu => ⟨next_of_up hu, next_of_up hu, exec_ethPortUp hu,
    fun hl => ⟨exec_ethFrame_badFcs hu hl _ _, exec_ethFrame_overload hu hl _, fun h60 hmax hmac hv => ⟨fun ht => ?_, fun ht => ?_⟩⟩,
    fun w hw hl => ⟨exec_arpRetry_sends hu hw hl, exec_arpRetry_fails hu hw hl⟩⟩, fun p mac ip u hr => exec_arpRequest hr,
    fun p mac ip u w hr => exec_arpReply hr, fun p mac ip body u hr hn => ?_⟩
  · exact (exec_ethFrame_taken hu hl h60 hmax hmac hv ht (by decide)).trans (if_pos rfl)
  · exact (exec_ethFrame_taken hu hl h60 hmax hmac hv ht (by decide)).trans ((if_neg (by decide)).trans (if_pos rfl))
  · exact (exec_icmpEchoRequest hr).trans (icmpAnswer_first (Nat.succ_pos _) hn)

end Sys2Proof.Machine
end

section
/-! SUPPORT. Camera packets, feeds and the relay (O29). -/

namespace Sys2Proof.Machine
open Sys2Proof

/-! ### Camera packets (R145 to R153) -/

section packets
variable {n : Fin 64} {s t : State} {id pid : Nat} {l : List (BitVec 8)}

theorem exec_gvspLeader_new (ht : takePacket s n 1 = (some (id, pid, l), t)) (ho : openBlock t n id = none) (hop : opensFrames t = true)
    (hga : gvsActive t n = true) (hid : idAfter t n id = true) (h1 : beAt l 2 2 = 1) (hf : beAt l 12 4 = cfgF t.live (F.GVS_S_FMT_PFNC n))
    (hx : beAt l 16 4 = cfgF t.live (F.GVS_S_SIZE_SIZE_X n)) :
    let o := newBlock t n id
    let w := openMark o.2 (.net n) o.1.cfg o.1.arr (beAt l 4 8)
    let b := { o.1.received 0 with
      next := max 1 o.1.next, gaps := fillGap o.1.gaps 0, chunks := false, chunkOnly := false, sizeY := beAt l 20 4, padX := beAt l 32 2 }
    cfgMode o.1.cfg (.net n) = 0 → w.2.2.on (F.GVS_S_STAT_EXPO_UNCERTAIN n) = false → exec (.gvspLeader n) s =
      .next (closeIfComplete w.2.2 n
        { b with pm := some w.1, flags := b.flags ||| w.2.1, wdFrom := some w.2.2.tim.total }).settled := by
  intro o w b hm hu
  have h : exec (.gvspLeader n) s = execGvspLeader n s := rfl
  rw [h, execGvspLeader, ht]
  simp only [ho, hop, hga, hid, leaderFields, h1, hf, hx]
  refine (if_neg (by decide)).trans ((if_neg (by decide)).trans ((if_neg (by simp)).trans ((if_neg (by decide)).trans ?_)))
  have hw : (newBlock t n id).1.wanted.contains 0 = false := rfl
  have hm' : cfgMode ((newBlock t n id).1.received 0).cfg (.net n) = 0 := hm
  have hu' : (openMark (newBlock t n id).2 (.net n) ((newBlock t n id).1.received 0).cfg ((newBlock t n id).1.received 0).arr
      (beAt l 4 8)).2.2.on (F.GVS_S_STAT_EXPO_UNCERTAIN n) = false := hu
  simp only [hw, hm', Bool.false_eq_true, if_false, hu', decide_true, Bool.true_or, if_true]
  rfl

end packets
section open_
variable {n : Fin 64} {s t : State} {id pid : Nat} {l : List (BitVec 8)} {b : Block}

theorem exec_gvspPayload_joins (ht : takePacket s n 3 = (some (id, pid, l), t)) (ho : openBlock t n id = some b) (h0 : pid ≠ 0)
    (hl : pid ≤ 1 + max b.sizeY (b.sy n)) (hd : ∀ p ∈ b.pkts, p.1 ≠ pid) :
    let b1 := noteGap t b pid
    let b2 := { b1 with pkts := b1.pkts ++ [(pid, l)] }
    let u := if b2.wanted.contains pid then t.bump (F.GVS_S_RSND_CNT_RECOVERED n) else t
    let r := markLines u n (b2.received pid) pid l.length
    exec (.gvspPayload n) s = .next (closeIfComplete r.2 n r.1).settled := by
  have h : exec (.gvspPayload n) s = execGvspPayload n s := rfl
  have hany : b.pkts.any (fun p => p.1 == pid) = false := by simpa using hd
  rw [h, execGvspPayload, ht]
  simp only [ho]
  refine (if_neg (by simp)).trans ((if_neg ?_).trans ((if_neg (by simp)).trans (if_neg (by rw [hany]; decide))))
  simp only [Bool.or_eq_true, decide_eq_true_eq, not_or, not_lt]
  exact ⟨h0, hl⟩

/-- A trailer that its block takes notes its line count, and ends the block or lets the wait for resent packets run (R150). -/
theorem exec_gvspTrailer_taken (ht : takePacket s n 2 = (some (id, pid, l), t)) (ho : openBlock t n id = some b) (h0 : pid ≠ 0)
    (hl : pid ≤ 1 + max b.sizeY (b.sy n)) (hn : b.trailer = none) :
    let b1 := noteGap t b pid
    let b2 := { b1 with
      trailer := some (pid, if beAt l 2 2 = 0x4001 then beAt l 8 4 else beAt l 4 4), waitFrom := some (b1.waitFrom.getD t.now) }
    exec (.gvspTrailer n) s = if b2.complete n then done (closeBlock t n b2 .complete)
      else if cfgF b2.cfg (F.GVS_S_RESEND_WAIT n) = 0 then done (closeBlock t n b2 .missing) else done (setBlock t n b2) := by
  have h : exec (.gvspTrailer n) s = execGvspTrailer n s := rfl
  rw [h, execGvspTrailer, ht]
  simp only [ho]
  refine (if_neg ?_).trans (if_neg (by simp [hn]))
  simp only [Bool.or_eq_true, decide_eq_true_eq, not_or, not_lt]
  exact ⟨h0, hl⟩

end open_

/-- A gap's delay is over. -/
def gapDue (s : State) (n : Nat) (b : Block) (g : Gap) : Bool :=
  decide (g.found + cfgF b.cfg (F.GVS_S_RESEND_GAP_DELAY n) * 1000 ≤ s.now)

theorem exec_gapDelay {n : Fin 64} {s : State} {b : Block} {g : Gap}
    (hb : (s.strm n).blocks.find? (fun b => b.closed.isNone && b.gaps.any (gapDue s n b)) = some b) (hg : b.gaps.find? (gapDue s n b) = some g) :
    exec (.gapDelay n) s = .next
      ((b.asksOf n g).foldl (fun t r => queueGap t n b.id r) (setBlock s n { b with gaps := b.gaps.erase g })).settled := by
  have h : exec (.gapDelay n) s = execGapDelay n s := rfl
  rw [h, execGapDelay]
  show (match (s.strm n).blocks.find? (fun b => b.closed.isNone && b.gaps.any (gapDue s n b)) with
    | some b => (match b.gaps.find? (gapDue s n b) with | some g => _ | none => _) | none => _) = _
  rw [hb]
  show (match b.gaps.find? (gapDue s n b) with | some g => _ | none => _) = _
  rw [hg]
  rfl

/-- The wait of a block for resent packets is over (R150). -/
def waitOver (s : State) (n : Nat) (b : Block) : Bool :=
  match b.waitFrom with
  | some w => decide (w + cfgF b.cfg (F.GVS_S_RESEND_WAIT n) * 100000 ≤ s.now)
  | none => false

/-- The frame watchdog of a block has expired (R153). -/
def frameOver (s : State) (n : Nat) (b : Block) : Bool :=
  match b.wdFrom with
  | some w => decide (w + (cfgF b.cfg (F.GVS_S_TMO_FRAME_TMO n) : Nat) * 1000 ≤ s.tim.total)
  | none => false

theorem exec_resendWait {n : Fin 64} {s : State} {b : Block} (hu : s.up = true)
    (hb : (s.strm n).blocks.find? (fun b => b.closed.isNone && waitOver s n b) = some b) :
    exec (.resendWait n) s = .next (closeBlock s n b .missing).settled := by
  have h : exec (.resendWait n) s = execResendWait n s := rfl
  rw [h, execResendWait]
  show (match (s.strm n).blocks.find? (fun b => b.closed.isNone && waitOver s n b) with | some b => _ | none => _) = _
  rw [hb]
  exact if_pos hu

theorem exec_frameWatchdog {n : Fin 64} {s : State} {b : Block} (hu : s.up = true)
    (hb : (s.strm n).blocks.find? (fun b => b.closed.isNone && cfgF b.cfg (F.GVS_S_TMO_FRAME_TMO n) != 0 && frameOver s n b) = some b) :
    exec (.frameWatchdog n) s = .next (closeBlock s n b .timeout).settled := by
  have h : exec (.frameWatchdog n) s = execFrameWatchdog n s := rfl
  rw [h, execFrameWatchdog]
  show (match (s.strm n).blocks.find? (fun b => b.closed.isNone && cfgF b.cfg (F.GVS_S_TMO_FRAME_TMO n) != 0 && frameOver s n b) with
    | some b => _ | none => _) = _
  rw [hb]
  exact if_pos hu

/-! ### Feeds and the relay (R155 to R167, R178, R179) -/

theorem entryTimeout_due {s : State} {fd : Feed} {e : TrigEntry} {rest : List TrigEntry} (hq : (feedM s fd).queue = e :: rest)
    (ht : feedTmo s fd ≠ 0) (hd : e.edge + feedTmo s fd * 1000 ≤ s.tim.total) :
    entryTimeout s fd = missed (setFeedM s fd { feedM s fd with queue := rest }) fd := by
  rw [entryTimeout]
  simp only [hq]
  exact if_pos (by simp [ht, hd])

theorem doMrqPop_eq {s : State} {m : Nat} {e : Nat × List (BitVec 8) × Int × Nat} (he : s.eth.mrq.find? (fun e => e.1 == m) = some e) :
    doMrqPop s m = { s with eth := { s.eth with mrq := s.eth.mrq.erase e } } := by
  rw [doMrqPop, he]

theorem doMtx_plain {s : State} {m : Nat} {v : Word} (h31 : v.getLsbD 31 = true) (h30 : v.getLsbD 30 = false) (h29 : v.getLsbD 29 = false)
    (h60 : 60 ≤ fieldOf v 8 0) (h256 : fieldOf v 8 0 ≤ 256) (hl : s.on (F.ETH_STAT_LINK_UP m) = true) :
    doMtx s m v = s.emit (.frame m (s.bread (mtxData m) (fieldOf v 8 0))) := by
  have hk : max 60 (min 256 (fieldOf v 8 0)) = fieldOf v 8 0 := by omega
  have h0 : (fieldOf v 8 0 == 0) = false := beq_eq_false_iff_ne.2 (by omega)
  rw [doMtx]
  simp only [h31, h0, hk, h29, h30]
  exact (if_neg (by decide)).trans (if_neg (by simp [hl]))

section relay
variable {s : State} (hu : s.up = true) {k : Nat} {c : List (BitVec 8)} {orig from_ wait : Nat}
  (hr : s.eth.relay = some (k, c, orig, some from_, wait)) (hd : from_ + wait ≤ s.now)
include hu hr hd

theorem exec_ackTmo_ends (hn : s.f F.GVS_RLY_CFG_RETRIES < s.f F.GVS_RLY_STAT_ATTEMPTS) :
    exec .ackTmo s = .next (relayEnd s 2).settled := by
  have h : exec .ackTmo s = execAckTmo s := rfl
  rw [h, execAckTmo, hr]
  exact (if_pos (by simp [hu, hd])).trans (if_neg (by omega))

theorem exec_ackTmo_repeats (hn : s.f F.GVS_RLY_STAT_ATTEMPTS ≤ s.f F.GVS_RLY_CFG_RETRIES) :
    let u := s.sf F.GVS_RLY_STAT_ATTEMPTS (s.f F.GVS_RLY_STAT_ATTEMPTS + 1)
    exec .ackTmo s = .next (relaySend { u with eth := { u.eth with relay := some (k, c, orig, none, ackTmo u) } } k c).settled := by
  have h : exec .ackTmo s = execAckTmo s := rfl
  rw [h, execAckTmo, hr]
  exact (if_pos (by simp [hu, hd])).trans (if_pos hn)

end relay

section heartbeat
variable {n : Fin 64} {s : State} (hu : s.up = true) (he : s.lon (F.GVS_S_HB_EN n) = true)
include hu he

theorem exec_heartbeat (hp : s.lf (F.GVS_S_HB_PERIOD n) ≠ 0) (hd : (s.strm n).hbFrom + s.lf (F.GVS_S_HB_PERIOD n) * 1000000 ≤ s.now) :
    let q := nextReq s
    let u := q.2.setStrm n { q.2.strm n with hbFrom := q.2.now, hbOut := (q.2.strm n).hbOut ++ [(q.1, q.2.now)] }
    exec (.heartbeat n) s = .next (sendUdp u (u.lf (F.GVS_S_CFG_PORT n)) (u.lrd (R.GVS_S_CAM_IP n)).toNat 49152 3956
      (gvcp 1 0x0080 q.1 (bytesBE 4 0x0A00)) (.heartbeat n)).2.settled :=
  if_pos (by simp [hu, he, hp, hd])

/-- A heartbeat without an answer is counted; at the third the camera is lost, once (R165). -/
theorem exec_heartbeatTimeout {q w : Nat} {rest : List (Nat × Nat)} (ho : (s.strm n).hbOut = (q, w) :: rest) (hd : w + 200000000 ≤ s.now) :
    let x := s.strm n
    let u := s.setStrm n { x with hbOut := rest, hbMiss := x.hbMiss + 1 }
    exec (.heartbeatTimeout n) s = if decide (x.hbMiss + 1 ≥ 3) && !s.on (F.GVS_S_STAT_CAM_LOST n) then
      done (streamFault ((u.set1 (F.GVS_S_STAT_CAM_LOST n)).set1 (F.GVS_S_FLAGS_CAM_LOST n)) n) else done u := by
  have h : exec (.heartbeatTimeout n) s = execHeartbeatTimeout n s := rfl
  rw [h, execHeartbeatTimeout]
  simp only [ho, he]
  exact if_pos (by simp [hu, hd])

end heartbeat

def Rx.isPtp (r : Rx) : Bool := match r with | .ptp _ _ _ _ => true | _ => false
def Rx.isGvcp (r : Rx) : Bool := match r with | .gvcp _ _ _ => true | _ => false

theorem exec_ptpMessage {s u : State} {p : Nat} {fr : List (BitVec 8)} {st : Int} {ep : Nat}
    (hr : takeRx s Rx.isPtp = some (.ptp p fr st ep, u)) (hl : (mrqOf u p).length < 16) :
    exec .ptpMessage s = .next { u with eth := { u.eth with mrq := u.eth.mrq ++ [(p, fr, st, ep)] } }.settled := by
  have h : exec .ptpMessage s = execPtpMessage s := rfl
  rw [h, execPtpMessage]
  show (match takeRx s Rx.isPtp with | some (.ptp m fr st ep, s) => _ | _ => _) = _
  rw [hr]
  exact if_neg (by omega)

theorem exec_gvcpAck {s u : State} {p : Nat} {ip : Word} {a c : List (BitVec 8)} {k orig wait : Nat} {from_ : Option Nat}
    (hr : takeRx s Rx.isGvcp = some (.gvcp p ip a, u)) (hrel : u.eth.relay = some (k, c, orig, from_, wait))
    (hip : u.lrd (R.GVS_S_CAM_IP k) = ip) (hp : u.lf (F.GVS_S_CFG_PORT k) = p) (hc : beAt c 6 2 = beAt a 6 2) (h8 : 8 ≤ a.length)
    (h576 : a.length ≤ 576) (hcode : beAt a 2 2 ≠ 0x0089) : exec .gvcpAck s =
      .next ((relayEnd (u.bwrite rlyAck (a.take 6 ++ bytesBE 2 orig ++ a.drop 8)) 1).sf F.GVS_RLY_STAT_ACK_LEN a.length).settled := by
  have h : exec .gvcpAck s = execGvcpAck s := rfl
  rw [h, execGvcpAck]
  show (match takeRx s Rx.isGvcp with | some (.gvcp m ip a, s) => _ | _ => _) = _
  rw [hr]
  show (match u.eth.relay with | some (n, c, orig, _, _) => _ | none => _) = _
  rw [hrel]
  refine (if_pos (by rw [hip, hp, hc]; simp)).trans ((if_neg ?_).trans (if_neg hcode))
  simp only [Bool.or_eq_true, decide_eq_true_eq]
  omega

/-- Settles O29. -/
theorem cameraPortCommands : Obligations.CameraPortCommands := by
  refine ⟨fun n s => ⟨fun id pid l t => exec_gvspLeader_new, fun id pid l t b => exec_gvspPayload_joins,
      fun id pid l t b ht ho h0 hl hn => ⟨fun hc => ?_, fun hc hw => ?_, fun hc hw => ?_⟩, fun b g hb hg => exec_gapDelay hb hg,
      fun hu hq => ⟨next_of_up hu, next_of_up hu⟩, fun hu b => ⟨exec_resendWait hu, exec_frameWatchdog hu⟩⟩,
    fun port n t m v s => ⟨fun hu => ⟨fun e rest hq ht hd => ?_, next_of_up hu, fun _ => next_of_up hu, next_of_up hu, fun hx => ?_,
      next_of_up hu, next_of_up hu, fun e he => ?_, fun h31 h30 h29 h60 h256 hl => ?_, fun _ _ _ _ => next_of_up hu,
      fun k c orig from_ wait hr hd => ⟨exec_ackTmo_ends hu hr hd, exec_ackTmo_repeats hu hr hd⟩, exec_heartbeat hu,
      fun q w rest ho hd he => ⟨fun hm => ?_, fun hm hl => ?_⟩⟩,
    fun p fr st ep u => exec_ptpMessage, fun p ip a u k c orig from_ wait => exec_gvcpAck⟩⟩
  · exact (exec_gvspTrailer_taken ht ho h0 hl hn).trans (if_pos hc)
  · exact (exec_gvspTrailer_taken ht ho h0 hl hn).trans ((if_neg (Bool.eq_false_iff.1 hc)).trans (if_pos hw))
  · exact (exec_gvspTrailer_taken ht ho h0 hl hn).trans ((if_neg (Bool.eq_false_iff.1 hc)).trans (if_neg hw))
  · exact (if_pos hu).trans (congrArg done (entryTimeout_due hq ht hd))
  · exact (if_pos hu).trans (congrArg done (if_pos hx))
  · exact (if_pos hu).trans (congrArg done (doMrqPop_eq he))
  · exact (if_pos hu).trans (congrArg done (doMtx_plain h31 h30 h29 h60 h256 hl))
  · exact (exec_heartbeatTimeout hu he ho hd).trans (if_neg (by simp; omega))
  · exact (exec_heartbeatTimeout hu he ho hd).trans (if_pos (by rw [hl, decide_eq_true hm]; rfl))

end Sys2Proof.Machine
end

section
/-! SUPPORT. Parallel ports (O30). -/

namespace Sys2Proof.Machine
open Sys2Proof

/-! ### Parallel ports (R170 to R178, R186) -/

section parallel
variable {p : Fin 4} {level : Bool} {s : State} (hu : s.up = true)
include hu

section fval
variable (ha : ctlActive (parCfg s p) (F.PAR_CFG_FVAL_POL p) level = true)
include ha

theorem exec_parFrameOpen_opens (hi : s.lon (F.PAR_CFG_FVAL_IGN p) = false) :
    exec (.parFrameOpen ⟨p, level⟩) s = .next (parOpen (s.setPar p { s.par p with fval := true }) p).settled :=
  (if_neg (by simp [hu, ha])).trans (if_neg (Bool.eq_false_iff.1 hi))

theorem exec_parFrameOpen_ignored (hi : s.lon (F.PAR_CFG_FVAL_IGN p) = true) :
    exec (.parFrameOpen ⟨p, level⟩) s = .next (s.setPar p { s.par p with fval := true }).settled :=
  (if_neg (by simp [hu, ha])).trans (if_pos hi)

end fval

/-- The active level of LVAL opens a line of the frame that is open (R172, R173). -/
theorem exec_parLineOpen (ha : ctlActive (parCfg s p) (F.PAR_CFG_LVAL_POL p) level = true) (hc : capturing s = true)
    (hi : s.lon (F.PAR_CFG_FVAL_IGN p) = false) :
    let x := { s.par p with lval := true }
    let u := s.setPar p x
    ∀ f, x.frame = some f → x.blocked = false → f.line = none → f.lines < f.sy p → cfgF f.cfg (F.PAR_CFG_TRIG_MODE p) ≠ 2 →
      exec (.parLineOpen ⟨p, level⟩) s = .next (u.setPar p { u.par p with frame := some { f with line := some { pm := f.pm } } }).settled := by
  intro x u f hf hb hl hn hm
  have h : exec (.parLineOpen ⟨p, level⟩) s = execParLineOpen ⟨p, level⟩ s := rfl
  have hiu : u.lon (F.PAR_CFG_FVAL_IGN p) = false := hi
  have hcu : capturing u = true := hc
  rw [h, execParLineOpen, if_neg (by simp [hu, ha])]
  extract_lets _ _ _ v y
  have hv : v = u := if_neg (Bool.eq_false_iff.1 hiu)
  have hy : y = x := by
    show v.par p = x
    rw [hv]
    exact State.par_setPar ..
  rw [hv, hy]
  refine (if_neg (by rw [hcu]; decide)).trans ((if_neg (Bool.eq_false_iff.1 hb)).trans ?_)
  rw [hf]
  refine (if_neg (by simp [hl])).trans ((if_neg (Nat.not_le_of_lt hn)).trans ?_)
  simp only [decide_eq_false hm, Bool.false_and, Bool.false_eq_true, if_false, Nat.or_zero]
  rfl

theorem exec_parSample (hv : cfgOn (parCfg s p) (F.PAR_CFG_DVAL_EN p) = false ∨ ctlActive (parCfg s p) (F.PAR_CFG_DVAL_POL p) level = true)
    (hc : capturing s = true) (hl : (s.par p).lval = true) (hb : (s.par p).badClk = false) (f : ParFrame) (l : ParLine)
    (hf : (s.par p).frame = some f) (hfl : f.line = some l) (rise fall : BitVec 16) :
    let a := l.take (f.sx p) (parPixels f.cfg p rise) false
    let b := if cfgOn f.cfg (F.PAR_CFG_DDR p) then a.take (f.sx p) (parPixels f.cfg p fall) true else a
    exec (.parSample ⟨p, level⟩ rise fall) s = .next (s.setPar p { s.par p with frame := some { f with line := some b } }).settled := by
  intro a b
  have h : exec (.parSample ⟨p, level⟩ rise fall) s = execParSample ⟨p, level⟩ rise fall s := rfl
  have hvalid : (!cfgOn (parCfg s p) (F.PAR_CFG_DVAL_EN p) || ctlActive (parCfg s p) (F.PAR_CFG_DVAL_POL p) level) = true := by
    simpa using hv
  rw [h, execParSample]
  refine (if_neg (by simp [hu, hl, hb, hc])).trans ?_
  show (match (s.par p).frame with
    | none => _
    | some f => (match f.line with | none => _ | some l => _)) = _
  rw [hf]
  show (match f.line with | none => _ | some l => _) = _
  rw [hfl]
  exact if_neg (by rw [hvalid]; decide)

/-- The inactive level of LVAL closes the line; the frame goes on (R172). -/
theorem exec_parLineClose (ha : ¬ ctlActive (parCfg s p) (F.PAR_CFG_LVAL_POL p) level = true) (hc : capturing s = true) :
    let u := parLineEnd s p
    let u := u.setPar p { u.par p with lval := false, blocked := (u.par p).blocked && !u.lon (F.PAR_CFG_FVAL_IGN p) }
    (∀ f, (u.par p).frame = some f → fvalIgn f p = false) → exec (.parLineClose ⟨p, level⟩) s = .next u.settled := by
  intro u0 u hf
  have h : exec (.parLineClose ⟨p, level⟩) s = execParLineClose ⟨p, level⟩ s := rfl
  rw [h, execParLineClose, if_neg (by simp [hu, ha]), hc]
  show (match (u.par p).frame with | some f => _ | none => _) = _
  cases hfr : (u.par p).frame with
  | none => rfl
  | some f => exact if_neg (by simp [hf f hfr])

theorem exec_parFrameClose (ha : ¬ ctlActive (parCfg s p) (F.PAR_CFG_FVAL_POL p) level = true) (hc : capturing s = true) (f : ParFrame)
    (hf : (s.par p).frame = some f) (hi : fvalIgn f p = false) :
    let u := parEnd s p false
    exec (.parFrameClose ⟨p, level⟩) s =
      .next (u.setPar p { u.par p with fval := false, blocked := (u.par p).blocked && u.lon (F.PAR_CFG_FVAL_IGN p) }).settled := by
  intro u
  have h : exec (.parFrameClose ⟨p, level⟩) s = execParFrameClose ⟨p, level⟩ s := rfl
  rw [h, execParFrameClose, if_neg (by simp [hu, ha])]
  simp only [hf, hi, hc]
  rfl

theorem exec_parFrameWatchdog (f : ParFrame) (hf : (s.par p).frame = some f) (ht : cfgF f.cfg (F.PAR_TMO_FRAME_TMO p) ≠ 0)
    (hd : f.wdFrom + (cfgF f.cfg (F.PAR_TMO_FRAME_TMO p) : Nat) * 1000 ≤ s.tim.total) :
    exec (.parFrameWatchdog p) s = .next (parEnd s p true).settled := by
  have h : exec (.parFrameWatchdog p) s = execParFrameWatchdog p s := rfl
  rw [h, execParFrameWatchdog, hf]
  exact if_pos (by simp [hu, ht, hd])

/-- A pixel clock that is not there is lost; the judgement of a clock in range stands (R177). -/
theorem exec_pclkCheck_lost (hb : (s.par p).badClk = false) :
    exec (.pclkCheck p none) s = .next ((((s.sf (F.PAR_STAT_PCLK_MHZ p) 0).set1 (F.PAR_FLAGS_PCLK_LOST p)).clr (F.PAR_STAT_PCLK_OK p)).setPar p
      { s.par p with goodFrom := none }).settled := by
  have h : exec (.pclkCheck p none) s = execPclkCheck p none s := rfl
  rw [h, execPclkCheck, if_neg (by simp [hu])]
  refine (if_neg (by decide)).trans ?_
  simp only [hb, Bool.false_and]
  rfl

theorem exec_pclkCheck_range {mhz : Nat} (hm : 204 < mhz) :
    let u := s.sf (F.PAR_STAT_PCLK_MHZ p) (min 255 mhz)
    exec (.pclkCheck p (some mhz)) s = .next (((u.set1 (F.PAR_FLAGS_PCLK_RANGE p)).clr (F.PAR_STAT_PCLK_OK p)).setPar p
      { s.par p with badClk := true, goodFrom := some s.now }).settled :=
  (if_neg (by simp [hu])).trans (if_pos hm)

theorem exec_pclkCheck_good {mhz : Nat} (hm : mhz ≤ 204)
    (hg : (s.par p).badClk = true → ∃ g, (s.par p).goodFrom = some g ∧ g + 100000 ≤ s.now) :
    let u := s.sf (F.PAR_STAT_PCLK_MHZ p) (min 255 mhz)
    exec (.pclkCheck p (some mhz)) s =
      .next ((u.set1 (F.PAR_STAT_PCLK_OK p)).setPar p { s.par p with badClk := false, goodFrom := none }).settled := by
  intro u
  have h : exec (.pclkCheck p (some mhz)) s = execPclkCheck p (some mhz) s := rfl
  have hbad : ((s.par p).badClk && !decide ((s.par p).goodFrom.getD s.now + 100000 ≤ s.now)) = false := by
    cases hb : (s.par p).badClk with
    | false => rfl
    | true =>
      obtain ⟨g, hgf, hle⟩ := hg hb
      simp [hgf, hle]
  rw [h, execPclkCheck, if_neg (by simp [hu])]
  refine (if_neg (by simpa using hm)).trans ?_
  extract_lets _ bad
  have hb : bad = false := hbad
  rw [hb]
  rfl

theorem exec_gpioInput {g : Fin 16} {w : Word} (hm : s.f (F.TRG_GPIO_CFG_MODE g) = 0 ∨ s.f (F.TRG_GPIO_CFG_MODE g) = 3)
    (hw : s.f (F.TRG_GPIO_CFG_FILT g) ≤ w.toNat) :
    exec (.gpioInput g level w) s = .next (s.put ⟨R.TRG_GPIO_IN, g, g⟩ level).settled := by
  refine if_pos ?_
  rw [hu, decide_eq_true hw, Bool.true_and, Bool.and_true, Bool.or_eq_true, beq_iff_eq, beq_iff_eq]
  exact hm

end parallel

/-- Settles O30. -/
theorem parallelPorts : Obligations.ParallelPorts := fun p g level w rise fall s hu =>
  ⟨fun ha => ⟨exec_parFrameOpen_opens hu ha, exec_parFrameOpen_ignored hu ha⟩, exec_parLineOpen hu,
    fun hv hc hl hb f l hf hfl => exec_parSample hu hv hc hl hb f l hf hfl rise fall,
    fun ha hc => ⟨fun hf => exec_parLineClose hu ha hc (fun f hf' => by rw [hf] at hf'; cases hf'),
      fun f hf hi => exec_parLineClose hu ha hc (fun f' hf' => by rw [hf] at hf'; cases hf'; exact hi)⟩,
    exec_parFrameClose hu, exec_parFrameWatchdog hu,
    ⟨exec_pclkCheck_lost hu, fun _ => ⟨exec_pclkCheck_range hu, exec_pclkCheck_good hu⟩⟩, exec_gpioInput hu⟩

end Sys2Proof.Machine
end

section
/-! SUPPORT. The Mill (O31). -/

namespace Sys2Proof.Machine
open Sys2Proof

section mill
variable {n : Fin 64} {s : State} (hu : s.up = true)

section arrival
variable {st fr r : Nat} {px : RawLine} {pm : Postmark} {rest : List MillIn}

theorem exec_millLineArrive_queued (hu : s.up = true) (hl : s.toMill = .line st fr r px pm :: rest) (hq : queueFull s st = false) :
    let u := { s with toMill := rest }
    let x := u.mill st
    exec .millLineArrive s = .next (u.setMill st { x with inq := x.inq ++ [(.line st fr r px pm, false)] }).settled := by
  have h : exec .millLineArrive s = execMillLineArrive s := rfl
  have hw : ¬ (!s.up || (isLine (.line st fr r px pm) && queueFull s st && s.f F.DEV_MODE_MODE == 6)) = true := by simp [hu, hq]
  intro u x
  have hq' : queueFull u st = false := hq
  rw [h, execMillLineArrive, hl]
  exact (if_neg hw).trans (if_neg (Bool.eq_false_iff.1 hq'))

/-- Outside REPLAY a line that finds its queue full is dropped and leaves a line of fill owed to the queue (R198). -/
theorem exec_millLineArrive_dropped (hu : s.up = true) (hl : s.toMill = .line st fr r px pm :: rest) (hq : queueFull s st = true)
    (hm : s.f F.DEV_MODE_MODE ≠ 6) :
    let u := { s with toMill := rest }
    let x := u.mill st
    exec .millLineArrive s = .next
      ((((u.setMill st { x with owed := x.owed ++ [.line st fr r (px.map (fun _ => none)) pm] }).bump (F.MIL_S_DROP_LINES st)).set1
        (F.MIL_S_FLAGS_OVERFLOW st)).set1 F.MIL_STAT_OVERFLOW).settled := by
  have h : exec .millLineArrive s = execMillLineArrive s := rfl
  have hw : ¬ (!s.up || (isLine (.line st fr r px pm) && queueFull s st && s.f F.DEV_MODE_MODE == 6)) = true := by simp [hu, hm]
  intro u x
  have hq' : queueFull u st = true := hq
  rw [h, execMillLineArrive, hl]
  exact (if_neg hw).trans (if_pos hq')

theorem exec_millLineArrive_waits (hl : s.toMill = .line st fr r px pm :: rest) (hq : queueFull s st = true)
    (hm : s.f F.DEV_MODE_MODE = 6) : exec .millLineArrive s = .next s.settled := by
  have h : exec .millLineArrive s = execMillLineArrive s := rfl
  have hw : (!s.up || (isLine (.line st fr r px pm) && queueFull s st && s.f F.DEV_MODE_MODE == 6)) = true := by
    simp [isLine, hq, hm]
  rw [h, execMillLineArrive, hl]
  exact if_pos hw

end arrival

theorem exec_tdiBinEmit {b : TdiBin} {rest : List TdiBin} (hr : (s.mill n).ready = b :: rest) :
    exec (.tdiBinEmit n) s = .next (binOut (s.setMill n { s.mill n with ready := rest }) b).settled := by
  have h : exec (.tdiBinEmit n) s = execTdiBinEmit n s := rfl
  rw [h, execTdiBinEmit]
  show (match (s.mill n).ready with | b :: rest => _ | [] => _) = _
  rw [hr]
  rfl

include hu in
/-- The streams are looked at in turn from the one after the last that was served (R197). -/
theorem exec_millSegment :
    let u := (List.range 64).foldl (fun t n => drainMarks (t.mill n).inq.length t n) s
    ∀ k, (List.range 64).find? (fun k => segReady u ((u.millLast + 1 + k) % 64)) = some k →
      let st := (u.millLast + 1 + k) % 64
      let w := takeSegment u st
      exec .millSegment s = .next (drainMarks (w.mill st).inq.length w st).settled := by
  have h : exec .millSegment s = execMillSegment s := rfl
  rw [h, execMillSegment, if_neg (by simp [hu])]
  generalize (List.range 64).foldl (fun t n => drainMarks (t.mill n).inq.length t n) s = t
  intro u k hk st w
  show (match (List.range 64).find? (fun k => segReady t ((t.millLast + 1 + k) % 64)) with | some k => _ | none => _) = _
  rw [hk]
  rfl

include hu in
theorem exec_statsRecord {r : List (BitVec 8)} {base lg : Nat} {rest : List (List (BitVec 8) × Nat × Nat)}
    (hr : (s.mill n).recs = (r, base, lg) :: rest) :
    let k := (s.rd (R.MIL_ST_WR n)).toNat
    exec (.statsRecord n) s = .next (((s.setMill n { s.mill n with recs := rest }).dwrite (base * 64 + 1280 * (k % 2 ^ lg))
      (r.take 28 ++ bytesLE 4 k ++ r.drop 32)).incr (F.MIL_ST_WR_COUNT n) 1).settled := by
  intro k
  have h : exec (.statsRecord n) s = execStatsRecord n s := rfl
  rw [h, execStatsRecord]
  show (match (s.mill n).recs with | (r, base, lg) :: rest => _ | [] => _) = _
  rw [hr]
  exact if_neg (by simp [hu])

/-- The frame whose cells CAL_START clears is that of the stream's own settings when no parallel port feeds it (R220). -/
theorem doCalStart_starts (hc : (s.mill n).calRun = false) (hf : s.f (F.MIL_CAL_CFG_FRAMES n) ≠ 0) (ht : s.rd (R.MIL_CAL_TBL n) ≠ 0)
    (hp : ∀ p < 4, (parActive s p && s.lf (F.PAR_CFG_STREAM p) == n) = false) :
    let cells := if s.lon (F.MIL_CFG_KIND n) then s.lf (F.GVS_S_SIZE_SIZE_X n) * s.lf (F.GVS_S_SIZE_SIZE_Y n)
      else s.lf (F.GVS_S_SIZE_SIZE_X n)
    doCalStart s n = ((s.dzero ((s.rd (R.MIL_CAL_TBL n)).toNat * 64) (24 * cells)).sf (F.MIL_CAL_LEFT_LEFT n)
      (s.f (F.MIL_CAL_CFG_FRAMES n))).setMill n
      { s.mill n with calRun := true, ver := { (s.mill n).ver with cals := (s.mill n).ver.cals + 1 } } := by
  intro cells
  have hb : (s.rd (R.MIL_CAL_TBL n)).toNat ≠ 0 := fun h0 => ht (BitVec.eq_of_toNat_eq h0)
  have hnone : (List.range 4).find? (fun p => parActive s p && s.lf (F.PAR_CFG_STREAM p) == n) = none := by
    rw [List.find?_eq_none]
    intro p hpm
    rw [hp p (List.mem_range.1 hpm)]
    decide
  rw [doCalStart, if_neg (by simp [hc, hf, hb])]
  simp only [hnone]
  rfl

end mill

/-- Settles O31, command by command. -/
theorem millCommands : Obligations.MillCommands := by
  intro n s
  refine ⟨fun b rest hr => exec_tdiBinEmit hr, fun hu => ⟨fun st fr r px pm rest hl => ⟨exec_millLineArrive_queued hu hl,
    exec_millLineArrive_dropped hu hl, exec_millLineArrive_waits hl⟩, exec_millSegment hu, fun r base lg rest hr => exec_statsRecord hu hr,
    next_of_up hu, fun hc hf ht hp => (if_pos hu).trans (congrArg done (doCalStart_starts hc hf ht hp)), next_of_up hu⟩⟩

end Sys2Proof.Machine
end

section
/-! SUPPORT. The collator (O32). -/

namespace Sys2Proof.Machine
open Sys2Proof

section collator
variable {q : Fin 8} {s : State} (hu : s.up = true)

theorem takeEvent_pending {i h o : Nat} {rest : List (Nat × Nat)} (hp : (s.input i).pend = (h, o) :: rest)
    (hr : (isRelay i && h == 7) = false) :
    takeEvent s i = (some (h, o), s.setInput i { s.input i with pend := rest, took := some s.now }) := by
  rw [takeEvent, hp]
  exact if_neg (Bool.eq_false_iff.1 hr)

include hu

theorem exec_colLine {o : OutLine} {rest : List OutLine} (hl : s.toCol = o :: rest) :
    exec .colLine s = .next (collateLine { s with toCol := rest } o).settled := by
  have h : exec .colLine s = execColLine s := rfl
  rw [h, execColLine, hl]
  exact if_pos hu

section cut
variable {h o : Nat} {rest : List (Nat × Nat)} (hp : (s.input (inCut q)).pend = (h, o) :: rest)
  (hr : (isRelay (inCut q) && h == 7) = false)
include hp hr

/-- A cut event cuts at the position of the sequence's axis (R236). -/
theorem exec_colCut_axis :
    let u := s.setInput (inCut q) { s.input (inCut q) with pend := rest, took := some s.now }
    let c := colCfg u
    u.f F.DEV_MODE_MODE ≠ 6 →
      let k := sheafOf c q (axisPos u (cfgF c (F.COL_SQ_CFG_AXIS q)))
      exec (.colCut q) s =
        .next ((noteCut (cutWhere u q false (fun h => before_ (sqDir c q) h.no k)) q k).raiseEv (prodCut q) (h + 1) o).settled := by
  have he : exec (.colCut q) s = execColCut q s := rfl
  rw [he, execColCut, if_neg (by simp [hu]), takeEvent_pending hp hr]
  generalize s.setInput (inCut q) { s.input (inCut q) with pend := rest, took := some s.now } = t
  intro u c hm k
  have hm' : ¬ t.f F.DEV_MODE_MODE = 6 := hm
  simp only [if_neg hm']
  rfl

/-- In REPLAY it cuts at the position of the last line (R409). -/
theorem exec_colCut_replay :
    let u := s.setInput (inCut q) { s.input (inCut q) with pend := rest, took := some s.now }
    let c := colCfg u
    u.f F.DEV_MODE_MODE = 6 → ∀ p, (u.seq q).lastPos = some p →
      let k := sheafOf c q p
      exec (.colCut q) s =
        .next ((noteCut (cutWhere u q false (fun h => before_ (sqDir c q) h.no k)) q k).raiseEv (prodCut q) (h + 1) o).settled := by
  have he : exec (.colCut q) s = execColCut q s := rfl
  rw [he, execColCut, if_neg (by simp [hu]), takeEvent_pending hp hr]
  generalize s.setInput (inCut q) { s.input (inCut q) with pend := rest, took := some s.now } = t
  intro u c hm p hl k
  have hm' : t.f F.DEV_MODE_MODE = 6 := hm
  have hl' : (t.seq q).lastPos = some p := hl
  simp only [if_pos hm', hl']
  rfl

end cut

theorem exec_restart :
    let u := cutWhere s q true (fun _ => true)
    ((∃ h ∈ (u.seq q).sheaves, h.stage = .cut) → exec (.restart q) s = .next (u.setSeq q { u.seq q with restart := true }).settled) ∧
    ((∀ h ∈ (u.seq q).sheaves, h.stage ≠ .cut) →
      exec (.restart q) s = .next (u.setSeq q { u.seq q with floor := none, restart := false, lost := [], cutK := none }).settled) := by
  have he : exec (.restart q) s = done (doRestart s q) := if_pos hu
  rw [he, doRestart]
  generalize cutWhere s q true (fun _ => true) = t
  refine ⟨fun hc => congrArg done (if_pos ?_), fun hc => congrArg done (if_neg ?_)⟩
  · simpa using hc
  · simpa using hc

theorem exec_lineSettle {h : SheafSt} (hf : firstSheaf (s.seq q) (sqDir (colCfg s) q) (fun h => h.stage != .closed &&
      decide (h.settled < sqLines h.cfg q) && membersDone s q h h.settled && bandsThere q h h.settled) = some h) :
    exec (.lineSettle q) s = .next (putSheaf (settleLine s q h).2 q (settleLine s q h).1).settled := by
  have he : exec (.lineSettle q) s = execLineSettle q s := rfl
  rw [he, execLineSettle, if_neg (by simp [hu]), hf]
  rfl

theorem exec_sheafClose {h : SheafSt} (hn : nextToClose s q = some h) (hs : h.settled = sqLines h.cfg q) :
    exec (.sheafClose q) s = .next (closeSheaf s q h false).settled := by
  have he : exec (.sheafClose q) s = execSheafClose q s := rfl
  rw [he, execSheafClose, hn]
  exact if_pos (by simp [hu, hs])

theorem exec_closeTmo {h : SheafSt} (hn : nextToClose s q = some h) (h0 : cfgF h.cfg (F.COL_SQ_CLOSE_TMO_TMO q) ≠ 0)
    (ht : h.cutAt.getD s.now + cfgF h.cfg (F.COL_SQ_CLOSE_TMO_TMO q) * 1000 ≤ s.now) :
    exec (.closeTmo q) s = .next (closeSheaf s q h true).settled := by
  have he : exec (.closeTmo q) s = execCloseTmo q s := rfl
  rw [he, execCloseTmo, hn]
  exact if_pos (by simp [hu, h0, ht])

theorem exec_stripBandSend {w : Bool} {link : Nat} {bytes : List (BitVec 8)} {rest : List (Bool × Nat × List (BitVec 8))}
    (hb : (s.seq q).bands = (w, link, bytes) :: rest) :
    exec (.stripBandSend q) s = .next
      { s.setSeq q { s.seq q with bands := rest } with toLink := s.toLink ++ [({ link := link, bytes := bytes } : Bulk)] }.settled := by
  have he : exec (.stripBandSend q) s = execStripBandSend q s := rfl
  rw [he, execStripBandSend, if_neg (by simp [hu])]
  simp only [hb]
  rfl

theorem exec_stripBand {link : Nat} {p : List (BitVec 8)} {rest : List (Nat × List (BitVec 8))} (hs : s.strips = (link, p) :: rest) :
    let u := { s with strips := rest }
    (∀ k r, bandSide (colCfg u) link p = some (k, r) → exec .stripBand s = .next (takeBand u k r p).settled) ∧
    (bandSide (colCfg u) link p = none → exec .stripBand s = .next (strayBand u p).settled) := by
  have he : exec .stripBand s = execStripBand s := rfl
  rw [he, execStripBand, hs]
  simp only [hu, Bool.not_true, Bool.false_eq_true, if_false]
  refine ⟨fun k r hb => ?_, fun hb => ?_⟩
  · rw [hb]; rfl
  · rw [hb]; rfl

end collator

/-- Settles O32, command by command. -/
theorem collatorCommands : Obligations.CollatorCommands := by
  intro q b s hu
  exact ⟨fun o rest => exec_colLine hu, fun h o rest hp hr => ⟨exec_colCut_axis hu hp hr, exec_colCut_replay hu hp hr⟩, exec_restart hu,
    fun h => exec_lineSettle hu, fun h hn => ⟨exec_sheafClose hu hn, exec_closeTmo hu hn⟩, next_of_up hu,
    fun w link bytes rest => exec_stripBandSend hu, fun link p rest => exec_stripBand hu, next_of_up hu⟩

end Sys2Proof.Machine
end

section
/-! SUPPORT. The heads (O33). -/

namespace Sys2Proof.Machine
open Sys2Proof

section heads
variable {s : State} (hu : s.up = true)
include hu

/-- A head begins the first unit of the queue that is its own (R249). -/
theorem exec_headUnit {n : Fin 3} {a : Arrive} (hf : s.hedQ.find? (fun a => a.head == n.val) = some a) :
    let u := { s with hedQ := s.hedQ.erase a }
    (∀ x q b held t, a = .sheaf x q b held t → exec (.headUnit n) s = .next (beginSheaf u x q b held t).settled) ∧
    (∀ x, a = .lines x → exec (.headUnit n) s = .next (beginLines u x).settled) := by
  have he : exec (.headUnit n) s = execHeadUnit n s := rfl
  rw [he, execHeadUnit, hf]
  refine ⟨fun x q b held t ha => ?_, fun x ha => ?_⟩
  · subst ha
    exact if_neg (by simp [hu])
  · subst ha
    exact if_neg (by simp [hu])

section offer
variable {o : Fin 32} {h : HUnit} (hf : firstUnit s o = some h)
include hf

section due
variable (ho : h.offered = false) (hd : h.first = none ∨ h.last + 1000 ≤ s.now) (hm : s.f F.DEV_MODE_MODE ≠ 7)
include ho hd hm

/-- The row of a unit that may be offered: a coding unit that is not formed yet waits for its records (R261). -/
theorem execHeadOffer_due : execHeadOffer o s =
    if decide (24 ≤ o.val) && !h.formed && boxesReady s h then
      let (p, s) := codingPayload s h
      let dec := 2 ^ cfgF h.cfg (F.HED_O_MODE_DEC o)
      let h := { firstOffer s h with formed := true, u := { h.u with
        payload := p, format := 0x10000 * dec + cfgF h.cfg (F.HED_O_CFG_FMT o), width := ceilDiv h.cols dec, lines := ceilDiv h.rows dec } }
      let s := putHunit s h
      done { s with offers := s.offers ++ [⟨cfgF h.cfg (F.HED_O_CFG_RING o), h.u⟩] }
    else if h.formed then
      let s := putHunit s (firstOffer s h)
      done { s with offers := s.offers ++ [⟨cfgF h.cfg (F.HED_O_CFG_RING o), h.u⟩] }
    else done s := by
  have hw : (h.first.isSome && decide (s.now < h.last + 1000)) = false := by
    rcases hd with hn | hl
    · rw [hn]; rfl
    · simp [hl]
  rw [execHeadOffer, hf]
  exact (if_neg (by simp [hu, ho, hw])).trans (if_neg hm)

theorem exec_headOffer_formed (hfm : h.formed = true) :
    let ring := cfgF h.cfg (F.HED_O_CFG_RING o)
    exec (.headOffer o) s = .next (let u := putHunit s { h with offered := true, first := some (h.first.getD s.now), last := s.now }
      { u with offers := u.offers ++ [(⟨ring, h.u⟩ : Offer)] }).settled :=
  (execHeadOffer_due hu hf ho hd hm).trans ((if_neg (by simp [hfm])).trans (if_pos hfm))

theorem exec_headOffer_coding (h24 : 24 ≤ o.val) (hfm : h.formed = false) (hb : boxesReady s h = true) :
    let ring := cfgF h.cfg (F.HED_O_CFG_RING o)
    exec (.headOffer o) s = .next (let p := codingPayload s h
      let dec := 2 ^ cfgF h.cfg (F.HED_O_MODE_DEC o)
      let g : UnitIn := { h.u with payload := p.1, format := 0x10000 * dec + cfgF h.cfg (F.HED_O_CFG_FMT o)
                                   width := ceilDiv h.cols dec, lines := ceilDiv h.rows dec }
      let u := putHunit p.2 { firstOffer p.2 h with formed := true, u := g }
      { u with offers := u.offers ++ [(⟨ring, g⟩ : Offer)] }).settled :=
  (execHeadOffer_due hu hf ho hd hm).trans (if_pos (by simp [h24, hfm, hb]))

end due

theorem exec_headWaitExpiry (ho : h.offered = false) {t : Nat} (ht : h.first = some t)
    (hw : t + cfgF h.cfg (F.HED_O_WAIT_WAIT o) * 1000 ≤ s.now) : exec (.headWaitExpiry o) s = .next (dropUnit s h).settled := by
  have he : exec (.headWaitExpiry o) s = execHeadWaitExpiry o s := rfl
  rw [he, execHeadWaitExpiry, hf]
  simp only [ht]
  exact if_pos (by simp [hu, ho, hw])

end offer

section display
variable {d : Fin 8} {h : HUnit} (hf : s.hunits.find? (fun h => h.out == 16 + d.val && !h.formed) = some h)
  (hm : s.f F.DEV_MODE_MODE ≠ 7) (hb : boxesReady s h = true)
include hf hm hb

/-- The row of a display output whose next unit has its boxes (R256, R258). -/
theorem execDisplayFrame_ready : execDisplayFrame d s =
    if stillSending s (16 + d.val) then done (headDone (skipFrame s (16 + d.val)) h.id false)
    else done (emitFrame (framePayload s h).2 h (framePayload s h).1) := by
  rw [execDisplayFrame, if_neg (by simp [hu]), hf]
  exact (if_neg hm).trans (if_pos hb)

end display

end heads

/-- Settles O33, command by command. -/
theorem headCommands : Obligations.HeadCommands := by
  intro n o d s hu
  refine ⟨next_of_up hu, fun a ha => exec_headUnit hu ha, next_of_up hu, fun h hf ho => ⟨fun hd hm => ⟨exec_headOffer_formed hu hf ho hd hm,
    exec_headOffer_coding hu hf ho hd hm⟩, fun t ht hw => exec_headWaitExpiry hu hf ho ht hw⟩, fun h hf hm hb => ⟨fun hs => ?_, fun hs => ?_⟩⟩
  · exact (execDisplayFrame_ready hu hf hm hb).trans (if_pos hs)
  · exact (execDisplayFrame_ready hu hf hm hb).trans (if_neg (Bool.eq_false_iff.1 hs))

end Sys2Proof.Machine
end

section
/-! SUPPORT. The thresher (O34). -/

namespace Sys2Proof.Machine
open Sys2Proof

/-! ### Instructions of a thresher core (R79 to R81) -/

/-- A post is taken, is told to come again, or names a ring that is not active (R79). -/
theorem postRecord_le (s : State) (c ring : Nat) (b : List (BitVec 8)) : (postRecord s c ring b).1 ≤ 2 := by
  rw [postRecord]
  extract_lets asks t
  split
  · exact Nat.le_refl 2
  · split
    · exact Nat.le_succ 1
    · split <;> exact Nat.zero_le 2

/-- With a tile at the head of its queue a feed ends, with the tile or with the exception of an area that leaves cluster memory. -/
theorem exists_feedTile_of_headTile {s : State} {c addr rd : Nat} {x : Tile × List Tile × SheafSt × Bool} (h : headTile s c = some x) :
    ∃ t, feedTile s c addr rd = some t := by
  obtain ⟨tile, rest, sheaf, diff⟩ := x
  rw [feedTile, h]
  cases hf : feedFault s c addr with
  | some a => exact ⟨_, rfl⟩
  | none => exact ⟨_, rfl⟩

theorem feedTile_of_headTile_none {s : State} {c addr rd : Nat} (h : headTile s c = none) : feedTile s c addr rd = none := by
  rw [feedTile, h]

section instructions
variable {c : CoreNo} {s : State} (hs : Ready s c true) (rd rs1 rs2 : RegNo) (idx : BitVec 11)
include hs

theorem exec_rpost {l : List (BitVec 8)} (ha : ((s.core c).rs rs1).toNat % 64 = 0)
    (hg : granted (s.core c).grant.rings (idx.toNat % 256) = true) (hl : nearBytes s (s.core c) c ((s.core c).rs rs1).toNat 64 = .ok l) :
    let o := postRecord s c (idx.toNat % 256) l
    exec (.rpost c rd rs1 rs2 idx) s = .next (o.2.writes c rd (BitVec.ofNat 32 o.1)) := by
  have h : exec (.rpost c rd rs1 rs2 idx) s = execRpost c rd rs1 rs2 idx s := rfl
  rw [h, execRpost, issue_ready hs rfl]
  simp only [ha, hg, hl]
  rfl

section feed
variable (ha : ((s.core c).rs rs1).toNat % 64 = 0) (hc : inCluster ((s.core c).rs rs1).toNat 64 = true)
include ha hc

theorem exec_tfeed_fault {e : Nat} (hf : feedFault s c ((s.core c).rs rs1).toNat = some e) :
    exec (.tfeed c rd rs1 rs2 idx) s = .next (takeExc s c 3 0 e).settle.driveAlert := by
  have h : exec (.tfeed c rd rs1 rs2 idx) s = execTfeed c rd rs1 rs2 idx s := rfl
  rw [h, execTfeed, issue_ready hs rfl]
  simp only [ha, hc, hf]
  rfl

variable (hf : feedFault s c ((s.core c).rs rs1).toNat = none)
include hf

theorem exec_tfeed_copies {x : Tile × List Tile × SheafSt × Bool} (hx : headTile (endHold s c) c = some x) :
    ∃ t, feedTile (endHold s c) c ((s.core c).rs rs1).toNat rd = some t ∧
      exec (.tfeed c rd rs1 rs2 idx) s = .next t.settle.driveAlert := by
  obtain ⟨t, ht⟩ := exists_feedTile_of_headTile (addr := ((s.core c).rs rs1).toNat) (rd := rd) hx
  refine ⟨t, ht, ?_⟩
  have h : exec (.tfeed c rd rs1 rs2 idx) s = execTfeed c rd rs1 rs2 idx s := rfl
  rw [h, execTfeed, issue_ready hs rfl]
  simp only [ha, hc, hf, ht]
  rfl

theorem exec_tfeed_waits (hx : headTile (endHold s c) c = none) (h0 : (s.core c).rs rs2 ≠ 0) :
    let u := endHold s c
    exec (.tfeed c rd rs1 rs2 idx) s =
      .next (u.coreNext c { u.core c with wait := .tfeed ((s.core c).rs rs1).toNat ((s.core c).rs rs2).toNat rd, waited := 0 }) := by
  have h : exec (.tfeed c rd rs1 rs2 idx) s = execTfeed c rd rs1 rs2 idx s := rfl
  rw [h, execTfeed, issue_ready hs rfl]
  simp only [ha, hc, hf, feedTile_of_headTile_none hx, if_neg h0]
  rfl

theorem exec_tfeed_ends (hx : headTile (endHold s c) c = none) (h0 : (s.core c).rs rs2 = 0) :
    let u := endHold s c
    exec (.tfeed c rd rs1 rs2 idx) s = .next (u.coreNext c { ((u.core c).ws rd 0).retire with wait := .none, tmo := true }) := by
  have h : exec (.tfeed c rd rs1 rs2 idx) s = execTfeed c rd rs1 rs2 idx s := rfl
  rw [h, execTfeed, issue_ready hs rfl]
  simp only [ha, hc, hf, feedTile_of_headTile_none hx, if_pos h0]
  rfl

end feed

theorem exec_flpush_takes (hc : inCluster ((s.core c).rs rs1).toNat 64 = true) (hq : s.thr.flq.length < 64) :
    exec (.flpush c 0 rs1 rs2 idx) s = .next (pushFlail s c ((s.core c).rs rs1).toNat ((s.core c).rs rs2)).settled := by
  have h : exec (.flpush c 0 rs1 rs2 idx) s = execFlpush c 0 rs1 rs2 idx s := rfl
  rw [h, execFlpush, issue_ready (legal := (0 : RegNo) == 0) hs rfl]
  simp only [hc, if_pos hq]
  rfl

theorem exec_flpush_waits (hc : inCluster ((s.core c).rs rs1).toNat 64 = true) (hq : 64 ≤ s.thr.flq.length) :
    exec (.flpush c 0 rs1 rs2 idx) s = .next (s.coreNext c
      { s.core c with wait := .flpush ((s.core c).rs rs1).toNat ((s.core c).rs rs2), waited := 0 }) := by
  have h : exec (.flpush c 0 rs1 rs2 idx) s = execFlpush c 0 rs1 rs2 idx s := rfl
  rw [h, execFlpush, issue_ready (legal := (0 : RegNo) == 0) hs rfl]
  simp only [hc, if_neg (Nat.not_lt.2 hq)]
  rfl

end instructions

section waiting
variable {c : CoreNo} {s : State} {rd : RegNo} {a tmo : Nat}

theorem exec_tfeedCopy {x : Tile × List Tile × SheafSt × Bool} (hw : Waits s c (.tfeed a tmo rd)) (hx : headTile s c = some x) :
    ∃ t, feedTile s c a rd = some t ∧ exec (.tfeedCopy c) s = .next t.settle.driveAlert := by
  obtain ⟨t, ht⟩ := exists_feedTile_of_headTile (addr := a) (rd := rd) hx
  obtain ⟨hup, hrun, hwait⟩ := hw
  refine ⟨t, ht, ?_⟩
  have h : exec (.tfeedCopy c) s = execTfeedCopy c s := rfl
  rw [h, execTfeedCopy]
  simp only [hup, hrun, hwait, ht]
  rfl

theorem exec_tfeedTimeout (hw : Waits s c (.tfeed a tmo rd)) (hq : tileQ s (c - 4) = []) (hn : tmo ≠ 0xFFFFFFFF)
    (hle : tmo ≤ (s.core c).waited) :
    exec (.tfeedTimeout c) s = .next (s.coreNext c { ((s.core c).ws rd 0).retire with wait := .none, tmo := true }) := by
  obtain ⟨hup, hrun, hwait⟩ := hw
  have h : exec (.tfeedTimeout c) s = execTfeedTimeout c s := rfl
  rw [h, execTfeedTimeout]
  simp only [hup, hrun, hwait, hq, timedOut_of_le hn hle]
  rfl

theorem exec_flpushAccept {v : Word} (hw : Waits s c (.flpush a v)) (hq : s.thr.flq.length < 64) :
    exec (.flpushAccept c) s = .next (pushFlail s c a v).settled := by
  obtain ⟨hup, hrun, hwait⟩ := hw
  have h : exec (.flpushAccept c) s = execFlpushAccept c s := rfl
  rw [h, execFlpushAccept]
  simp only [hup, hrun, hwait, decide_eq_true hq]
  rfl

end waiting

/-! ### The thresher (R263 to R274) -/

section thresher
variable {s : State} (hu : s.up = true)
include hu

theorem exec_tileDeal (hm : s.f F.DEV_MODE_MODE ≠ 7) {j : ThrJob} {tc : Nat}
    (hd : ((List.range 8).map (fun k => (s.thr.lastSeq + 1 + k) % 8)).findSome? (dealable s) = some (j, tc)) :
    exec .tileDeal s = .next (dealTile s j tc).settled := by
  have h : exec .tileDeal s = execTileDeal s := rfl
  rw [h, execTileDeal, if_neg (by simp [hu, hm]), hd]
  rfl

theorem exec_flailTile {c a t : Nat} {rest : List (Nat × Nat × Nat)} (hq : s.thr.flq = (c, a, t) :: rest) :
    exec .flailTile s = .next (flailTile { s with thr := { s.thr with flq := rest } } c a t).settled := by
  have h : exec .flailTile s = execFlailTile s := rfl
  rw [h, execFlailTile, hq]
  exact if_pos hu

theorem exec_cropCut {x : DefRec} {i : Nat} {g : Handle} {box : Int × Int × Nat × Nat}
    (hx : s.thr.recs.zipIdx.find? (fun e => e.1.crop.isSome) = some (x, i)) (hg : x.h = some g) (hb : x.crop = some box) :
    let row := fun j : Nat => g.addr + 4 * (((box.2.1.toNat + j) * g.width + (box.1 - g.u0).toNat) * g.chans)
    let cut := { s with
      freeCtr := s.freeCtr + box.2.2.1 * box.2.2.2 * g.chans
      thr := { s.thr with recs := s.thr.recs.set i (cutCrop s x g box) } }
    let met := (List.range box.2.2.2).foldl (fun t j => t.meets (row j) (4 * box.2.2.1 * g.chans)) cut
    exec .cropCut s = .next (thrRelease met g.q g.buf).settled := by
  obtain ⟨x0, y0, w, ht⟩ := box
  have h : exec .cropCut s = execCropCut s := rfl
  rw [h, execCropCut, if_neg (by simp [hu]), hx]
  simp only [hg, hb]
  rfl

/-- A batch that is full, that another sheaf's record follows, or whose time has come, is due (R298). -/
theorem exec_recordUnitClose (r : Fin 256) :
    let mine := s.thr.recs.filter (fun x => x.ring == r.val)
    ∀ f rest, mine = f :: rest →
      let same := mine.takeWhile (fun x => recSheaf x == recSheaf f)
      let batch := max 1 (s.f (F.DLV_R_POLICY_BATCH r))
      let unit := same.take batch
      (batch ≤ same.length ∨ same.length < mine.length ∨ f.at_ + 100000 ≤ s.now) → (∀ x ∈ unit, x.crop = none) →
      let u := recordUnit s unit
      let left := (u.2.thr.recs.foldl (fun (a : List DefRec × Nat) x =>
        if x.ring == r.val && a.2 < unit.length then (a.1, a.2 + 1) else (a.1 ++ [x], a.2)) ([], 0)).1
      exec (.recordUnitClose r) s =
        .next { u.2 with thr := { u.2.thr with recs := left, units := u.2.thr.units ++ [(⟨r.val, u.1⟩ : Offer)] } }.settled := by
  have h : exec (.recordUnitClose r) s = execRecordUnitClose r s := rfl
  rw [h, execRecordUnitClose]
  generalize s.thr.recs.filter (fun x => x.ring == r.val) = l
  intro mine f rest hm same batch unit hdue hcrop u left
  have hl : l = f :: rest := hm
  have hall : unit.all (fun x => x.crop.isNone) = true := by
    rw [List.all_eq_true]
    intro x hx
    rw [hcrop x hx]
    rfl
  have hd : (decide (batch ≤ same.length) || decide (same.length < mine.length) || decide (f.at_ + 100000 ≤ s.now)) = true := by
    simpa [or_assoc] using hdue
  subst hl
  exact if_pos (by rw [hu]; exact Bool.and_eq_true_iff.2 ⟨hd, hall⟩)

end thresher

/-- Settles O34, instruction by instruction and command by command. -/
theorem thresherFeed : Obligations.ThresherFeed := by
  refine ⟨fun c rd rs1 rs2 idx s => ⟨fun hs => ?_, fun b tmo x => exec_tfeedCopy, fun b tmo => exec_tfeedTimeout, fun b h => exec_flpushAccept⟩,
    fun h r s hu => ⟨next_of_up hu, fun hm j tc => exec_tileDeal hu hm, next_of_up hu, fun c a t rest => exec_flailTile hu,
      fun x i g box => exec_cropCut hu, exec_recordUnitClose hu r⟩⟩
  exact ⟨fun l ha hg hl => ⟨exec_rpost hs rd rs1 rs2 idx ha hg hl, postRecord_le _ _ _ _⟩, exec_rpost_ungranted rd rs2 hs,
    fun e ha hc => exec_tfeed_fault hs rd rs1 rs2 idx ha hc, fun x ha hc hf => exec_tfeed_copies hs rd rs1 rs2 idx ha hc hf,
    exec_tfeed_waits hs rd rs1 rs2 idx, exec_tfeed_ends hs rd rs1 rs2 idx, exec_flpush_takes hs rs1 rs2 idx, exec_flpush_waits hs rs1 rs2 idx⟩

end Sys2Proof.Machine
end

section
/-! SUPPORT. Device memory and the granary (O35). -/

namespace Sys2Proof.Machine
open Sys2Proof

section granary
variable {s : State}

/-! ### Partitions and scrub (R278, R280, R282) -/

theorem doPart_base {k : Nat} {v : Word} (h0 : partUse s k = 0)
    (hx : extentsOk (extents s k (v.toNat % 2 ^ 17) (s.f (F.MEM_PART_SIZE_SIZE k))) = true) :
    doPart s k false v = s.wr (R.MEM_PART_BASE k) (BitVec.ofNat 32 (v.toNat % 2 ^ 17)) := by
  rw [doPart]
  exact (if_neg Bool.false_ne_true).trans ((if_neg (by simp [h0])).trans (if_pos hx))

/-- A partition whose size has no least and no largest value of its own takes the size that is written (R278). -/
theorem doPart_size {k : Nat} {v : Word} (h0 : k ≠ 0) (h4 : k ≠ 4) (h5 : k ≠ 5)
    (hx : extentsOk (extents s k (s.f (F.MEM_PART_BASE_BASE k)) (v.toNat % 2 ^ 17)) = true) :
    doPart s k true v = s.wr (R.MEM_PART_SIZE k) (BitVec.ofNat 32 (v.toNat % 2 ^ 17)) := by
  rw [doPart]
  simp only [if_true, if_neg h0, if_neg h4, decide_eq_false h4, decide_eq_false h5, hx, Bool.or_self, Bool.false_eq_true, if_false]

variable (hu : s.up = true)
include hu

section scrub
variable {outcome : Fin 3} {stack : Bool} (hp : s.on F.MEM_SCRUB_PERIOD = true)
include hp

/-- A scrub that runs judges the unit it stands at and goes on (R282). -/
theorem exec_scrub {t : State} (ht : (if outcome = 2 || s.poison.contains s.gran.scrub then s.uncorrectable s.gran.scrub
      else if outcome = 1 then corrected s stack else s) = t) :
    let next := (s.gran.scrub + 1) % (dmemBytes / 64)
    exec (.scrub outcome stack) s =
      .next ({ t with gran := { t.gran with scrub := next } }.sf F.MEM_SCRUB_POS_POS (next / 1024)).settled := by
  subst ht
  exact if_pos (by simp [hu, hp])

end scrub

theorem exec_granaryLine {t : TapLine} {rest : List TapLine} (ht : s.toTap = t :: rest) :
    exec .granaryLine s = .next (storeLine { s with toTap := rest } t).settled := by
  have h : exec .granaryLine s = execGranaryLine s := rfl
  rw [h, execGranaryLine, ht]
  exact if_pos hu

/-! ### Extracts (R288 to R291) -/

theorem exec_grnXGo (hq : s.gran.reqs.length < 8) :
    exec .grnXGo s = .next { s with gran := { s.gran with reqs := s.gran.reqs ++ [(⟨s.on F.GRN_X_CFG_BY_TIME,
      s.on F.GRN_X_CFG_WAIT, s.f F.GRN_X_CFG_AXIS, s.f F.GRN_X_CFG_RING, s.f F.GRN_X_CFG_ID, s.pair R.GRN_X_MASK_LO R.GRN_X_MASK_HI,
      signed 64 (s.pair R.GRN_X_FROM_LO R.GRN_X_FROM_HI), signed 64 (s.pair R.GRN_X_TO_LO R.GRN_X_TO_HI), s.f F.GRN_X_EPOCH_EPOCH,
      s.f F.GRN_X_TMO_TMO⟩ : XReq)] } }.settled :=
  (if_pos hu).trans (congrArg done (if_neg (Nat.not_le.2 hq)))

theorem exec_extractStart (hr : s.gran.run = none) {r : XReq} {rest : List XReq} (hq : s.gran.reqs = r :: rest) :
    exec .extractStart s = .next (startExtract { s with gran := { s.gran with reqs := rest } } r).settled := by
  have h : exec .extractStart s = execExtractStart s := rfl
  rw [h, execExtractStart]
  simp only [hr, hq]
  exact if_pos hu

section running
variable {x : XRun} (hr : s.gran.run = some x)
include hr

theorem exec_grnXAbort : exec .grnXAbort s = .next { s with gran := { s.gran with run := some { x with stop := true } } }.settled := by
  have h : exec .grnXAbort s = done (doXAbort s) := if_pos hu
  rw [h, doXAbort]
  simp only [hr]
  rfl

section unit
variable (ho : x.offered = false)
include ho

/-- With no unit made, the next segment is read, and the unit it gives is offered (R289). -/
theorem exec_extractUnit_reads {n i a : Nat} {y : XRun} {c : XCur} (hc : x.cur = none) (hn : xNext s x = .read n i a) :
    let t := readSeg s x n i a
    t.gran.run = some y → y.cur = some c → ringActive t y.r.ring = true → exec .extractUnit s = .next
      { t with gran := { t.gran with run := some { y with offered := true } }, offers := t.offers ++ [(⟨y.r.ring, c.u⟩ : Offer)] }.settled := by
  have h : exec .extractUnit s = execExtractUnit s := rfl
  rw [h, execExtractUnit]
  simp only [hr, hu, ho, hc, hn]
  generalize readSeg s x n i a = t
  intro hy hyc ha
  simp only [hy, hyc, ha]
  rfl

/-- A unit that was made before is offered. -/
theorem exec_extractUnit_offers {c : XCur} (hc : x.cur = some c) (ha : ringActive s x.r.ring = true) :
    exec .extractUnit s = .next
      { s with gran := { s.gran with run := some { x with offered := true } }, offers := s.offers ++ [(⟨x.r.ring, c.u⟩ : Offer)] }.settled := by
  have h : exec .extractUnit s = execExtractUnit s := rfl
  rw [h, execExtractUnit]
  simp only [hr, hu, ho, hc, ha]
  rfl

end unit

theorem exec_extractTmo (hw : x.r.wait = true) (h0 : x.r.tmo ≠ 0) (hn : xNext s x = .wait) (ht : x.started + x.r.tmo * 1000000 ≤ s.now) :
    exec .extractTmo s = .next { s with gran := { s.gran with run := some { x with flags := x.flags ||| 16 } } }.settled := by
  have h : exec .extractTmo s = execExtractTmo s := rfl
  rw [h, execExtractTmo]
  simp only [hr]
  exact if_pos (by simp [hu, hw, h0, hn, ht])

theorem exec_extractReport (hn : xNext s x = .finish) (hc : x.cur = none) :
    exec .extractReport s = .next (reportExtract
      { s with offers := s.offers.filter (fun o => o.u.src != .extract) } { x with cur := none }).settled := by
  have h : exec .extractReport s = execExtractReport s := rfl
  rw [h, execExtractReport]
  simp only [hr]
  exact if_pos (by simp [hu, hn, hc])

end running

end granary

/-- Settles O35, command by command. -/
theorem granaryCommands : Obligations.GranaryCommands := by
  intro k size v outcome stack s hu
  refine ⟨⟨fun hsz h0 hx => ?_, fun hsz h0 h4 h5 hx => ?_⟩, fun hp => ⟨fun ho => ?_, fun ho hb => ?_, fun ho hb => ?_⟩,
    fun t rest => exec_granaryLine hu, exec_grnXGo hu, fun x => exec_grnXAbort hu, fun hr r rest => exec_extractStart hu hr,
    fun x hr => ⟨fun n i a y c ho => exec_extractUnit_reads hu hr ho, fun c ho => exec_extractUnit_offers hu hr ho, exec_extractTmo hu hr,
      exec_extractReport hu hr⟩⟩
  · subst hsz
    exact (if_pos hu).trans (congrArg done (doPart_base h0 hx))
  · subst hsz
    exact (if_pos hu).trans (congrArg done (doPart_size h0 h4 h5 hx))
  · exact exec_scrub hu hp (if_pos (by simpa using ho))
  · exact exec_scrub hu hp ((if_neg (by simp [ho]; simpa using hb)).trans (if_pos ho))
  · exact exec_scrub hu hp ((if_neg (by simp [ho]; simpa using hb)).trans (if_neg (by simp [ho])))

end Sys2Proof.Machine
end

section
/-! SUPPORT. Units and rings (O36). -/

namespace Sys2Proof.Machine
open Sys2Proof

section rings
variable {s : State}

/-! ### Franking (R296, R302, R311) -/

/-- Reports of rings that are no longer active are let go. -/
theorem filter_not_gone (l : List Offer) (p : Offer → Bool) :
    l.filter (fun o => !(l.filter (fun o => !p o)).contains o) = l.filter p := by
  refine List.filter_congr fun o ho => ?_
  cases hp : p o with
  | true => simp [hp]
  | false => simp [hp, ho]

section up
variable (hu : s.up = true)
include hu

theorem exec_frank_offer {o : Offer} {rest : List Offer} (ho : s.offers = o :: rest) :
    exec .frank s = .next (frankOffer { s with offers := rest } o).settled := by
  have h : exec .frank s = execFrank s := rfl
  rw [h, execFrank, if_neg (by simp [hu]), ho]
  rfl

theorem exec_frank_made (ho : s.offers = []) :
    let u := { s with gran := { s.gran with reports := s.gran.reports.filter (fun o => ringActive s o.ring) } }
    ∀ o, nextOffer u (u.thr.units ++ u.gran.reports) [] = some o →
      let t := { u with thr := { u.thr with units := u.thr.units.erase o }, gran := { u.gran with reports := u.gran.reports.erase o } }
      exec .frank s = .next (offer t o.ring (restamp t o)).2.settled := by
  have h : exec .frank s = execFrank s := rfl
  rw [h, execFrank, if_neg (by simp [hu]), ho]
  simp only [filter_not_gone]
  intro o hn
  rw [hn]
  rfl

theorem exec_fullPostmarkDue {r : Fin 256} {k : Nat} (hk : pmReason s r = some k) :
    exec (.fullPostmarkDue r) s = .next (frankPm s r k).settled := by
  have h : exec (.fullPostmarkDue r) s = execFullPostmarkDue r s := rfl
  rw [h, execFullPostmarkDue, if_neg (by simp [hu]), hk]
  rfl

end up

/-! ### Policy, states and the host's consumption (R305, R306) -/

theorem getLsbD_of_fieldOf_eq_zero {w : Word} {k : Nat} (h : fieldOf w k k = 0) : w.getLsbD k = false := by
  rw [fieldOf, Nat.add_sub_cancel_left, Nat.pow_one] at h
  rw [BitVec.getLsbD, Nat.testBit_eq_decide_div_mod_eq, ← Nat.shiftRight_eq_div_pow, h]
  rfl

/-- A policy that leaves a disabled ring disabled is written as it is (R306). -/
theorem doPolicy_disabled {r : Nat} {v : Word} (hd : ringState s r = rDisabled) (he : s.on (F.DLV_R_POLICY_EN r) = false)
    (hv : v.getLsbD 31 = false) (hm : fieldOf v 30 29 ≠ 3) (hb : fieldOf v 6 0 ≤ 64) :
    doPolicy s r v = s.wr (R.DLV_R_POLICY r) (v &&& 0xFFF8007F) := by
  have hwas : (s.rd (R.DLV_R_POLICY r)).getLsbD 31 = false := getLsbD_of_fieldOf_eq_zero ((State.on_eq_false_iff ..).1 he)
  have h31 : (v &&& 0xFFF8007F).getLsbD 31 = false := by rw [BitVec.getLsbD_and, hv, Bool.false_and]
  have hb' : ¬ fieldOf v 6 0 > 64 := Nat.not_lt.2 hb
  simp only [doPolicy, beq_eq_false_iff_ne.2 hm, hd, hwas, Bool.false_eq_true, if_false, if_neg hb', decide_eq_false hb', h31,
    bne_self_eq_false, Bool.false_and, Bool.or_self, Bool.and_false]

theorem doDeactivate_of_up {r : Nat} (hr : ringState s r = rActive ∨ ringState s r = rDraining) :
    doDeactivate s r = if inTransfer s r then s.setRing r { s.ring r with deact := true } else holdRing s r :=
  if_pos (by simpa using hr)

theorem exec_heldLossReport {r : Fin 256} (hu : s.up = true) (hd : ringState s r = rDraining) (hh : (s.ring r).held = [])
    (hp : (s.ring r).placed = []) (hl : (s.ring r).loss.isSome = true) (hs : (s.ring r).signing = none) :
    exec (.heldLossReport r) s = .next (pumpRing (frankReport s r) r).settled :=
  if_pos (by simp [hu, hd, hh, hp, hl, hs])

theorem exec_drainEnd {r : Fin 256} (hu : s.up = true) (hd : ringState s r = rDraining) (hh : (s.ring r).held = [])
    (hp : (s.ring r).placed = []) (hl : (s.ring r).loss = none) (hw : (s.ring r).waiting = []) :
    exec (.drainEnd r) s = .next (pumpRing (setRingState s r rActive) r).settled :=
  if_pos (by simp [hu, hd, hh, hp, hl, hw])

/-! ### Cancellation records (R375, R377) -/

section cancel
variable (hu : s.up = true)
include hu

omit hu in
/-- A record falls due only when something was franked since the last (R375). -/
theorem cancelDue_signs {r reason : Nat} (hs : (s.ring r).signing = none) (h0 : (s.ring r).since ≠ 0) :
    cancelDue s r reason =
      { s.setRing r { s.ring r with signing := some (cancelBytes s r reason, reason == 2) } with signQ := s.signQ ++ [r] } := by
  rw [cancelDue]
  exact if_neg (by simp [hs, h0])

section due
variable {r : Fin 256} (ho : (s.ring r).on = true) (hs : (s.ring r).signing = none) (h0 : (s.ring r).since ≠ 0)
include ho hs h0

theorem exec_cancellationDue_count (hc : 4096 ≤ (s.ring r).since) : exec (.cancellationDue r) s =
    .next { s.setRing r { s.ring r with signing := some (cancelBytes s r 0, false) } with signQ := s.signQ ++ [r.val] }.settled := by
  refine (if_pos (by simp [hu, ho])).trans ((if_pos (by simp [hc])).trans ?_)
  rw [cancelDue_signs hs h0]
  rfl

theorem exec_cancellationDue_time (hc : (s.ring r).since < 4096) (ht : (s.ring r).cancelAt + 10000000000 ≤ s.now) :
    exec (.cancellationDue r) s =
      .next { s.setRing r { s.ring r with signing := some (cancelBytes s r 1, false) } with signQ := s.signQ ++ [r.val] }.settled := by
  refine (if_pos (by simp [hu, ho])).trans ((if_neg (by simp [hc])).trans ((if_pos (by simp [ht])).trans ?_))
  rw [cancelDue_signs hs h0]
  rfl

end due

/-- A signed record is franked in its chain, and what waited for the signature goes on (R375). -/
theorem exec_cancelSigned {k : Nat} {rest : List Nat} {b : List (BitVec 8)} {final : Bool} (hq : s.signQ = k :: rest)
    (hs : (s.ring k).signing = some (b, final)) :
    let u := { s with signQ := rest }
    let u := (u.setRing k { u.ring k with signing := none }).incrPair R.SEC_CANCEL_LO R.SEC_CANCEL_HI 1
    let u := frankOwn u k 8 (b ++ identitySign u b)
    let x := u.ring k
    let u := u.setRing k { x with cancelNo := x.cancelNo + 1, firstEnv := x.envNo, cancelAt := u.now, since := 0 }
    exec .cancelSigned s = .next (if final = true then tryStart (settleRing u k) k
      else if (u.ring k).on = false ∧ u.on (F.DLV_R_POLICY_EN k) = false then endChain u k else tryStart u k).settled := by
  have h : exec .cancelSigned s = execCancelSigned s := rfl
  have hs' : ({ s with signQ := rest }.ring k).signing = some (b, final) := hs
  intro u v w x t
  have hon : (t.ring k).on = x.on := by
    show ((w.setRing k _).ring k).on = x.on
    rw [State.ring_setRing]
  rw [h, execCancelSigned, hq, hon]
  refine (if_neg (by simp [hu])).trans ?_
  show (match ({ s with signQ := rest }.ring k).signing with | none => _ | some (b, final) => _) = _
  rw [hs']
  show (if final then done (tryStart (settleRing t k) k)
    else if !x.on && !t.on (F.DLV_R_POLICY_EN k) then done (endChain t k) else done (tryStart t k)) = _
  cases final with
  | true => rfl
  | false =>
    by_cases hc : x.on = false ∧ t.on (F.DLV_R_POLICY_EN k) = false
    · rw [if_neg Bool.false_ne_true, if_neg Bool.false_ne_true, if_pos hc]
      exact if_pos (by simp [hc])
    · rw [if_neg Bool.false_ne_true, if_neg Bool.false_ne_true, if_neg hc]
      exact if_neg (by simpa using hc)

end cancel

/-! ### Ring channels (R314) -/

section channel
variable {n : Fin 64} (hu : s.up = true) (hr : s.pci.rst = none) (hc : canRequest s = true)
include hu hr hc

/-- A channel between two units of its rings: it runs, and nothing is in progress on it. -/
def BetweenUnits (s : State) (n : Nat) : Prop :=
  chState s n = dRunning ∧ (s.dma n).ring = none ∧ (s.dma n).active = false ∧ (s.dma n).fetch = false ∧
    (s.dma n).stop = none ∧ (s.dma n).chain = false

/-- An idle channel, or one between two units, looks for its next ring. -/
theorem execRingUnitStart_free (hf : chState s n = dIdle ∨ BetweenUnits s n) : execRingUnitStart n s =
    match nextRing s n with
    | some r =>
      done ((s.sf (F.DMA_C_STAT_STATE n) dRunning).setDma n { s.dma n with ring := some r, off := 0, lastRing := r, chain := false })
    | none => if chState s n = dRunning then done (setCh s n dIdle) else done s := by
  have hfree : (chState s n == dIdle || (chState s n == dRunning && (s.dma n).ring.isNone && !(s.dma n).active && !(s.dma n).fetch &&
      (s.dma n).stop.isNone && !(s.dma n).chain)) = true := by
    rcases hf with hi | ⟨h1, h2, h3, h4, h5, h6⟩
    · rw [hi]; rfl
    · simp [h1, h2, h3, h4, h5, h6]
  rw [execRingUnitStart]
  exact if_neg (by simp only [hu, hr, hc, hfree]; decide)

theorem exec_ringUnitStart_next {k : Nat} (hf : chState s n = dIdle ∨ BetweenUnits s n) (hn : nextRing s n = some k) :
    exec (.ringUnitStart n) s = .next
      ((s.sf (F.DMA_C_STAT_STATE n) dRunning).setDma n { s.dma n with ring := some k, off := 0, lastRing := k, chain := false }).settled := by
  have h : exec (.ringUnitStart n) s = execRingUnitStart n s := rfl
  rw [h, execRingUnitStart_free hu hr hc hf, hn]
  rfl

theorem exec_ringUnitStart_idle (hf : BetweenUnits s n) (hn : nextRing s n = none) :
    exec (.ringUnitStart n) s = .next (setCh s n dIdle).settled := by
  have h : exec (.ringUnitStart n) s = execRingUnitStart n s := rfl
  rw [h, execRingUnitStart_free hu hr hc (.inr hf), hn]
  exact if_pos hf.1

theorem execRingUnitDone_moved {k : Nat} {p : Placed} {ps : List Placed} (hk : (s.dma n).ring = some k) (hp : (s.ring k).placed = p :: ps)
    (hst : chState s n = dRunning) (ho : ringTotal s k ≤ (s.dma n).off) : execRingUnitDone n s =
      if cqFull s (s.f (F.DLV_H_CFG_CQ k)) then done (noteFull s n (s.f (F.DLV_H_CFG_CQ k))) else done (unitDone s n k p) := by
  rw [execRingUnitDone]
  simp only [hk, hp]
  exact if_neg (by simp [hu, hr, hc, hst, ho])

end channel

end rings

/-- Settles O36, command by command. -/
theorem ringCommands : Obligations.RingCommands := by
  intro r n v s hu
  refine ⟨fun o rest => exec_frank_offer hu, exec_frank_made hu, fun k => exec_fullPostmarkDue hu,
    fun hr hd he hv hm hb => ?_, fun hr he hd => ?_, fun hh => ⟨fun ha => ?_, fun hst => ⟨fun ht => ?_, fun ht => ?_⟩, ?_⟩,
    fun hd hh hp => ⟨exec_heldLossReport hu hd hh hp, exec_drainEnd hu hd hh hp⟩,
    fun ho hs h0 => ⟨exec_cancellationDue_count hu ho hs h0, exec_cancellationDue_time hu ho hs h0⟩,
    fun k rest b final => exec_cancelSigned hu,
    fun hr hc => ⟨⟨fun k => exec_ringUnitStart_next hu hr hc, exec_ringUnitStart_idle hu hr hc⟩,
      fun k p ps hk hp hst ho => ⟨fun hf => ?_, fun hf => ?_⟩⟩⟩
  · exact (if_pos (by simp [hu, hr])).trans (congrArg done (doPolicy_disabled hd he hv hm hb))
  · exact (if_pos (by simp [hu, hr])).trans (congrArg done (if_neg (by simp [he, hd])))
  · exact if_pos hh
  · exact (if_pos hh).trans (congrArg done ((doDeactivate_of_up hst).trans (if_neg (Bool.eq_false_iff.1 ht))))
  · exact (if_pos hh).trans (congrArg done ((doDeactivate_of_up hst).trans (if_pos ht)))
  · exact if_pos hh
  · exact (execRingUnitDone_moved hu hr hc hk hp hst ho).trans (if_pos hf)
  · exact (execRingUnitDone_moved hu hr hc hk hp hst ho).trans (if_neg (Bool.eq_false_iff.1 hf))

end Sys2Proof.Machine
end

section
/-! SUPPORT. Completion queues and DMA channels (O37). -/

namespace Sys2Proof.Machine
open Sys2Proof

/-! ### Completion queues (R309, R311, R312) -/

section queues
variable {s : State} {c : Fin 32}

theorem exec_dlvCqHead (hh : hostUp s = true) (v : Word) :
    let old := s.rd (R.DLV_CQ_HEAD c)
    ((v - old).toNat ≤ (s.rd (R.DLV_CQ_TAIL c) - old).toNat → exec (.dlvCqHead c v) s = .next (s.wr (R.DLV_CQ_HEAD c) v).settled) ∧
    ((s.rd (R.DLV_CQ_TAIL c) - old).toNat < (v - old).toNat → exec (.dlvCqHead c v) s = .next (cqRange s c).settled) :=
  ⟨fun h => (if_pos hh).trans (congrArg done (if_pos h)), fun h => (if_pos hh).trans (congrArg done (if_neg (Nat.not_le.2 h)))⟩

theorem exec_cqEnable (hh : hostUp s = true) (hb : s.pair (R.DLV_CQ_BASE_LO c) (R.DLV_CQ_BASE_HI c) ≠ 0) :
    let u := ((s.wr (R.DLV_CQ_TAIL c) 0).wr (R.DLV_CQ_HEAD c) 0).set1 (F.DLV_CQ_STAT_ENABLED c)
    exec (.cqEnable c) s = .next (u.setCq c { u.cq c with off := false }).settled :=
  (if_pos hh).trans (congrArg done (if_neg hb))

theorem exec_cqDisable_free (hh : hostUp s = true) (hb : cqBusy s c = false) :
    exec (.cqDisable c) s = .next (s.clr (F.DLV_CQ_STAT_ENABLED c)).settled :=
  (if_pos hh).trans (congrArg done (if_neg (by simp [hb])))

theorem exec_cqDisable_busy (hh : hostUp s = true) (hb : cqBusy s c = true) (ho : cqOn s c = true) :
    exec (.cqDisable c) s = .next (s.setCq c { s.cq c with off := true }).settled :=
  (if_pos hh).trans (congrArg done (if_pos (by simp [hb, ho])))

variable (hu : s.up = true) {n : Fin 256}
include hu

theorem exec_modTime_ring (h0 : (s.ring n).unsig ≠ 0) :
    let mt := s.f (F.DLV_CQ_MOD_MOD_TIME (s.f (F.DLV_H_CFG_CQ n)))
    mt ≠ 0 → (s.ring n).unsigAt + mt * 1000 ≤ s.now → exec (.modTime true n) s =
      .next ((s.setRing n { s.ring n with unsig := 0 }).signal (s.f (F.DLV_H_CFG_VECTOR n))).settled :=
  fun hm ht => (if_neg (by simp [hu])).trans ((if_pos rfl).trans (if_pos (by simp [h0, hm, ht])))

theorem exec_modTime_queue (h0 : (s.cq (n.val % 32)).unsig ≠ 0) :
    let k := n.val % 32
    let mt := s.f (F.DLV_CQ_MOD_MOD_TIME k)
    mt ≠ 0 → (s.cq k).unsigAt + mt * 1000 ≤ s.now → exec (.modTime false n) s =
      .next ((s.setCq k { s.cq k with unsig := 0 }).signal (s.f (F.DLV_CQ_CFG_VECTOR k))).settled :=
  fun hm ht => (if_neg (by simp [hu])).trans ((if_neg Bool.false_ne_true).trans (if_pos (by simp [h0, hm, ht])))

end queues

/-! ### DMA channels (R315 to R323) -/

section dma
variable {n : Fin 64} {s : State} (hu : s.up = true) (hr : s.pci.rst = none)
include hu hr

/-- A command of the register side of a channel runs while the host side is up. -/
theorem done_of_host {α : Type} {a b c : α} (h : a = c) : (if s.up && s.pci.rst.isNone then a else b) = c :=
  (if_pos (by simp [hu, hr])).trans h

theorem exec_start (hc : isRingChan s n = false) (hi : chState s n = dIdle) :
    let u := s.applyRange (R.DMA_C_SRC_LO n) (R.DMA_C_USER n + 4)
    let w := u.lrd (R.DMA_C_CTRL n)
    let lp := fun lo hi : Nat => (u.lrd lo).toNat + 2 ^ 32 * (u.lrd hi).toNat
    let len := (u.lrd (R.DMA_C_LEN n)).toNat
    let d : DmaSt := { u.dma n with
      src := lp (R.DMA_C_SRC_LO n) (R.DMA_C_SRC_HI n), dst := lp (R.DMA_C_DST_LO n) (R.DMA_C_DST_HI n), len := len, remain := len
      ctrl := w, user := u.lrd (R.DMA_C_USER n), chain := false, active := false, stop := none, parked := false, pausing := false
      fetch := false, tail := false, data := none, next := none, relay := none }
    w.getLsbD 31 = false →
      exec (.start n) s = .next (startTransfer ((u.sf (F.DMA_C_STAT_STATE n) dRunning).setDma n d) n).settled := by
  have h : exec (.start n) s = done (startChannel s n none) := done_of_host hu hr rfl
  rw [h, startChannel, if_neg (by simp [hc]), if_neg (by simp [hi])]
  intro u w lp len d hw
  exact congrArg done (if_neg (Bool.eq_false_iff.1 hw))

theorem exec_dmaStartEvent (hi : chState s n = dIdle) (hc : isRingChan s n = false) {h o : Nat} {rest : List (Nat × Nat)}
    (hp : (s.input (inDma n)).pend = (h, o) :: rest) (hl : (isRelay (inDma n) && h == 7) = false) :
    exec (.dmaStartEvent n) s = .next
      (startChannel (s.setInput (inDma n) { s.input (inDma n) with pend := rest, took := some s.now }) n (some (h, o))).settled := by
  have he : exec (.dmaStartEvent n) s = execDmaStartEvent n s := rfl
  rw [he, execDmaStartEvent, takeEvent_pending hp hl]
  exact if_pos (by simp [hu, hr, hi, hc])

theorem exec_pause_parked (hs : chState s n = dParked) :
    exec (.pause n) s = .next (setCh (s.setDma n { s.dma n with parked := true }) n dPaused).settled :=
  done_of_host hu hr (congrArg done (if_pos hs))

theorem exec_pause_running (hs : chState s n = dRunning) (hl : liveReads s n = []) :
    exec (.pause n) s = .next (setCh (s.setDma n { s.dma n with parked := false }) n dPaused).settled :=
  done_of_host hu hr (congrArg done ((if_neg (by rw [hs]; decide)).trans ((if_pos hs).trans (if_pos (by simp [hl])))))

theorem exec_resume_paused (hc : isRingChan s n = false) (hs : chState s n = dPaused) (hp : (s.dma n).parked = false) :
    exec (.resume n) s = .next (tryEnd (issueDesc (setCh s n dRunning) n) n).settled :=
  done_of_host hu hr (congrArg done ((if_neg (by simp [hc])).trans ((if_pos hs).trans (if_neg (by simp [hp])))))

theorem exec_abort_busy (hs : chState s n ≠ dIdle) : exec (.abort n) s =
    .next (tryEnd (killReads (s.setDma n { s.dma n with stop := some { status := 8 } }) n) n).settled :=
  done_of_host hu hr (congrArg done (if_neg hs))

theorem exec_doorbell (hc : isRingChan s n = false) :
    exec (.doorbell n) s = .next (tailRead (s.set1 (F.DMA_C_STAT_DB_PENDING n)) n).settled :=
  done_of_host hu hr (congrArg done (if_neg (by simp [hc])))

/-- A channel that fetches takes the descriptor that has come, asks the host for it, or reads it from device memory (R319, R320). -/
theorem execDescriptorRead_fetching (hf : (s.dma n).fetch = true) (hs : chState s n = dRunning ∨ chState s n = dParked) :
    execDescriptorRead n s =
      match (s.dma n).data with
      | some l => done (takeDesc s n l)
      | none =>
        if (s.dma n).descHost then done (issueDesc s n)
        else
          match devRange s n (s.dma n).desc 64 false with
          | some (status, a) => done (failDma (s.setDma n { s.dma n with active := false }) n { status := status, addr := a } [])
          | none =>
            if s.poison.contains ((s.dma n).desc / 64) then done (takeDesc (s.meets (s.dma n).desc 64) n none)
            else done (takeDesc s n (some (s.dread (s.dma n).desc 64))) := by
  have hs' : (chState s n == dRunning || chState s n == dParked) = true := by simpa using hs
  exact if_neg (by simp [hu, hr, hf, hs'])

theorem exec_descriptorRead (hf : (s.dma n).fetch = true) (hs : chState s n = dRunning ∨ chState s n = dParked) :
    (∀ l, (s.dma n).data = some l → exec (.descriptorRead n) s = .next (takeDesc s n l).settled) ∧
    ((s.dma n).data = none → (s.dma n).descHost = true → exec (.descriptorRead n) s = .next (issueDesc s n).settled) ∧
    ((s.dma n).data = none → (s.dma n).descHost = false → devRange s n (s.dma n).desc 64 false = none →
      (s.poison.contains ((s.dma n).desc / 64) = false →
        exec (.descriptorRead n) s = .next (takeDesc s n (some (s.dread (s.dma n).desc 64))).settled) ∧
      (s.poison.contains ((s.dma n).desc / 64) = true →
        exec (.descriptorRead n) s = .next (takeDesc (s.meets (s.dma n).desc 64) n none).settled)) := by
  have h : exec (.descriptorRead n) s = execDescriptorRead n s := rfl
  rw [h, execDescriptorRead_fetching hu hr hf hs]
  refine ⟨fun l hd => ?_, fun hd hh => ?_, fun hd hh hrange => ⟨fun hp => ?_, fun hp => ?_⟩⟩
  · rw [hd]; rfl
  · rw [hd]
    exact if_pos hh
  · rw [hd, hrange]
    exact (if_neg (Bool.eq_false_iff.1 hh)).trans (if_neg (Bool.eq_false_iff.1 hp))
  · rw [hd, hrange]
    exact (if_neg (Bool.eq_false_iff.1 hh)).trans (if_pos hp)

theorem exec_dmaBurst {fromHost : Bool} {k : Nat} {u : State} (hp : pickBurst s fromHost = some (k, u)) :
    ((u.dma k).ring = none → exec (.dmaBurst fromHost) s = .next (burst u k).settled) ∧
    (∀ r, (u.dma k).ring = some r → exec (.dmaBurst fromHost) s = .next (ringBurst u k r).settled) := by
  have h : exec (.dmaBurst fromHost) s = execDmaBurst fromHost s := rfl
  rw [h, execDmaBurst, if_neg (by simp [hu, hr]), hp]
  refine ⟨fun hk => ?_, fun r hk => ?_⟩
  · simp only [hk]
    rfl
  · simp only [hk]
    rfl

end dma

/-- Settles O37, command by command. -/
theorem queuesAndDma : Obligations.QueuesAndDma := by
  refine ⟨fun c n v s hu => ⟨fun hh => ⟨exec_dlvCqHead hh v, exec_cqEnable hh, exec_cqDisable_free hh, exec_cqDisable_busy hh⟩,
    exec_modTime_ring hu, exec_modTime_queue hu⟩, fun n fromHost s hu hr => ⟨exec_start hu hr, fun hi hc h o rest =>
      exec_dmaStartEvent hu hr hi hc, exec_pause_parked hu hr, exec_pause_running hu hr, exec_resume_paused hu hr, exec_abort_busy hu hr,
    exec_doorbell hu hr, done_of_host hu hr rfl, exec_descriptorRead hu hr, fun k u => exec_dmaBurst hu hr⟩⟩

end Sys2Proof.Machine
end

section
/-! SUPPORT. Bringing up a link (O38). -/

namespace Sys2Proof.Machine
open Sys2Proof

section bringUp
variable {k : Fin 8} {s : State} (hu : s.up = true)

include hu

theorem exec_ebkRestart (hp : phase s k ≠ lkOff) : exec (.ebkRestart k) s = .next (linkStart s k).settled :=
  (if_pos hu).trans (congrArg done (if_neg hp))

theorem exec_txReady (hp : phase s k = lkSend) :
    exec (.txReady k) s = .next ((toPhase s k lkHunt).set1 (F.LNK_LANE_STAT_TX_READY (s.f (F.EBK_CFG_LANE k)))).settled :=
  if_pos (by simp [hu, hp])

theorem exec_blockLock (hp : phase s k = lkHunt) :
    let n := s.f (F.EBK_CFG_LANE k)
    exec (.blockLock k) s =
      .next (((toPhase s k lkAdapt).set1 (F.LNK_LANE_STAT_SIGNAL n)).set1 (F.LNK_LANE_STAT_CDR_LOCK n)).settled :=
  if_pos (by simp [hu, hp])

/-- An adaptation ends in GREET, or in HUNT when the partner's rate is too far off (R389). -/
theorem exec_adaptEnd {ppm : BitVec 16} {eq : Word} (hp : phase s k = lkAdapt) (ht : (s.link k).phaseAt + 2000000 ≤ s.now) :
    let u := (s.sf (F.EBK_FREQ_PPM k) ppm.toNat).wr (R.LNK_RXEQ (s.f (F.EBK_CFG_LANE k))) eq
    (800 < ppm.toInt.natAbs → exec (.adaptEnd k ppm eq) s = .next ((toPhase u k lkHunt).set1 (F.EBK_FLAGS_FREQ_ERR k)).settled) ∧
    (ppm.toInt.natAbs ≤ 800 → let w := toPhase u k lkGreet
      exec (.adaptEnd k ppm eq) s = .next (w.setLink k { w.link k with identAt := w.now - 1000 }).settled) := by
  have hc : (s.up && phase s k == lkAdapt && decide ((s.link k).phaseAt + 2000000 ≤ s.now)) = true := by simp [hu, hp, ht]
  exact ⟨fun h => (if_pos hc).trans (if_pos h), fun h => (if_pos hc).trans (if_neg (Nat.not_lt.2 h))⟩

section ident
variable {p : Dword} (hp : phase s k = lkGreet) (hb : blockType p = 0x99)
include hp hb

/-- An identity of fewer than three alike is noted (R390). -/
theorem exec_ident_counts :
    let c := match (s.link k).ident with | some (w, c) => if w = p.toNat then c + 1 else 1 | none => 1
    c < 3 → exec (.ident k p) s = .next (s.setLink k { s.link k with ident := some (p.toNat, c) }).settled := by
  intro c hc
  exact (if_neg (by simp [hu, hp])).trans ((if_neg (by simp [hb])).trans (if_pos (Bool.or_eq_true_iff.2 (.inl (decide_eq_true hc)))))

/-- The third of another node of this system at the lane's rate is the partner's (R390). -/
theorem exec_ident_accepts :
    let c := match (s.link k).ident with | some (w, c) => if w = p.toNat then c + 1 else 1 | none => 1
    let u := s.setLink k { s.link k with ident := some (p.toNat, c) }
    3 ≤ c → pf p 35 34 = u.f (F.LNK_LANE_CFG_RATE (u.f (F.EBK_CFG_LANE k))) → pf p 63 48 = u.f F.EBK_NODE_SYS_ID →
      pf p 47 39 ≠ u.f F.EBK_NODE_NODE →
      let w := ((u.sf (F.EBK_PARTNER_SYS_ID k) (pf p 63 48)).sf (F.EBK_PARTNER_NODE k) (pf p 47 39)).sf (F.EBK_PARTNER_LINK k) (pf p 38 36)
      let w := toPhase w k lkRange
      exec (.ident k p) s = .next (w.setLink k { w.link k with probeAt := w.now - 1000, absentAt := none }).settled := by
  intro c u hc hr hs hn
  have hcu : (decide (c < 3) || pf p 35 34 != u.f (F.LNK_LANE_CFG_RATE (u.f (F.EBK_CFG_LANE k)))) = false := by
    rw [hr, decide_eq_false (Nat.not_lt.2 hc), bne_self_eq_false, Bool.or_self]
  have hru : ((pf p 63 48 != u.f F.EBK_NODE_SYS_ID) || (pf p 47 39 == u.f F.EBK_NODE_NODE && !(loopOf u k == 1 || loopOf u k == 2))) = false := by
    rw [hs, bne_self_eq_false, beq_eq_false_iff_ne.2 hn, Bool.false_and, Bool.or_self]
  exact (if_neg (by simp [hu, hp])).trans ((if_neg (by simp [hb])).trans ((if_neg (Bool.eq_false_iff.1 hcu)).trans (if_neg (Bool.eq_false_iff.1 hru))))

end ident

theorem exec_greetTmo (hp : phase s k = lkGreet) (ht : (s.link k).phaseAt + 10000000 ≤ s.now) :
    exec (.greetTmo k) s = .next ((toPhase s k lkHunt).set1 (F.EBK_FLAGS_GREET_TMO k)).settled :=
  if_pos (by simp [hu, hp, ht])

theorem exec_rangeFail (hp : phase s k = lkRange) (ht : (s.link k).phaseAt + 10000000 ≤ s.now) :
    exec (.rangeFail k) s = .next ((toPhase s k lkHunt).set1 (F.EBK_FLAGS_RANGE_FAIL k)).settled :=
  if_pos (by simp [hu, hp, ht])

theorem exec_identSend (hp : phase s k = lkGreet ∨ phase s k = lkRange) (ht : (s.link k).identAt + 1000 ≤ s.now) :
    exec (.identSend k) s = .next (sendBlock (s.setLink k { s.link k with identAt := s.now }) k 0x99
      (s.f F.EBK_NODE_SYS_ID * 2 ^ 48 + s.f F.EBK_NODE_NODE * 2 ^ 39 + k.val * 2 ^ 36 +
        s.f (F.LNK_LANE_CFG_RATE (s.f (F.EBK_CFG_LANE k))) * 2 ^ 34)).settled :=
  if_pos (by simp [hu, hp, ht])

theorem exec_probeSend (hp : phase s k = lkRange) (ht : (s.link k).probeAt + 1000 ≤ s.now) :
    let y := if 16 ≤ (s.link k).probes then { s.link k with
      probes := 0, stamps := [], echoes := [], ready := (s.link k).ready.filter (fun r => r.type != 0x33 || r.rank != 2) } else s.link k
    exec (.probeSend k) s = .next (addReady (s.setLink k { y with probeAt := s.now, probes := y.probes + 1 }) k
      { rank := 2, due := s.now, order := y.probes, type := 0x33 }).settled :=
  if_pos (by simp [hu, hp, ht])

section probe
variable {p : Dword} {sub : Fin 16} (hp : phase s k = lkRange) (hb : blockType p = 0x33)
include hp hb

/-- In RANGE an echo is taken and a probe is answered (R391). -/
theorem execProbe_range : execProbe k p sub s =
    if pf p 63 63 = 1 then done (takeEcho s k (pf p 62 56) (pf p 55 24) (pf p 23 8) (stamp16 s sub))
    else done (sendBlock s.free.2 k 0x33 (2 ^ 63 + pf p 62 24 * 2 ^ 24 + s.free.1 % 65536 * 256)) := by
  have hph : (!s.up || decide (phase s k < lkGreet) || decide (lkRun < phase s k)) = false := by
    rw [hu, hp]
    decide
  rw [execProbe]
  refine (if_neg (Bool.eq_false_iff.1 hph)).trans ((if_neg (by simp [hb])).trans ?_)
  rw [if_pos hp]

theorem exec_probe_echo (h : pf p 63 63 = 1) :
    exec (.probe k p sub) s = .next (takeEcho s k (pf p 62 56) (pf p 55 24) (pf p 23 8) (stamp16 s sub)).settled :=
  (execProbe_range hu hp hb).trans (if_pos h)

theorem exec_probe_answers (h : pf p 63 63 ≠ 1) : exec (.probe k p sub) s =
    .next (sendBlock s.free.2 k 0x33 (2 ^ 63 + pf p 62 24 * 2 ^ 24 + s.free.1 % 65536 * 256)).settled :=
  (execProbe_range hu hp hb).trans (if_neg h)

end probe

theorem exec_lost {invalid : BitVec 16} {slip : Bool} (h3 : 3 ≤ phase s k) (h6 : phase s k ≤ 6) :
    let u := ((s.bump (F.EBK_HDR_CNT_LOSSES k)).bumpBy (F.EBK_HDR_CNT_INVALID k) invalid.toNat).set1 (F.EBK_FLAGS_LOST k)
    let u := if slip then u.set1 (F.EBK_FLAGS_SLIP k) else u
    let n := u.f (F.EBK_CFG_LANE k)
    exec (.lost k invalid slip) s =
      .next (((toPhase u k lkHunt).clr (F.LNK_LANE_STAT_SIGNAL n)).clr (F.LNK_LANE_STAT_CDR_LOCK n)).settled :=
  if_pos (by simp [hu, h3, h6])

theorem exec_linkAbsent {t : Nat} (ha : (s.link k).absentAt = some t) (h1 : 1 ≤ phase s k) (h4 : phase s k ≤ 4)
    (ho : s.on (F.EBK_STATE_LINK_ABSENT k) = false) (ht : t + 100000000 ≤ s.now) :
    exec (.linkAbsent k) s = .next ((s.set1 (F.EBK_STATE_LINK_ABSENT k)).raise (prodEbk k)).settled := by
  have h : exec (.linkAbsent k) s = execLinkAbsent k s := rfl
  rw [h, execLinkAbsent, ha]
  exact if_pos (by simp [hu, h1, h4, ho, ht])

end bringUp

/-- Settles O38, command by command. -/
theorem linkBringUp : Obligations.LinkBringUp := by
  intro k v eq ppm invalid p sub slip s hu
  exact ⟨next_of_up hu, exec_ebkRestart hu, exec_txReady hu, exec_blockLock hu, exec_adaptEnd hu,
    fun hp hb => ⟨exec_ident_counts hu hp hb, exec_ident_accepts hu hp hb⟩, exec_greetTmo hu, exec_rangeFail hu, exec_identSend hu,
    exec_probeSend hu, fun hp hb => ⟨exec_probe_echo hu hp hb, exec_probe_answers hu hp hb⟩, exec_lost hu, fun t => exec_linkAbsent hu⟩

end Sys2Proof.Machine
end

section
/-! SUPPORT. Traffic of the Ebkel links (O39). -/

namespace Sys2Proof.Machine
open Sys2Proof

/-! ### Block slots (R401) -/

theorem ReadyBlock.before_iff (a b : ReadyBlock) :
    a.before b = true ↔ a.rank < b.rank ∨ (a.rank = b.rank ∧ (a.due < b.due ∨ (a.due = b.due ∧ a.order < b.order))) := by
  simp [ReadyBlock.before]

theorem ReadyBlock.not_before_of_before {a b : ReadyBlock} (h : a.before b = true) : b.before a = false := by
  rw [ReadyBlock.before_iff] at h
  rw [← Bool.not_eq_true, ReadyBlock.before_iff]
  omega

/-- What does not go before `b`, which does not go before `a`, does not go before `a`. -/
theorem ReadyBlock.not_before_trans {a b c : ReadyBlock} (hcb : c.before b = false) (hba : b.before a = false) : c.before a = false := by
  rw [← Bool.not_eq_true, ReadyBlock.before_iff] at hcb hba ⊢
  omega

theorem ReadyBlock.not_before_self (a : ReadyBlock) : a.before a = false := by
  rw [← Bool.not_eq_true, ReadyBlock.before_iff]
  omega

/-- The block that a slot takes is one that no other goes before. -/
theorem firstReady_least {l : List ReadyBlock} {a : ReadyBlock} (h : firstReady l = some a) :
    a ∈ l ∧ ∀ c ∈ l, c.before a = false := by
  induction l generalizing a with
  | nil => cases h
  | cons r l ih =>
    rw [firstReady] at h
    cases hq : firstReady l with
    | none =>
      rw [hq] at h
      cases l with
      | nil =>
        cases h
        refine ⟨List.mem_singleton.2 rfl, fun c hc => ?_⟩
        rw [List.mem_singleton.1 hc]
        exact r.not_before_self
      | cons b l =>
        rw [firstReady] at hq
        split at hq
        · split at hq <;> cases hq
        · cases hq
    | some q =>
      obtain ⟨hmem, hmin⟩ := ih hq
      simp only [hq] at h
      cases hb : q.before r with
      | true =>
        rw [hb] at h
        cases h
        refine ⟨List.mem_cons_of_mem _ hmem, fun c hc => ?_⟩
        rcases List.mem_cons.1 hc with rfl | hc
        · exact ReadyBlock.not_before_of_before hb
        · exact hmin c hc
      | false =>
        rw [hb] at h
        cases h
        refine ⟨List.mem_cons_self, fun c hc => ?_⟩
        rcases List.mem_cons.1 hc with rfl | hc
        · exact c.not_before_self
        · exact ReadyBlock.not_before_trans (hmin c hc) hb

theorem exists_firstReady {l : List ReadyBlock} (h : l ≠ []) : ∃ a, firstReady l = some a := by
  cases l with
  | nil => exact absurd rfl h
  | cons r l =>
    rw [firstReady]
    split
    · split <;> exact ⟨_, rfl⟩
    · exact ⟨_, rfl⟩

section slot
variable {s : State} {k : Nat}

theorem linkSlot_value {a : List (BitVec 8)} (hv : (s.link k).value = some a) :
    linkSlot s k = showBlock (s.setLink k { s.link k with value := none }) k (none, a) := by
  simp only [linkSlot, hv]

variable (hv : (s.link k).value = none)
include hv

theorem linkSlot_ready (hr : (s.link k).ready ≠ []) :
    ∃ a ∈ (s.link k).ready, (∀ c ∈ (s.link k).ready, c.before a = false) ∧ linkSlot s k = sendReady s k a := by
  obtain ⟨a, ha⟩ := exists_firstReady hr
  obtain ⟨hmem, hmin⟩ := firstReady_least ha
  refine ⟨a, hmem, hmin, ?_⟩
  simp only [linkSlot, hv, ha]

variable (hr : (s.link k).ready = [])
include hr

theorem linkSlot_wire {a : Option Nat × List (BitVec 8)} {w : List (Option Nat × List (BitVec 8))} (hw : (s.link k).wire = a :: w) :
    linkSlot s k = showBlock (s.setLink k { s.link k with wire := w }) k a := by
  simp only [linkSlot, hv, hr, hw, firstReady]

theorem linkSlot_frame (hw : (s.link k).wire = []) {seq : Nat} {f : EbkFrame} {rest : List (Nat × EbkFrame)}
    (ht : (s.link k).txq = (seq, f) :: rest) : ∃ a w, frameBlocks f seq = a :: w ∧
      linkSlot s k = showBlock (s.setLink k { s.link k with wire := w, txq := rest }) k a := by
  refine ⟨_, _, rfl, ?_⟩
  simp only [linkSlot, hv, hr, hw, ht, firstReady]
  rfl

theorem linkSlot_idle (hw : (s.link k).wire = []) (ht : (s.link k).txq = []) : linkSlot s k = s := by
  simp only [linkSlot, hv, hr, hw, ht, firstReady]

end slot

/-! ### Transfers (R399) -/

section transfer
variable {s : State} (hu : s.up = true)

theorem doXferGo_queues {q : Requester} {v : Word} (hv : v.getLsbD 31 = true) (hl : s.ebk.copies.length < 8) (h0 : s.f F.EBK_X_LEN_LEN ≠ 0)
    (ha : copyAllowed s q (s.f F.EBK_X_SRC_SRC * 64) (s.f F.EBK_X_LEN_LEN) = true) :
    doXferGo s q v = showCopies { s with ebk := { s.ebk with copies := s.ebk.copies ++
      [⟨s.f F.EBK_X_SRC_SRC, s.f F.EBK_X_DST_DST, s.f F.EBK_X_LEN_LEN, fieldOf v 8 0⟩] } } :=
  (if_neg (by simp [hv])).trans ((if_neg (Nat.not_le.2 hl)).trans ((if_neg h0).trans (if_neg (by simp [ha]))))

include hu

theorem exec_ebkXGo {q : Requester} {v : Word} (hc : ∀ c, q = .core c → (s.core c).run = .running ∧ coreReaches s c R.EBK_X_GO true = true)
    (hv : v.getLsbD 31 = true) (hl : s.ebk.copies.length < 8) (h0 : s.f F.EBK_X_LEN_LEN ≠ 0)
    (ha : copyAllowed s q (s.f F.EBK_X_SRC_SRC * 64) (s.f F.EBK_X_LEN_LEN) = true) :
    exec (.ebkXGo q v) s = .next (showCopies { s with ebk := { s.ebk with copies := s.ebk.copies ++
      [⟨s.f F.EBK_X_SRC_SRC, s.f F.EBK_X_DST_DST, s.f F.EBK_X_LEN_LEN, fieldOf v 8 0⟩] } }).settled := by
  have hq := doXferGo_queues hv hl h0 ha
  cases q with
  | core c =>
    obtain ⟨hrun, hreach⟩ := hc c rfl
    have hby : byCore s c R.EBK_X_GO (fun s => doXferGo s (.core c) v) = doXferGo s (.core c) v := by
      rw [byCore, if_neg (by simp [hrun]), if_pos hreach]
    refine (if_neg (by simp [hu])).trans ?_
    show done (byCore s c R.EBK_X_GO (fun s => doXferGo s (.core c) v)) = _
    rw [hby, hq]
    rfl
  | host =>
    refine (if_neg (by simp [hu])).trans ?_
    show done (doXferGo s .host v) = _
    rw [hq]
    rfl
  | twi =>
    refine (if_neg (by simp [hu])).trans ?_
    show done (doXferGo s .twi v) = _
    rw [hq]
    rfl

theorem exec_transferSend_strip (hs : s.toLink ≠ []) (hc : s.ebk.copies = [] ∨ s.ebk.stripLast = false) (hn : s.ebk.sending = none) :
    exec .transferSend s = .next (sendStrip s).settled :=
  (if_neg (by simp [hu])).trans ((if_neg (by simp [hn])).trans (if_pos (by simp [hs, hc])))

theorem exec_transferSend_copy (hs : s.toLink = [] ∨ s.ebk.stripLast = true) (hc : s.ebk.copies ≠ []) (hn : s.ebk.sending = none) :
    exec .transferSend s = .next (sendCopy s).settled := by
  have hstrip : (!s.toLink.isEmpty && (!!s.ebk.copies.isEmpty || !s.ebk.stripLast)) = false := by
    rcases hs with h | h
    · simp [h]
    · simp [h, hc]
  exact (if_neg (by simp [hu])).trans ((if_neg (by simp [hn])).trans ((if_neg (Bool.eq_false_iff.1 hstrip)).trans (if_pos (by simp [hc]))))

end transfer

/-! ### A running link (R391 to R398) -/

section run
variable {k : Fin 8} {s : State} (hu : s.up = true) (hp : phase s k = lkRun)
include hu hp

/-- An acknowledgement of some of the frames sent lets them go (R398). -/
theorem exec_ack {p : Dword} (hb : blockType p = 0x66) :
    let n := (pf p 61 50 + 4096 - (s.link k).base) % 4096
    0 < n → n ≤ (s.link k).unacked.length → pf p 63 63 = 0 →
      exec (.ack k p) s = .next (pumpLink (noteSent (s.setLink k { s.link k with
        unacked := (s.link k).unacked.drop n, base := ((s.link k).base + n) % 4096, ackAt := s.now, resends := 0 })
          ((s.link k).unacked.take n)) k).settled := by
  intro n h0 hn hk
  have h : exec (.ack k p) s = execAck k p s := rfl
  rw [h, execAck, if_neg (by simp [hu, hp]), if_neg (by simp [hb])]
  refine (if_neg (Nat.not_lt.2 hn)).trans (congrArg (fun t => done (pumpLink t k)) ((if_neg (by rw [hk]; decide)).trans ?_))
  exact congrArg (noteSent · _) (if_neg (Nat.pos_iff_ne_zero.1 h0))

theorem exec_retryTmo (hn : (s.link k).unacked ≠ [])
    (ht : (s.link k).ackAt + (if s.f (F.EBK_RETRY_RETRY_TMO k) = 0 then 20 else s.f (F.EBK_RETRY_RETRY_TMO k)) * 1000 ≤ s.now) :
    exec (.retryTmo k) s = .next (rewind s k true).settled :=
  if_pos (by simp only [hu, hp, decide_eq_true ht, List.isEmpty_eq_false_iff.2 hn]; rfl)

section frame
variable {p : Dword} {data : List Byte}

/-- The row of a frame on a link in RUN: one that fails a check is answered with a NAK (R398). -/
theorem execFrame_run {crcOk : Bool} : execFrame k p data crcOk s =
    if blockType p != 0x78 || !crcOk || pf p 29 16 < 16 || 8192 < pf p 29 16 || data.length != ceilDiv (pf p 29 16) 8 * 8 then
      done (sendNak (s.bump (F.EBK_FRM_CNT_BAD k)) k)
    else if pf p 59 48 != (s.link k).expect then
      if ((s.link k).expect + 4095 - pf p 59 48) % 4096 < 2048 then done (sendAck s k false false (s.link k).expect) else done (sendNak s k)
    else if !frameRoom s (pf p 47 39) (pf p 15 10) (pf p 29 16) then done (sendAck s k true true (s.link k).expect)
    else
      let e := ((s.link k).expect + 1) % 4096
      let s := s.setLink k { s.link k with expect := e, nakAt := none }
      done (acceptFrame (sendAck s k false false e) k p (data.take (pf p 29 16))) := by
  rw [execFrame]
  exact (if_neg (by simp [hu])).trans ((if_neg (by rw [hp]; decide)).trans (if_neg (by simp [hp])))

theorem exec_frame_bad : exec (.frame k p data false) s = .next (sendNak (s.bump (F.EBK_FRM_CNT_BAD k)) k).settled :=
  (execFrame_run hu hp).trans (if_pos (by simp))

section good
variable (hb : blockType p = 0x78) (h16 : 16 ≤ pf p 29 16) (h8k : pf p 29 16 ≤ 8192) (hl : data.length = ceilDiv (pf p 29 16) 8 * 8)
  (he : pf p 59 48 = (s.link k).expect)
include hb h16 h8k hl he

theorem exec_frame_accepts (hr : frameRoom s (pf p 47 39) (pf p 15 10) (pf p 29 16) = true) :
    let e := ((s.link k).expect + 1) % 4096
    exec (.frame k p data true) s = .next (acceptFrame (sendAck (s.setLink k { s.link k with expect := e, nakAt := none }) k false false e)
      k p (data.take (pf p 29 16))).settled :=
  (execFrame_run hu hp).trans ((if_neg (by simp [hb, h16, h8k, hl])).trans ((if_neg (by simp [he])).trans (if_neg (by simp [hr]))))

theorem exec_frame_noRoom (hr : frameRoom s (pf p 47 39) (pf p 15 10) (pf p 29 16) = false) :
    exec (.frame k p data true) s = .next (sendAck s k true true (s.link k).expect).settled :=
  (execFrame_run hu hp).trans ((if_neg (by simp [hb, h16, h8k, hl])).trans ((if_neg (by simp [he])).trans (if_pos (by simp [hr]))))

end good
end frame

section beaconSend
variable {b : Fin 8} (hen : s.on (F.EBK_BCN_EN k b) = true) (hper : s.f (F.EBK_BCN_PERIOD k b) ≠ 0)
include hen hper

/-- A beacon that is due, by the mark of its entry, waits for a slot (R395). -/
theorem exec_beaconSend_first (hm : (s.link k).bcn.find? (fun e => e.1 == b.val) = none) :
    exec (.beaconSend k b) s = .next (addReady (s.setLink k
      { s.link k with bcn := (b.val, s.now, 0) :: (s.link k).bcn.filter (fun e => e.1 != b.val) }) k
      { rank := 0, due := s.now, order := b, type := 0x2D }).settled := by
  have h : exec (.beaconSend k b) s = execBeaconSend k b s := rfl
  have hmark : beaconMark (s.link k) b = none := by rw [beaconMark, hm]; rfl
  rw [h, execBeaconSend]
  simp only [hmark]
  exact if_pos (by simp [hu, hp, hen, hper])

theorem exec_beaconSend_next {last n : Nat} (hm : (s.link k).bcn.find? (fun e => e.1 == b.val) = some (b.val, last, n))
    (ht : last + s.f (F.EBK_BCN_PERIOD k b) * 1000 ≤ s.now) :
    exec (.beaconSend k b) s = .next (addReady (s.setLink k
      { s.link k with bcn := (b.val, s.now, n) :: (s.link k).bcn.filter (fun e => e.1 != b.val) }) k
      { rank := 0, due := last + s.f (F.EBK_BCN_PERIOD k b) * 1000, order := b, type := 0x2D }).settled := by
  have h : exec (.beaconSend k b) s = execBeaconSend k b s := rfl
  have hmark : beaconMark (s.link k) b = some (last, n) := by rw [beaconMark, hm]; rfl
  rw [h, execBeaconSend]
  simp only [hmark]
  exact if_pos (by simp [hu, hp, hen, hper, ht])

end beaconSend

section beacon
variable {p value : Dword} {sub : Fin 16} (hb : blockType p = 0x2D)
include hb

theorem exec_beacon_clock (h1 : pf p 63 63 = 1) :
    let arr : Int := floorDiv s.tim.clk 65536 + (sub.val : Nat) * 4096
    let ofs := (value.toNat : Int) * 65536 + (pf p 41 26 : Nat) + linkLat s k * 4096 - arr
    exec (.beacon k p value sub) s =
      .next ((s.setPair (R.EBK_TB_OFS_LO k) (R.EBK_TB_OFS_HI k) (wrapN 64 ofs)).set1 (F.EBK_FLAGS_TB_NEW k)).settled :=
  (if_neg (by simp [hu, hp])).trans ((if_neg (by simp [hb])).trans (if_neg (by rw [h1]; decide)))

theorem exec_beacon_axis (h0 : pf p 63 63 = 0) :
    exec (.beacon k p value sub) s = .next (offerAll s ⟨1, ⟨k.val, by omega⟩,
      BitVec.toFin (BitVec.ofNat 9 (pf p 58 50)), BitVec.toFin (BitVec.ofNat 4 (pf p 62 59)), BitVec.ofNat 32 (pf p 19 8), value, 0⟩
      sub).settled :=
  (if_neg (by simp [hu, hp])).trans ((if_neg (by simp [hb])).trans (if_pos h0))

end beacon

section event
variable {p : Dword} (hb : blockType p = 0x55)
include hb

/-- The row of an event block on a link in RUN (R396, R397, R400). -/
theorem execEvent_run : execEvent k p s =
    if pf p 35 35 = 1 || pf p 44 36 = s.f F.EBK_NODE_NODE then
      if pf p 56 54 = 7 then done (s.bump F.EBK_DROP_EVENT)
      else done (s.raiseEv (0x300 + pf p 63 57) (pf p 56 54 + 1) (0x300 + pf p 63 57))
    else
      match routeOf s (pf p 44 36) with
      | some j => done (if eventRoom s j then sendBlock s j 0x55 p.toNat else s.bump F.EBK_DROP_EVENT)
      | none => done ((noRoute s 1).bump F.EBK_DROP_EVENT) := by
  rw [execEvent]
  exact (if_neg (by simp [hu])).trans ((if_neg (by simp [hp])).trans (if_neg (by simp [hb])))

theorem exec_event_here (hd : pf p 35 35 = 1 ∨ pf p 44 36 = s.f F.EBK_NODE_NODE) :
    (pf p 56 54 ≠ 7 → exec (.event k p) s = .next (s.raiseEv (0x300 + pf p 63 57) (pf p 56 54 + 1) (0x300 + pf p 63 57)).settled) ∧
    (pf p 56 54 = 7 → exec (.event k p) s = .next (s.bump F.EBK_DROP_EVENT).settled) := by
  have h : exec (.event k p) s = execEvent k p s := rfl
  rw [h, execEvent_run hu hp hb, if_pos (by simpa using hd)]
  exact ⟨fun h7 => if_neg h7, fun h7 => if_pos h7⟩

theorem exec_event_forwarded (h1 : pf p 35 35 ≠ 1) (hn : pf p 44 36 ≠ s.f F.EBK_NODE_NODE) {j : Nat} (hj : routeOf s (pf p 44 36) = some j) :
    (eventRoom s j = true → exec (.event k p) s = .next (sendBlock s j 0x55 p.toNat).settled) ∧
    (eventRoom s j = false → exec (.event k p) s = .next (s.bump F.EBK_DROP_EVENT).settled) := by
  have h : exec (.event k p) s = execEvent k p s := rfl
  rw [h, execEvent_run hu hp hb, if_neg (by simp [h1, hn]), hj]
  exact ⟨fun hr => congrArg done (if_pos hr), fun hr => congrArg done (if_neg (Bool.eq_false_iff.1 hr))⟩

end event

end run

/-! ### Remote outputs and axis samples (R396, R402) -/

section out
variable {s : State} (hu : s.up = true)
include hu

theorem exec_remoteOut {r : Fin 128} (hv : s.on (F.EBK_REV_VALID r) = true) (hn : remoteLinks s r ≠ [])
    (hr : ∀ j ∈ remoteLinks s r, eventRoom s j = true) {h o : Nat} {rest : List (Nat × Nat)}
    (hp : (s.input (inRemote r)).pend = (h, o) :: rest) (hl : (isRelay (inRemote r) && h == 7) = false) :
    let u := s.setInput (inRemote r) { s.input (inRemote r) with pend := rest, took := some s.now }
    let w := r.val * 2 ^ 57 + h * 2 ^ 54 + u.f F.EBK_NODE_NODE * 2 ^ 45 + s.f (F.EBK_REV_DEST r) * 2 ^ 36 +
      (if s.on (F.EBK_REV_NBR r) = true then 2 ^ 35 else 0)
    exec (.remoteOut r) s = .next ((remoteLinks s r).foldl (fun t k => sendBlock t k 0x55 w) u).settled := by
  have he : exec (.remoteOut r) s = execRemoteOut r s := rfl
  have hready : remoteReady s r = true := by
    rw [remoteReady, hv, List.isEmpty_eq_false_iff.2 hn, List.all_eq_true.2 hr]
    rfl
  rw [he, execRemoteOut, takeEvent_pending hp hl]
  exact if_neg (by simp [hu, hready])

/-- The first sample of an entry is sent at once (R402). -/
theorem exec_axisSampleSend_first {t : Fin 16} (hen : s.on (F.EBK_XS_CFG_EN t) = true) (hper : s.f (F.EBK_XS_CFG_PERIOD t) ≠ 0)
    (hudp : s.f F.EBK_AXS_UDP_PORT ≠ 0) (hx : s.ebk.xs.find? (fun e => e.1 == t.val) = none) :
    let u := { s with ebk := { s.ebk with xs := (t.val, s.now, 1) :: s.ebk.xs.filter (fun e => e.1 != t.val) } }
    let ax := u.f (F.EBK_XS_CFG_AXIS t)
    let body := bytesLE 4 0x5841394C ++ bytesLE 1 1 ++ bytesLE 1 (u.f (F.EBK_XS_CFG_KIND t)) ++ bytesLE 1 ax ++ bytesLE 1 u.epoch ++
      bytesLE 2 (u.f F.EBK_NODE_NODE) ++ bytesLE 1 (pmState u ax) ++ bytesLE 1 0 ++ bytesLE 4 0 ++ bytesLE 8 (axisWord u ax).toNat ++
      bytesLE 8 (wrapN 64 u.tim.total) ++ bytesLE 2 u.tim.sub ++ bytesLE 6 0
    exec (.axisSampleSend t) s = .next (sendUdp u (u.f (F.EBK_XS_CFG_PORT t)) (u.rd (R.EBK_XS_DST t)).toNat (s.f F.EBK_AXS_UDP_PORT)
      (s.f F.EBK_AXS_UDP_PORT) body .none).2.settled := by
  have h : exec (.axisSampleSend t) s = execAxisSampleSend t s := rfl
  rw [h, execAxisSampleSend]
  simp only [hx]
  exact if_pos (by simp [hu, hen, hper, hudp])

/-- An axis sample that has come over Ethernet. -/
def Rx.isAxis : Rx → Bool
  | .axis _ _ => true
  | _ => false

omit hu in
theorem takeRx_front {p : Rx → Bool} {r : Rx} {rest : List Rx} (hr : s.eth.rx = r :: rest) (hp : p r = true) :
    takeRx s p = some (r, { s with eth := { s.eth with rx := rest } }) := by
  rw [takeRx, hr, List.find?_cons_of_pos hp]
  simp only [List.erase_cons_head]

theorem exec_axisSample {m : Nat} {l : List (BitVec 8)} {rest : List Rx} (hr : s.eth.rx = .axis m l :: rest) (hl : l.length = 40)
    (h0 : leAt l 0 4 = 0x5841394C) (h4 : leAt l 4 1 = 1) :
    exec .axisSample s = .next (offerAll { s with eth := { s.eth with rx := rest } } ⟨2, BitVec.toFin (BitVec.ofNat 4 m),
      BitVec.toFin (BitVec.ofNat 9 (leAt l 8 2)), BitVec.toFin (BitVec.ofNat 4 (leAt l 6 1)), BitVec.ofNat 32 (leAt l 12 4),
      BitVec.ofNat 64 (leAt l 16 8), BitVec.ofNat 64 (leAt l 24 8)⟩ 0).settled := by
  have h : exec .axisSample s = execAxisSample s := rfl
  rw [h, execAxisSample]
  show (match takeRx s Rx.isAxis with | some (.axis m b, t) => _ | _ => _) = _
  rw [takeRx_front hr rfl]
  exact (if_neg (by simp [hu])).trans (if_neg (by simp [hl, h0, h4]))

end out

/-! ### Lanes (R393, R403, R405) -/

section lane
variable {n : Fin 24} {s : State} (hu : s.up = true)
include hu

/-- A margin below its threshold is flagged, and freezes the lane where that is asked (R393). -/
theorem exec_marginCheck {eye : BitVec 16} (hl : laneUp s n = true) (ht : (s.lane n).marginAt + 10000000 ≤ s.now) :
    let u := (s.sf (F.LNK_MARGIN_CURRENT n) eye.toNat).setLane n { s.lane n with marginAt := s.now }
    let th := u.f (F.LNK_ADAPT_CFG_MRG_THRESH n)
    ((th = 0 ∨ u.f (F.LNK_MARGIN_SNAPSHOT n) * th ≤ eye.toNat * 100) → exec (.marginCheck n eye) s = .next u.settled) ∧
    (th ≠ 0 → eye.toNat * 100 < u.f (F.LNK_MARGIN_SNAPSHOT n) * th →
      let w := u.set1 (F.LNK_L_FLAGS_MARGIN_LOW n)
      exec (.marginCheck n eye) s = .next (if (w.rd R.LNK_FREEZE_ON_LOW).getLsbD n then
        (w.wr (R.LNK_RXEQ n) (s.lane n).snap).set1 (F.LNK_L_FLAGS_FROZEN n) else w).settled) := by
  have h : exec (.marginCheck n eye) s = execMarginCheck n eye s := rfl
  rw [h, execMarginCheck, if_pos (by simp [hu, hl, ht])]
  refine ⟨fun hm => if_neg ?_, fun h0 hm => if_pos ?_⟩
  · rw [Bool.and_eq_true, bne_iff_ne, decide_eq_true_eq, not_and_or, ne_eq, not_not, Nat.not_lt]
    exact hm
  · rw [Bool.and_eq_true, bne_iff_ne, decide_eq_true_eq]
    exact ⟨h0, hm⟩

theorem exec_adaptStep {eq : Word} (hl : laneUp s n = true) (h0 : s.f (F.LNK_ADAPT_CFG_STEP_INT n) ≠ 0)
    (hf : s.on (F.LNK_L_FLAGS_FROZEN n) = false) (ht : (s.lane n).stepAt + s.f (F.LNK_ADAPT_CFG_STEP_INT n) * 1000 ≤ s.now) :
    let dfe := fun (r : RF) (hi lo : Nat) (t : State) => t.sf r (wrapN 8 (eqStep (signed 8 (t.f r)) (signed 8 (fieldOf eq hi lo))))
    let u := s.sf (F.LNK_RXEQ_CTLE n) (eqStep (s.f (F.LNK_RXEQ_CTLE n)) (fieldOf eq 31 24)).toNat
    let u := dfe (F.LNK_RXEQ_DFE3 n) 7 0 (dfe (F.LNK_RXEQ_DFE2 n) 15 8 (dfe (F.LNK_RXEQ_DFE1 n) 23 16 u))
    exec (.adaptStep n eq) s = .next (u.setLane n { s.lane n with stepAt := u.now }).settled :=
  if_pos (by simp [hu, hl, h0, hf, ht])

theorem exec_prbsCheckerLock {k : Fin 8} {errs : Word} {bits : Dword} (hp : phase s k = lkTest) (h0 : prbsOf s k ≠ 0) :
    exec (.prbsCheckerLock k errs bits) s = .next
      ((s.bumpBy (F.EBK_PRBS_ERR_ERRORS k) errs.toNat).incrPair (R.EBK_PRBS_BITS_LO k) (R.EBK_PRBS_BITS_HI k) bits.toNat).settled :=
  if_pos (by simp [hu, hp, h0])

end lane

/-- Settles O39, command by command. -/
theorem ebkelTraffic : Obligations.EbkelTraffic := by
  refine ⟨fun k b t r q v p value sub data s hu => ⟨fun a => linkSlot_value, fun hv => ⟨linkSlot_ready hv, fun hr => ⟨fun a w => linkSlot_wire hv hr,
      fun hw seq f rest => linkSlot_frame hv hr hw, linkSlot_idle hv hr⟩⟩, exec_ebkXGo hu, exec_transferSend_strip hu, exec_transferSend_copy hu,
    fun hp => ⟨exec_ack hu hp, exec_retryTmo hu hp, fun hb h16 h8k hl he => ⟨exec_frame_accepts hu hp hb h16 h8k hl he,
      exec_frame_noRoom hu hp hb h16 h8k hl he⟩, exec_frame_bad hu hp, fun hen hper => ⟨exec_beaconSend_first hu hp hen hper,
      fun last n => exec_beaconSend_next hu hp hen hper⟩, fun hb => ⟨exec_beacon_clock hu hp hb, exec_beacon_axis hu hp hb⟩,
      fun hb => ⟨exec_event_here hu hp hb, fun h1 hn _ j => exec_event_forwarded hu hp hb h1 hn⟩⟩,
    fun hv hn hr h o rest => exec_remoteOut hu hv hn hr, exec_axisSampleSend_first hu, fun m l rest => exec_axisSample hu⟩,
    fun n k v eq errs eye bits s hu => ⟨next_of_up hu, next_of_up hu, next_of_up hu, exec_marginCheck hu, exec_adaptStep hu,
      exec_prbsCheckerLock hu⟩⟩

end Sys2Proof.Machine
end

section
/-! SUPPORT. Faults and warm restarts (O40). -/

namespace Sys2Proof.Machine
open Sys2Proof

section faults
variable {s : State}

/-! ### Warm restarts (R428, R429, R431) -/

section warm
variable (hh : s.held = false) (hw : s.ras.warm = none) (ha : s.boot.asleep = false) (hl : s.lockdown = false)
include hw ha hl

theorem doWarm_begins : doWarm s = beginWarm ({ s with ras := { s.ras with stopped := false } }.clr F.RAS_STAT_HALTED) 0 false :=
  if_neg (by simp [hw, ha, hl])

include hh

theorem exec_warm_core {c : CoreNo} (hm : coreMay s c.val 25 = true) : exec (.warm (.core c)) s =
    .next (beginWarm ({ s with ras := { s.ras with stopped := false } }.clr F.RAS_STAT_HALTED) 0 false).settled :=
  (if_neg (by simp [hh])).trans (congrArg done ((if_pos hm).trans (doWarm_begins hw ha hl)))

theorem exec_warm_host (hc : s.lifecycle ≤ 1) : exec (.warm .host) s =
    .next (beginWarm ({ s with ras := { s.ras with stopped := false } }.clr F.RAS_STAT_HALTED) 0 false).settled :=
  (if_neg (by simp [hh])).trans (congrArg done ((if_pos (decide_eq_true hc)).trans (doWarm_begins hw ha hl)))

end warm

/-- At the end of a restart in which no further FATAL fault came the cores with START rights start (R429, R431). -/
theorem exec_warmDone {code : Nat} (hw : s.ras.warm = some code) :
    let w := allCores.foldl (fun t c => if (t.core c).grant.start && (t.core c).activeId != 0 then startCore t c else t) s
    let u := { w with ras := { w.ras with warm := none, again := false } }.clr F.RAS_STAT_WARM_BUSY
    let u := (u.set1 F.RAS_STAT_WARM_DONE).bump F.RAS_WARM_CNT_COUNT
    w.ras.again = false →
      (code = 0 → exec .warmDone s = .next u.settled) ∧
      (code ≠ 0 → w.ras.stuck = false → exec .warmDone s = .next (u.clr F.RAS_STAT_FATAL).settled) := by
  have h : exec .warmDone s = execWarmDone s := rfl
  rw [h, execWarmDone, hw]
  generalize allCores.foldl (fun t c => if (t.core c).grant.start && (t.core c).activeId != 0 then startCore t c else t) s = v
  intro w t u hag
  have hag' : v.ras.again = false := hag
  refine ⟨fun hc => ?_, fun hc hs => ?_⟩
  · exact congrArg done ((if_neg (Bool.eq_false_iff.1 hag')).trans (if_neg (by simp [hc])))
  · have hs' : (code != 0 && !u.ras.stuck) = true := Bool.and_eq_true_iff.2 ⟨bne_iff_ne.2 hc, congrArg (! ·) hs⟩
    exact congrArg done ((if_neg (Bool.eq_false_iff.1 hag')).trans (if_pos hs'))

/-! ### The thermal sensor and the system watchdog (R426, R432) -/

section running
variable (hh : s.held = false)
include hh

theorem exec_thermWarn {tj : BitVec 16} :
    let u := s.sf F.PWR_TJ_TJ tj.toNat
    exec (.thermWarn tj) s = .next (if (u.f F.RAS_CFG_THERM_WARN : Int) * 16 ≤ tj16 tj then
      (u.logFault 0x0E 0 0xFFFF 0 0).set1 F.RAS_STAT_THERM_WARN else u).settled := by
  refine (if_neg (by simp [hh])).trans ?_
  exact (apply_ite done ..).symm

theorem exec_swdExpiry (ha : s.boot.asleep = false) (hl : s.on F.RAS_SWD_LOAD = true) (h0 : swdCount s = 0) :
    let u := fun sev => (doSwdKick (s.logFault 0x10 sev 0xFFFF 0 0)).set1 F.RAS_STAT_SWD_EXP
    (s.f F.RAS_SWD_ACTION = 0 → exec .swdExpiry s = .next (u 2).settled) ∧
    (s.f F.RAS_SWD_ACTION = 1 → s.ras.warm = none → exec .swdExpiry s = .next (faultWarm (u 3) 0x10 false true).settled) ∧
    (1 < s.f F.RAS_SWD_ACTION → s.ras.warm = none → (u 3).lockdown = false → exec .swdExpiry s = .next (doFullReset (u 3)).settled) := by
  have h : exec .swdExpiry s = execSwdExpiry s := rfl
  rw [h, execSwdExpiry, if_neg (by simp [hh, ha, hl, h0])]
  intro u
  refine ⟨fun hact => ?_, fun hact hw => ?_, fun hact hw hld => ?_⟩
  · simp only [hact, if_true]
    rfl
  · simp only [hact, hw]
    rfl
  · have hne0 : s.f F.RAS_SWD_ACTION ≠ 0 := by omega
    have hne1 : s.f F.RAS_SWD_ACTION ≠ 1 := by omega
    simp only [if_neg hne0, if_neg hne1, hw]
    exact if_neg (Bool.eq_false_iff.1 hld)

end running

theorem exec_thermalTrip {tj : BitVec 16} (ht : s.boot.trip = false) (hj : 2000 ≤ tj16 tj) :
    let u := s.logFault 0x0F 3 0xFFFF 0 0
    u.held = false → exec (.thermalTrip tj) s = .next
      (((resetCore { u with boot := { u.boot with trip := true } }).sf F.PWR_TJ_TJ tj.toNat).emit (.pin .thermtripN false)).settled := by
  intro u hu
  have hc : (s.boot.trip || decide (tj16 tj < 2000)) = false := by rw [ht, decide_eq_false (Int.not_lt.2 hj), Bool.or_self]
  have hr : (if u.held then { u with boot := { u.boot with trip := true } } else resetCore { u with boot := { u.boot with trip := true } }) =
      resetCore { u with boot := { u.boot with trip := true } } := if_neg (Bool.eq_false_iff.1 hu)
  refine (if_neg (Bool.eq_false_iff.1 hc)).trans ?_
  exact congrArg (fun t : State => done ((t.sf F.PWR_TJ_TJ tj.toNat).emit (.pin .thermtripN false))) hr

theorem exec_thermalTripEnd {tj : BitVec 16} (ht : s.boot.trip = true) (hj : tj16 tj < 1600) :
    exec (.thermalTripEnd tj) s = .next (startBoot
      (({ s with boot := { s.boot with trip := false } }.sf F.PWR_TJ_TJ tj.toNat).emit (.pin .thermtripN true))).settled :=
  if_pos (by rw [ht, decide_eq_true hj]; rfl)

/-! ### Faults of the acquisition side (R426) -/

section up
variable (hu : s.up = true)
include hu

theorem exec_pllLockLoss {p : Fin 4} (hp : s.boot.pll = true) : exec (.pllLockLoss p) s =
    .next (fatalWarm (if p.val = 0 then s.clr F.TIM_STAT_LOCKED else s) 0x0B p.val false).settled :=
  if_pos (by simp [hu, hp])

theorem exec_hbmFailure {stack : Bool} (hb : s.boot.hbm = true) :
    exec (.hbmFailure stack) s = .next (haltAcq (s.logFault 0x0D 3 (if stack then 1 else 0) 0 0)).settled :=
  if_pos (by simp [hu, hb])

/-- A ring whose franking state is lost, and which no channel moves, lets its units go and waits for a new key (R372, R426). -/
theorem exec_uncorrectableFrankingState {r : Fin 256} :
    let u := s.logFault 0x07 2 r.val 0 0
    let x := u.ring r
    let gone := x.placed.filterMap (·.u) ++ x.waiting ++ x.held
    inTransfer u r = false →
      let w := disableRing { u with signQ := u.signQ.filter (· != r.val) } r
      let w := gone.foldl (fun t u => releaseSource t u.src false) w
      exec (.uncorrectableFrankingState r) s = .next (w.setRing r { w.ring r with
        wanted := w.on (F.DLV_R_POLICY_EN r) && w.f (F.DLV_R_POLICY_MODE r) != 0 }).settled := by
  have h : exec (.uncorrectableFrankingState r) s = execUncorrectableFrankingState r s := rfl
  rw [h, execUncorrectableFrankingState, if_neg (by simp [hu])]
  generalize s.logFault 0x07 2 r.val 0 0 = t
  intro u x gone hin
  have hin' : inTransfer t r = false := hin
  simp only [hin', Bool.false_eq_true, if_false]
  rfl

end up

end faults

/-- Settles O40, fault by fault. -/
theorem rasCommands : Obligations.RasCommands := by
  intro c part r p quad stack tj s
  exact ⟨fun hh => ⟨fun hw ha hl => ⟨exec_warm_core hh hw ha hl, exec_warm_host hh hw ha hl⟩, if_neg (by simp [hh]), exec_thermWarn hh,
    exec_thermalTrip, exec_swdExpiry hh, if_neg (by simp [hh]), if_neg (by simp [hh])⟩, exec_thermalTripEnd, fun code => exec_warmDone,
    fun hu => ⟨next_of_up hu, next_of_up hu, exec_pllLockLoss hu, exec_hbmFailure hu, exec_uncorrectableFrankingState hu⟩⟩

end Sys2Proof.Machine
end

section
/-! SUPPORT. The two-wire target (O41). -/

namespace Sys2Proof.Machine
open Sys2Proof

section target
variable {s : State}

theorem letGo_of_none (h : s.twi.hold = none) : letGo s = s := if_neg (by simp [h])

section follows
variable (hh : s.held = false) (hs : s.twi.stretch = none)
include hh hs

theorem twiFollows_of : twiFollows s = true := by
  rw [twiFollows, hh, hs]
  rfl

/-- The target's own address begins a transaction (R439). -/
theorem exec_twiAddress {read : Bool} :
    let u := twiEnd s
    twiAddr u < 128 → (u.boot.asleep && u.on F.PWR_WAKE_EN_TWI) = false →
      exec (.twiAddress (BitVec.ofNat 7 (twiAddr u)) read) s = .next (twiAck { u with twi := { u.twi with
        busy := true, read := read, ptrSet := false, sel := [], ptr0 := u.twi.ptr, logSel0 := u.twi.logSel } }).settled := by
  intro u ha hw
  have haddr : ((BitVec.ofNat 7 (twiAddr u)).toNat != twiAddr u) = false := by
    rw [BitVec.toNat_ofNat, Nat.mod_eq_of_lt ha, bne_self_eq_false]
  exact (if_neg (by simp [twiFollows_of hh hs])).trans ((if_neg (Bool.eq_false_iff.1 haddr)).trans (if_neg (Bool.eq_false_iff.1 hw)))

section write
variable (hb : s.twi.busy = true) (hr : s.twi.read = false) (hd : s.twi.hold = none)
include hb hr hd

/-- The row of a byte written in a transaction: the pointer first, then the log selector (R439). -/
theorem execTwiWriteByte_busy {b : Byte} : execTwiWriteByte b s =
    if !s.twi.ptrSet then done (twiAck { s with twi := { s.twi with ptr := b.toNat, ptrSet := true } })
    else if s.twi.ptr = 0x84 && twiLevel s == 3 && s.twi.sel.length < 4 then
      let l := s.twi.sel ++ [b]
      let t := { s.twi with sel := l }
      done (twiAck { s with twi := if l.length = 4 then { t with logSel := BitVec.ofNat 32 (ofLE l) } else t })
    else done (rejectByte s) := by
  rw [execTwiWriteByte, letGo_of_none hd]
  exact if_neg (by simp [twiFollows_of hh hs, hb, hr])

theorem exec_twiWriteByte_pointer {b : Byte} (hp : s.twi.ptrSet = false) :
    exec (.twiWriteByte b) s = .next (twiAck { s with twi := { s.twi with ptr := b.toNat, ptrSet := true } }).settled :=
  (execTwiWriteByte_busy hh hs hb hr hd).trans (if_pos (by simp [hp]))

theorem exec_twiWriteByte_selector {b : Byte} (hp : s.twi.ptrSet = true) (ha : s.twi.ptr = 0x84) (hl : twiLevel s = 3)
    (h3 : s.twi.sel.length = 3) : exec (.twiWriteByte b) s = .next (twiAck { s with twi := { s.twi with
      sel := s.twi.sel ++ [b], logSel := BitVec.ofNat 32 (ofLE (s.twi.sel ++ [b])) } }).settled := by
  have h : exec (.twiWriteByte b) s = execTwiWriteByte b s := rfl
  have h4 : (s.twi.sel ++ [b]).length = 4 := by rw [List.length_append, h3]; rfl
  rw [h, execTwiWriteByte_busy hh hs hb hr hd, if_neg (by simp [hp]), if_pos (by simp [ha, hl, h3])]
  simp only [h4]
  rfl

theorem exec_twiWriteByte_rejected {b : Byte} (hp : s.twi.ptrSet = true) (ha : s.twi.ptr ≠ 0x84) :
    exec (.twiWriteByte b) s = .next (s.bump F.TWI_ERR_WRITE_REJ).settled :=
  (execTwiWriteByte_busy hh hs hb hr hd).trans ((if_neg (by simp [hp])).trans (if_neg (by simp [ha])))

end write

section read
variable (hb : s.twi.busy = true) (hr : s.twi.read = true) (hd : s.twi.hold = none)
include hb hr hd

/-- The row of a byte read in a transaction (R440). -/
theorem execTwiReadByte_busy : execTwiReadByte s =
    let p := s.twi.ptr
    let o := p / 4 * 4
    let (w, s) :=
      match if p = o then none else s.latched .twi (viewLatch o) with
      | some w => (w, s)
      | none => viewAt s o
    let s := if p = o then s.setLatch .twi (viewLatch o) w else s
    let s := if p = 0x08 then s.setLatch .twi 0x0C (viewPlain s 0x0C) else s
    let b : BitVec 8 := BitVec.ofNat 8 (w.toNat / 256 ^ (p % 4))
    let s := { s with twi := { s.twi with ptr := (p + 1) % 256, hold := if b = 0xFF then none else some s.now } }
    done (s.emit (.twiByte b)) := by
  rw [execTwiReadByte, letGo_of_none hd]
  exact if_neg (by simp [twiFollows_of hh hs, hb, hr])

/-- The first byte of a word latches it. -/
theorem exec_twiReadByte_first :
    let p := s.twi.ptr
    p % 4 = 0 → p ≠ 0x08 →
      let r := viewAt s p
      let v : Byte := BitVec.ofNat 8 r.1.toNat
      let u := r.2.setLatch .twi (viewLatch p) r.1
      exec .twiReadByte s = .next ({ u with twi := { u.twi with
        ptr := (p + 1) % 256, hold := if v = 0xFF then none else some u.now } }.emit (.twiByte v)).settled := by
  have h : exec .twiReadByte s = execTwiReadByte s := rfl
  rw [h, execTwiReadByte_busy hh hs hb hr hd]
  generalize s.twi.ptr = a
  intro p hm h8
  have hm' : a % 4 = 0 := hm
  have h8' : ¬ a = 0x08 := h8
  have ho : a / 4 * 4 = a := Nat.div_mul_cancel (Nat.dvd_of_mod_eq_zero hm')
  simp only [ho, if_true, hm', if_neg h8', Nat.pow_zero, Nat.div_one]
  rfl

/-- The others come from the latch. -/
theorem exec_twiReadByte_next {w : Word} :
    let p := s.twi.ptr
    p % 4 ≠ 0 → s.latched .twi (viewLatch (p / 4 * 4)) = some w →
      let v : Byte := BitVec.ofNat 8 (w.toNat / 256 ^ (p % 4))
      exec .twiReadByte s = .next ({ s with twi := { s.twi with
        ptr := (p + 1) % 256, hold := if v = 0xFF then none else some s.now } }.emit (.twiByte v)).settled := by
  have h : exec .twiReadByte s = execTwiReadByte s := rfl
  rw [h, execTwiReadByte_busy hh hs hb hr hd]
  generalize s.twi.ptr = a
  intro p hm hw
  have hw' : s.latched .twi (viewLatch (a / 4 * 4)) = some w := hw
  have hm' : a % 4 ≠ 0 := hm
  have ho : ¬ a = a / 4 * 4 := by omega
  have h8 : ¬ a = 0x08 := by omega
  simp only [if_neg ho, if_neg h8, hw']
  rfl

end read

theorem exec_twiStop : exec .twiStop s = .next (twiEnd s).settled := if_pos (twiFollows_of hh hs)

theorem exec_twiBusError_idle (hb : s.twi.busy = false) :
    exec .twiBusError s = .next ((s.bump F.TWI_ERR_BUS_ERR).set1 F.TWI_STAT_BUS_ERR).settled := by
  have h : exec .twiBusError s = execTwiBusError s := rfl
  rw [h, execTwiBusError, if_neg (by simp [twiFollows_of hh hs])]
  simp only [hb]
  rfl

theorem exec_twiBusError_busy (hb : s.twi.busy = true) : exec .twiBusError s = .next (((twiIdle { s with twi := { s.twi with
    ptr := s.twi.ptr0, logSel := s.twi.logSel0 } }).bump F.TWI_ERR_BUS_ERR).set1 F.TWI_STAT_BUS_ERR).settled := by
  have h : exec .twiBusError s = execTwiBusError s := rfl
  rw [h, execTwiBusError, if_neg (by simp [twiFollows_of hh hs])]
  exact congrArg (fun t : State => done ((t.bump F.TWI_ERR_BUS_ERR).set1 F.TWI_STAT_BUS_ERR)) (if_pos hb)

theorem exec_holdTmo {t : Nat} (ht : s.twi.hold = some t) (hle : t + s.f F.TWI_CFG_HOLD_TMO * 1000000 ≤ s.now) :
    exec .holdTmo s = .next (((twiIdle s).bump F.TWI_ERR_STUCK).set1 F.TWI_STAT_STUCK).settled := by
  have h : exec .holdTmo s = execHoldTmo s := rfl
  rw [h, execHoldTmo, ht]
  exact if_neg (by simp [twiFollows_of hh hs, hle])

end follows

theorem exec_stretchTmo (hh : s.held = false) {t : Nat} (ht : s.twi.stretch = some t) (hl : s.on F.TWI_CFG_UNLIMITED = false)
    (hle : t + s.f F.TWI_CFG_STRETCH_TMO * 1000000 ≤ s.now) :
    exec .stretchTmo s = .next (((twiIdle (freeScl s)).bump F.TWI_ERR_STRETCH).set1 F.TWI_STAT_STRETCH_TMO).settled := by
  have h : exec .stretchTmo s = execStretchTmo s := rfl
  rw [h, execStretchTmo, ht]
  exact if_neg (by simp [hh, hl, hle])

end target

/-- Settles O41, command by command. -/
theorem twoWireTarget : Obligations.TwoWireTarget := by
  intro read b s hh
  exact ⟨fun hs => ⟨exec_twiAddress hh hs, fun hb hr hd => ⟨exec_twiWriteByte_pointer hh hs hb hr hd,
      exec_twiWriteByte_selector hh hs hb hr hd, exec_twiWriteByte_rejected hh hs hb hr hd⟩, fun hb hr hd =>
        ⟨exec_twiReadByte_first hh hs hb hr hd, fun w => exec_twiReadByte_next hh hs hb hr hd⟩,
    exec_twiStop hh hs, exec_twiBusError_idle hh hs, exec_twiBusError_busy hh hs, fun t => exec_holdTmo hh hs⟩,
    fun t => exec_stretchTmo hh, fun ha => if_neg (by simp [hh, ha])⟩

end Sys2Proof.Machine
end

section
/-! SUPPORT. Register commands (O42). -/

namespace Sys2Proof.Machine
open Sys2Proof

section access
variable {c : CoreNo} {a : BitVec 34} {s : State} (hu : s.up = true) (hrun : (s.core c).run = .running) (ha : a.toNat % 4 = 0)
include hu hrun ha

/-- A register write by a running core is the register's own where its grant reaches it, and the exception elsewhere (R7). -/
theorem cmdWrite_core (v : Word) : cmdWrite s (.core c) a.toNat v =
    if coreReaches s c a.toNat true then coreRegWrite s c a.toNat v else takeExc s c 3 1 a.toNat :=
  (if_neg (by simp [hu, ha])).trans (if_neg (by simp [hrun]))

theorem cmdWrite_reached (hr : coreReaches s c a.toNat true = true) (hh : hostSideAway s a.toNat = false) (v : Word) :
    cmdWrite s (.core c) a.toNat v = regWrite s (.core c) false a.toNat v :=
  (cmdWrite_core hu hrun ha v).trans ((if_pos hr).trans (if_neg (Bool.eq_false_iff.1 hh)))

theorem cmdWrite_unreached (hr : coreReaches s c a.toNat true = false) (v : Word) :
    cmdWrite s (.core c) a.toNat v = takeExc s c 3 1 a.toNat :=
  (cmdWrite_core hu hrun ha v).trans (if_neg (Bool.eq_false_iff.1 hr))

theorem cmdRead_reached (hr : coreReaches s c a.toNat false = true) (hh : hostSideAway s a.toNat = false)
    (hm : mailboxAt a.toNat = none) : cmdRead s (.core c) a.toNat = (regRead s (.core c) a.toNat).2 := by
  have hread : coreRegRead s c a.toNat = regRead s (.core c) a.toNat := by
    rw [coreRegRead, if_neg (Bool.eq_false_iff.1 hh), hm]
  exact (if_neg (by simp [hu, hrun, ha])).trans ((if_pos hr).trans (congrArg Prod.snd hread))

theorem exec_rcRead (hr : coreReaches s c a.toNat false = true) (hh : hostSideAway s a.toNat = false) (hm : mailboxAt a.toNat = none)
    {x : Group} {y : Nat} {i : RInfo} (hi : lookup a.toNat = some (x, y, i)) (hf : ∃ f ∈ i.fields, f.ty = .rc) :
    exec (.rcRead (.core c) a) s = .next (regRead s (.core c) a.toNat).2.settled := by
  have h : exec (.rcRead (.core c) a) s = execRcRead (.core c) a s := rfl
  have hany : (i.fields.any fun f => f.ty == .rc) = true := by simpa using hf
  rw [h, execRcRead, hi]
  exact congrArg done ((if_pos hany).trans (cmdRead_reached hu hrun ha hr hh hm))

end access

/-- Settles O42. -/
theorem registerCommands : Obligations.RegisterCommands := by
  intro c a v s hu hrun ha
  refine ⟨fun hr hh => ⟨congrArg done (cmdWrite_reached hu hrun ha hr hh v), fun hhi hw => ?_⟩,
    fun hr => congrArg done (cmdWrite_unreached hu hrun ha hr v), fun hr hh hm => ⟨fun hl => ?_, fun x y i hi hf =>
      exec_rcRead hu hrun ha hr hh hm hi hf⟩⟩
  · exact congrArg done ((if_pos (by simp [hhi, hw])).trans (cmdWrite_reached hu hrun ha hr hh v))
  · exact congrArg done ((if_neg (by simpa using hl)).trans (cmdRead_reached hu hrun ha hr hh hm))

end Sys2Proof.Machine
end

section
/-! SUPPORT. The clock over a TIME cycle (O58). -/

namespace Sys2Proof.Machine
open Sys2Proof

/-! ### What a TIME cycle leaves of the clock's own state -/

/-- The registers below this address, those of the clock among them, stay as they are in a TIME cycle. -/
def aboveClock : Nat := 0x20120000

theorem aboveClock_add {a b : Nat} (h : aboveClock ≤ a) : aboveClock ≤ a + b := Nat.le_add_right_of_le h

/-- Nothing on which the clock depends has changed: what it keeps, whether it runs, and the registers up to its own. -/
structure ClockKept (s t : State) : Prop where
  tim : t.tim = s.tim
  boot : t.boot = s.boot
  regs : ∀ a, a < aboveClock → t.rd a = s.rd a

namespace ClockKept
variable {s t u : State}

theorem refl (s : State) : ClockKept s s := ⟨rfl, rfl, fun _ _ => rfl⟩

theorem trans (h : ClockKept s t) (k : ClockKept t u) : ClockKept s u :=
  ⟨k.tim.trans h.tim, k.boot.trans h.boot, fun a ha => (k.regs a ha).trans (h.regs a ha)⟩

/-- A change beside the clock, the boot state and the registers. -/
theorem of_eq (hm : t.tim = s.tim) (hb : t.boot = s.boot) (hr : t.regs = s.regs) : ClockKept s t :=
  ⟨hm, hb, fun a _ => by rw [State.rd, State.rd, hr]⟩

/-- The same before a part of the cycle. -/
theorem after_eq (h : ClockKept t u) (hm : t.tim = s.tim) (hb : t.boot = s.boot) (hr : t.regs = s.regs) : ClockKept s u :=
  (of_eq hm hb hr).trans h

theorem wr {a : Nat} (ha : aboveClock ≤ a) (w : Word) : ClockKept s (s.wr a w) :=
  ⟨rfl, rfl, fun _ hb => State.rd_wr_ne s w (Nat.ne_of_gt (Nat.lt_of_lt_of_le hb ha))⟩

theorem sf {r : RF} (ha : aboveClock ≤ r.addr) (v : Nat) : ClockKept s (s.sf r v) := wr ha _

theorem setPair {lo hi : Nat} (hl : aboveClock ≤ lo) (hh : aboveClock ≤ hi) (v : Nat) : ClockKept s (s.setPair lo hi v) :=
  (wr hl _).trans (wr hh _)

theorem ite {c : Prop} [Decidable c] (ht : ClockKept s t) (hu : ClockKept s u) : ClockKept s (if c then t else u) := by
  split
  · exact ht
  · exact hu

/-- A step that leaves the clock's state leaves it over a whole list of steps. -/
theorem foldl {α : Type} {f : State → α → State} (hf : ∀ t x, ClockKept t (f t x)) (l : List α) (s : State) :
    ClockKept s (l.foldl f s) := by
  induction l generalizing s with
  | nil => exact refl s
  | cons x l ih => exact (hf s x).trans (ih (f s x))

theorem clockRuns (h : ClockKept s t) : clockRuns t = clockRuns s := by
  rw [Machine.clockRuns, Machine.clockRuns, State.held, State.held, h.boot]

theorem f (h : ClockKept s t) {r : RF} (hr : r.addr < aboveClock) : t.f r = s.f r := by
  rw [State.f, State.f, h.regs _ hr]

theorem rateNow (h : ClockKept s t) : rateNow t = rateNow s := by
  rw [Machine.rateNow, Machine.rateNow, State.on, State.on, h.f (r := F.TIM_STAT_HOLDOVER) (by decide),
    h.regs R.TIM_HOLD_RATE (by decide), h.regs R.TIM_RATE (by decide)]

end ClockKept

/-! ### The parts of a TIME cycle -/

theorem clockKept_raise (s : State) (p : Nat) : ClockKept s (s.raise p) := .of_eq rfl rfl rfl

theorem clockKept_set1 {s : State} {r : RF} (ha : aboveClock ≤ r.addr) : ClockKept s (s.set1 r) := .sf ha 1

theorem clockKept_bump {s : State} {r : RF} (ha : aboveClock ≤ r.addr) : ClockKept s (s.bump r) := .sf ha _

theorem clockKept_countPending (s : State) (i : Nat) (e : Nat × Nat) : ClockKept s (countPending s i e) := by
  have hin : aboveClock ≤ R.EVR_IN_STAT i := aboveClock_add (by decide)
  have hflags : ClockKept s (((s.bump (F.EVR_IN_STAT_LOST i)).set1 (F.EVR_IN_STAT_OVERRUN i)).set1 F.EVR_STAT_OVERRUN) :=
    ((clockKept_bump hin).trans (clockKept_set1 hin)).trans (clockKept_set1 (by decide))
  rw [countPending]
  exact .ite (.ite hflags (hflags.trans (clockKept_raise _ _))) (.of_eq rfl rfl rfl)

theorem clockKept_routerTick (s : State) : ClockKept s (routerTick s) := by
  have happly : ∀ t : State, ClockKept t (applyGroups t) := fun t => by
    rw [applyGroups]
    exact .ite (.refl t) (.after_eq (.wr (a := R.EVR_GRP_EN) (by decide) _) rfl rfl rfl)
  have hcount : ∀ (t : State) (i : Nat), ClockKept t (countArrivals t i) := fun t i => by
    rw [countArrivals]
    exact .after_eq (.foldl (fun u e => clockKept_countPending u i e) _ _) rfl rfl rfl
  exact (ClockKept.foldl hcount _ s).trans (happly _)

/-! ### Trigger outputs -/

theorem above_trg (n : Nat) : aboveClock ≤ R.TRG_STAT n := aboveClock_add (by decide)

theorem clockKept_setTrig (s : State) (n : Nat) (x : TrigSt) : ClockKept s (s.setTrig n x) := .of_eq rfl rfl rfl

theorem clockKept_driveTrig (s : State) (n : Nat) (b : Bool) : ClockKept s (driveTrig s n b) := by
  have hpin : ∀ (t : State) (p : Pin) (o : Option Bool), ClockKept t (driveOrRelease t p o) := fun t p o => by
    cases o <;> exact .of_eq rfl rfl rfl
  exact (ClockKept.sf (above_trg n) _).trans (hpin _ _ _)

theorem clockKept_fallIfDone (s : State) (n : Nat) : ClockKept s (fallIfDone s n) := by
  rw [fallIfDone]
  exact .ite (clockKept_driveTrig s n false) (.refl s)

theorem clockKept_closeStrobes (s : State) (n edge stop : Nat) : ClockKept s (closeStrobes s n edge stop) := by
  refine .foldl (fun t g => ?_) _ s
  exact .ite (.of_eq rfl rfl rfl) (.refl t)

theorem clockKept_startStrobes (s : State) (n edge : Nat) (stop : Option Nat) : ClockKept s (startStrobes s n edge stop) := by
  refine .foldl (fun t g => ?_) _ s
  exact .ite (.of_eq rfl rfl rfl) (.refl t)

theorem clockKept_removePulses (s : State) (n : Nat) (p : Pulse → Bool) : ClockKept s (removePulses s n p) := by
  unfold removePulses
  extract_lets x ended stop t u
  have ht : ClockKept s t := clockKept_setTrig s n _
  have hclose : ∀ (v : State) (q : Pulse), ClockKept v (closeStrobes v n q.start q.endedAt) := fun v q => clockKept_closeStrobes ..
  have hu : ClockKept s u := ht.trans (.foldl hclose ended t)
  exact .ite (.refl s) (.ite (hu.trans (clockKept_set1 (above_trg n))) hu)

theorem clockKept_setFeedM (s : State) (f : Feed) (m : Matcher) : ClockKept s (setFeedM s f m) := by
  cases f <;> exact .of_eq rfl rfl rfl

theorem clockKept_missed (s : State) (f : Feed) : ClockKept s (missed s f) := by
  cases f with
  | net n =>
    exact ((clockKept_bump (aboveClock_add (by decide))).trans (clockKept_set1 (aboveClock_add (by decide)))).trans (clockKept_raise _ _)
  | par p =>
    exact ((clockKept_bump (aboveClock_add (by decide))).trans (clockKept_set1 (aboveClock_add (by decide)))).trans (clockKept_raise _ _)

theorem clockKept_pushEntry (s : State) (f : Feed) (e : TrigEntry) : ClockKept s (pushEntry s f e) := by
  have hfull : ∀ t : State, ClockKept t (match f with
      | .net n => t.set1 (F.GVS_S_FLAGS_TRIGQ_OVF n)
      | .par p => t.set1 (F.PAR_FLAGS_TRIGQ_OVF p)) := fun t => by
    cases f <;> exact clockKept_set1 (aboveClock_add (by decide))
  rw [pushEntry]
  exact .ite (((clockKept_missed s f).trans (hfull _)).trans (clockKept_setFeedM _ _ _)) (clockKept_setFeedM _ _ _)

theorem clockKept_handEntry (s : State) (n edge : Nat) (seq : Word) (gen : Nat) (slot : Option Nat) :
    ClockKept s (handEntry s n edge seq gen slot) :=
  .foldl (fun t f => clockKept_pushEntry t f _) _ s

theorem clockKept_mergePulse (s : State) (n : Nat) (l : List Out) :
    ClockKept s { s.set1 (F.TRG_STAT_ACTIVE n) with out := l } :=
  (clockKept_set1 (above_trg n)).trans (.of_eq rfl rfl rfl)

theorem clockKept_slotMerged (s : State) (merged : Bool) (n : Nat) (slot : Option (Nat × Word)) : ClockKept s (match slot with
    | some (k, _) => if merged then (s.set1 (F.SCH_REC_FLAGS_MERGED k)).set1 F.SCH_STAT_MERGED else s
    | none => s.incr (F.TRG_SEQ_SEQ n) 1) := by
  have hseq : aboveClock ≤ R.TRG_SEQ n := aboveClock_add (by decide)
  split
  · exact .ite ((clockKept_set1 (aboveClock_add (by decide))).trans (clockKept_set1 (by decide))) (.refl s)
  · exact .sf hseq _

theorem clockKept_drivePulse (s : State) (n : Nat) (r : Rise) : ClockKept s (drivePulse s n r) := by
  unfold drivePulse
  extract_lets p a x alone touch gap merged shown _ b _ c d e short f g h seq
  have hedge : aboveClock ≤ R.TRG_LAST_EDGE n := aboveClock_add (by decide)
  have ha : ClockKept s a := clockKept_removePulses ..
  have hb : ClockKept a b := .ite (.ite (.refl a) (clockKept_mergePulse a n _))
    ((ClockKept.ite (clockKept_driveTrig a n false) (.refl a)).trans (clockKept_driveTrig _ n true))
  have hc : ClockKept b c := clockKept_setTrig b n _
  have hd : ClockKept c d := .setPair (aboveClock_add (by decide)) (aboveClock_add (by decide)) _
  have he : ClockKept d e := .wr hedge _
  have hf : ClockKept e f := .ite (clockKept_set1 (above_trg n)) (.refl e)
  have hg : ClockKept f g := .ite (clockKept_set1 (above_trg n)) (.refl f)
  have hh : ClockKept g h := clockKept_slotMerged g merged n r.slot
  have hall := ((((((ha.trans hb).trans hc).trans hd).trans he).trans hf).trans hg).trans hh
  exact (hall.trans (clockKept_startStrobes h n _ _)).trans (clockKept_handEntry ..)

theorem clockKept_placeRise (s : State) (n : Nat) (r : Rise) : ClockKept s (placeRise s n r) := by
  have hsup : aboveClock ≤ R.TRG_SUPPRESSED n := aboveClock_add (by decide)
  rw [placeRise]
  exact .ite (clockKept_fallIfDone s n) (.ite (((clockKept_bump hsup).trans (clockKept_set1 (above_trg n))).trans (clockKept_fallIfDone _ n))
    (clockKept_drivePulse s n r))

theorem clockKept_placeEdges (s : State) : ClockKept s (placeEdges s) := by
  have hrises : ∀ (t : State) (n : Nat), ClockKept t (placeRises t n) := fun t n => by
    rw [placeRises]
    exact .ite (.refl t) (.after_eq (.foldl (fun u r => clockKept_placeRise u n r) _ _) rfl rfl rfl)
  exact .ite (.foldl hrises _ s) (.refl s)

/-! ### Links, counts and marks -/

theorem clockKept_showBlock (s : State) (k : Nat) (b : Option Nat × List (BitVec 8)) : ClockKept s (showBlock s k b) := by
  rw [showBlock]
  exact .ite (.refl s) (.of_eq rfl rfl rfl)

theorem clockKept_setLink (s : State) (k : Nat) (x : LinkSt) (b : Option Nat × List (BitVec 8)) :
    ClockKept s (showBlock (s.setLink k x) k b) := .after_eq (clockKept_showBlock _ k b) rfl rfl rfl

theorem clockKept_linkSlot (s : State) (k : Nat) : ClockKept s (linkSlot s k) := by
  rw [linkSlot]
  split
  · exact clockKept_setLink ..
  · rw [sendReady]
    exact .ite (clockKept_setLink ..) (.ite (clockKept_setLink ..) (clockKept_setLink ..))
  · exact clockKept_setLink ..
  · split
    · exact clockKept_setLink ..
    · exact .refl s
  · exact .refl s

theorem clockKept_linkTick (s : State) : ClockKept s (linkTick s) :=
  .foldl (fun t k => .ite (clockKept_linkSlot t k) (.refl t)) _ s

theorem clockKept_availTick (s : State) : ClockKept s (availTick s) := by
  unfold availTick
  extract_lets out seen t _ u
  have ht : ClockKept s t := by
    show ClockKept s (match s.ras.outFrom with | some _ => _ | none => s)
    split
    · exact .ite (clockKept_bump (by decide)) (.refl s)
    · exact .refl s
  have hu : ClockKept s u := ht.trans (.of_eq rfl rfl rfl)
  exact .ite (.ite (hu.trans (.setPair (lo := R.RAS_AVAIL_EXP_LO) (hi := R.RAS_AVAIL_EXP_HI) (by decide) (by decide) _)) hu) (ht.trans (.of_eq rfl rfl rfl))

theorem clockKept_millWindow (s : State) : ClockKept s (millWindow s) := by
  have hload : ∀ (t : State) (a b : Nat), ClockKept t ((t.sf F.MIL_LOAD_AVG a).sf F.MIL_LOAD_PEAK b) := fun t a b =>
    (ClockKept.sf (by decide) a).trans (.sf (by decide) b)
  exact .after_eq (hload { s with millPos := 0 } _ _) rfl rfl rfl

theorem clockKept_cores (s : State) (l : SMap CoreSt) : ClockKept s { s with cores := l } := .of_eq rfl rfl rfl
theorem clockKept_ras (s : State) (x : RasSt) : ClockKept s { s with ras := x } := .of_eq rfl rfl rfl
theorem clockKept_now (s : State) (n : Nat) : ClockKept s { s with now := n } := .of_eq rfl rfl rfl
theorem clockKept_lookAll (s : State) (look : Nat → Dword → Bool → Option Nat) : ClockKept s (lookAll s look) := .of_eq rfl rfl rfl

theorem above_overMarks {s : State} {e : Nat × Nat} (he : e ∈ overMarks s) : aboveClock ≤ e.1 := by
  have hat : ∀ {lo hi n o b : Nat}, aboveClock ≤ lo →
      e ∈ ((regsIn s.regs lo hi).filter (fun e => e.1 % n == o && e.2.getLsbD b)).map (fun e => (e.1, b)) → aboveClock ≤ e.1 := by
    intro lo hi n o b hlo h
    obtain ⟨x, hx, rfl⟩ := List.mem_map.1 h
    have hx' := (List.mem_filter.1 (List.mem_of_mem_filter hx)).2
    simp only [Bool.and_eq_true, decide_eq_true_eq] at hx'
    exact hlo.trans hx'.1
  rw [overMarks] at he
  simp only [List.mem_append] at he
  rcases he with ((he | he) | he) | he
  · exact hat (by decide) he
  · exact hat (by decide) he
  · exact hat (by decide) he
  · exact hat (by decide) he

theorem clockKept_dropMarks (s : State) : ClockKept s (dropMarks s) := by
  rw [dropMarks]
  have h : ∀ (l : List (Nat × Nat)) (t : State), (∀ e ∈ l, aboveClock ≤ e.1) → ClockKept t (l.foldl (fun t e =>
      let w := t.rd e.1
      if (viewWord t e.1 w).getLsbD e.2 then t else t.wr e.1 (flagAt w e.2 false)) t) := by
    intro l
    induction l with
    | nil => exact fun t _ => .refl t
    | cons e l ih =>
      intro t hl
      have hstep : ClockKept t (if (viewWord t e.1 (t.rd e.1)).getLsbD e.2 then t else t.wr e.1 (flagAt (t.rd e.1) e.2 false)) :=
        .ite (.refl t) (.wr (hl e List.mem_cons_self) _)
      exact hstep.trans (ih _ (fun x hx => hl x (List.mem_cons_of_mem _ hx)))
  exact h _ s (fun e => above_overMarks)

/-! ### The clock over a TIME cycle (R42, R46, R47) -/

/-- What a slew removes in one TIME cycle does not take the clock back by more than 500 ppm and rounding (R46). -/
theorem slewDone_step (w : Slew) (k : Nat) (h : if w.neg then w.total ≤ 0 else 0 ≤ w.total) :
    -2147484 ≤ slewDone w (k + 1) - slewDone w k := by
  have hdiv : ∀ x : Int, floorDiv x 1000000000 = x / 1000000000 := fun x => Int.fdiv_eq_ediv_of_nonneg x (by decide)
  rw [slewDone, slewDone]
  cases hn : w.neg with
  | true =>
    rw [hn] at h
    simp only [if_true] at h ⊢
    omega
  | false =>
    rw [hn] at h
    simp only [Bool.false_eq_true, if_false, hdiv] at h ⊢
    have hnext : w.total * ((k + 1 : Nat) : Int) = w.total * k + w.total := by push_cast; ring
    have hlast : k < 1000000000 → w.total * k ≤ w.total * 1000000000 := fun hk => Int.mul_le_mul_of_nonneg_left (by omega) h
    rw [hnext]
    split <;> split <;> omega

theorem tick_clk_ge (t : TimSt) (rate : Int) (hr : -2147484 ≤ rate)
    (hw : ∀ w, t.slew = some w → w.done = slewDone w w.cycles ∧ (if w.neg then w.total ≤ 0 else 0 ≤ w.total)) :
    t.clk + 2 ^ 32 - 4294968 ≤ (t.tick rate).clk := by
  rw [TimSt.tick]
  cases hs : t.slew with
  | none =>
    show t.clk + 2 ^ 32 - 4294968 ≤ t.clk + 2 ^ 32 + rate
    omega
  | some w =>
    obtain ⟨hd, hsign⟩ := hw w hs
    have hstep := slewDone_step w w.cycles hsign
    show t.clk + 2 ^ 32 - 4294968 ≤ t.clk + 2 ^ 32 + rate + (slewDone w (w.cycles + 1) - w.done)
    rw [hd]
    omega

/-- A TIME cycle is one cycle of the clock, and changes nothing else of what the clock depends on. -/
theorem exists_cycle_eq (s : State) : ∃ t, ClockKept s t ∧
    ClockKept (if clockRuns t then { t with tim := t.tim.tick (rateNow t) } else t) (cycle s) := by
  unfold cycle
  extract_lets a b c d e _ f g
  have ha : ClockKept s a := ((clockKept_dropMarks s).trans (clockKept_placeEdges _)).trans (clockKept_routerTick _)
  have hb : ClockKept s b := ha.trans ((ClockKept.ite (clockKept_linkTick a) (.refl a)).trans (clockKept_availTick _))
  have hc : ClockKept s c := hb.trans (.ite (clockKept_millWindow b) (.refl b))
  have hd : ClockKept s d := hc.trans (.ite (clockKept_cores c _) (.refl c))
  have hf : ClockKept e f := .ite (clockKept_ras e _) (.refl e)
  have hg : ClockKept e g := hf.trans (clockKept_now f _)
  exact ⟨d, hd, hg.trans (.ite (clockKept_lookAll g _) (.refl g))⟩

theorem cycle_tim (s : State) : (cycle s).tim = if clockRuns s then s.tim.tick (rateNow s) else s.tim := by
  obtain ⟨t, ht, hc⟩ := exists_cycle_eq s
  rw [hc.tim, ht.clockRuns]
  split
  · show t.tim.tick (rateNow t) = _
    rw [ht.tim, ht.rateNow]
  · exact ht.tim

theorem cycle_epoch (s : State) : (cycle s).epoch = s.epoch := by
  obtain ⟨t, ht, hc⟩ := exists_cycle_eq s
  have hstat : F.TIM_STAT_EPOCH.addr < aboveClock := by decide
  have hrd : (if clockRuns t then { t with tim := t.tim.tick (rateNow t) } else t).f F.TIM_STAT_EPOCH = t.f F.TIM_STAT_EPOCH := by
    split <;> rfl
  rw [State.epoch, State.epoch, hc.f hstat, hrd, ht.f hstat]

/-- Settles O58: the trim and the slew each take back at most 500 ppm of a cycle and its rounding. -/
theorem clockNeverGoesBack : Obligations.ClockNeverGoesBack := by
  intro s hp hadj hrate hslew
  let u : State := { s with tim := { s.tim with adj := [] } }
  have htake : takeOffsets s = u := by rw [takeOffsets, hadj]; rfl
  have hstep : step s = .next (cycle u).settled := by
    rw [step, hp]
    show done (cycle (takeOffsets s)) = _
    rw [htake]
    rfl
  have htim : (cycle u).settled.tim = if clockRuns s then u.tim.tick (rateNow s) else u.tim := by
    rw [State.settled, State.driveAlert_tim, State.settle_tim, cycle_tim]
    rfl
  refine ⟨_, hstep, ?_, fun hc => ?_, fun hc => ?_⟩
  · rw [State.settled, State.epoch, State.driveAlert_f, State.settle_f _ _ (by decide)]
    exact cycle_epoch u
  · rw [htim, hc]
    rfl
  · rw [htim, hc, if_pos rfl]
    exact tick_clk_ge u.tim (rateNow s) hrate hslew

end Sys2Proof.Machine
end
